-- ==== Sys2Proof/Word.lean ====
section
/-! DEFINITION. The word types of the package: bytes, 32- and 64-bit words, byte memories. -/

namespace Sys2Proof

/-- One byte. -/
abbrev Byte := BitVec 8

/-- A 64-bit register value (R69). -/
abbrev Word := BitVec 64

/-- A code word of a Noeno module (R78). -/
abbrev CodeWord := BitVec 64

/-- A sparse table: keys strictly rising, no entry equal to the table's default. -/
abbrev Tbl (α : Type) := List (Nat × α)

/-- A byte memory: the table of its non-zero bytes by address (a list of `Host.Cell`). -/
abbrev Mem := List (Nat × BitVec 8)

end Sys2Proof
end

