-- ==== Sys2Proof/Syntax.lean ====
section
/-! DEFINITION. The commands of the package: one constructor of `Instr` per row of the opcode table, with the row's
operands. Register numbers, format codes and subcodes are decoded here into bounded types, so that the machine never
reads an encoding. -/

namespace Sys2Proof

/-- Format codes 0x0-0x8 (R32). -/
inductive Fmt where
  | fp64 | fp32 | fp16 | jf16 | jf8e | jf8m | int8 | int4 | int32
  deriving DecidableEq, Repr, Inhabited

/-- SALU subcodes 0-13 (R82). -/
inductive SaluOp where
  | add | sub | mul | and | or | xor | shl | shr | sra | min | max | eq | lt | ltu
  deriving DecidableEq, Repr

/-- WBIN subcodes 0-6 (R82). -/
inductive BinOp where
  | add | sub | mul | div | max | min | copysign
  deriving DecidableEq, Repr, Inhabited

/-- WUN subcodes 0-2 (R82). -/
inductive UnOp where
  | neg | abs | sqrt
  deriving DecidableEq, Repr, Inhabited

/-- Activation functions, Table 5.2. -/
inductive Act where
  | relu | tanh | sigmoid | gelu | exp | log
  deriving DecidableEq, Repr, Inhabited

/-- WCMP subcodes 0-3 (R82). -/
inductive CmpOp where
  | eq | ne | lt | le
  deriving DecidableEq, Repr, Inhabited

/-- Reduction mode: C[1:0] of WRED, CALLRED, CRSCAT (Table 5.3). -/
inductive RedMode where
  | plain | exact | repro
  deriving DecidableEq, Repr, Inhabited

/-- Reduction op: C[3:2] (Table 5.3). -/
inductive RedOp where
  | sum | max | min
  deriving DecidableEq, Repr, Inhabited

/-- What WID reads, by C (R82). -/
inductive WidSel where
  | worker | cluster | rank | devices | step
  deriving DecidableEq, Repr

/-- Barrier scope, C[1:0] of BAR (R82). -/
inductive Scope where
  | die | device | job
  deriving DecidableEq, Repr, Inhabited

/-- A scalar register number. -/
abbrev SReg := Fin 64
/-- A view slot number. -/
abbrev VReg := Fin 4096
/-- A tile slot number. -/
abbrev TReg := Fin 8
/-- A mask register number. -/
abbrev MReg := Fin 8
/-- The logical cluster whose worker issues an op, 0-3,999 (R68). -/
abbrev Cluster := Fin 4000
/-- A Celale port, CL0-CL31. -/
abbrev Port := Fin 32
/-- A die index, 0-39 (R15). -/
abbrev Die := Fin 40
/-- A plant-timed stream number (R193). -/
abbrev PlantNo := Fin 256
/-- A solver half in the order of 0x6012 (R192). -/
abbrev Half := Fin 4

/-- An owner authorisation that travels with a write (R379): its sequence number, and whether its signature verifies
under the owner key over the message of R379. -/
structure OwnerAuth where
  seq   : Nat
  sigOk : Bool
  deriving DecidableEq, Repr

/-- The paths of R382 and R384. -/
inductive Path where
  | tenant (ctx : Nat)
  | mgmt
  | relay (device : Nat)
  | can
  deriving DecidableEq, Repr

/-- The requester of one dictionary access: its path, its owner authorisation, and the context selection of R375. -/
structure Req where
  path : Path
  auth : Option OwnerAuth
  sel  : Bool
  ctx  : Nat
  deriving DecidableEq, Repr

/-- A dictionary request record (Table 16.2). `size` is the length of the whole record in bytes, `res` the OR of its
reserved fields, `padOk` whether every padding byte is zero. -/
structure DRec where
  op     : Nat
  flags  : Nat
  index  : Nat
  sub    : Nat
  res    : Nat
  ctx    : Nat
  offset : Nat
  length : Nat
  value  : List Byte
  padOk  : Bool
  auth   : Option OwnerAuth
  size   : Nat
  deriving DecidableEq, Repr

/-- A datagram header (Table 12.2) as it arrives, with its source, the UDP length, whether TAG verifies under the key
of R289, and the ingress time stamp of R300. `flagsRes` is FLAGS[5:0]. `relay` is the relaying device and the
tag for a datagram that came by R383. -/
structure DgHdr where
  version  : Nat
  fromDev  : Bool
  mgmt     : Bool
  flagsRes : Nat
  ctx      : Nat
  stream   : Nat
  seq      : Nat
  length   : Nat
  udpLen   : Nat
  gen      : Nat
  src      : Nat
  port     : Nat
  tagOk    : Bool
  relay    : Option (Nat × Nat)
  ts       : Nat
  deriving DecidableEq, Repr

/-- LOAD payload (Table 12.5) with the bytes the pull from the named range returns; `none` where the R_Key is
unknown. -/
structure LoadArgs where
  rKey   : Nat
  res    : Nat
  offset : Nat
  length : Nat
  bytes  : Option (List Byte)
  deriving DecidableEq, Repr

/-- INPUT payload (R296). -/
structure InputArgs where
  decl   : Nat
  last   : Bool
  res    : Nat
  step   : Nat
  offset : Nat
  data   : List Byte
  deriving DecidableEq, Repr

/-- REG_MEM payload (Table 12.10). -/
structure RegMemArgs where
  tensor : Nat
  rights : Nat
  res    : Nat
  offset : Nat
  length : Nat
  deriving DecidableEq, Repr

/-- BULK payload (Table 12.10). -/
structure BulkArgs where
  qp      : Nat
  op      : Nat
  res     : Nat
  tensor  : Nat
  local'  : Nat
  remote  : Nat
  key     : Nat
  length  : Nat
  deriving DecidableEq, Repr

/-- STREAM_OPEN payload (Table 12.10). -/
structure OpenArgs where
  table    : Nat
  credit   : Nat
  ctx      : Nat
  firstId  : Nat
  count    : Nat
  peerPort : Nat
  peer     : Nat
  res      : Nat
  deriving DecidableEq, Repr

/-- STREAM_CLOSE payload (Table 12.10). -/
structure CloseArgs where
  table   : Nat
  firstId : Nat
  count   : Nat
  res     : Nat
  deriving DecidableEq, Repr

/-- Context commands (Table 15.4), as the payload of CONTEXT_CMD. -/
inductive CtxCmd where
  | create
  | sessionKey (unwrapped : Option Nat)
  | members (n rank : Nat) (ids : List Nat)
  | bind (num kind die half : Nat)
  | schedule
  | bundleOpen (src dst off : Nat)
  | teardown
  | scrub
  | partition (p : Nat) (units : List Nat)
  | unbind (num : Nat)
  | other (sub : Nat)
  deriving DecidableEq, Repr

/-- What a datagram asks for: the opcodes of Table 12.5 toward the device. -/
inductive TCmd where
  | nop
  | load (a : LoadArgs)
  | run
  | halt (mode : Nat) (res : Nat)
  | input (a : InputArgs)
  | outputResend (decl res step : Nat)
  | regMem (a : RegMemArgs)
  | deregMem (rKey res : Nat)
  | bulk (a : BulkArgs)
  | entryRead (r : DRec)
  | entryWrite (r : DRec)
  | mgmtRead (r : DRec)
  | mgmtWrite (r : DRec)
  | streamOpen (a : OpenArgs)
  | streamClose (a : CloseArgs)
  | context (ctx : Nat) (res : Nat) (c : CtxCmd)
  | unassigned (opcode : Nat)
  deriving DecidableEq, Repr

/-- A flit's header fields (Table 9.3) at the port it arrives on. `resv`: a reserved bit of the header, the trailer or
the payload is set. -/
structure Flit where
  port  : Port
  vc    : Nat
  kind  : Nat
  dest  : Nat
  src   : Nat
  epoch : Nat
  hops  : Nat
  flow  : Nat
  resv  : Bool
  deriving DecidableEq, Repr

/-- What follows a flit's header (Table 9.3): its payload, and the trailer's SEQ, ACK_SEQ, CVC and CCOUNT. -/
structure Trailer where
  seq     : Nat
  ack     : Nat
  cvc     : Nat
  ccount  : Nat
  payload : BitVec 2048
  deriving DecidableEq, Repr

/-- A NAK: the first missing sequence number. `resv`: a reserved bit of its header or trailer is set. -/
structure Nak where
  seq  : Nat
  resv : Bool
  deriving DecidableEq, Repr

/-- A remote packet's payload (Table 10.4). -/
structure RPkt where
  addr   : BitVec 64
  ctx    : Nat
  master : Nat
  tag    : Nat
  status : Nat
  inc    : Nat
  mask   : BitVec 128
  data   : BitVec 1024
  deriving DecidableEq, Repr

/-- A collective packet's payload (Table 11.6). -/
structure CPkt where
  sig    : BitVec 64
  step   : Nat
  chunk  : Nat
  seq    : Nat
  flit   : Nat
  origin : Nat
  form   : Nat
  tier   : Nat
  res    : Nat
  count  : Nat
  data   : BitVec 1792
  deriving DecidableEq, Repr

/-- A shard entry (Table 14.5) as a vote carries it. -/
structure Shard where
  rank      : Nat
  device    : Nat
  buddy     : Nat
  kind      : Nat
  dirty     : Bool
  reason    : Nat
  prevGen   : Nat
  pages     : Nat
  bytes     : Nat
  storeOff  : Nat
  digest    : Nat
  deriving DecidableEq, Repr

/-- A firmware image header as verification reads it (Table 15.1), with the outcome of the body digest and of the
signature. `resv`: a reserved byte of the header is not zero. -/
structure FwImage where
  type     : Nat
  svn      : Nat
  numUcode : Nat
  version  : Nat
  family   : Nat
  digest   : Nat
  digestOk : Bool
  sigOk    : Bool
  resv     : Bool
  deriving DecidableEq, Repr

/-- The events a unit raises into its steward's queue (Table 1.6, R394). A corrected error of a stack, a scratchpad or a
solver die's SRAM is counted by its steward and queues nothing (R139, R153, R167). -/
inductive UnitEvent where
  | clusterFault (cluster : Cluster) (word : Option Nat)
  | pantryLine (slice : Fin 32) (dirty : Bool)
  | stackGranule (stack : Fin 16) (ctx : Nat) (granule : Nat)
  | dieFailed (die : Die)
  | stackCorrected (stack : Fin 16)
  | spadCorrected
  | sramCorrected (die : Fin 2)
  | hopLimit
  | other (cls code : Nat) (jobEnding : Bool)
  deriving DecidableEq, Repr

/-- The commands. The comment of a constructor names its row and the rule of its effect. -/
inductive Instr where
  -- Noeno ops: control and scalar (R82)
  /-- NOP -/ | nop (w : Cluster)
  /-- END -/ | endOp (w : Cluster)
  /-- SLI -/ | sli (w : Cluster) (d : SReg) (imm : BitVec 32)
  /-- SLIH -/ | slih (w : Cluster) (d : SReg) (imm : BitVec 32)
  /-- SALU -/ | salu (w : Cluster) (op : SaluOp) (d a b : SReg)
  /-- LOOP: the next `b + 1` words -/ | loop (w : Cluster) (d a : SReg) (b : Fin 4096)
  /-- BRNZ -/ | brnz (w : Cluster) (d : SReg) (off : BitVec 32)
  /-- WID -/ | wid (w : Cluster) (d : SReg) (c : WidSel)
  /-- RDCW: `asw` selects the ASW -/ | rdcw (w : Cluster) (d : SReg) (asw : Bool)
  /-- WRCW -/ | wrcw (w : Cluster) (asw : Bool) (a : SReg)
  /-- VDEF -/ | vdef (w : Cluster) (d : VReg) (tensor : Fin 4096) (c : SReg) (rows cols : BitVec 32)
      (rstride cstride : BitVec 32) (origin : BitVec 64)
  /-- RDTIME -/ | rdtime (w : Cluster) (d : SReg)
  -- moves (R453)
  /-- MOVS -/ | movs (w : Cluster) (fmt : Fmt) (lu : Bool) (d a : VReg)
  /-- MOVG -/ | movg (w : Cluster) (fmt : Fmt) (lu : Bool) (d a b : VReg)
  /-- MOVSC -/ | movsc (w : Cluster) (fmt : Fmt) (lu : Bool) (d a b : VReg)
  /-- FILL -/ | fill (w : Cluster) (fmt : Fmt) (d : VReg) (a : SReg)
  /-- PREF -/ | pref (w : Cluster) (lu : Bool) (a : VReg) (level : Fin 4)
  -- Griddle (04)
  /-- GZERO -/ | gzero (w : Cluster) (fmt : Fmt) (d : TReg)
  /-- GMMA: `u` updates -/ | gmma (w : Cluster) (fmt bfmt : Fmt) (za : Bool) (d : TReg) (a b : VReg) (u : Fin 256)
  /-- GLD -/ | gld (w : Cluster) (d : TReg) (a : VReg)
  /-- GRIDDLE_ISSUE, with the cycles the op stood first and waited on R102 conditions 1 and 2, and whether an
  uncorrectable error was found in its latch set (R110) -/
  | griddleIssue (w : Cluster) (stageWait tileWait : Nat) (latchError : Bool)
  /-- GRIDDLE_COMPLETE, and whether an uncorrectable error was found after issue (R110) -/
  | griddleComplete (w : Cluster) (error : Bool)
  -- Whisk (05)
  /-- WVL -/ | wvl (w : Cluster) (d a : SReg)
  /-- WBIN -/ | wbin (w : Cluster) (fmt : Fmt) (op : BinOp) (mk : Option MReg) (d a b : VReg)
  /-- WFMA -/ | wfma (w : Cluster) (fmt : Fmt) (mk : Option MReg) (d a b : VReg)
  /-- WUN -/ | wun (w : Cluster) (fmt : Fmt) (op : UnOp) (mk : Option MReg) (d a : VReg)
  /-- WACT -/ | wact (w : Cluster) (fmt : Fmt) (f : Act) (mk : Option MReg) (d a : VReg)
  /-- WCVT -/ | wcvt (w : Cluster) (fmt : Fmt) (mk : Option MReg) (d a : VReg)
  /-- WCMP -/ | wcmp (w : Cluster) (fmt : Fmt) (op : CmpOp) (mk : Option MReg) (d : MReg) (a b : VReg)
  /-- WSEL: mask `m` selects -/ | wsel (w : Cluster) (fmt : Fmt) (mk : Option MReg) (m : MReg) (d a b : VReg)
  /-- WACC -/ | wacc (w : Cluster) (fmt : Fmt) (f : Option Act) (scale : BitVec 32) (mk : Option MReg) (d : VReg) (t : TReg)
  /-- WRED -/ | wred (w : Cluster) (fmt : Fmt) (mode : RedMode) (op : RedOp) (mk : Option MReg) (d a : VReg)
  /-- WGTH -/ | wgth (w : Cluster) (fmt : Fmt) (mk : Option MReg) (d a b : VReg)
  /-- WSCT -/ | wsct (w : Cluster) (fmt : Fmt) (mk : Option MReg) (d a b : VReg)
  /-- ELEM_RESUME, with the time the op stood stopped, ns -/ | elemResume (w : Cluster) (waitNs : Nat)
  /-- WHISK_COMPLETE -/ | whiskComplete (w : Cluster)
  -- remote ops (10)
  /-- RREAD -/ | rread (w : Cluster) (d a : VReg) (b : SReg)
  /-- RWRITE -/ | rwrite (w : Cluster) (d a : VReg) (b : SReg)
  /-- RWRITEF -/ | rwritef (w : Cluster) (d a : VReg) (b : SReg) (target : Fin 4096) (flag : Fin 64) (inc : Fin 256)
  /-- RWRITEC -/ | rwritec (w : Cluster) (d a : VReg) (b : SReg)
  /-- RINV -/ | rinv (w : Cluster) (a : VReg) (b : SReg)
  /-- RREPL -/ | rrepl (w : Cluster) (tensor : Fin 4096) (copies : Fin 16)
  -- collectives (11)
  /-- CALLRED -/ | callred (w : Cluster) (fmt : Fmt) (mode : RedMode) (op : RedOp) (chunk : Nat) (d a : VReg)
  /-- CRSCAT -/ | crscat (w : Cluster) (fmt : Fmt) (mode : RedMode) (op : RedOp) (chunk : Nat) (d a : VReg)
  /-- CAGTH -/ | cagth (w : Cluster) (fmt : Fmt) (chunk : Nat) (d a : VReg)
  /-- CBCST -/ | cbcst (w : Cluster) (fmt : Fmt) (chunk : Nat) (d a : VReg) (b : SReg)
  /-- CA2A -/ | ca2a (w : Cluster) (fmt : Fmt) (chunk : Nat) (d a : VReg)
  /-- COLL_DEVICE_ENTRY -/ | collDeviceEntry
  -- solver ops (07)
  /-- SOLVE -/ | solve (w : Cluster) (d : SReg) (a : VReg) (c : Fin 8)
  /-- SWAIT -/ | swait (w : Cluster) (d a : SReg)
  -- flags, barrier, streams, step points
  /-- FSET -/ | fset (w : Cluster) (a : SReg) (inc : Fin 256) (flag : Fin 64)
  /-- FWAIT -/ | fwait (w : Cluster) (a : SReg) (flag : Fin 64)
  /-- FRD -/ | frd (w : Cluster) (d : SReg) (flag : Fin 64)
  /-- BAR -/ | bar (w : Cluster) (scope : Scope)
  /-- SIN -/ | sin (w : Cluster) (d : VReg) (decl : Fin 4096)
  /-- SOUT -/ | sout (w : Cluster) (decl : Fin 4096) (a : VReg)
  /-- STEP -/ | stepOp (w : Cluster)
  /-- CKPT -/ | ckptOp (w : Cluster)
  /-- STEP_POINT_RELEASE, with the salt the device draws should it capture (R329) and the measured time of capture
  steps 1 to 6, ns -/
  | stepPointRelease (salt : Nat) (costNs : Nat)
  -- remote packets arriving (10)
  /-- READ_REQ -/ | readReq (f : Flit) (p : RPkt)
  /-- WRITE_REQ -/ | writeReq (f : Flit) (p : RPkt)
  /-- WRITEC_REQ -/ | writecReq (f : Flit) (p : RPkt)
  /-- FLAG_INC -/ | flagInc (f : Flit) (p : RPkt)
  /-- REPL_INV -/ | replInv (f : Flit) (p : RPkt)
  /-- REPL_FILL -/ | replFill (f : Flit) (p : RPkt)
  /-- READ_RESP -/ | readResp (f : Flit) (p : RPkt)
  /-- WRITE_ACK -/ | writeAck (f : Flit) (p : RPkt)
  /-- FLAG_ACK -/ | flagAck (f : Flit) (p : RPkt)
  /-- INV_ACK -/ | invAck (f : Flit) (p : RPkt)
  /-- REFUSAL -/ | refusal (f : Flit) (p : RPkt)
  /-- REMOTE_TIMEOUT of slot `slot` (or, at 64, of the oldest sent flag) of worker `w` -/
  | remoteTimeout (w : Cluster) (slot : Fin 65)
  /-- REMOTE_DEAD_NOTICE -/ | remoteDeadNotice (r : Req) (device : BitVec 16)
  /-- SIEVE_MERGE at Pantry slice `slice` of die `die` -/ | sieveMerge (die : Fin 8) (slice : Fin 32)
  /-- SIEVE_WRITEBACK of entry `e` -/ | sieveWriteback (die : Fin 8) (slice : Fin 32) (e : Fin 64)
  /-- SIEVE_RETIRE of entry `e` -/ | sieveRetire (die : Fin 8) (slice : Fin 32) (e : Fin 64)
  -- collective packets and events (11)
  /-- COLL_OPEN_UP -/ | collOpenUp (f : Flit) (p : CPkt)
  /-- COLL_OPEN_DOWN -/ | collOpenDown (f : Flit) (p : CPkt)
  /-- COLL_UP -/ | collUp (f : Flit) (p : CPkt)
  /-- COLL_DOWN -/ | collDown (f : Flit) (p : CPkt)
  /-- COLL_A2A -/ | collA2a (f : Flit) (p : CPkt)
  /-- RESIDUE_CHECK_DONE of the oldest check pending -/ | residueCheckDone
  /-- COLLECTIVE_TIMEOUT -/ | collectiveTimeout
  /-- LATE_WINDOW_END -/ | lateWindowEnd
  -- fabric (09)
  /-- FLIT_FORWARD: a flit arrives on a link, with its payload and trailer and the outcome of its CRC check -/
  | flitForward (f : Flit) (x : Trailer) (crcOk : Bool)
  /-- NAK -/ | nak (p : Port) (n : Nak)
  /-- PORT_LOSS_OF_LOCK -/ | portLossOfLock (p : Port)
  /-- PROBE -/ | probe (p : Port) (serial : BitVec 64) (device : BitVec 16) (port : BitVec 8)
  /-- PROBE_TIMER -/ | probeTimer
  /-- CONGESTION_SAMPLE: the fraction of credits in use, in units of 1/256 -/ | congestionSample (p : Port) (use : Fin 257)
  /-- DRAIN_NOTICE -/ | drainNotice (p : Port)
  /-- PORT_DRAINED -/ | portDrained (p : Port)
  /-- RECAL_DONE -/ | recalDone (p : Port)
  /-- PORT_TRAINED -/ | portTrained (p : Port)
  /-- LASER_CHECK: bit k set when input of OD k is below its minimum -/ | laserCheck (low : BitVec 8)
  /-- ROUTE_COMMIT -/ | routeCommit (r : Req) (e : BitVec 32)
  /-- DEVICE_ID -/ | deviceId (r : Req) (v : BitVec 16)
  /-- SYSTEM_SHAPE -/ | systemShape (r : Req) (v : BitVec 32)
  /-- VC_ARB_SET: eight bytes, VC0 first -/ | vcArbSet (r : Req) (v : BitVec 64)
  /-- PORT_DRAIN -/ | portDrain (r : Req) (p : Port)
  /-- PORT_FORCE_DRAIN -/ | portForceDrain (r : Req) (p : Port)
  /-- PORT_RECAL -/ | portRecal (r : Req) (p : Port)
  /-- PORT_RETURN -/ | portReturn (r : Req) (p : Port)
  /-- PORT_TEST -/ | portTest (r : Req) (p : Port)
  /-- BYPASS_CLOSE -/ | bypassClose (r : Req)
  /-- BYPASS_OPEN -/ | bypassOpen (r : Req)
  /-- BYPASS_SWITCH_SETTLED of lane A (0) or B (1) -/ | bypassSwitchSettled (lane : Fin 2)
  -- package (01)
  /-- MGMT_RING_BREAK at the stop of die `d` on lane `lane` -/ | mgmtRingBreak (d : Die) (lane : Fin 2)
  /-- STEWARD_EVENT: the steward of `d` forwards the oldest event of its queue, after the unit `unit` raised `ev`
  (`none`: nothing new is raised) -/
  | stewardEvent (d : Die) (unit : Nat) (ev : Option UnitEvent)
  /-- QUIESCE_FENCE_DONE of the oldest fence -/ | quiesceFenceDone
  /-- ACCESS_TABLE_UPDATE_DONE of the oldest update -/ | accessTableUpdateDone
  /-- STACK_TEMP_READING, 0.1 degree units -/ | stackTempReading (stack : Fin 16) (t : BitVec 16)
  /-- STACK_RETRAIN -/ | stackRetrain (stack : Fin 16)
  /-- DIE_TEMP_READING, 0.1 degree units -/ | dieTempReading (d : Die) (t : BitVec 16)
  /-- PRED_RATE_SAMPLE -/ | predRateSample
  -- solver events (07)
  /-- SOLVER_STAGE_IN_DONE: cycles taken beyond and in all, and whether a stage-in read failed (R187) -/
  | solverStageInDone (h : Half) (cycles : Nat) (fault : Bool)
  /-- SOLVER_EXEC_END -/ | solverExecEnd (h : Half)
  /-- SOLVER_WRITEBACK_DONE, with the write-back's cycles -/ | solverWritebackDone (h : Half) (cycles : Nat)
  /-- SOLVER_FAULT in half `h`, or in its die's assembler -/ | solverFault (h : Half) (assembler : Bool)
  -- plant streams (08)
  /-- PS_ARM -/ | psArm (r : Req) (n : PlantNo)
  /-- PS_RESUME -/ | psResume (r : Req) (n : PlantNo)
  /-- PS_STOP -/ | psStop (r : Req) (n : PlantNo)
  /-- PLANT_PERIOD_START of the stream's next period -/ | plantPeriodStart (n : PlantNo)
  /-- PLANT_WIN_CLOSE -/ | plantWinClose (n : PlantNo)
  /-- PLANT_SLOT -/ | plantSlot (n : PlantNo)
  /-- PLANT_DEADLINE -/ | plantDeadline (n : PlantNo)
  /-- PS_TX_LATE -/ | psTxLate (n : PlantNo)
  /-- PLANT_MEAS: the payload of Table 8.1; `resv`: a reserved field is set -/
  | plantMeas (h : DgHdr) (ts : BitVec 64) (count : Nat) (entries : List (Nat × BitVec 64)) (resv : Bool)
  /-- PTP_MESSAGE: the time the message sets and the estimated offset, ns -/ | ptpMessage (time : Nat) (offset : BitVec 32)
  /-- PTP_HOLDOVER_EXPIRY -/ | ptpHoldoverExpiry
  -- command datagrams (12)
  /-- CMD_NOP -/ | cmdNop (h : DgHdr)
  /-- LOAD -/ | load (h : DgHdr) (a : LoadArgs)
  /-- TRANSLATION_DONE for context `ctx` -/ | translationDone (ctx : Fin 4096)
  /-- RUN -/ | run (h : DgHdr)
  /-- HALT_AT_STEP_POINT -/ | haltAtStepPoint (h : DgHdr) (res : Nat)
  /-- HALT_AT_ONCE -/ | haltAtOnce (h : DgHdr) (res : Nat)
  /-- INPUT -/ | input (h : DgHdr) (a : InputArgs)
  /-- OUTPUT_RESEND -/ | outputResend (h : DgHdr) (decl res step : Nat)
  /-- REG_MEM -/ | regMem (h : DgHdr) (a : RegMemArgs)
  /-- DEREG_MEM -/ | deregMem (h : DgHdr) (rKey res : Nat)
  /-- BULK -/ | bulk (h : DgHdr) (a : BulkArgs)
  /-- BULK_DONE on stream `stream`: the syndrome (0 for success) and, for a read, the bytes -/
  | bulkDone (stream : Nat) (syndrome : Nat) (data : List Byte)
  /-- ENTRY_READ -/ | entryRead (h : DgHdr) (r : DRec)
  /-- ENTRY_WRITE -/ | entryWrite (h : DgHdr) (r : DRec)
  /-- MGMT_ENTRY_READ -/ | mgmtEntryRead (h : DgHdr) (r : DRec)
  /-- MGMT_ENTRY_WRITE -/ | mgmtEntryWrite (h : DgHdr) (r : DRec)
  /-- STREAM_OPEN -/ | streamOpen (h : DgHdr) (a : OpenArgs)
  /-- STREAM_CLOSE -/ | streamClose (h : DgHdr) (a : CloseArgs)
  -- context commands (15)
  /-- CREATE -/ | create (h : DgHdr) (ctx res : Nat)
  /-- SESSION_KEY: the key that unwraps, or none -/ | sessionKey (h : DgHdr) (ctx res : Nat) (key : Option Nat)
  /-- MEMBERS -/ | members (h : DgHdr) (ctx res n rank : Nat) (ids : List Nat)
  /-- BIND -/ | bind (h : DgHdr) (ctx res num kind die half : Nat)
  /-- UNBIND -/ | unbind (h : DgHdr) (ctx res num : Nat)
  /-- SCHEDULE -/ | schedule (h : DgHdr) (ctx res : Nat)
  /-- CONTEXT_SWITCH_DONE -/ | contextSwitchDone
  /-- BUNDLE_OPEN -/ | bundleOpen (h : DgHdr) (ctx res src dst off : Nat)
  /-- BUNDLE_DECRYPT_DONE: whether the tag verified, and the plaintext; `unwrapOk`: the content key unwrapped -/
  | bundleDecryptDone (member unwrapOk tagOk : Bool) (plain : List Byte)
  /-- TEARDOWN -/ | teardown (h : DgHdr) (ctx res : Nat)
  /-- SCRUB -/ | scrub (h : DgHdr) (res : Nat)
  /-- SCRUB_COMPLETE, with the scrub's duration, us -/ | scrubComplete (us : BitVec 32)
  /-- PARTITION -/ | partition (h : DgHdr) (res p : Nat) (units : List Nat)
  -- RoCEv2 and the port (12)
  /-- ROCE_REQUEST: R_Key, write or read, offset in the range, length, data to write -/
  | roceRequest (rKey : Nat) (write : Bool) (offset length : Nat) (data : List Byte)
  /-- ROCE_ATOMIC -/ | roceAtomic (qp : Nat)
  /-- ARP_REQUEST for an IPv4 address -/ | arpRequest (addr : BitVec 32)
  /-- NEIGHBOUR_SOLICIT for an IPv6 address -/ | neighbourSolicit (addr : BitVec 128)
  /-- ICMP_ECHO to an address (v6: IPv6) -/ | icmpEcho (v6 : Bool) (addr : BitVec 128) (ident : Nat)
  /-- ETH_FRAME_DISCARD -/ | ethFrameDiscard
  -- dictionary (16)
  /-- DICT_READ -/ | dictRead (p : Path) (rec : DRec)
  /-- DICT_WRITE -/ | dictWrite (p : Path) (rec : DRec)
  /-- DICT_WRITE_SEGMENT -/ | dictWriteSegment (p : Path) (rec : DRec)
  /-- SEGMENT_TIMEOUT -/ | segmentTimeout
  /-- DICT_DESCRIBE -/ | dictDescribe (p : Path) (rec : DRec)
  /-- DICT_NEXT -/ | dictNext (p : Path) (rec : DRec)
  /-- CAN_FRAME: FIRST, LAST, counter, and the 63 bytes it carries -/
  | canFrame (ident : Nat) (first last : Bool) (counter : Fin 64) (bytes : List Byte)
  /-- CAN_GAP_TIMEOUT -/ | canGapTimeout
  /-- RELAY_TX: target, tag, reserved fields, the LENGTH of the sealed datagram and its bytes -/
  | relayTx (r : Req) (target tag res : Nat) (length : Nat) (bytes : List Byte)
  /-- RELAY_DATAGRAM -/ | relayDatagram (h : DgHdr) (c : TCmd)
  /-- RELAY_REPLY: source device, tag, datagram -/ | relayReply (src : BitVec 16) (tag : Fin 8) (bytes : List Byte)
  /-- XLATE_CACHE_FLUSH -/ | xlateCacheFlush (r : Req) (v : BitVec 8)
  /-- ARB_WEIGHT_SET: four bytes, class 0 first -/ | arbWeightSet (r : Req) (v : BitVec 32)
  /-- SR_SEED -/ | srSeed (r : Req) (v : BitVec 64)
  /-- SD_MODE of SD0 or SD1 -/ | sdMode (r : Req) (die : Fin 2) (v : BitVec 8)
  /-- COMPAT_JSN16 -/ | compatJsn16 (r : Req) (v : BitVec 8)
  -- checkpoint (14)
  /-- JOB_ID -/ | jobId (r : Req) (v : BitVec 64)
  /-- BUDDY_DEVICE -/ | buddyDevice (r : Req) (v : BitVec 16)
  /-- BUDDY_PARTNER: the partner, with its grade, JOB_ID and rank as read from it -/
  | buddyPartner (r : Req) (v : BitVec 16) (gradeA : Bool) (job : Nat) (rank : Nat)
  /-- CKPT_REQUEST -/ | ckptRequest (r : Req) (v : BitVec 32)
  /-- VOTE_CAST -/ | voteCast
  /-- CKPT_VOTE -/ | ckptVote (gen : Nat) (e : Shard)
  /-- CKPT_VOTE_TIMEOUT -/ | ckptVoteTimeout (gen : Nat)
  /-- COMMIT -/ | commit (gen : Nat) (digest : Nat)
  /-- COMMIT_ACK -/ | commitAck (gen rank : Nat)
  /-- COMMIT_DONE -/ | commitDone (gen : Nat) (fromPartner : Bool)
  /-- ABORT -/ | abort (gen : Nat) (fromPartner : Bool)
  /-- LADLE_LOCAL_COPY by the Ladle of die `die`; `fault`: the read failed (R328) -/ | ladleLocalCopy (die : Fin 8) (fault : Bool)
  /-- LADLE_SLOT_TIMEOUT of the oldest slot of die `die` -/ | ladleSlotTimeout (die : Fin 8)
  /-- RESTORE_CMD: target generation, next generation; `cands`: the generations with a verified signed manifest at rank 0 or
  on storage; `held`: what the members report, as rank, generation, step and source (1 buddy, 2 storage) of each
  generation that a rank can restore -/
  | restoreCmd (r : Req) (target next : BitVec 32) (cands : List Nat) (held : List (Nat × Nat × Nat × Nat))
  /-- RESTORE_PULL_DONE: whether every tag and digest verified, and the pages pulled as page number and 64-bit words -/
  | restorePullDone (ok : Bool) (pages : List (Nat × List Byte))
  /-- RECLAIM_START -/ | reclaimStart (r : Req) (v : BitVec 8)
  /-- RECLAIM_STEP_WAIT_EXPIRY -/ | reclaimStepWaitExpiry
  /-- RECLAIM_CUTOFF -/ | reclaimCutoff
  /-- REPLAY_SEGMENT_ACK -/ | replaySegmentAck
  -- security (15)
  /-- QUOTE_NONCE -/ | quoteNonce (r : Req) (nonce : BitVec 512)
  /-- QUOTE_READY -/ | quoteReady
  /-- OWNER_KEY -/ | ownerKey (r : Req) (key : Nat)
  /-- FM_KEY -/ | fmKey (r : Req) (key : Nat)
  /-- MGMT_KEY_ENROL: the key that unwraps, or none -/ | mgmtKeyEnrol (r : Req) (key : Option Nat)
  /-- MGMT_KEY_NEXT: the key that unwraps under a verified FM_KEY signature, or none -/ | mgmtKeyNext (r : Req) (key : Option Nat)
  /-- TAMPER_CLEAR -/ | tamperClear (r : Req) (v : BitVec 8)
  /-- DEBUG_UNLOCK -/ | debugUnlock (r : Req) (v : BitVec 8)
  /-- ZEROISE -/ | zeroise (r : Req) (v : BitVec 8)
  /-- DECOMMISSION -/ | decommission (r : Req) (v : BitVec 8)
  /-- ROLLBACK_OVERRIDE -/ | rollbackOverride (r : Req) (v : BitVec 8)
  -- firmware and resets (16, 18)
  /-- FW_STAGE_SRC: the entry's 24 bytes and the image that the pull names -/ | fwStageSrc (r : Req) (v : BitVec 192) (type : BitVec 8)
  /-- FW_STAGE_VERIFIED -/ | fwStageVerified (img : FwImage)
  /-- FW_ACTIVATE -/ | fwActivate (r : Req) (type : BitVec 8)
  /-- FW_RECOVERY -/ | fwRecovery (r : Req) (img : FwImage) (length : Nat)
  /-- WARM_RESET: WENED_CMD = 1, or SERVICE_CMD = 1 -/ | warmReset (r : Req) (service : Bool)
  /-- COLD_RESET -/ | coldReset (r : Req) (service : Bool)
  /-- POWER_DOWN -/ | powerDown (r : Req) (service : Bool)
  /-- SERVICE_BYPASS_CLOSE -/ | serviceBypassClose (r : Req)
  -- Taster (17)
  /-- TASTER_REQ of kind 1 -/ | tasterReqCluster (r : Req) (die unit : Nat) (raise : Bool) (res : Nat)
  /-- TASTER_REQ of kind 2 -/ | tasterReqPantry (r : Req) (die unit : Nat) (raise : Bool) (res : Nat)
  /-- TASTER_REQ of kind 3 -/ | tasterReqStack (r : Req) (die unit : Nat) (raise : Bool) (res : Nat)
  /-- TASTER_REQ of kind 4 -/ | tasterReqSolver (r : Req) (die unit : Nat) (raise : Bool) (res : Nat)
  /-- TASTER_REQ of kind 5 -/ | tasterReqRecal (r : Req) (die unit : Nat) (raise : Bool) (res : Nat)
  /-- TASTER_REQ of kind 6 -/ | tasterReqFullTest (r : Req) (die unit : Nat) (raise : Bool) (res : Nat)
  /-- TASTER_SLICE_START -/ | tasterSliceStart (d : Die)
  /-- SLICE_BIST_DONE; `failing`: the ways or pages that failed, by number -/ | sliceBistDone (d : Die) (pass : Bool) (failing : List Nat)
  /-- FULL_TEST_DONE: the units that failed, by kind and number, and the duration -/
  | fullTestDone (d : Die) (failing : List (Nat × Nat)) (ms : BitVec 32)
  -- power and clocks (18)
  /-- OP_TARGET -/ | opTarget (r : Req) (v : BitVec 8)
  /-- SYNTH_LOCKED -/ | synthLocked
  /-- GOVERNOR_SAMPLE: input power in W -/ | governorSample (watts : Nat)
  /-- GOVERNOR_DUTY_UPDATE: the duty the governor sets -/ | governorDutyUpdate (d : Fin 16)
  /-- POWER_FAULT -/ | powerFault
  /-- V52_VALID at a voltage, with the temperature reading of R449 -/ | v52Valid (mv : BitVec 32)
  /-- SUPPLY_SAG -/ | supplySag (mv : BitVec 32)
  /-- BROWNOUT_SAVE_DONE -/ | brownoutSaveDone
  /-- HELD_EXIT: `valid`: the input has been valid for 100 ms; otherwise V52_HOLD reached 36 V -/ | heldExit (valid : Bool)
  /-- PLL_LOCK_LOST on die `d` -/ | pllLockLost (d : Die)
  /-- WENED_PLL_LOST -/ | wenedPllLost
  /-- WATCHDOG_EXPIRY -/ | watchdogExpiry
  /-- RST_N_ASSERT -/ | rstNAssert
  /-- RST_N_RELEASE -/ | rstNRelease
  /-- BRINGUP_STAGE_COMPLETE: the stage's duration, and what it measured (R417: uF and mOhm) or found -/
  | bringupStageComplete (ms : BitVec 32) (uf mohm : BitVec 16) (failing : List Nat) (images : List FwImage)
  /-- BRINGUP_TIMEOUT of die `d` -/ | bringupTimeout (d : Die)
  -- pins (15, 19)
  /-- PRES_N_RELEASE after `lowMs` ms low; `held`: OWNER_EN asserted and the seal closed throughout -/
  | presNRelease (lowMs : Nat) (held : Bool)
  /-- OWNER_EN_RELEASE -/ | ownerEnRelease
  /-- PRESENCE_WINDOW_EXPIRY -/ | presenceWindowExpiry
  /-- SEAL_READING, in ohm; none for a short or an open loop -/ | sealReading (ohms : Option Nat)
  -- the rest
  /-- ETH_LINK_CHANGE -/ | ethLinkChange (up : Bool)
  /-- PTP_SYNC_MISSED -/ | ptpSyncMissed
  /-- PFC_PAUSE on a priority for a number of quanta; 0 resumes -/ | pfcPause (prio : Fin 8) (quanta : BitVec 16)
  /-- ROCE_CNP for a queue pair -/ | roceCnp (qp : Nat)
  /-- PLL_LOCK_STABLE -/ | pllLockStable
  /-- COUNTER_SNAPSHOT -/ | counterSnapshot
  /-- LOAN_REVOKE: a write of one of the four loan entries (sub-index) -/ | loanRevoke (r : Req) (sub : Fin 4) (v : BitVec 16)
  /-- UNASSIGNED_OPCODE -/ | unassignedOpcode (h : DgHdr) (opcode : Nat)
  /-- CKPT_STORAGE_ACK of the oldest unstored slot of die `die` -/ | ckptStorageAck (die : Fin 8) (error : Bool)
  /-- REPLAY_LOG_READ_DONE: the log records read, in log order, each as TYPE, STEP, KEY, TS and DATA -/ | replayLogReadDone (records : List (Nat × Nat × Nat × Nat × List Byte)) (last : Bool)
  /-- STAGED_IMAGE_BOOT_DONE of die `d` -/ | stagedImageBootDone (d : Die) (img : FwImage)
  deriving DecidableEq, Repr

end Sys2Proof
end

