-- ==== Sys2Proof/Machine/Tables.lean ====
section
/-! DEFINITION. Sparse tables in canonical form, byte memories over them, and little-endian byte strings. -/

namespace Sys2Proof.Machine

open Sys2Proof

/-- The value at key `k`; `d` where the table lists nothing. -/
def tget {α : Type} (d : α) (m : Tbl α) (k : Nat) : α :=
  match m with
  | [] => d
  | p :: m => if p.1 = k then p.2 else tget d m k

/-- The table without key `k`. -/
def terase {α : Type} (m : Tbl α) (k : Nat) : Tbl α := m.filter (fun p => p.1 ≠ k)

/-- Inserts a key that the table does not list, in order. -/
def tinsert {α : Type} (m : Tbl α) (k : Nat) (v : α) : Tbl α :=
  match m with
  | [] => [(k, v)]
  | p :: m => if k < p.1 then (k, v) :: p :: m else p :: tinsert m k v

/-- The table with `v` at key `k`. The default is not listed. -/
def tset {α : Type} [DecidableEq α] (d : α) (m : Tbl α) (k : Nat) (v : α) : Tbl α :=
  if v = d then terase m k else tinsert (terase m k) k v

/-- The value at `k` changed. -/
def tmod {α : Type} [DecidableEq α] (d : α) (m : Tbl α) (k : Nat) (f : α → α) : Tbl α := tset d m k (f (tget d m k))

/-- Keys strictly rising. -/
def tsorted {α : Type} (m : Tbl α) : Bool :=
  match m with
  | [] => true
  | p :: m => (m.all (fun q => decide (p.1 < q.1))) && tsorted m

/-- The canonical form: keys strictly rising, no entry equal to its key's default. -/
def twf {α : Type} [DecidableEq α] (d : Nat → α) (m : Tbl α) : Bool :=
  tsorted m && m.all (fun p => decide (p.2 ≠ d p.1))

/-! ### Byte memories -/

/-- The canonical form of a memory whose unlisted bytes read as zero (log entry 3). -/
abbrev Memory.wf (m : Mem) : Bool := twf (fun _ => (0 : BitVec 8)) m

/-- One byte. -/
def rdByte (m : Mem) (a : Nat) : BitVec 8 := tget 0 m a

/-- Stores one byte. -/
def wrByte (m : Mem) (a : Nat) (b : BitVec 8) : Mem := tset 0 m a b

/-- `n` bytes from address `a`. -/
def rdBytes (m : Mem) (a n : Nat) : List (BitVec 8) := (List.range n).map (fun i => rdByte m (a + i))

/-- Stores a byte string at address `a`. -/
def wrBytes (m : Mem) (a : Nat) (bs : List (BitVec 8)) : Mem :=
  match bs with
  | [] => m
  | b :: bs => wrBytes (wrByte m a b) (a + 1) bs

/-- Every byte of `[lo, lo + n)` becomes zero. -/
def zeroRange (m : Mem) (lo n : Nat) : Mem := m.filter (fun p => p.1 < lo ∨ lo + n ≤ p.1)

/-! ### Little-endian byte strings (R11) -/

/-- The number a byte string holds. -/
def leNat (bs : List (BitVec 8)) : Nat :=
  match bs with
  | [] => 0
  | b :: bs => b.toNat + 256 * leNat bs

/-- The `n` bytes of a number. -/
def natLe (n v : Nat) : List (BitVec 8) :=
  match n with
  | 0 => []
  | n + 1 => BitVec.ofNat 8 v :: natLe n (v / 256)

/-- The number in bytes `[off, off + n)` of a string; bytes beyond its end count as zero. -/
def field (bs : List (BitVec 8)) (off n : Nat) : Nat := leNat ((bs.drop off).take n)

/-- A string padded with zero bytes, or cut, to `n` bytes. -/
def padTo (n : Nat) (bs : List (BitVec 8)) : List (BitVec 8) := (bs ++ List.replicate n 0).take n

/-- The lowest set of `n` numbers that satisfies a test. -/
def findBelow (n : Nat) (p : Nat → Bool) : Option Nat := (List.range n).find? p

/-- A list without repeats of `x`, with `x` at its end. -/
def addOnce (xs : List Nat) (x : Nat) : List Nat := if x ∈ xs then xs else xs ++ [x]

/-- Replaces element `i`. -/
def setAt {α : Type} (xs : List α) (i : Nat) (x : α) : List α := xs.set i x

end Sys2Proof.Machine
end

