-- ==== Sys2Proof/Machine/Crypto.lean ====
section
/-! DEFINITION. SHA-512 (the hash R73, R311, R331 and R347 name), over byte strings; AES-256 in XTS (R154) and in GCM (R289, R313, R329);
HMAC-SHA-512 (R329). A digest is the number its 64 bytes hold little-endian, as a DIGEST512 entry does (R373), and so is a key. -/

namespace Sys2Proof.Machine

open Sys2Proof

/-- Round constants, first half. -/
def shaK1 : List (BitVec 64) := [
  0x428A2F98D728AE22, 0x7137449123EF65CD, 0xB5C0FBCFEC4D3B2F, 0xE9B5DBA58189DBBC,
  0x3956C25BF348B538, 0x59F111F1B605D019, 0x923F82A4AF194F9B, 0xAB1C5ED5DA6D8118,
  0xD807AA98A3030242, 0x12835B0145706FBE, 0x243185BE4EE4B28C, 0x550C7DC3D5FFB4E2,
  0x72BE5D74F27B896F, 0x80DEB1FE3B1696B1, 0x9BDC06A725C71235, 0xC19BF174CF692694,
  0xE49B69C19EF14AD2, 0xEFBE4786384F25E3, 0x0FC19DC68B8CD5B5, 0x240CA1CC77AC9C65,
  0x2DE92C6F592B0275, 0x4A7484AA6EA6E483, 0x5CB0A9DCBD41FBD4, 0x76F988DA831153B5,
  0x983E5152EE66DFAB, 0xA831C66D2DB43210, 0xB00327C898FB213F, 0xBF597FC7BEEF0EE4,
  0xC6E00BF33DA88FC2, 0xD5A79147930AA725, 0x06CA6351E003826F, 0x142929670A0E6E70,
  0x27B70A8546D22FFC, 0x2E1B21385C26C926, 0x4D2C6DFC5AC42AED, 0x53380D139D95B3DF,
  0x650A73548BAF63DE, 0x766A0ABB3C77B2A8, 0x81C2C92E47EDAEE6, 0x92722C851482353B]

/-- Round constants, second half. -/
def shaK2 : List (BitVec 64) := [
  0xA2BFE8A14CF10364, 0xA81A664BBC423001, 0xC24B8B70D0F89791, 0xC76C51A30654BE30,
  0xD192E819D6EF5218, 0xD69906245565A910, 0xF40E35855771202A, 0x106AA07032BBD1B8,
  0x19A4C116B8D2D0C8, 0x1E376C085141AB53, 0x2748774CDF8EEB99, 0x34B0BCB5E19B48A8,
  0x391C0CB3C5C95A63, 0x4ED8AA4AE3418ACB, 0x5B9CCA4F7763E373, 0x682E6FF3D6B2B8A3,
  0x748F82EE5DEFB2FC, 0x78A5636F43172F60, 0x84C87814A1F0AB72, 0x8CC702081A6439EC,
  0x90BEFFFA23631E28, 0xA4506CEBDE82BDE9, 0xBEF9A3F7B2C67915, 0xC67178F2E372532B,
  0xCA273ECEEA26619C, 0xD186B8C721C0C207, 0xEADA7DD6CDE0EB1E, 0xF57D4F7FEE6ED178,
  0x06F067AA72176FBA, 0x0A637DC5A2C898A6, 0x113F9804BEF90DAE, 0x1B710B35131C471B,
  0x28DB77F523047D84, 0x32CAAB7B40C72493, 0x3C9EBE0A15C9BEBC, 0x431D67C49C100D4C,
  0x4CC5D4BECB3E42B6, 0x597F299CFC657E2A, 0x5FCB6FAB3AD6FAEC, 0x6C44198C4A475817]

/-- Initial hash value. -/
def shaInit : List (BitVec 64) := [
  0x6A09E667F3BCC908, 0xBB67AE8584CAA73B, 0x3C6EF372FE94F82B, 0xA54FF53A5F1D36F1,
  0x510E527FADE682D1, 0x9B05688C2B3E6C1F, 0x1F83D9ABFB41BD6B, 0x5BE0CD19137E2179]

/-- Rotation to the right. -/
def rotr (x : BitVec 64) (n : Nat) : BitVec 64 := (x >>> n) ||| (x <<< (64 - n))

/-- Big-endian number of a byte string. -/
def beNat (bs : List (BitVec 8)) : Nat := bs.foldl (fun n b => 256 * n + b.toNat) 0

/-- The message padded to whole blocks of 128 bytes. -/
def shaPad (bs : List (BitVec 8)) : List (BitVec 8) :=
  let z := (239 - bs.length % 128) % 128
  bs ++ 0x80 :: List.replicate z 0 ++ (natLe 16 (8 * bs.length)).reverse

/-- Cuts a string into pieces of `k` bytes; `fuel` bounds their number. -/
def chunksOf (k : Nat) : Nat → List (BitVec 8) → List (List (BitVec 8))
  | 0, _ => []
  | fuel + 1, bs => if bs = [] then [] else bs.take k :: chunksOf k fuel (bs.drop k)

/-- Extends the message schedule, which is held newest first. -/
def shaSchedule : Nat → List (BitVec 64) → List (BitVec 64)
  | 0, w => w
  | n + 1, w =>
    let g := fun i => w.getD i 0
    let s0 := rotr (g 14) 1 ^^^ rotr (g 14) 8 ^^^ (g 14 >>> 7)
    let s1 := rotr (g 1) 19 ^^^ rotr (g 1) 61 ^^^ (g 1 >>> 6)
    shaSchedule n ((g 15 + s0 + g 6 + s1) :: w)

/-- One round on the eight working variables. -/
def shaRound (v : List (BitVec 64)) (kw : BitVec 64 × BitVec 64) : List (BitVec 64) :=
  match v with
  | [a, b, c, d, e, f, g, h] =>
    let s1 := rotr e 14 ^^^ rotr e 18 ^^^ rotr e 41
    let ch := (e &&& f) ^^^ (~~~ e &&& g)
    let t1 := h + s1 + ch + kw.1 + kw.2
    let s0 := rotr a 28 ^^^ rotr a 34 ^^^ rotr a 39
    let maj := (a &&& b) ^^^ (a &&& c) ^^^ (b &&& c)
    [t1 + s0 + maj, a, b, c, d + t1, e, f, g]
  | _ => v

/-- One block. -/
def shaBlock (h : List (BitVec 64)) (blk : List (BitVec 8)) : List (BitVec 64) :=
  let w16 := ((chunksOf 8 16 blk).map (fun c => BitVec.ofNat 64 (beNat c))).reverse
  let w := (shaSchedule 64 w16).reverse
  List.zipWith (· + ·) h (((shaK1 ++ shaK2).zip w).foldl shaRound h)

/-- SHA-512 as 64 bytes. -/
def sha512Bytes (bs : List (BitVec 8)) : List (BitVec 8) :=
  let p := shaPad bs
  let h := (chunksOf 128 (p.length / 128) p).foldl shaBlock shaInit
  h.flatMap (fun x => (natLe 8 x.toNat).reverse)

/-- SHA-512 as a DIGEST512 value. -/
def sha512 (bs : List (BitVec 8)) : Nat := leNat (sha512Bytes bs)

/-! ### AES-256-XTS (R154) -/

/-- Doubling in the field of AES. -/
def xtime (b : Nat) : Nat := if b < 128 then 2 * b else (2 * b - 256) ^^^ 0x1B

/-- Product in the field of AES, over the bits of `b`, the lowest first; `n` of them. -/
def gfMul : Nat → Nat → Nat → Nat
  | 0, _, _ => 0
  | n + 1, a, b => (if b % 2 = 1 then a else 0) ^^^ gfMul n (xtime a) (b / 2)

/-- The inverse, with 0 for 0: the 254th power, 254 = 2 + 4 + … + 128. -/
def gfInv (a : Nat) : Nat :=
  let sq := fun (x : Nat) => gfMul 8 x x
  let a2 := sq a
  let a4 := sq a2
  let a8 := sq a4
  let a16 := sq a8
  let a32 := sq a16
  let a64 := sq a32
  [a4, a8, a16, a32, a64, sq a64].foldl (gfMul 8) a2

/-- A byte turned left by `n` bits. -/
def rotByte (b n : Nat) : Nat := b * 2 ^ n % 256 + b / 2 ^ (8 - n)

/-- The substitution of AES. -/
def aesSub (b : Nat) : Nat :=
  let i := gfInv b
  i ^^^ rotByte i 1 ^^^ rotByte i 2 ^^^ rotByte i 3 ^^^ rotByte i 4 ^^^ 0x63

/-- Two byte strings, byte by byte. -/
def xorBytes (x y : List Nat) : List Nat := List.zipWith (fun a b => a ^^^ b) x y

/-- The next four-byte words of a key schedule of eight-word keys, `n` of them, from the words so far, newest first. -/
def aesExpand : Nat → Nat → Nat → List (List Nat) → List (List Nat)
  | 0, _, _, ws => ws
  | n + 1, i, rc, ws =>
    let prev := ws.headD []
    let t := if i % 8 = 0 then xorBytes ((prev.drop 1 ++ prev.take 1).map aesSub) [rc, 0, 0, 0]
      else if i % 8 = 4 then prev.map aesSub else prev
    aesExpand n (i + 1) (if i % 8 = 0 then xtime rc else rc) (xorBytes (ws.getD 7 []) t :: ws)

/-- The fifteen round keys of a 256-bit key. -/
def aesKeys (key : List Nat) : List (List Nat) :=
  let ws := (List.range 8).map (fun i => (key.drop (4 * i)).take 4)
  let all := (aesExpand 52 8 1 ws.reverse).reverse
  (List.range 15).map (fun r => ((all.drop (4 * r)).take 4).flatten)

/-- Rows of the state turned left: byte 4c + r comes from column c + r. -/
def aesShift (x : List Nat) : List Nat := (List.range 16).map (fun i => x.getD (4 * ((i / 4 + i % 4) % 4) + i % 4) 0)

/-- The columns mixed. -/
def aesMix (x : List Nat) : List Nat := (List.range 16).map (fun i =>
  let g := fun (k : Nat) => x.getD (4 * (i / 4) + (i + k) % 4) 0
  xtime (g 0) ^^^ xtime (g 1) ^^^ g 1 ^^^ g 2 ^^^ g 3)

/-- One block under the round keys. -/
def aesBlock (keys : List (List Nat)) (x : List Nat) : List Nat :=
  let mid := ((keys.drop 1).take 13).foldl (fun x k => xorBytes (aesMix (aesShift (x.map aesSub))) k) (xorBytes x (keys.headD []))
  xorBytes (aesShift (mid.map aesSub)) (keys.getD 14 [])

/-- Bytes of a number, lowest first. -/
def byteNats (n v : Nat) : List Nat := (natLe n v).map (fun b => b.toNat)

/-- A tweak multiplied by α: its bytes as a number, lowest first. -/
def tweakNext (t : Nat) : Nat := if t < 2 ^ 127 then 2 * t else (2 * t - 2 ^ 128) ^^^ 0x87

/-- The blocks of a data unit, each under its tweak. -/
def xtsBlocks (keys : List (List Nat)) : Nat → List (List Nat) → List Nat
  | _, [] => []
  | t, b :: bs => xorBytes (aesBlock keys (xorBytes b (byteNats 16 t))) (byteNats 16 t) ++ xtsBlocks keys (tweakNext t) bs

/-- A 128-byte line under a 512-bit key pair, by its data unit number: the low half of the pair encrypts the line, the high half the
number. -/
def xtsLine (key unit : Nat) (line : BitVec 1024) : BitVec 1024 :=
  let k1 := aesKeys (byteNats 32 (key % 2 ^ 256))
  let k2 := aesKeys (byteNats 32 (key / 2 ^ 256))
  let t := leNat ((aesBlock k2 (byteNats 16 unit)).map (BitVec.ofNat 8))
  let xs := xtsBlocks k1 t ((List.range 8).map (fun j => byteNats 16 (line.toNat / 2 ^ (128 * j))))
  BitVec.ofNat 1024 (leNat (xs.map (BitVec.ofNat 8)))

/-! ### AES-256-GCM -/

/-- Big-endian bytes of a number. -/
def beBytes (n v : Nat) : List Nat := (byteNats n v).reverse

/-- Number of a big-endian byte string. -/
def beNum (bs : List Nat) : Nat := bs.foldl (fun n b => 256 * n + b) 0

/-- Product in GCM's field: the bits of `x` from the highest, `n` of them; `v` is the other factor, turned once a bit. -/
def ghashMul : Nat → Nat → Nat → Nat → Nat
  | 0, _, _, z => z
  | n + 1, x, v, z =>
    ghashMul n x (if v % 2 = 1 then v / 2 ^^^ 0xE1 * 2 ^ 120 else v / 2) (if x / 2 ^ n % 2 = 1 then z ^^^ v else z)

/-- Bytes cut into blocks of 16. -/
def blocks16 (bs : List Nat) : List (List Nat) := (List.range ((bs.length + 15) / 16)).map (fun i => (bs.drop (16 * i)).take 16)

/-- GHASH over blocks, each padded with zeros. -/
def ghash (h : Nat) (bs : List (List Nat)) : Nat :=
  bs.foldl (fun y b => ghashMul 128 (y ^^^ beNum ((b ++ List.replicate 16 0).take 16)) h 0) 0

/-- The key stream over the plaintext, from counter 2 on. -/
def gcmText (keys : List (List Nat)) (iv plain : List Nat) : List Nat :=
  let bs := blocks16 plain
  (List.range bs.length).flatMap (fun i => xorBytes (bs.getD i []) (aesBlock keys (iv ++ beBytes 4 (i + 2))))

/-- Seals a plaintext under a key, a 96-bit IV and additional data: ciphertext, then the 16-byte tag. -/
def gcmSeal (key : Nat) (iv aad plain : List (BitVec 8)) : List (BitVec 8) :=
  let nat := fun (bs : List (BitVec 8)) => bs.map (fun b => b.toNat)
  let keys := aesKeys (byteNats 32 key)
  let h := beNum (aesBlock keys (List.replicate 16 0))
  let c := gcmText keys (nat iv) (nat plain)
  let y := ghash h (blocks16 (nat aad) ++ blocks16 c ++ [beBytes 8 (8 * aad.length) ++ beBytes 8 (8 * c.length)])
  (c ++ xorBytes (beBytes 16 y) (aesBlock keys (nat iv ++ beBytes 4 1))).map (BitVec.ofNat 8)

/-! ### HMAC-SHA-512 -/

/-- HMAC-SHA-512 of a message under a key of at most 128 bytes. -/
def hmac512 (key msg : List (BitVec 8)) : List (BitVec 8) :=
  let k := (key ++ List.replicate 128 0).take 128
  sha512Bytes (k.map (· ^^^ 0x5C) ++ sha512Bytes (k.map (· ^^^ 0x36) ++ msg))

end Sys2Proof.Machine
end

