-- ==== Sys2Proof/Machine/EntryTable.lean ====
section
/-! DEFINITION. The object dictionary's entries: key range, type, access, level, authority, scope, whether a cold start
keeps the entry, and default. Key = index × 256 + sub-index. The rows follow the entry tables of the chapters. -/

namespace Sys2Proof.Machine

open Sys2Proof

/-- Entry types (Table 16.1). -/
inductive EType where
  | bool | u8 | u16 | u32 | u64 | i8 | i16 | i32 | i64 | f64 | octets (n : Nat) | digest
  deriving DecidableEq, Repr

/-- Access codes (R380). -/
inductive EAccess where
  | const | ro | rw | wo
  deriving DecidableEq, Repr

/-- Authorities, ordered T < O < W < P (R374). -/
inductive Auth where
  | t | o | w | p
  deriving DecidableEq, Repr

/-- An entry, or a run of entries of consecutive sub-indices. -/
structure EDesc where
  lo     : Nat
  hi     : Nat
  type   : EType
  access : EAccess
  expert : Bool
  auth   : Auth
  perCtx : Bool
  kept   : Bool
  dflt   : Nat
  deriving DecidableEq, Repr

/-- Entries, part 1. -/
def entries1 : List EDesc := [
  ⟨0x100100, 0x100100, .octets 16, .const, false, .t, false, true, 0x434C2D41312D30342D4E534A⟩ /- ORDER_CODE -/,
  ⟨0x100200, 0x100200, .octets 12, .ro, false, .t, false, false, 0x41312D4344⟩ /- DC_STRING -/,
  ⟨0x100201, 0x100201, .u8, .const, false, .t, false, true, 0x1⟩ /- STEPPING -/,
  ⟨0x100202, 0x100202, .u16, .ro, false, .t, false, false, 0x0⟩ /- NUM_UCODE_LEVEL -/,
  ⟨0x100203, 0x100203, .u8, .ro, false, .t, false, false, 0x41⟩ /- XLATE_FAMILY -/,
  ⟨0x100204, 0x100204, .u8, .const, false, .t, false, true, 0x41⟩ /- GRADE -/,
  ⟨0x100300, 0x100300, .u8, .ro, false, .t, false, false, 0x0⟩ /- DEVICE_STATE -/,
  ⟨0x100301, 0x100301, .u8, .ro, false, .o, false, false, 0x0⟩ /- RESET_CAUSE -/,
  ⟨0x100302, 0x100302, .u32, .ro, false, .t, false, false, 0x0⟩ /- UPTIME_S -/,
  ⟨0x100400, 0x100400, .u32, .ro, false, .o, false, true, 0x0⟩ /- FAULT_NEXT_SEQ -/,
  ⟨0x100401, 0x100401, .octets 65536, .ro, false, .o, false, true, 0x0⟩ /- FAULT_LOG -/,
  ⟨0x100500, 0x100500, .u8, .wo, false, .o, false, false, 0x0⟩ /- WENED_CMD -/,
  ⟨0x100501, 0x100501, .u8, .wo, false, .p, false, false, 0x0⟩ /- SERVICE_CMD -/,
  ⟨0x100600, 0x100600, .u8, .ro, true, .o, false, false, 0x0⟩ /- WENED_CLK -/,
  ⟨0x100700, 0x100700, .u8, .rw, false, .w, false, true, 0x1⟩ /- CAN_NODE -/,
  ⟨0x100701, 0x100701, .u32, .ro, true, .o, false, false, 0x0⟩ /- CAN_ERRORS -/,
  ⟨0x100800, 0x100800, .bool, .rw, false, .o, false, false, 0x0⟩ /- EXPERT_EN -/,
  ⟨0x100900, 0x100900, .u64, .ro, true, .o, false, false, 0x0⟩ /- DICT_REQUESTS -/,
  ⟨0x100901, 0x100901, .u64, .ro, true, .o, false, false, 0x0⟩ /- DICT_REFUSALS -/,
  ⟨0x101000, 0x101000, .u8, .const, false, .t, false, true, 0x28⟩ /- DIE_COUNT -/,
  ⟨0x101001, 0x101028, .u8, .ro, false, .o, false, false, 0x0⟩ /- DIE_STATE -/,
  ⟨0x101100, 0x101100, .u8, .ro, false, .o, false, false, 0x0⟩ /- MGMT_RING_STATE -/,
  ⟨0x101200, 0x101200, .u32, .ro, true, .o, false, false, 0x0⟩ /- EVENTS_LOST -/,
  ⟨0x102000, 0x102000, .octets 6, .const, false, .t, false, true, 0x0⟩ /- MAC_ADDR -/,
  ⟨0x102001, 0x102001, .u8, .ro, false, .t, false, false, 0x0⟩ /- LINK_STATE -/,
  ⟨0x102100, 0x102100, .octets 5, .rw, false, .o, false, false, 0x0⟩ /- IPV4_ADDR -/,
  ⟨0x102101, 0x102101, .octets 17, .rw, false, .o, false, false, 0x0⟩ /- IPV6_ADDR -/,
  ⟨0x102102, 0x102102, .u16, .rw, false, .o, false, false, 0xB798⟩ /- CMD_UDP_PORT -/,
  ⟨0x102103, 0x102103, .u16, .rw, false, .o, false, false, 0x0⟩ /- PORT_VLAN -/,
  ⟨0x102104, 0x102104, .u8, .rw, true, .o, false, false, 0x3⟩ /- PFC_PRIO -/,
  ⟨0x102105, 0x102105, .u8, .rw, false, .o, false, false, 0x0⟩ /- PTP_DOMAIN -/,
  ⟨0x102106, 0x102106, .u8, .rw, true, .o, false, false, 0x14⟩ /- TXW_CMD -/,
  ⟨0x102200, 0x102200, .u64, .ro, true, .o, false, false, 0x0⟩ /- FORMAT_DROPS -/,
  ⟨0x102201, 0x102201, .u64, .ro, true, .o, false, false, 0x0⟩ /- STREAM_DROPS -/,
  ⟨0x102202, 0x102202, .u64, .ro, true, .o, false, false, 0x0⟩ /- AUTH_FAILS -/,
  ⟨0x102203, 0x102203, .u64, .ro, true, .o, false, false, 0x0⟩ /- REORDER_DROPS -/,
  ⟨0x102204, 0x102204, .u64, .ro, true, .o, false, false, 0x0⟩ /- CREDIT_DROPS -/,
  ⟨0x102205, 0x102205, .u64, .ro, true, .o, false, false, 0x0⟩ /- STALE_DROPS -/,
  ⟨0x102206, 0x102206, .u64, .ro, true, .o, false, false, 0x0⟩ /- SCRUB_DROPS -/,
  ⟨0x102300, 0x102300, .u64, .ro, true, .o, false, false, 0x0⟩ /- CTX_CACHE_MISSES -/]

/-- Entries, part 2. -/
def entries2 : List EDesc := [
  ⟨0x103000, 0x103000, .octets 24, .wo, true, .o, false, false, 0x0⟩ /- FW_STAGE_SRC -/,
  ⟨0x103001, 0x103001, .octets 4, .ro, true, .o, false, false, 0x0⟩ /- FW_STAGE_STATE -/,
  ⟨0x103002, 0x103002, .u8, .wo, true, .o, false, false, 0x0⟩ /- FW_ACTIVATE -/,
  ⟨0x103010, 0x103010, .octets 67108864, .wo, true, .p, false, false, 0x0⟩ /- FW_RECOVERY -/,
  ⟨0x103100, 0x10310F, .octets 72, .ro, true, .o, false, true, 0x0⟩ /- FW_SLOT -/,
  ⟨0x106000, 0x106000, .octets 8176, .wo, true, .o, false, false, 0x0⟩ /- RELAY_TX -/,
  ⟨0x106001, 0x106008, .octets 8232, .ro, true, .o, false, false, 0x0⟩ /- RELAY_RX -/,
  ⟨0x200100, 0x200100, .u8, .ro, false, .t, false, false, 0x0⟩ /- OP_CURRENT -/,
  ⟨0x200101, 0x200101, .u8, .rw, false, .o, false, false, 0x0⟩ /- OP_TARGET -/,
  ⟨0x200102, 0x200102, .u16, .rw, false, .o, false, false, 0x4E2⟩ /- POWER_CAP_W -/,
  ⟨0x200200, 0x200200, .u32, .ro, false, .o, false, false, 0x0⟩ /- V52_IN_MV -/,
  ⟨0x200201, 0x200201, .u32, .ro, false, .o, false, false, 0x0⟩ /- V52_HOLD_MV -/,
  ⟨0x200202, 0x200202, .u16, .ro, false, .o, false, false, 0x0⟩ /- INPUT_POWER_W -/,
  ⟨0x200300, 0x200300, .u16, .ro, false, .o, false, false, 0x0⟩ /- HOLDUP_UF -/,
  ⟨0x200301, 0x200301, .u16, .ro, false, .o, false, false, 0x0⟩ /- HOLDUP_ESR_MOHM -/,
  ⟨0x200302, 0x200302, .bool, .ro, false, .o, false, false, 0x0⟩ /- HOLDUP_OK -/,
  ⟨0x200400, 0x200400, .u64, .ro, true, .t, true, false, 0x0⟩ /- CAP_THROTTLE_US -/,
  ⟨0x200401, 0x200401, .u8, .ro, true, .o, false, false, 0x10⟩ /- GOV_DUTY -/,
  ⟨0x200500, 0x200500, .u32, .ro, false, .o, false, true, 0x0⟩ /- SAG_COUNT -/,
  ⟨0x200501, 0x200501, .octets 16, .ro, false, .o, false, true, 0x0⟩ /- BROWNOUT_STATE -/,
  ⟨0x200502, 0x200502, .octets 5386240, .ro, true, .o, false, true, 0x0⟩ /- BROWNOUT_LAST -/,
  ⟨0x200600, 0x200600, .u8, .ro, false, .t, false, false, 0x0⟩ /- BRINGUP_STAGE -/,
  ⟨0x200601, 0x200601, .octets 28, .ro, true, .o, false, false, 0x0⟩ /- BRINGUP_MS -/,
  ⟨0x200701, 0x200728, .i16, .ro, false, .o, false, false, 0x0⟩ /- DIE_TEMP -/,
  ⟨0x200800, 0x200800, .octets 8, .ro, true, .o, false, false, 0x0⟩ /- PLL_LOCK -/,
  ⟨0x200901, 0x200928, .u8, .const, false, .o, false, true, 0x0⟩ /- TRIP_C -/,
  ⟨0x200929, 0x200929, .u32, .ro, false, .o, false, true, 0x0⟩ /- THERMAL_TRIPS -/,
  ⟨0x20092A, 0x20092A, .u32, .ro, true, .o, false, false, 0xFFFFFFFF⟩ /- SEAL_OHMS -/,
  ⟨0x300100, 0x300100, .u16, .const, false, .t, false, true, 0x40⟩ /- STACK_GIB -/,
  ⟨0x300101, 0x300101, .u16, .const, false, .t, false, true, 0x1F8⟩ /- CTX_AREA_GIB -/,
  ⟨0x300201, 0x300210, .i16, .ro, false, .o, false, false, 0x0⟩ /- STACK_TEMP -/,
  ⟨0x300301, 0x300310, .u8, .ro, false, .o, false, false, 0x4⟩ /- REFRESH_MULT -/,
  ⟨0x300401, 0x300410, .bool, .ro, false, .o, false, false, 0x0⟩ /- STACK_THROTTLED -/,
  ⟨0x300501, 0x300510, .u64, .ro, true, .o, false, false, 0x0⟩ /- ECC_CORRECTED -/,
  ⟨0x300511, 0x300511, .u64, .ro, true, .o, false, false, 0x0⟩ /- SPAD_CORRECTED -/,
  ⟨0x301000, 0x301003, .u8, .ro, true, .o, false, false, 0x0⟩ /- ARB_WEIGHT -/,
  ⟨0x301004, 0x301004, .octets 4, .rw, true, .o, false, false, 0x2020408⟩ /- ARB_WEIGHT_SET -/,
  ⟨0x302000, 0x302000, .u64, .ro, true, .t, true, false, 0x0⟩ /- RUN_US -/,
  ⟨0x302001, 0x302001, .u64, .ro, true, .t, true, false, 0x0⟩ /- L0_BANK_WAIT_US -/,
  ⟨0x302002, 0x302002, .u64, .ro, true, .t, true, false, 0x0⟩ /- L1_HITS -/]

/-- Entries, part 3. -/
def entries3 : List EDesc := [
  ⟨0x302003, 0x302003, .u64, .ro, true, .t, true, false, 0x0⟩ /- L1_MISSES -/,
  ⟨0x302004, 0x302004, .u64, .ro, true, .t, true, false, 0x0⟩ /- L1_BUSY_US -/,
  ⟨0x302005, 0x302005, .u64, .ro, true, .t, true, false, 0x0⟩ /- L1_STALL_US -/,
  ⟨0x302006, 0x302006, .u64, .ro, true, .t, true, false, 0x0⟩ /- L2_BYTES -/,
  ⟨0x302007, 0x302007, .u64, .ro, true, .t, true, false, 0x0⟩ /- L2_BUSY_US -/,
  ⟨0x302008, 0x302008, .u64, .ro, true, .t, true, false, 0x0⟩ /- L2_STALL_US -/,
  ⟨0x302009, 0x302009, .u64, .ro, true, .t, true, false, 0x0⟩ /- NARROW_ACCESSES -/,
  ⟨0x30200A, 0x30200A, .u64, .ro, true, .t, true, false, 0x0⟩ /- KEEP_OVERFLOW -/,
  ⟨0x30200B, 0x30200B, .u64, .ro, true, .t, true, false, 0x0⟩ /- PEER_BYTES -/,
  ⟨0x303000, 0x303000, .u16, .rw, false, .o, false, false, 0xFFFF⟩ /- LOAN_PEER -/,
  ⟨0x303001, 0x303001, .u16, .rw, false, .o, false, false, 0x0⟩ /- LOAN_GIB -/,
  ⟨0x303002, 0x303002, .u16, .rw, false, .o, false, false, 0xFFFF⟩ /- LEND_TO -/,
  ⟨0x303003, 0x303003, .u16, .rw, false, .o, false, false, 0x0⟩ /- LEND_GIB -/,
  ⟨0x400100, 0x400100, .u16, .rw, false, .o, false, false, 0xFFFF⟩ /- DEVICE_ID -/,
  ⟨0x400200, 0x400200, .u32, .ro, false, .o, false, false, 0x0⟩ /- ROUTE_EPOCH -/,
  ⟨0x400201, 0x400201, .u32, .wo, false, .o, false, false, 0x0⟩ /- ROUTE_COMMIT -/,
  ⟨0x400300, 0x400300, .u32, .rw, false, .o, false, false, 0x0⟩ /- SYSTEM_SHAPE -/,
  ⟨0x401000, 0x40101F, .u8, .ro, false, .o, false, false, 0x1⟩ /- PORT_STATE -/,
  ⟨0x401100, 0x40111F, .octets 12, .ro, false, .o, false, false, 0x0⟩ /- PORT_PEER -/,
  ⟨0x401200, 0x40121F, .u64, .ro, true, .o, false, false, 0x0⟩ /- PORT_RETRIES -/,
  ⟨0x401300, 0x40131F, .u8, .wo, true, .o, false, false, 0x0⟩ /- PORT_CTRL -/,
  ⟨0x401400, 0x40141F, .u16, .ro, true, .o, false, false, 0xFFFF⟩ /- PORT_METRIC -/,
  ⟨0x402000, 0x402007, .u32, .rw, true, .o, false, false, 0x0⟩ /- RT_RING -/,
  ⟨0x402100, 0x40211F, .u32, .rw, true, .o, false, false, 0x0⟩ /- RT_GROUP -/,
  ⟨0x402200, 0x4022FF, .u32, .rw, true, .o, false, false, 0x0⟩ /- RT_GLOBAL -/,
  ⟨0x403000, 0x403000, .u8, .ro, true, .o, false, false, 0xa⟩ /- VC_ARB -/,
  ⟨0x403001, 0x403001, .u8, .ro, true, .o, false, false, 0x1e⟩ /- VC_ARB -/,
  ⟨0x403002, 0x403002, .u8, .ro, true, .o, false, false, 0x1e⟩ /- VC_ARB -/,
  ⟨0x403003, 0x403003, .u8, .ro, true, .o, false, false, 0x19⟩ /- VC_ARB -/,
  ⟨0x403004, 0x403004, .u8, .ro, true, .o, false, false, 0xa⟩ /- VC_ARB -/,
  ⟨0x403005, 0x403005, .u8, .ro, true, .o, false, false, 0x64⟩ /- VC_ARB -/,
  ⟨0x403006, 0x403006, .u8, .ro, true, .o, false, false, 0x5⟩ /- VC_ARB -/,
  ⟨0x403007, 0x403007, .u8, .ro, true, .o, false, false, 0x0⟩ /- VC_ARB -/,
  ⟨0x403008, 0x403008, .octets 8, .rw, true, .o, false, false, 0x5640A191E1E0A⟩ /- VC_ARB_SET -/,
  ⟨0x403100, 0x403100, .bool, .rw, true, .o, false, false, 0x1⟩ /- ADAPTIVE_EN -/,
  ⟨0x404000, 0x404000, .u8, .ro, false, .o, false, false, 0x3⟩ /- BYPASS_STATE -/,
  ⟨0x404001, 0x404001, .u8, .wo, false, .o, false, false, 0x0⟩ /- BYPASS_CTRL -/,
  ⟨0x405000, 0x405007, .u8, .ro, false, .o, false, false, 0x1⟩ /- LASER_STATE -/,
  ⟨0x406000, 0x406000, .u64, .ro, true, .o, false, false, 0x0⟩ /- EPOCH_REJECTS -/,
  ⟨0x406001, 0x406001, .u64, .ro, true, .o, false, false, 0x0⟩ /- HOP_DISCARDS -/,
  ⟨0x406002, 0x406002, .u64, .ro, true, .o, false, false, 0x0⟩ /- NO_ROUTE_DISCARDS -/,
  ⟨0x406003, 0x406003, .u64, .ro, true, .o, false, false, 0x0⟩ /- SCRUB_DISCARDS -/,
  ⟨0x407000, 0x407000, .u32, .rw, true, .o, false, false, 0x3E8⟩ /- REMOTE_TIMEOUT_US -/,
  ⟨0x407001, 0x407001, .u16, .wo, false, .o, false, false, 0x0⟩ /- REMOTE_DEAD_NOTICE -/,
  ⟨0x407002, 0x407002, .octets 16, .ro, false, .t, true, false, 0x0⟩ /- REMOTE_LAST_FAIL -/,
  ⟨0x407100, 0x407100, .u64, .ro, true, .t, true, false, 0x0⟩ /- REMOTE_LINES -/,
  ⟨0x407101, 0x407101, .u64, .ro, true, .t, true, false, 0x0⟩ /- REMOTE_SLOT_WAIT_US -/]

/-- Entries, part 4. -/
def entries4 : List EDesc := [
  ⟨0x407200, 0x407200, .u64, .ro, true, .t, true, false, 0x0⟩ /- RLC_HITS -/,
  ⟨0x407201, 0x407201, .u64, .ro, true, .t, true, false, 0x0⟩ /- RLC_MISSES -/,
  ⟨0x407202, 0x407202, .u64, .ro, true, .t, true, false, 0x0⟩ /- RLC_DROPS -/,
  ⟨0x407300, 0x407300, .u64, .ro, true, .t, true, false, 0x0⟩ /- SIEVE_MERGES -/,
  ⟨0x407301, 0x407301, .u64, .ro, true, .o, false, false, 0x0⟩ /- SIEVE_WRITEBACKS -/,
  ⟨0x407302, 0x407302, .u64, .ro, true, .o, false, false, 0x0⟩ /- SIEVE_FULL_US -/,
  ⟨0x407400, 0x407400, .u64, .ro, true, .t, true, false, 0x0⟩ /- REPL_FORWARDS -/,
  ⟨0x407401, 0x407401, .u64, .ro, true, .o, false, false, 0x0⟩ /- BAD_KIND_DISCARDS -/,
  ⟨0x407402, 0x407402, .u64, .ro, true, .o, false, false, 0x0⟩ /- RESERVED_DISCARDS -/,
  ⟨0x408000, 0x408000, .u32, .rw, true, .o, false, false, 0x64⟩ /- COLL_TIMEOUT_MS -/,
  ⟨0x408001, 0x408001, .u32, .rw, true, .o, false, false, 0x3E8⟩ /- LATE_WINDOW_MS -/,
  ⟨0x408100, 0x408100, .octets 64, .ro, false, .t, true, false, 0x0⟩ /- COLL_LAST_RECORD -/,
  ⟨0x408101, 0x408110, .octets 64, .ro, true, .t, true, false, 0x0⟩ /- COLL_RECORD_HIST -/,
  ⟨0x408200, 0x408203, .u64, .ro, true, .t, true, false, 0x0⟩ /- LATE_CUR -/,
  ⟨0x408204, 0x408207, .u64, .ro, true, .t, true, false, 0x0⟩ /- LATE_PREV -/,
  ⟨0x408300, 0x408300, .u64, .ro, true, .o, false, false, 0x0⟩ /- RESIDUE_CHECKS -/,
  ⟨0x408301, 0x408301, .u32, .ro, true, .o, false, false, 0x0⟩ /- CORRUPT_RAISED -/,
  ⟨0x500100, 0x500100, .u16, .const, false, .t, false, true, 0x100⟩ /- NOENO_LEVEL -/,
  ⟨0x500101, 0x500101, .u64, .const, false, .t, false, true, 0x7FF⟩ /- NOENO_FEATURES -/,
  ⟨0x501000, 0x501000, .u32, .ro, false, .t, false, false, 0x1⟩ /- XLATE_VERSION -/,
  ⟨0x501001, 0x501001, .u64, .ro, true, .o, false, false, 0x0⟩ /- XLATE_CACHE_BYTES -/,
  ⟨0x501002, 0x501002, .u64, .ro, true, .o, false, false, 0x0⟩ /- XLATE_CACHE_HITS -/,
  ⟨0x501003, 0x501003, .u8, .wo, true, .o, false, false, 0x0⟩ /- XLATE_CACHE_FLUSH -/,
  ⟨0x502000, 0x502000, .u64, .ro, true, .t, true, false, 0x0⟩ /- GRID_BEATS -/,
  ⟨0x502001, 0x502001, .u64, .ro, true, .t, true, false, 0x0⟩ /- GRID_SLOTS -/,
  ⟨0x502002, 0x502002, .u64, .ro, true, .t, true, false, 0x0⟩ /- GRID_PRODUCTS -/,
  ⟨0x502003, 0x502003, .u64, .ro, true, .t, true, false, 0x0⟩ /- GRID_STAGE_WAIT_US -/,
  ⟨0x502004, 0x502004, .u64, .ro, true, .t, true, false, 0x0⟩ /- GRID_TILE_WAIT_US -/,
  ⟨0x503000, 0x503000, .u64, .ro, true, .t, true, false, 0x0⟩ /- WHISK_BEATS -/,
  ⟨0x503001, 0x503001, .u64, .ro, true, .t, true, false, 0x0⟩ /- WHISK_ELEMS -/,
  ⟨0x503002, 0x503002, .u64, .ro, true, .t, true, false, 0x0⟩ /- WHISK_PROTECT_STOPS -/,
  ⟨0x503003, 0x503003, .u64, .ro, true, .t, true, false, 0x0⟩ /- WHISK_PROTECT_WAIT_US -/,
  ⟨0x503004, 0x503004, .u32, .ro, true, .t, true, false, 0x0⟩ /- WHISK_FAULTS -/,
  ⟨0x503005, 0x503005, .octets 32, .ro, true, .t, true, false, 0x0⟩ /- WHISK_LAST_RECORD -/,
  ⟨0x601001, 0x601002, .u8, .rw, false, .o, false, false, 0x0⟩ /- SD_MODE -/,
  ⟨0x601101, 0x601108, .u16, .ro, false, .t, true, false, 0x0⟩ /- TARGET_BIND -/,
  ⟨0x601201, 0x601204, .u8, .ro, false, .o, false, false, 0x0⟩ /- HALF_STATE -/,
  ⟨0x602000, 0x602000, .u8, .rw, false, .o, false, false, 0x0⟩ /- COMPAT_JSN16 -/,
  ⟨0x602001, 0x602001, .bool, .ro, false, .o, false, false, 0x0⟩ /- COMPAT_PIN -/,
  ⟨0x604000, 0x604000, .u64, .ro, true, .t, true, false, 0x0⟩ /- SOLVES -/]

/-- Entries, part 5. -/
def entries5 : List EDesc := [
  ⟨0x604001, 0x604001, .u64, .ro, true, .t, true, false, 0x0⟩ /- EXEC_CYCLES -/,
  ⟨0x604002, 0x604002, .u64, .ro, true, .t, true, false, 0x0⟩ /- STAGE_WAIT_US -/,
  ⟨0x604003, 0x604003, .u64, .ro, true, .t, true, false, 0x0⟩ /- PIVOT_REPLACED -/,
  ⟨0x604004, 0x604004, .u64, .ro, true, .t, true, false, 0x0⟩ /- WARM_REJECTED -/,
  ⟨0x604005, 0x604005, .u64, .ro, true, .t, true, false, 0x0⟩ /- FAILED -/,
  ⟨0x605001, 0x605002, .u64, .ro, true, .o, false, false, 0x0⟩ /- SRAM_CORRECTED -/,
  ⟨0x700100, 0x700100, .u64, .const, false, .t, false, true, 0x0⟩ /- SERIAL -/,
  ⟨0x700101, 0x700101, .octets 8192, .const, false, .t, false, true, 0x0⟩ /- CERT_CHAIN -/,
  ⟨0x700200, 0x700207, .u8, .ro, false, .t, false, true, 0x0⟩ /- ROLLBACK_CTR -/,
  ⟨0x700210, 0x700210, .u8, .wo, true, .p, false, false, 0x0⟩ /- ROLLBACK_OVERRIDE -/,
  ⟨0x700300, 0x700303, .digest, .ro, false, .t, false, false, 0x0⟩ /- MEASURE -/,
  ⟨0x700304, 0x700304, .digest, .ro, false, .t, true, false, 0x0⟩ /- MEASURE, MR4 -/,
  ⟨0x700400, 0x700400, .octets 64, .wo, false, .t, false, false, 0x0⟩ /- QUOTE_NONCE -/,
  ⟨0x700401, 0x700401, .octets 1024, .ro, false, .t, false, false, 0x0⟩ /- QUOTE_LAST -/,
  ⟨0x701000, 0x701000, .octets 516, .rw, true, .p, false, true, 0x0⟩ /- OWNER_KEY -/,
  ⟨0x701100, 0x701100, .octets 516, .rw, true, .p, false, true, 0x0⟩ /- FM_KEY -/,
  ⟨0x701200, 0x701200, .octets 512, .wo, true, .p, false, false, 0x0⟩ /- MGMT_KEY_ENROL -/,
  ⟨0x701201, 0x701201, .octets 1024, .wo, true, .o, false, false, 0x0⟩ /- MGMT_KEY_NEXT -/,
  ⟨0x702000, 0x702000, .u8, .ro, false, .t, false, false, 0x0⟩ /- PRESENCE -/,
  ⟨0x702001, 0x702001, .bool, .ro, false, .t, false, true, 0x0⟩ /- TAMPERED -/,
  ⟨0x702002, 0x702002, .u8, .wo, true, .p, false, false, 0x0⟩ /- TAMPER_CLEAR -/,
  ⟨0x702100, 0x702100, .u8, .wo, true, .p, false, false, 0x0⟩ /- DEBUG_UNLOCK -/,
  ⟨0x702200, 0x702200, .u8, .wo, true, .p, false, false, 0x0⟩ /- ZEROISE -/,
  ⟨0x702201, 0x702201, .u8, .wo, true, .p, false, false, 0x0⟩ /- DECOMMISSION -/,
  ⟨0x703000, 0x703000, .u16, .ro, false, .o, false, false, 0x0⟩ /- CONTEXTS_LIVE -/,
  ⟨0x703001, 0x703001, .u16, .ro, false, .o, false, false, 0xFFFF⟩ /- RUNNING_CTX -/,
  ⟨0x704000, 0x704000, .u8, .ro, false, .o, false, false, 0x0⟩ /- SCRUB_STATE -/,
  ⟨0x704001, 0x704001, .u32, .ro, true, .o, false, false, 0x0⟩ /- SCRUB_LAST_US -/,
  ⟨0x705000, 0x705000, .u64, .ro, true, .o, false, false, 0x0⟩ /- ACCESS_DENIALS -/,
  ⟨0x800100, 0x800100, .u64, .rw, false, .o, false, false, 0x0⟩ /- JOB_ID -/,
  ⟨0x800101, 0x800101, .u32, .ro, false, .o, false, false, 0x1⟩ /- CKPT_NEXT_GEN -/,
  ⟨0x800102, 0x800102, .octets 32, .wo, false, .o, false, false, 0x0⟩ /- CKPT_KEY -/,
  ⟨0x800200, 0x800200, .u16, .rw, false, .o, false, false, 0xFFFF⟩ /- BUDDY_DEVICE -/,
  ⟨0x800201, 0x800201, .u16, .rw, false, .o, false, false, 0xFFFF⟩ /- BUDDY_PARTNER -/,
  ⟨0x800202, 0x800202, .octets 16, .ro, true, .o, false, false, 0x0⟩ /- BUDDY_STATE -/,
  ⟨0x800300, 0x800300, .bool, .rw, false, .o, false, false, 0x0⟩ /- STORAGE_EN -/,
  ⟨0x800301, 0x800301, .octets 16, .rw, false, .o, false, false, 0x0⟩ /- STORAGE_SINK -/,
  ⟨0x800302, 0x800302, .u16, .rw, true, .o, false, false, 0x10⟩ /- STORAGE_FULL_EVERY -/,
  ⟨0x800400, 0x800400, .u32, .wo, false, .o, false, false, 0x0⟩ /- CKPT_REQUEST -/,
  ⟨0x800401, 0x800401, .u32, .rw, true, .o, false, false, 0x2710⟩ /- VOTE_TIMEOUT_MS -/,
  ⟨0x800402, 0x800402, .octets 32, .ro, false, .o, false, false, 0x0⟩ /- CKPT_PENDING -/]

/-- Entries, part 6. -/
def entries6 : List EDesc := [
  ⟨0x800500, 0x800500, .bool, .rw, false, .o, false, false, 0x1⟩ /- PRED_EN -/,
  ⟨0x800501, 0x800501, .u8, .ro, false, .o, false, false, 0x0⟩ /- PRED_STATE -/,
  ⟨0x800502, 0x800502, .u8, .rw, true, .o, false, false, 0x4⟩ /- PRED_FACTOR -/,
  ⟨0x800503, 0x800503, .u32, .rw, true, .o, false, false, 0x64⟩ /- PRED_ECC_FLOOR -/,
  ⟨0x800504, 0x800504, .u32, .rw, true, .o, false, false, 0x3E8⟩ /- PRED_RETRY_FLOOR -/,
  ⟨0x800505, 0x800505, .u8, .rw, true, .o, false, false, 0x5⟩ /- PRED_THERMAL_C -/,
  ⟨0x800506, 0x800506, .u16, .rw, true, .o, false, false, 0x1E⟩ /- PRED_HOLDOFF_S -/,
  ⟨0x801000, 0x801000, .u8, .ro, false, .t, true, false, 0x0⟩ /- CAPTURE_STATE -/,
  ⟨0x801001, 0x801001, .octets 72, .ro, false, .t, true, false, 0x0⟩ /- LAST_COMMIT -/,
  ⟨0x801100, 0x801100, .u64, .ro, true, .t, true, false, 0x0⟩ /- CKPT_COST_US -/,
  ⟨0x801101, 0x801101, .u64, .ro, true, .t, true, false, 0x0⟩ /- LADLE_STALL_US -/,
  ⟨0x801102, 0x801102, .u64, .ro, true, .t, true, false, 0x0⟩ /- CKPT_BYTES -/,
  ⟨0x801200, 0x801200, .octets 8, .wo, false, .o, false, false, 0x0⟩ /- RESTORE_CMD -/,
  ⟨0x801201, 0x801201, .u8, .ro, false, .o, false, false, 0x0⟩ /- RESTORE_STATE -/,
  ⟨0x801202, 0x801202, .octets 1024, .ro, false, .o, false, false, 0x0⟩ /- MIXED_SHARDS -/,
  ⟨0x802000, 0x802000, .u8, .wo, false, .o, false, false, 0x0⟩ /- RECLAIM_CMD -/,
  ⟨0x802001, 0x802001, .u8, .ro, false, .o, false, false, 0x0⟩ /- RECLAIM_STATE -/,
  ⟨0x802002, 0x802002, .u32, .rw, true, .o, false, false, 0x7D0⟩ /- RECLAIM_STEP_WAIT_MS -/,
  ⟨0x802003, 0x802003, .u16, .rw, false, .o, false, false, 0xFFFF⟩ /- BUDDY_HANDOFF -/,
  ⟨0x900100, 0x900100, .u8, .rw, false, .o, false, false, 0x0⟩ /- REPLAY_MODE -/,
  ⟨0x900101, 0x900101, .u16, .rw, false, .o, false, false, 0x0⟩ /- REPLAY_CTX -/,
  ⟨0x900102, 0x900102, .u8, .rw, true, .o, false, false, 0x0⟩ /- REPLAY_ON_FULL -/,
  ⟨0x900103, 0x900103, .u16, .rw, true, .o, false, false, 0x400⟩ /- REPLAY_BUF_MIB -/,
  ⟨0x900104, 0x900104, .octets 16, .rw, false, .o, false, false, 0x0⟩ /- REPLAY_SINK -/,
  ⟨0x900105, 0x900105, .octets 16, .rw, false, .o, false, false, 0x0⟩ /- REPLAY_SOURCE -/,
  ⟨0x900106, 0x900106, .u32, .rw, false, .o, false, false, 0x0⟩ /- REPLAY_START_GEN -/,
  ⟨0x900200, 0x900200, .u32, .ro, false, .o, false, false, 0x0⟩ /- REPLAY_EPOCH -/,
  ⟨0x900201, 0x900201, .u32, .ro, true, .o, false, false, 0x0⟩ /- REPLAY_NEXT_SEQ -/,
  ⟨0x900202, 0x900202, .u32, .ro, true, .o, false, false, 0x0⟩ /- REPLAY_GAPS -/,
  ⟨0x900300, 0x900300, .u32, .rw, false, .t, true, false, 0x0⟩ /- DIGEST_EVERY -/,
  ⟨0x900301, 0x900308, .u16, .rw, false, .t, true, false, 0xFFFF⟩ /- DIGEST_TENSOR -/,
  ⟨0x900309, 0x900309, .octets 88, .ro, true, .t, true, false, 0x0⟩ /- DIGEST_LAST -/,
  ⟨0x900400, 0x900400, .octets 32, .ro, false, .t, true, false, 0x0⟩ /- DIVERGENCE -/,
  ⟨0x900500, 0x900500, .octets 32, .ro, true, .t, true, false, 0x0⟩ /- STEP_TIMING -/,
  ⟨0x901000, 0x901000, .u64, .rw, false, .t, true, false, 0x0⟩ /- SR_SEED -/,
  ⟨0xA00100, 0xA00100, .bool, .rw, false, .o, false, false, 0x1⟩ /- TASTER_EN -/,
  ⟨0xA00101, 0xA00101, .u32, .rw, true, .o, false, false, 0x2710⟩ /- TASTER_INTERVAL_US -/,
  ⟨0xA00102, 0xA00102, .u32, .rw, true, .o, false, false, 0x9C4⟩ /- TASTER_RAISED_US -/,
  ⟨0xA00200, 0xA00200, .octets 8, .wo, false, .o, false, false, 0x0⟩ /- TASTER_REQ -/,
  ⟨0xA00201, 0xA00228, .u8, .ro, true, .o, false, false, 0x0⟩ /- TASTER_QUEUE -/]

/-- Entries, part 7. -/
def entries7 : List EDesc := [
  ⟨0xA00301, 0xA00328, .octets 16, .ro, true, .o, false, false, 0x0⟩ /- TASTER_SWEEP -/,
  ⟨0xA00400, 0xA00400, .u64, .ro, true, .o, false, false, 0x0⟩ /- SLICES_RUN -/,
  ⟨0xA00401, 0xA00401, .u32, .ro, true, .o, false, false, 0x0⟩ /- SLICES_FAILED -/,
  ⟨0xA00501, 0xA00508, .u8, .ro, false, .o, false, true, 0xC⟩ /- SPARES_LEFT -/,
  ⟨0xA00601, 0xA00608, .octets 1000, .ro, true, .o, false, true, 0x0⟩ /- CLUSTER_MAP -/,
  ⟨0xA00701, 0xA00708, .octets 32, .ro, true, .o, false, true, 0x0⟩ /- WAYS_RETIRED -/,
  ⟨0xA00801, 0xA00810, .u16, .ro, true, .o, false, true, 0x0⟩ /- PAGES_REMAPPED -/,
  ⟨0xA00900, 0xA00900, .octets 8, .ro, true, .o, false, false, 0x0⟩ /- FULL_TEST_RESULT -/,
  ⟨0xB00100, 0xB00100, .u16, .ro, false, .t, false, false, 0x0⟩ /- POWER_COARSE_W -/,
  ⟨0xC00100, 0xC00100, .u8, .ro, false, .t, false, false, 0x2⟩ /- PTP_STATE -/,
  ⟨0xC00101, 0xC00101, .i32, .ro, true, .o, false, false, 0x0⟩ /- PTP_OFFSET_NS -/,
  ⟨0xC00200, 0xC00200, .u32, .rw, true, .o, false, false, 0x3E8⟩ /- PS_HOLDOVER_MS -/,
  ⟨0xC01000, 0xC010FF, .u32, .rw, false, .o, false, false, 0x0⟩ /- PS_PERIOD_NS -/,
  ⟨0xC01100, 0xC011FF, .u64, .rw, false, .o, false, false, 0x0⟩ /- PS_EPOCH -/,
  ⟨0xC01200, 0xC012FF, .u64, .rw, false, .o, false, false, 0x0⟩ /- PS_WINDOW -/,
  ⟨0xC01300, 0xC013FF, .u32, .rw, false, .o, false, false, 0x0⟩ /- PS_SLOT_NS -/,
  ⟨0xC01400, 0xC014FF, .u32, .rw, false, .o, false, false, 0x0⟩ /- PS_DEADLINE_NS -/,
  ⟨0xC01500, 0xC015FF, .u8, .rw, false, .o, false, false, 0x0⟩ /- PS_TARGET -/,
  ⟨0xC01600, 0xC016FF, .u16, .rw, false, .o, false, false, 0x0⟩ /- PS_CONTEXT -/,
  ⟨0xC01700, 0xC017FF, .u64, .rw, false, .o, false, false, 0x0⟩ /- PS_DESC -/,
  ⟨0xC01800, 0xC018FF, .u32, .rw, false, .o, false, false, 0x101⟩ /- PS_ANS_SHAPE -/,
  ⟨0xC01900, 0xC019FF, .u32, .rw, false, .o, false, false, 0x1⟩ /- PS_MEAS_CH -/,
  ⟨0xC01A00, 0xC01AFF, .u8, .rw, false, .o, false, false, 0x0⟩ /- PS_STALE_MAX -/,
  ⟨0xC01B00, 0xC01BFF, .u8, .rw, false, .o, false, false, 0x3⟩ /- PS_HOLD_AFTER -/,
  ⟨0xC01C00, 0xC01CFF, .octets 20, .rw, false, .o, false, false, 0x0⟩ /- PS_GATEWAY -/,
  ⟨0xC01D00, 0xC01DFF, .u8, .wo, false, .o, false, false, 0x0⟩ /- PS_CTRL -/,
  ⟨0xC01E00, 0xC01EFF, .u8, .ro, false, .t, false, false, 0x0⟩ /- PS_STATE -/,
  ⟨0xC01F00, 0xC01FFF, .u16, .ro, false, .t, false, false, 0x0⟩ /- PS_GEN -/,
  ⟨0xC02000, 0xC020FF, .u64, .ro, true, .t, false, false, 0x0⟩ /- PS_ANSWERS -/,
  ⟨0xC02100, 0xC021FF, .u64, .ro, true, .t, false, false, 0x0⟩ /- PS_FALLBACKS -/,
  ⟨0xC02200, 0xC022FF, .u64, .ro, true, .t, false, false, 0x0⟩ /- PS_LATE -/,
  ⟨0xC02300, 0xC023FF, .u64, .ro, true, .t, false, false, 0x0⟩ /- PS_STALE -/,
  ⟨0xC02400, 0xC024FF, .u64, .ro, true, .t, false, false, 0x0⟩ /- PS_BAD -/,
  ⟨0xC02500, 0xC025FF, .u64, .ro, true, .t, false, false, 0x0⟩ /- PS_TX_LATE -/]

/-- Every entry, in rising order of keys. -/
def entries : List EDesc := entries1 ++ entries2 ++ entries3 ++ entries4 ++ entries5 ++ entries6 ++ entries7

/-- The entry of a key. -/
def entryOf (k : Nat) : Option EDesc := entries.find? (fun e => decide (e.lo ≤ k ∧ k ≤ e.hi))

/-- Trip limit of a die index (Table 19.8). -/
def tripLimit (die : Nat) : Nat :=
  if die < 8 then 115 else if die < 24 then 110 else if die < 30 then 115 else if die < 38 then 105
  else if die < 39 then 115 else 125

/-- Default of an entry; the runs whose sub-indices differ are given here. -/
def entryDefault (k : Nat) : Nat :=
  if 0x301000 ≤ k ∧ k ≤ 0x301003 then [8, 4, 2, 2].getD (k - 0x301000) 0
  else if 0x403000 ≤ k ∧ k ≤ 0x403007 then [10, 30, 30, 25, 10, 100, 5, 0].getD (k - 0x403000) 0
  else if 0x200901 ≤ k ∧ k ≤ 0x200928 then tripLimit (k - 0x200901)
  else match entryOf k with
    | some e => e.dflt
    | none => 0

/-- Size of a type in bytes. -/
def typeSize : EType → Nat
  | .bool | .u8 | .i8 => 1
  | .u16 | .i16 => 2
  | .u32 | .i32 => 4
  | .u64 | .i64 | .f64 => 8
  | .octets n => n
  | .digest => 64

/-- Code of a type (Table 16.1). -/
def typeCode : EType → Nat
  | .bool => 1 | .u8 => 2 | .u16 => 3 | .u32 => 4 | .u64 => 5 | .i8 => 6 | .i16 => 7 | .i32 => 8 | .i64 => 9
  | .f64 => 10 | .octets _ => 11 | .digest => 12

/-- Code of an access (R380). -/
def accessCode : EAccess → Nat
  | .const => 0 | .ro => 1 | .rw => 2 | .wo => 3

/-- Rank of an authority. -/
def authRank : Auth → Nat
  | .t => 0 | .o => 1 | .w => 2 | .p => 3

end Sys2Proof.Machine
end

