-- ==== Sys2Proof/Config.lean ====
section
/-! DEFINITION. The free values: results the spec leaves open after an operation that completes. Each is an opaque
constant without a body, so that a claim holds whatever its value is (log entry 6). -/

namespace Sys2Proof.Config

open Sys2Proof

/-- Which neighbour of the exact value an activation's fixed algorithm returns, the one above or the one below, by function,
format, argument bits and rounding mode: R123 bounds the result and fixes no algorithm. -/
opaque actUp : Act → Fmt → Nat → Nat → Bool

/-- Whether gelu's algorithm returns the second neighbour on that side, which its bound of 2 units admits, by format, argument
bits and rounding mode. -/
opaque geluAway : Fmt → Nat → Nat → Bool

/-- Whether a Whisk fused multiply-add of infinity and zero with a quiet NaN addend raises INVALID: IEEE 754-2019
leaves it to the implementation, and R42 names no choice. -/
opaque fmaQuietNanInvalid : Bool

/-- Which of the old and the new element a move leaves at position `i` when it halts on an index (R453). -/
opaque moveMix : Nat → Nat → Bool

/-- What a sum of FP64 products comes to in a solver method, whose fixed order of operations is not stated (R180). Arguments: what that order
depends on, the place of the sum in the method, the value that the products join, the factors of each product. -/
opaque solverSum : List Nat → Nat → Nat → List (Nat × Nat) → Nat

/-- Whether DENSE_LU's matrix lies by rows: R172 gives no order. -/
opaque denseRows : Bool

/-- First ticket number of a worker: SOLVE returns a ticket whose number no rule names (R69). -/
opaque ticketBase : Nat

/-- Which 64 KiB page of its stack a page of the device is: R141 gives the stack, and no rule the stack-local address. -/
opaque stackPage : Nat → Nat

/-- Whether the translator cuts an L2 tensor into eight parts, by its version, the module's digest and the tensor: the rule is fixed for each
XLATE_VERSION and not stated (R143). -/
opaque partitioned : Nat → Nat → Nat → Bool

/-- What the runtime does with the placement at a step point, by the context's serial number and the step ordinal: tensors whose placement it changes,
with 0 for interleaved, 1 for in parts, 2 for a return to its own level. R160 says that it may, and not when. -/
opaque moves : Nat → Nat → List (Nat × Nat)

/-- Whether the other device's entries match this one's loan: its own are all that a device holds (R163). Arguments: that device, the loan's size. -/
opaque loanMatched : Nat → Nat → Bool

/-- Where in the lender's memory the lines of a context begin: R159 gives no place. -/
opaque peerBase : Nat → Nat

/-- Data unit number under which a borrower encrypts a line that it sends to a lender: R159 names the key and no unit. Arguments:
context, line. -/
opaque peerUnit : Nat → Nat → Nat

/-- The register group, 0-7, in which the native code of an op holds an operand (0 v[A], 1 v[B]), where it does: the form of each op
belongs to the native code (R118). Arguments: module digest, code word, operand. -/
opaque heldOperand : Nat → Nat → Nat → Option (Fin 8)

/-- Format code that an empty view of a collective contributes to its signature: R268 names none. -/
opaque emptyFmt : Nat

/-- FLOW of the packets of a collective's chunk: no unit field of Table 1.2 names the adder that sends them. -/
opaque collFlow : Nat → Nat

/-- KIND of the packets that carry messages between stewards on VC0: Tables 9.3 and 10.3 name none. -/
opaque ctlKind : Nat

/-- KIND of a test pattern on VC7, and its payload by the draw counter: no rule names either. -/
opaque testKind : Nat

/-- The pattern itself. -/
opaque testPattern : Nat → BitVec 2048

/-- What the members and the storage report when RESTORE_CMD is written by a plain dictionary write: the generations with a
verified manifest, and rank, generation, step and source of each generation that a rank can restore; by the draw counter. -/
opaque restoreFacts : Nat → List Nat × List (Nat × Nat × Nat × Nat)

/-- Fresh bytes: initial vectors, salts, ciphertexts, native code sizes and other values the package draws or
computes by an unstated rule; by the draw counter and the byte index. -/
opaque freeByte : Nat → Nat → BitVec 8

/-- Fresh natural number of the same kind, by the draw counter. -/
opaque freeNat : Nat → Nat

end Sys2Proof.Config
end

