-- ==== Sys2Proof/Machine/Num.lean ====
section
/-! DEFINITION. Number formats (02): decoding to exact values, rounding with flags, arithmetic, comparison,
conversion, stochastic rounding, exact and reproducible sums. Elements travel as their bit patterns in `Nat`. -/

namespace Sys2Proof.Machine

open Sys2Proof

/-! ### Status flags (Table 2.4) -/

/-- ASW flag bits, or a set of them. -/
abbrev Flags := BitVec 32

/-- INEXACT, bit 0. -/
def fInexact : Flags := 0x01
/-- UNDERFLOW, bit 1. -/
def fUnderflow : Flags := 0x02
/-- OVERFLOW, bit 2. -/
def fOverflow : Flags := 0x04
/-- DIVZERO, bit 3. -/
def fDivzero : Flags := 0x08
/-- INVALID, bit 4. -/
def fInvalid : Flags := 0x10
/-- OVF_SAT, bit 5. -/
def fOvfSat : Flags := 0x20
/-- ACC_SAT, bit 6. -/
def fAccSat : Flags := 0x40
/-- FTZ_IN, bit 7. -/
def fFtzIn : Flags := 0x80

/-- A flag raised on a condition. -/
def flagIf (c : Bool) (f : Flags) : Flags := if c then f else 0

/-! ### Formats (R32, R33) -/

/-- Format code of Table 2.1. -/
def fmtCode : Fmt → Nat
  | .fp64 => 0 | .fp32 => 1 | .fp16 => 2 | .jf16 => 3 | .jf8e => 4 | .jf8m => 5 | .int8 => 6 | .int4 => 7 | .int32 => 8

/-- Format of a code; none for the reserved codes. -/
def fmtOf : Nat → Option Fmt
  | 0 => some .fp64 | 1 => some .fp32 | 2 => some .fp16 | 3 => some .jf16 | 4 => some .jf8e | 5 => some .jf8m
  | 6 => some .int8 | 7 => some .int4 | 8 => some .int32 | _ => none

/-- Element width in bits. -/
def fmtBits : Fmt → Nat
  | .fp64 => 64 | .fp32 => 32 | .fp16 => 16 | .jf16 => 16 | .jf8e => 8 | .jf8m => 8 | .int8 => 8 | .int4 => 4
  | .int32 => 32

/-- The six floating-point formats. -/
def isFloat : Fmt → Bool
  | .int8 | .int4 | .int32 => false
  | _ => true

/-- The three short floating-point formats, whose conversions saturate (R52) and may round stochastically (R55). -/
def isShort : Fmt → Bool
  | .jf16 | .jf8e | .jf8m => true
  | _ => false

/-- A row of Table 2.2: fraction bits, exponent bits, bias, whether subnormals and infinities exist, the largest
finite magnitude's bits and the canonical NaN (R36). -/
structure FSpec where
  m      : Nat
  e      : Nat
  bias   : Nat
  sub    : Bool
  inf    : Bool
  maxMag : Nat
  cnan   : Nat
  deriving DecidableEq, Repr

/-- Table 2.2; the integer formats have no row and give FP32's, which nothing reads. -/
def fspec : Fmt → FSpec
  | .fp64 => ⟨52, 11, 1023, true, true, 0x7FEFFFFFFFFFFFFF, 0x7FF8000000000000⟩
  | .fp16 => ⟨10, 5, 15, true, true, 0x7BFF, 0x7E00⟩
  | .jf16 => ⟨7, 8, 127, false, true, 0x7F7F, 0x7FC0⟩
  | .jf8e => ⟨2, 5, 16, true, true, 0x7B, 0x7E⟩
  | .jf8m => ⟨3, 4, 8, true, false, 0x7E, 0x7F⟩
  | _ => ⟨23, 8, 127, true, true, 0x7F7FFFFF, 0x7FC00000⟩

/-- An exact value. `fin neg sig exp` is ± sig × 2^exp with `sig` not zero. -/
inductive Num where
  | zero (neg : Bool)
  | fin (neg : Bool) (sig : Nat) (exp : Int)
  | inf (neg : Bool)
  | nan (signalling : Bool)
  deriving DecidableEq, Repr

/-- The canonical NaN of a format (R36). -/
def canonicalNaN (f : Fmt) : Nat := (fspec f).cnan

/-- The sign bit's weight. -/
def signBit (f : Fmt) : Nat := 2 ^ (fmtBits f - 1)

/-- A magnitude with a sign. -/
def withSign (f : Fmt) (neg : Bool) (mag : Nat) : Nat := if neg then signBit f + mag else mag

/-- Infinity of a format that has one. -/
def infBits (f : Fmt) (neg : Bool) : Nat := withSign f neg ((2 ^ (fspec f).e - 1) * 2 ^ (fspec f).m)

/-- The largest finite value. -/
def maxBits (f : Fmt) (neg : Bool) : Nat := withSign f neg (fspec f).maxMag

/-- Two's complement value of `w` bits. -/
def toSigned (w bits : Nat) : Int :=
  let b := bits % 2 ^ w
  if 2 ^ w ≤ 2 * b then (b : Int) - 2 ^ w else b

/-- Two's complement bits of an integer. -/
def ofSigned (w : Nat) (v : Int) : Nat := (v % (2 ^ w : Int)).toNat

/-- An integer as an exact value. -/
def numOfInt (v : Int) (exp : Int) : Num :=
  if v = 0 then .zero false else .fin (decide (v < 0)) v.natAbs exp

/-- Decodes an element exactly (R33 to R37). A JF16 pattern with E = 0 and F ≠ 0 is a zero of its sign (R34). -/
def decode (f : Fmt) (bits : Nat) : Num :=
  if isFloat f then
    let p := fspec f
    let neg := decide (bits / signBit f % 2 = 1)
    let E := bits / 2 ^ p.m % 2 ^ p.e
    let F := bits % 2 ^ p.m
    let top := 2 ^ p.e - 1
    if E = top ∧ p.inf then
      if F = 0 then .inf neg else .nan (decide (F < 2 ^ (p.m - 1)))
    else if E = top ∧ F = 2 ^ p.m - 1 then .nan false
    else if E = 0 then
      if F = 0 ∨ p.sub = false then .zero neg else .fin neg F (1 - p.bias - p.m)
    else .fin neg (2 ^ p.m + F) (E - p.bias - p.m)
  else numOfInt (toSigned (fmtBits f) bits) 0

/-- Whether an element is a pattern with E = 0 and F ≠ 0. -/
def isSubnormal (f : Fmt) (bits : Nat) : Bool :=
  isFloat f && decide (bits / 2 ^ (fspec f).m % 2 ^ (fspec f).e = 0) && decide (bits % 2 ^ (fspec f).m ≠ 0)

/-- FTZ_IN as the Whisk raises it on reading: only for JF16 (R34, Table 2.4). -/
def readFlags (f : Fmt) (bits : Nat) : Flags := flagIf (decide (f = .jf16) && isSubnormal f bits) fFtzIn

/-- Signalling NaN test. -/
def Num.isSNaN : Num → Bool
  | .nan s => s
  | _ => false

/-- NaN test. -/
def Num.isNaN : Num → Bool
  | .nan _ => true
  | _ => false

/-- INVALID for a signalling NaN that is read (R36). -/
def snanFlag (xs : List Num) : Flags := flagIf (xs.any Num.isSNaN) fInvalid

/-- A value with its sign reversed. -/
def Num.negate : Num → Num
  | .zero n => .zero (!n)
  | .fin n s e => .fin (!n) s e
  | .inf n => .inf (!n)
  | .nan s => .nan s

/-! ### Rounding -/

/-- Rounding modes, ACW.RM (Table 2.3). -/
inductive RM where
  | rne | rtz | rup | rdn
  deriving DecidableEq, Repr

/-- ACW.RM. -/
def rmOf (acw : BitVec 32) : RM :=
  match (acw.toNat % 4) with
  | 0 => .rne | 1 => .rtz | 2 => .rup | _ => .rdn

/-- Code of a rounding mode. -/
def rmCode : RM → Nat
  | .rne => 0 | .rtz => 1 | .rup => 2 | .rdn => 3

/-- ACW.SR_EN. -/
def srEn (acw : BitVec 32) : Bool := acw.getLsbD 2

/-- `sig / 2^shift` rounded to an integer, and whether it changed. -/
def roundShift (rm : RM) (neg : Bool) (sig shift : Nat) : Nat × Bool :=
  let q := sig / 2 ^ shift
  let r := sig % 2 ^ shift
  let up : Bool := match rm with
    | .rne => decide (2 ^ shift < 2 * r) || (decide (2 * r = 2 ^ shift) && decide (q % 2 = 1))
    | .rtz => false
    | .rup => !neg && decide (r ≠ 0)
    | .rdn => neg && decide (r ≠ 0)
  (if up then q + 1 else q, decide (r ≠ 0))

/-- `sig × 2^exp` rounded to a multiple of `2^lsb`: the multiple, and whether it changed. -/
def roundTo (rm : RM) (neg : Bool) (sig : Nat) (exp lsb : Int) : Nat × Bool :=
  if lsb ≤ exp then (sig * 2 ^ (exp - lsb).toNat, false) else roundShift rm neg sig (lsb - exp).toNat

/-- How small and large results are treated: IEEE (R42), the Griddle's flush rule (R49), or a conversion to a short
format (R52, R54). -/
inductive RRule where
  | ieee | flush | saturate
  deriving DecidableEq, Repr

/-- Whether IEEE overflow gives infinity under a mode. -/
def overflowToInf (rm : RM) (neg : Bool) : Bool :=
  match rm with
  | .rne => true | .rtz => false | .rup => !neg | .rdn => neg

/-- Exponent of the leading bit of `sig × 2^exp`. -/
def topExp (sig : Nat) (exp : Int) : Int := exp + Nat.log2 sig

/-- Magnitude bits of `q × 2^lsb` on the target's grid, subnormals included; `q` may be one past the significand. -/
def magBits (p : FSpec) (q : Nat) (lsb : Int) : Nat := (lsb - (1 - p.bias - p.m)).toNat * 2 ^ p.m + q

/-- Rounds the exact value ± sig × 2^exp (sig not zero) once to a floating-point format. Tininess is judged after
rounding with an unbounded exponent (R54). -/
def roundFloat (f : Fmt) (rule : RRule) (rm : RM) (neg : Bool) (sig : Nat) (exp : Int) : Nat × Flags :=
  let p := fspec f
  let e := topExp sig exp
  let emin : Int := 1 - p.bias
  let lsbU := e - p.m
  let (qU, chU) := roundTo rm neg sig exp lsbU
  let tiny := decide (topExp qU lsbU < emin)
  if tiny then
    if rule = .flush ∨ p.sub = false then (withSign f neg 0, fUnderflow ||| fInexact)
    else
      let (q, ch) := roundTo rm neg sig exp (emin - p.m)
      (withSign f neg q, flagIf ch (fUnderflow ||| fInexact))
  else
    let mag := if e < emin then 2 ^ p.m else magBits p qU lsbU
    if p.maxMag < mag then
      if rule = .saturate then (maxBits f neg, fOvfSat ||| fInexact)
      else (if overflowToInf rm neg then infBits f neg else maxBits f neg, fOverflow ||| fInexact)
    else (withSign f neg mag, flagIf chU fInexact)

/-- The rounding rule of a conversion to a format (R52, R54). -/
def convRule (f : Fmt) : RRule := if isShort f then .saturate else .ieee

/-- The bits of a value that the format holds exactly, or its rounding under the IEEE rule. -/
def encodeNum (f : Fmt) (rm : RM) : Num → Nat × Flags
  | .zero n => (if isFloat f then withSign f n 0 else 0, 0)
  | .inf n => (infBits f n, 0)
  | .nan _ => (canonicalNaN f, 0)
  | .fin n s e => if isFloat f then roundFloat f .ieee rm n s e
      else (ofSigned (fmtBits f) ((if n then -1 else 1) * (s : Int) * 2 ^ e.toNat), 0)

/-! ### Arithmetic (R41, R42, R47 to R50) -/

/-- Exact product; the flag says infinity times zero. -/
def mulNum : Num → Num → Num × Bool
  | .nan s, .nan t => (.nan (s || t), false)
  | .nan s, _ => (.nan s, false)
  | _, .nan t => (.nan t, false)
  | .inf _, .zero _ => (.nan false, true)
  | .zero _, .inf _ => (.nan false, true)
  | .inf a, .inf b => (.inf (a != b), false)
  | .inf a, .fin b _ _ => (.inf (a != b), false)
  | .fin a _ _, .inf b => (.inf (a != b), false)
  | .zero a, .zero b => (.zero (a != b), false)
  | .zero a, .fin b _ _ => (.zero (a != b), false)
  | .fin a _ _, .zero b => (.zero (a != b), false)
  | .fin a s e, .fin b t d => (.fin (a != b) (s * t) (e + d), false)

/-- Exact sum of two dyadic numbers given as integer and exponent. -/
def addDyadic (x y : Int × Int) : Int × Int :=
  if x.2 ≤ y.2 then (x.1 + y.1 * 2 ^ (y.2 - x.2).toNat, x.2) else (x.1 * 2 ^ (x.2 - y.2).toNat + y.1, y.2)

/-- A finite value as integer and exponent. -/
def Num.dyadic : Num → Int × Int
  | .fin n s e => (if n then -(s : Int) else s, e)
  | _ => (0, 0)

/-- Exact sum of the finite terms. -/
def sumDyadic (xs : List Num) : Int × Int :=
  xs.foldl (fun acc x => match x with | .fin _ _ _ => addDyadic acc x.dyadic | _ => acc) (0, 0)

/-- The zero-sign rule (R41): true for −0. -/
def zeroSign (rm : RM) (xs : List Num) : Bool :=
  if xs.all (fun x => decide (x = .zero true)) then true
  else if xs.all (fun x => decide (x = .zero false)) then false
  else decide (rm = .rdn)

/-- The exact sum of terms, rounded once (R47 to R49; for two terms, IEEE addition). `bad` says that a product was
infinity times zero. Opposite infinities and `bad` raise INVALID and give a NaN. -/
def fusedSum (f : Fmt) (rule : RRule) (rm : RM) (xs : List Num) (bad : Bool) : Nat × Flags :=
  let opposite := xs.any (fun x => decide (x = .inf true)) && xs.any (fun x => decide (x = .inf false))
  let inv := flagIf (bad || opposite) fInvalid
  if bad || opposite || xs.any Num.isNaN then (canonicalNaN f, inv)
  else if xs.any (fun x => decide (x = .inf true)) then (infBits f true, 0)
  else if xs.any (fun x => decide (x = .inf false)) then (infBits f false, 0)
  else
    let s := sumDyadic xs
    if s.1 = 0 then (withSign f (zeroSign rm xs) 0, 0)
    else roundFloat f rule rm (decide (s.1 < 0)) s.1.natAbs s.2

/-- INT32 value held to its range, with ACC_SAT (R37, R50, R121). -/
def satInt32 (v : Int) : Nat × Flags :=
  if 0x7FFFFFFF < v then (0x7FFFFFFF, fAccSat)
  else if v < -0x80000000 then (0x80000000, fAccSat)
  else (ofSigned 32 v, 0)

/-- An element as a signed integer. -/
def intVal (f : Fmt) (bits : Nat) : Int := toSigned (fmtBits f) bits

/-- IEEE division with a sticky bit below 64 quotient bits. -/
def divNum (f : Fmt) (rm : RM) (x y : Num) : Nat × Flags :=
  match x, y with
  | .nan _, _ => (canonicalNaN f, 0)
  | _, .nan _ => (canonicalNaN f, 0)
  | .inf _, .inf _ => (canonicalNaN f, fInvalid)
  | .zero _, .zero _ => (canonicalNaN f, fInvalid)
  | .inf a, .zero b => (infBits f (a != b), 0)
  | .inf a, .fin b _ _ => (infBits f (a != b), 0)
  | .zero a, .inf b => (withSign f (a != b) 0, 0)
  | .zero a, .fin b _ _ => (withSign f (a != b) 0, 0)
  | .fin a _ _, .inf b => (withSign f (a != b) 0, 0)
  | .fin a _ _, .zero b => (infBits f (a != b), fDivzero)
  | .fin a s e, .fin b t d =>
    let k := 64 + Nat.log2 t
    let n := s * 2 ^ k
    let q := 2 * (n / t) + (if n % t = 0 then 0 else 1)
    roundFloat f .ieee rm (a != b) q (e - d - k - 1)

/-- Integer square root by bits, from bit `k` down. -/
def isqrtFrom (n : Nat) : Nat → Nat → Nat
  | 0, r => r
  | k + 1, r => isqrtFrom n k (if (r + 2 ^ k) * (r + 2 ^ k) ≤ n then r + 2 ^ k else r)

/-- Integer square root. -/
def isqrt (n : Nat) : Nat := isqrtFrom n (Nat.log2 n / 2 + 1) 0

/-- IEEE square root. -/
def sqrtNum (f : Fmt) (rm : RM) : Num → Nat × Flags
  | .nan _ => (canonicalNaN f, 0)
  | .zero n => (withSign f n 0, 0)
  | .inf true => (canonicalNaN f, fInvalid)
  | .inf false => (infBits f false, 0)
  | .fin true _ _ => (canonicalNaN f, fInvalid)
  | .fin false s e =>
    let s' := if e % 2 = 0 then s else 2 * s
    let e' := if e % 2 = 0 then e else e - 1
    let n := s' * 2 ^ 128
    let r := isqrt n
    roundFloat f .ieee rm false (2 * r + (if r * r = n then 0 else 1)) (e' / 2 - 64 - 1)

/-! ### Comparison (R40) -/

/-- Strictly less, for values that are not NaN; with `tie`, −0 is less than +0. -/
def numLt (tie : Bool) (x y : Num) : Bool :=
  match x, y with
  | .inf true, .inf true => false
  | .inf true, _ => true
  | _, .inf true => false
  | .inf false, _ => false
  | _, .inf false => true
  | .zero a, .zero b => tie && a && !b
  | _, _ =>
    let a := x.dyadic
    let b := y.dyadic
    decide ((addDyadic a (-b.1, b.2)).1 < 0)

/-- Maximum (`max := true`) or minimum of IEEE 754-2019, as element bits. -/
def maxMin (f : Fmt) (max : Bool) (a b : Nat) : Nat × Flags :=
  let x := decode f a
  let y := decode f b
  let fl := readFlags f a ||| readFlags f b ||| snanFlag [x, y]
  if x.isNaN || y.isNaN then (canonicalNaN f, fl)
  else
    let takeY := if max then numLt true x y else numLt true y x
    ((encodeNum f .rne (if takeY then y else x)).1, fl)

/-- WCMP on one element (R40). -/
def compareElem (f : Fmt) (op : CmpOp) (a b : Nat) : Bool × Flags :=
  let x := decode f a
  let y := decode f b
  let fl := readFlags f a ||| readFlags f b
  let nan := x.isNaN || y.isNaN
  let ordered := match op with | .lt | .le => true | _ => false
  let inv := flagIf ((nan && ordered) || x.isSNaN || y.isSNaN) fInvalid
  let r : Bool := match op with
    | .eq => !nan && !numLt false x y && !numLt false y x
    | .ne => nan || numLt false x y || numLt false y x
    | .lt => !nan && numLt false x y
    | .le => !nan && !numLt false y x
  (r, fl ||| inv)

/-! ### Element operations of the Whisk (R42, R36, R121) -/

/-- Only the sign bit of `a` replaced. -/
def setSign (f : Fmt) (neg : Bool) (a : Nat) : Nat := withSign f neg (a % signBit f)

/-- Sign bit of an element. -/
def signOf (f : Fmt) (a : Nat) : Bool := decide (a / signBit f % 2 = 1)

/-- WBIN on one element. -/
def binElem (f : Fmt) (op : BinOp) (rm : RM) (a b : Nat) : Nat × Flags :=
  let x := decode f a
  let y := decode f b
  let sn := snanFlag [x, y]
  match op with
  | .copysign => (setSign f (signOf f b) a, 0)
  | .max => maxMin f true a b
  | .min => maxMin f false a b
  | .add => if f = .int32 then satInt32 (intVal f a + intVal f b) else
      let r := fusedSum f .ieee rm [x, y] false
      (r.1, r.2 ||| sn)
  | .sub => if f = .int32 then satInt32 (intVal f a - intVal f b) else
      let r := fusedSum f .ieee rm [x, y.negate] false
      (r.1, r.2 ||| sn)
  | .mul => if f = .int32 then satInt32 (intVal f a * intVal f b) else
      let m := mulNum x y
      let r := fusedSum f .ieee rm [m.1] m.2
      (r.1, r.2 ||| sn)
  | .div =>
      let r := divNum f rm x y
      (r.1, r.2 ||| sn)

/-- WFMA on one element: a × b + c, one rounding. For infinity times zero plus a quiet NaN, IEEE 754-2019 leaves
INVALID to the implementation: the free value of `Config`. -/
def fmaElem (f : Fmt) (rm : RM) (a b c : Nat) : Nat × Flags :=
  let x := decode f a
  let y := decode f b
  let z := decode f c
  let m := mulNum x y
  let r := fusedSum f .ieee rm [m.1, z] m.2
  let fl := if m.2 && z.isNaN && !z.isSNaN then flagIf Config.fmaQuietNanInvalid fInvalid else r.2
  (r.1, fl ||| snanFlag [x, y, z])

/-- WUN on one element. -/
def unElem (f : Fmt) (op : UnOp) (rm : RM) (a : Nat) : Nat × Flags :=
  match op with
  | .neg => (setSign f (!signOf f a) a, 0)
  | .abs => (setSign f false a, 0)
  | .sqrt =>
    let x := decode f a
    let r := sqrtNum f rm x
    (r.1, r.2 ||| snanFlag [x])

/-- Power of two as an element (exact). -/
def pow2Bits (f : Fmt) (neg : Bool) (e : Int) : Nat := (roundFloat f .ieee .rne neg 1 e).1

/-! ### Conversion (R51 to R54) and stochastic rounding (R55, R56) -/

/-- The range of an integer format. -/
def intMin (f : Fmt) : Int := -(2 ^ (fmtBits f - 1) : Int)
/-- The range of an integer format. -/
def intMax (f : Fmt) : Int := 2 ^ (fmtBits f - 1) - 1

/-- Nearer end of an integer target's range (Tables 2.7, 2.8). -/
def intEnd (f : Fmt) (neg : Bool) : Nat := ofSigned (fmtBits f) (if neg then intMin f else intMax f)

/-- A finite value rounded to an integer target. -/
def roundInt (f : Fmt) (rm : RM) (neg : Bool) (sig : Nat) (exp : Int) : Nat × Flags :=
  let (q, ch) := roundTo rm neg sig exp 0
  let v : Int := if neg then -(q : Int) else q
  if v < intMin f ∨ intMax f < v then (intEnd f neg, fInvalid) else (ofSigned (fmtBits f) v, flagIf ch fInexact)

/-- Whether bracket `lo + 1` is taken: `sig` shifted down by `sh` bits, with the generator's output `r` (R55). -/
def srUp (sig sh r : Nat) : Bool := decide (2 ^ 16 ≤ sig % 2 ^ sh * 2 ^ 16 / 2 ^ sh + r % 2 ^ 16)

/-- Whether a value below the smallest normal one is tiny (R54): rounded with the same `r` to the target's precision, the exponent
unbounded, it stays below the smallest normal value (DEDUCED, log entry 14). -/
def srTiny (f : Fmt) (sig : Nat) (exp : Int) (r : Nat) : Bool :=
  let p := fspec f
  let lsb := topExp sig exp - p.m
  let q := if lsb ≤ exp then sig * 2 ^ (exp - lsb).toNat
    else sig / 2 ^ (lsb - exp).toNat + (if srUp sig (lsb - exp).toNat r then 1 else 0)
  decide (topExp q lsb < 1 - (p.bias : Int))

/-- Stochastic rounding of a finite value to JF16, JF8E or JF8M with the generator's output `r` (R55). Below the smallest normal
value JF8E and JF8M take their brackets on the subnormal grid, and UNDERFLOW follows `srTiny`. -/
def roundStochastic (f : Fmt) (neg : Bool) (sig : Nat) (exp : Int) (r : Nat) : Nat × Flags :=
  let p := fspec f
  let emin : Int := 1 - p.bias
  let e := topExp sig exp
  let lsb := if p.sub then max (e - p.m) (emin - p.m) else e - p.m
  if lsb ≤ exp then
    let q := sig * 2 ^ (exp - lsb).toNat
    if e < emin ∧ p.sub = false then (withSign f neg 0, fUnderflow ||| fInexact)
    else
      let mag := magBits p q lsb
      if p.maxMag < mag then (maxBits f neg, fOvfSat ||| fInexact) else (withSign f neg mag, 0)
  else
    let sh := (lsb - exp).toNat
    let q := sig / 2 ^ sh + (if srUp sig sh r then 1 else 0)
    let ch := decide (sig % 2 ^ sh ≠ 0)
    if e < emin ∧ p.sub = true then
      (withSign f neg q, flagIf ch (fInexact ||| flagIf (srTiny f sig exp r) fUnderflow))
    else if q = 0 ∨ topExp q lsb < emin then (withSign f neg 0, fUnderflow ||| fInexact)
    else
      let mag := magBits p q lsb
      if p.maxMag < mag then (maxBits f neg, fOvfSat ||| fInexact) else (withSign f neg mag, flagIf ch fInexact)

/-- Conversion of one element from `src` to `dst`; `r` carries the generator's output when the op rounds
stochastically. FMT equal to the source copies exactly (Table 5.1). -/
def convertElem (dst src : Fmt) (rm : RM) (r : Option Nat) (a : Nat) : Nat × Flags :=
  if dst = src then (a, 0)
  else
    let fl := readFlags src a
    match decode src a with
    | .nan s => if isFloat dst then (canonicalNaN dst, fl ||| flagIf s fInvalid) else (0, fl ||| fInvalid)
    | .inf n =>
      if isFloat dst then
        if (fspec dst).inf then (infBits dst n, fl) else (maxBits dst n, fl ||| fOvfSat)
      else (intEnd dst n, fl ||| fInvalid)
    | .zero n => (if isFloat dst then withSign dst n 0 else 0, fl)
    | .fin n s e =>
      if isFloat dst then
        match r with
        | some k => if isShort dst then
            let x := roundStochastic dst n s e k
            (x.1, fl ||| x.2)
          else
            let x := roundFloat dst (convRule dst) rm n s e
            (x.1, fl ||| x.2)
        | none =>
          let x := roundFloat dst (convRule dst) rm n s e
          (x.1, fl ||| x.2)
      else
        let x := roundInt dst rm n s e
        (x.1, fl ||| x.2)

/-- The mixing function of R56. -/
def mix (z0 : BitVec 64) : BitVec 64 :=
  let z := z0 + 0x9E3779B97F4A7C15
  let z := (z ^^^ (z >>> 30)) * 0xBF58476D1CE4E5B9
  let z := (z ^^^ (z >>> 27)) * 0x94D049BB133111EB
  z ^^^ (z >>> 31)

/-- The generator of R56. -/
def srBits (seed worker step op elem : Nat) : BitVec 64 :=
  let b := BitVec.ofNat 64
  let x := mix (b seed ^^^ b worker)
  let x := mix (x ^^^ b step)
  mix (x ^^^ ((b op <<< 32) ||| b elem))

/-! ### Exact sum (R58 to R60) -/

/-- The fields of an exact-sum partial (Table 2.10), `a` in units of 2^−149. -/
structure ExactP where
  nan     : Bool
  pinf    : Bool
  ninf    : Bool
  notNeg0 : Bool
  notPos0 : Bool
  terms   : Nat
  a       : Int
  deriving DecidableEq, Repr

/-- No term. -/
def ExactP.empty : ExactP := ⟨false, false, false, false, false, 0, 0⟩

/-- A Boolean as a bit. -/
def bit (b : Bool) : Nat := if b then 1 else 0

/-- Layout of Table 2.10. -/
def ExactP.pack (p : ExactP) : BitVec 384 :=
  BitVec.ofNat 384 (bit p.nan * 2 ^ 383 + bit p.pinf * 2 ^ 382 + bit p.ninf * 2 ^ 381 + bit p.notNeg0 * 2 ^ 380
    + bit p.notPos0 * 2 ^ 379 + p.terms % 2 ^ 48 * 2 ^ 328 + ofSigned 320 p.a)

/-- Layout of Table 2.10, read. -/
def ExactP.unpack (b : BitVec 384) : ExactP :=
  ⟨b.getLsbD 383, b.getLsbD 382, b.getLsbD 381, b.getLsbD 380, b.getLsbD 379, b.toNat / 2 ^ 328 % 2 ^ 48,
    toSigned 320 b.toNat⟩

/-- The partial of one term. -/
def exactTerm (x : Num) : ExactP :=
  let n0 := decide (x ≠ .zero true)
  let p0 := decide (x ≠ .zero false)
  match x with
  | .nan _ => ⟨true, false, false, n0, p0, 1, 0⟩
  | .inf false => ⟨false, true, false, n0, p0, 1, 0⟩
  | .inf true => ⟨false, false, true, n0, p0, 1, 0⟩
  | .zero _ => ⟨false, false, false, n0, p0, 1, 0⟩
  | .fin n s e => ⟨false, false, false, n0, p0, 1, (if n then -1 else 1) * (s : Int) * 2 ^ (e + 149).toNat⟩

/-- Combines two partials (R58); none when the term limit of R59 would be reached. -/
def exactCombine (x y : ExactP) : Option ExactP :=
  if 2 ^ 42 ≤ x.terms + y.terms then none
  else some ⟨x.nan || y.nan, x.pinf || y.pinf, x.ninf || y.ninf, x.notNeg0 || y.notNeg0, x.notPos0 || y.notPos0,
    x.terms + y.terms, x.a + y.a⟩

/-- Exact sum of a list of terms. -/
def exactSum : List Num → Option ExactP
  | [] => some ExactP.empty
  | x :: xs => (exactSum xs).bind (fun p => exactCombine (exactTerm x) p)

/-- Non-finite and zero results of both sums (R60), else the rounding of ± a × 2^exp. -/
def sumResult (f : Fmt) (rm : RM) (nan pinf ninf notNeg0 notPos0 : Bool) (a : Int) (exp : Int) (empty : Bool) :
    Nat × Flags :=
  if nan then (canonicalNaN f, flagIf (pinf && ninf) fInvalid)
  else if pinf && ninf then (canonicalNaN f, fInvalid)
  else if pinf then (infBits f false, 0)
  else if ninf then (infBits f true, 0)
  else if a = 0 then
    (withSign f (if empty then false else if !notNeg0 then true else if !notPos0 then false else decide (rm = .rdn)) 0, 0)
  else roundFloat f .ieee rm (decide (a < 0)) a.natAbs exp

/-- The result of an exact sum in FP32 or FP64. -/
def exactResult (f : Fmt) (rm : RM) (p : ExactP) : Nat × Flags :=
  sumResult f rm p.nan p.pinf p.ninf p.notNeg0 p.notPos0 p.a (-149) (decide (p.terms = 0))

/-! ### Reproducible sum (R61 to R63) -/

/-- M of the first pass: the largest exponent of the finite non-zero terms, else −32,768. -/
def reproM (xs : List Num) : Int :=
  xs.foldl (fun m x => match x with | .fin _ s e => max m (topExp s e) | _ => m) (-32768)

/-- The fields of a reproducible-sum partial (Table 2.11). -/
structure ReproP where
  nan     : Bool
  pinf    : Bool
  ninf    : Bool
  notNeg0 : Bool
  notPos0 : Bool
  m       : Int
  s       : Int
  deriving DecidableEq, Repr

/-- No term, with binning exponent `m`. -/
def ReproP.empty (m : Int) : ReproP := ⟨false, false, false, false, false, m, 0⟩

/-- Layout of Table 2.11. -/
def ReproP.pack (p : ReproP) : BitVec 256 :=
  BitVec.ofNat 256 (bit p.nan * 2 ^ 255 + bit p.pinf * 2 ^ 254 + bit p.ninf * 2 ^ 253 + bit p.notNeg0 * 2 ^ 252
    + bit p.notPos0 * 2 ^ 251 + ofSigned 16 p.m * 2 ^ 224 + ofSigned 192 p.s)

/-- Layout of Table 2.11, read. -/
def ReproP.unpack (b : BitVec 256) : ReproP :=
  ⟨b.getLsbD 255, b.getLsbD 254, b.getLsbD 253, b.getLsbD 252, b.getLsbD 251, toSigned 16 (b.toNat / 2 ^ 224),
    toSigned 192 b.toNat⟩

/-- The contribution of one term with binning exponent `m`: trunc(x / 2^(m − 119)). -/
def reproTerm (m : Int) (x : Num) : ReproP :=
  let n0 := decide (x ≠ .zero true)
  let p0 := decide (x ≠ .zero false)
  match x with
  | .nan _ => ⟨true, false, false, n0, p0, m, 0⟩
  | .inf false => ⟨false, true, false, n0, p0, m, 0⟩
  | .inf true => ⟨false, false, true, n0, p0, m, 0⟩
  | .zero _ => ⟨false, false, false, n0, p0, m, 0⟩
  | .fin n s e =>
    let t := (roundTo .rtz n s e (m - 119)).1
    ⟨false, false, false, n0, p0, m, if n then -(t : Int) else t⟩

/-- Combines two partials; none when their M differ (R63). -/
def reproCombine (x y : ReproP) : Option ReproP :=
  if x.m = y.m then some ⟨x.nan || y.nan, x.pinf || y.pinf, x.ninf || y.ninf, x.notNeg0 || y.notNeg0,
    x.notPos0 || y.notPos0, x.m, x.s + y.s⟩ else none

/-- Second pass over a list of terms. -/
def reproSum (m : Int) (xs : List Num) : ReproP :=
  xs.foldr (fun x p => (reproCombine (reproTerm m x) p).getD p) (ReproP.empty m)

/-- The FP64 result of a reproducible sum. -/
def reproResult (rm : RM) (p : ReproP) : Nat × Flags :=
  sumResult .fp64 rm p.nan p.pinf p.ninf p.notNeg0 p.notPos0 p.s (p.m - 119)
    (!p.notNeg0 && !p.notPos0 && !p.nan && !p.pinf && !p.ninf)

/-! ### Plain reductions (R126) -/

/-- One level of the fixed pairwise tree. -/
def pairUp (f : Nat → Nat → Nat × Flags) : List Nat → List Nat × Flags
  | a :: b :: xs =>
    let r := f a b
    let t := pairUp f xs
    (r.1 :: t.1, r.2 ||| t.2)
  | xs => (xs, 0)

/-- The fixed pairwise tree; `fuel` bounds its depth. -/
def treeReduce (f : Nat → Nat → Nat × Flags) : Nat → List Nat → List Nat × Flags
  | 0, xs => (xs, 0)
  | fuel + 1, xs =>
    if xs.length ≤ 1 then (xs, 0)
    else
      let l := pairUp f xs
      let t := treeReduce f fuel l.1
      (t.1, l.2 ||| t.2)

/-- Combine of a plain reduction. -/
def redCombine (f : Fmt) (op : RedOp) (rm : RM) (a b : Nat) : Nat × Flags :=
  match op with
  | .sum => binElem f .add rm a b
  | .max => maxMin f true a b
  | .min => maxMin f false a b

/-! ### The Griddle's elements (R44 to R50) -/

/-- Operand as the Griddle decodes it: subnormals are zeros of their sign with FTZ_IN. -/
def gDecode (f : Fmt) (bits : Nat) : Num × Flags :=
  if isSubnormal f bits then (.zero (signOf f bits), fFtzIn) else (decode f bits, 0)

/-- One update of one accumulator element of a floating-point pair (R47 to R49). -/
def gUpdate (acc : Fmt) (af bf : Fmt) (rm : RM) (x : Nat) (prods : List (Nat × Nat)) : Nat × Flags :=
  let ops := prods.map (fun p => (gDecode af p.1, gDecode bf p.2))
  let ftz := ops.foldl (fun fl p => fl ||| p.1.2 ||| p.2.2) 0
  let ms := ops.map (fun p => mulNum p.1.1 p.2.1)
  let a := decode acc x
  let sn := snanFlag (a :: (ops.map (fun p => p.1.1) ++ ops.map (fun p => p.2.1)))
  let r := fusedSum acc .flush rm (a :: ms.map (fun m => m.1)) (ms.any (fun m => m.2))
  (r.1, (r.2 &&& ~~~ fInexact) ||| ftz ||| sn)

/-- One update of one accumulator element of an integer pair (R50). -/
def gUpdateInt (af bf : Fmt) (x : Nat) (prods : List (Nat × Nat)) : Nat × Flags :=
  satInt32 (prods.foldl (fun t p => t + intVal af p.1 * intVal bf p.2) (intVal .int32 x))

end Sys2Proof.Machine
end

