-- ==== Sys2Proof/Machine/State.lean ====
section
/-! DEFINITION. The machine's state as plain data: everything the spec gives the package, the waiting commands, and
the state right after power is first applied. Dictionary entries are held by key (index × 256 + sub-index) in `ent`. -/

namespace Sys2Proof.Machine

open Sys2Proof

/-! ### Workers (R69) -/

/-- A view slot: a two-dimensional window on a tensor (R69, VDEF). Strides and origin count elements. -/
structure View where
  tensor  : Nat
  rows    : Nat
  cols    : Nat
  rstride : Int
  cstride : Int
  origin  : Int
  deriving DecidableEq, Repr, Inhabited

/-- Accumulator type of a tile slot (R91). -/
inductive TileType where
  | fp64 | fp32 | int32
  deriving DecidableEq, Repr, Inhabited

/-- A tile slot: 2,048 bits and its type (R91). -/
structure Tile where
  type : TileType
  bits : BitVec 2048
  deriving DecidableEq, Repr, Inhabited

/-- An open loop: its body is the words `[start, stop)`. -/
structure LoopFrame where
  start : Nat
  stop  : Nat
  d     : SReg
  pass  : Nat
  count : Nat
  deriving DecidableEq, Repr, Inhabited

/-- A Griddle op that waits for issue, in program order (R102). -/
inductive GOp where
  | zero (fmt : Fmt) (d : TReg)
  | ld (d : TReg) (a : View)
  | mma (fmt bfmt : Fmt) (za : Bool) (d : TReg) (a b : View) (u : Nat)
  deriving DecidableEq, Repr, Inhabited

/-- The contents of a staging latch set: operand elements of v[A] and of v[B], in view order (R100). -/
structure Latch where
  a : List Nat
  b : List Nat
  deriving DecidableEq, Repr, Inhabited

/-- A Griddle op that waits for issue, and the latch set that holds its operands once they are staged (R100, R102). -/
structure GWait where
  op  : GOp
  set : Option Nat
  deriving DecidableEq, Repr, Inhabited

/-- A Griddle op that has issued and not completed (R104): the tile it leaves, the flags it merges and the latch set that it
still reads. -/
structure GFlight where
  d     : TReg
  tile  : Tile
  flags : BitVec 32
  set   : Option Nat
  deriving DecidableEq, Repr, Inhabited

/-- What a Whisk op does to each element. -/
inductive WKind where
  | bin (op : BinOp) | fma | un (op : UnOp) | act (f : Act) | cvt | cmp (op : CmpOp) | sel (m : MReg)
  | acc (f : Option Act) (scale : BitVec 32) (t : TReg) | red (mode : RedMode) (op : RedOp) | gth | sct
  deriving DecidableEq, Repr, Inhabited

/-- A Whisk op: what it does, its format, its mask, and its views as they stood at issue. `dm` is the destination
mask register of WCMP; `ext` is how many extension words follow the op word. -/
structure WOp where
  kind   : WKind
  opcode : Nat
  fmt    : Fmt
  msk    : Option MReg
  d      : View
  a      : View
  b      : View
  dm     : MReg
  ext    : Nat
  deriving DecidableEq, Repr, Inhabited

/-- The byte range that a Whisk op not yet complete writes: home level (0, 1, 2; 3 for a mask register), tensor or
mask number, lowest and highest byte (R135). -/
structure Extent where
  level : Nat
  tensor : Nat
  lo    : Int
  hi    : Int
  deriving DecidableEq, Repr, Inhabited

/-- A solver ticket (R69): its number and, once its problem is complete, the status word. -/
structure Ticket where
  num    : Nat
  status : Option (BitVec 32)
  deriving DecidableEq, Repr, Inhabited

/-- Kinds of line request that take a slot (R242). -/
inductive RKind where
  | read | write | writec | inv
  deriving DecidableEq, Repr, Inhabited

/-- A remote line request of a worker, waiting or outstanding (R240, R242). `seq` is the place of R243. `src` is the
remote view of a read and `dst` the local one; `line` is the line's offset in its space; `since` the time it was asked
for. `device` is the device of its address, `dest` the device that answers it: a replica's lines are dropped at its holders. -/
structure RReq where
  kind   : RKind
  seq    : Nat
  space  : Nat
  device : Nat
  dest   : Nat
  line   : Nat
  mask   : BitVec 128
  data   : BitVec 1024
  src    : View
  dst    : View
  alloc  : Bool
  since  : Nat
  deriving DecidableEq, Repr, Inhabited

/-- A flag increment of an RWRITEF, held or sent (R243). -/
structure HeldFlag where
  seq     : Nat
  device  : Nat
  cluster : Nat
  flag    : Nat
  inc     : Nat
  sent    : Bool
  deriving DecidableEq, Repr, Inhabited

/-- Why an op was turned away and waits to be presented again. -/
inductive WaitWhy where
  | griddle | whisk | flag | ticket | tickets | solverQueue | flags | remote | barrier | input | page | remap | replay
  deriving DecidableEq, Repr, Inhabited

/-- What a worker is doing. `atBar` carries the scope, `atStep` whether the op is CKPT, `atEnd` is END reached. -/
inductive RunState where
  | idle
  | running
  | atBar (scope : Scope)
  | inColl
  | atStep (ckpt : Bool)
  | atEnd
  | ended
  | halted (code : Nat)
  deriving DecidableEq, Repr, Inhabited

/-- One worker (Table 3.3) with its sequencer, its engines' work in progress and its scratchpad. `since` is when its op
was first turned away; `latches` are the two staging latch sets of the Griddle and `nextSet` the one in turn (R100); `wregs`
are the Whisk registers w0-w31 (R118). -/
structure Worker where
  run     : RunState
  wait    : Option WaitWhy
  since   : Nat
  pc      : Nat
  loops   : List LoopFrame
  s       : Tbl (BitVec 64)
  v       : Tbl View
  t       : Tbl Tile
  m       : Tbl (BitVec 4096)
  vl      : Nat
  acw     : BitVec 32
  asw     : BitVec 32
  f       : Tbl (BitVec 64)
  tickets : List Ticket
  nextTicket : Nat
  srOrd   : Nat
  elemStart : Nat
  stopped : Option WOp
  record  : BitVec 256
  gq      : List GWait
  gf      : List GFlight
  latches : Tbl Latch
  nextSet : Nat
  wregs   : Tbl (BitVec 128)
  wf      : List Extent
  rseq    : Nat
  rpend   : List RReq
  slots   : Tbl (Option RReq)
  flags   : List HeldFlag
  replBits : List Nat
  l0      : Mem
  l0Bad   : List Nat
  deriving DecidableEq, Repr, Inhabited

/-! ### Modules (R71-R78) -/

/-- A tensor declaration (Table 3.5). -/
structure Tensor where
  fmt   : Fmt
  level : Nat
  hint  : Nat
  ckpt  : Bool
  spill : Bool
  init  : Bool
  rank  : Nat
  dims  : List Nat
  initOff : Nat
  deriving DecidableEq, Repr

/-- A stream declaration (Table 3.9). -/
structure StreamDecl where
  kind   : Nat
  tensor : Nat
  id     : Nat
  deriving DecidableEq, Repr

/-- A loaded module. -/
structure Module where
  digest   : Nat
  features : Nat
  minDev   : Nat
  maxDev   : Nat
  tensors  : List Tensor
  streams  : List StreamDecl
  consts   : List Byte
  code     : List CodeWord
  sflags   : Nat
  deriving DecidableEq, Repr

/-- Where the context's module stands. `paused`: at a step point, with another context scheduled (R357). -/
inductive ModState where
  | none | translating | loaded | running | paused | halting | ended | halted (code : Nat)
  deriving DecidableEq, Repr

/-- A shadow copy of a kind 1 declaration (R296). -/
structure ShadowCopy where
  decl : Nat
  step : Nat
  last : Bool
  data : Mem
  deriving DecidableEq, Repr

/-- The latest OUTPUT of a kind 2 declaration (R296). -/
structure Output where
  decl  : Nat
  step  : Nat
  bytes : List Byte
  deriving DecidableEq, Repr

/-- A solver binding (R168): kind 0 half, 1 die, 2 pair. -/
structure Binding where
  num  : Nat
  kind : Nat
  die  : Nat
  half : Nat
  deriving DecidableEq, Repr

/-- A RoCEv2 registration (R303). -/
structure Registration where
  rKey   : Nat
  tensor : Nat
  rights : Nat
  offset : Nat
  length : Nat
  busy   : Bool
  deriving DecidableEq, Repr

/-- A replica region (R248). -/
structure Replica where
  tensor : Nat
  copies : Nat
  deriving DecidableEq, Repr

/-- The five collective ops (Table 11.1). -/
inductive CollKind where
  | allred | rscat | agth | bcst | a2a
  deriving DecidableEq, Repr

/-- One worker's entry in the collective being issued. -/
structure CollReq where
  cluster : Nat
  kind    : CollKind
  fmt     : Fmt
  mode    : RedMode
  op      : RedOp
  chunk   : Nat
  root    : Nat
  rm      : Nat
  d       : View
  a       : View
  dfmt    : Fmt
  sig     : BitVec 64
  deriving DecidableEq, Repr

/-- One element's partial of a reduction, as it travels (Table 11.2). -/
inductive Partial where
  | raw (bits : Nat)
  | exact (bits : BitVec 384)
  | repro (bits : BitVec 256)
  | expo (m : Int)
  deriving DecidableEq, Repr

/-- Inputs of one flit of one chunk that an aggregator holds (R272): index of the input in its set, COUNT, elements. -/
structure AggSlot where
  tier  : Nat
  chunk : Nat
  flit  : Nat
  form  : Nat
  ins   : List (Nat × Nat × List Partial)
  deriving DecidableEq, Repr

/-- Entry values of a COLL_OPEN (R280): earliest and latest entry, rank of the latest. -/
structure EntryVals where
  first : Nat
  last  : Nat
  rank  : Nat
  deriving DecidableEq, Repr, Inhabited

/-- A collective in progress at the device (R263, R280). `reqs` holds one request per worker, by cluster; `src` what
each worker's v[A] held when the device entered; `chunks` the
chunks in flight, each with the flits it has still to fold, receive or write; `ms` the exponents of the first
reproducible pass by element; `bad` the chunks of which an adder sends nothing further. -/
structure Coll where
  reqs    : List CollReq
  src     : List (List Nat)
  entered : Bool
  entryNs : Nat
  opens   : List (Nat × Nat × EntryVals)
  vals    : Option EntryVals
  agg     : List AggSlot
  ms      : List (Nat × Int)
  started : Nat
  chunks  : List (Nat × Nat)
  bad     : List Nat
  deriving DecidableEq, Repr

/-- A line of a remote-line cache (R246): the compute die whose cache holds it, and the context that loaded it. -/
structure RlcLine where
  die    : Nat
  ctx    : Nat
  device : Nat
  line   : Nat
  data   : BitVec 1024
  deriving DecidableEq, Repr

/-- A line of a replica copy held on this device (R249): the home rank, the line offset, filled data. -/
structure ReplLine where
  home : Nat
  line : Nat
  data : BitVec 1024
  deriving DecidableEq, Repr

/-- The capture of the context's newest generation (R325, R331). `pages` are the tensor pages that buddy and, when stored,
storage receive; `storeOnly` those that go to storage alone (R337); `todo` what the Ladles have yet to copy; `count` the
records of the shard, `recs` the SHA-512 digest of each record formed, by VPAGE (R330); `decided` once the generation has been committed or aborted. -/
structure Capture where
  gen     : Nat
  step    : Nat
  salt    : Nat
  full    : Bool
  stored  : Bool
  storedFull : Bool
  prevGen : Nat
  pages   : List Nat
  storeOnly : List Nat
  todo    : List Nat
  count   : Nat
  recs    : List (Nat × Nat)
  reason  : Nat
  voted   : Bool
  decided : Bool
  deriving DecidableEq, Repr

/-- The save area of a generation, written at its capture instant (R323): the workers, the seed in effect, and the resident areas of the
context's targets that served no armed plant stream, in the order of its bindings. -/
structure SaveArea where
  gen     : Nat
  step    : Nat
  workers : Tbl Worker
  seed    : Nat
  resident : List Mem
  deriving DecidableEq, Repr

/-- Consecutive pages of a context and the stack pages that hold them (R141, R142). -/
structure PageRun where
  vpage : Nat
  count : Nat
  phys  : Nat
  deriving DecidableEq, Repr

/-- One context (R354). A context with `live := false` does not exist. `serial` tells it from every other context that has had or
will have its ID. `memKey` is its memory key (R154). `place` is its page map, `lower` the level that each spilled tensor has gone
to, `parts` the L2 tensors placed in parts, `lender` the device that lends to it and `peerLost` whether that loan has ended
(R142, R143, R158, R159). `noCommit` says that no further generation of the job commits (R86). `souts` and `outDigest` hold the OUTPUTs and the
plant answers of the step in progress (R316); `bulkIn` holds bulk reads that take effect at the next step point (R312); `checks` holds the residue checks that still run: whether the flit passes,
the step it came in, its chunk (R277, R279); the `ev` fields count its timing events (R311). -/
structure Context where
  live     : Bool
  serial   : Nat
  memKey   : Option Nat
  place    : List PageRun
  lower    : Tbl Nat
  parts    : List Nat
  lender   : Nat
  peerLost : Bool
  noCommit : Bool
  sessKey  : Option Nat
  n        : Nat
  rank     : Nat
  ids      : List Nat
  binds    : List Binding
  mod      : Option Module
  modState : ModState
  runStream : Nat
  haltStream : Option Nat
  workers  : Tbl Worker
  step     : Nat
  stepStartNs : Nat
  seed     : Nat
  vmem     : Mem
  gBad     : List Nat
  pages    : Tbl (BitVec 16)
  shadows  : List ShadowCopy
  inputs   : List (Nat × Nat)
  outs     : List Output
  regs     : List Registration
  replDecl : List (Nat × Replica)
  replicas : List Replica
  replLines : List ReplLine
  coll     : Option Coll
  collSeq  : Nat
  collIn   : List (Nat × CPkt)
  checks   : List (Bool × Nat × Nat)
  corruptSinceCommit : Bool
  mr4      : Nat
  quote    : Nat
  capture  : Option Capture
  prior    : List Capture
  saves    : List SaveArea
  fullNext : Bool
  outDigest : List (Nat × Nat × List Byte)
  souts    : List (Nat × List Byte)
  bulkIn   : List (Nat × Nat × List Byte)
  evRetries : Nat
  evRetrain : Nat
  evSlices : Nat
  evRefresh : Nat
  evHot    : List Nat
  ent      : Tbl Nat
  snap     : Tbl Nat
  deriving DecidableEq, Repr

/-! ### Solver targets (07) -/

/-- The fields of a problem descriptor that the machine uses (Table 7.2), as its 256 bytes. -/
abbrev Desc := BitVec 2048

/-- Stage of the problem a target runs (Table 7.6). -/
inductive SolverStage where
  | stageIn | execute | writeBack
  deriving DecidableEq, Repr

/-- Who submitted a problem. -/
inductive Submitter where
  | ticket (ctx cluster num : Nat)
  | plant (n : Nat)
  deriving DecidableEq, Repr

/-- An accepted problem (R174): its target's kind and first half, what it computes once its operands are staged (`sol` and
`warm` the bytes to write back), and a fault it has met. -/
structure Problem where
  desc    : Desc
  ctx     : Nat
  kind    : Nat
  half    : Nat
  by'     : Submitter
  texec   : Nat
  fp      : BitVec 64
  fail    : Option Nat
  status  : BitVec 32
  stageCycles : Nat
  sol     : List Byte
  warm    : List Byte
  record  : List Byte
  deriving DecidableEq, Repr

/-- A solver target's queue, held at its first half (a die at its SH0, the pair at SD0's SH0). -/
structure SolverQ where
  running : Option (SolverStage × Problem)
  waiting : List Problem
  deriving DecidableEq, Repr

/-! ### Plant streams (08) -/

/-- What became of the problem of a stream's current period. -/
inductive PlantRun where
  | notRun | running | done (status : BitVec 32)
  deriving DecidableEq, Repr

/-- Internals of a plant-timed stream. `period` is the period that starts next, or once `serving` the one in progress;
`samples` the winning sample of each channel of the window (channel, TS, SEQ, value); `enter` the REASON of the next HOLD
notice, 0 for HOLD; `queued` the datagram that may still be in the transmit queue. -/
structure Plant where
  period   : Nat
  serving  : Bool
  desc     : Desc
  texec    : Nat
  fp       : BitVec 64
  window   : Bool
  samples  : List (Nat × Nat × Nat × BitVec 64)
  values   : Tbl (BitVec 64)
  stale    : Tbl Nat
  missing  : Bool
  run      : PlantRun
  base     : List (BitVec 64)
  shift    : Nat
  fallbacks : Nat
  param    : Option (List (BitVec 64))
  closed   : Option Nat
  enter    : Nat
  resume   : Bool
  stop     : Bool
  stopping : Bool
  queued   : Option Nat
  lastPayload : List Byte
  deriving DecidableEq, Repr

/-! ### Ethernet (12) -/

/-- A stream context entry (Table 12.4); STATE 0 FREE, 1 OPEN, 2 HALTED. -/
structure Stream where
  state  : Nat
  kind   : Nat
  ctx    : Nat
  gen    : Nat
  credit : Nat
  rxNext : Nat
  txNext : Nat
  peer   : Nat
  port   : Nat
  seen   : List Nat
  deriving DecidableEq, Repr

/-- A datagram held for a stream: in the reorder pool (`pool`), or taken and waiting for the command in progress. -/
structure HeldCmd where
  mgmt   : Bool
  stream : Nat
  hdr    : DgHdr
  cmd    : TCmd
  pool   : Bool
  deriving DecidableEq, Repr

/-- A long command in progress on a stream (R294). -/
structure BusyCmd where
  mgmt   : Bool
  stream : Nat
  hdr    : DgHdr
  cmd    : TCmd
  deriving DecidableEq, Repr

/-- One datagram queued to leave the Ethernet port (Table 12.5, Table 12.6), or the way it came by relay: relaying device and tag. `gen`
and `key` are the generation and the key it is sealed with (R289). -/
structure TxDg where
  queue  : Nat
  mgmt   : Bool
  ctx    : Nat
  stream : Nat
  seq    : Nat
  gen    : Nat
  key    : Nat
  opcode : Nat
  bytes  : List Byte
  relay  : Option (Nat × Nat)
  deriving DecidableEq, Repr

/-- A completion kept in the status log (R295). -/
structure LogEnt where
  mgmt   : Bool
  stream : Nat
  seq    : Nat
  dg     : TxDg
  deriving DecidableEq, Repr

/-! ### Fabric (09, 10) -/

/-- Messages between devices: on VC0 those of the checkpoint protocol (R336, R338), relays (R383), probes (R212) and drain notices
(R231); on VC6 that every worker of the sender stands at a barrier of the job, or at a step point (Table 9.4). -/
inductive Ctl where
  | vote (gen : Nat) (e : Shard)
  | commit (gen digest : Nat)
  | abort (gen reason : Nat)
  | commitAck (gen rank : Nat)
  | commitDone (gen : Nat)
  | relay (src tag : Nat) (bytes : List Byte)
  | relayReply (src tag : Nat) (bytes : List Byte)
  | probe (serial device port : Nat)
  | drainNotice
  | barrier (ctx step : Nat)
  | stepReached (ctx step : Nat)
  deriving DecidableEq, Repr

/-- One flit: waiting for a slot of a port, or sent (Table 9.3). `raw` is the payload of a flit in transit. `hold` is the ingress port
whose receive buffer holds the flit until it has its slot (R221), `after` the port whose acknowledgement the flit waits for (R220). The
trailer's SEQ, ACK_SEQ, CVC and CCOUNT are set as the flit leaves. -/
structure TxFlit where
  vc    : Nat
  kind  : Nat
  dest  : Nat
  src   : Nat
  epoch : Nat
  hops  : Nat
  flow  : Nat
  rp    : Option RPkt
  cp    : Option CPkt
  ctl   : Option Ctl
  raw   : Option (BitVec 2048)
  port  : Option Nat
  hold  : Option Nat
  after : Option Nat
  seq   : Nat
  ack   : Nat
  cvc   : Nat
  ccount : Nat
  deriving DecidableEq, Repr

/-- A flow's choice of candidate (R220). -/
structure Flow where
  src    : Nat
  dest   : Nat
  vc     : Nat
  flow   : Nat
  port   : Nat
  chosen : Nat
  last   : Nat
  deriving DecidableEq, Repr

/-- Link state of a port that no entry holds. `nakked`, once a NAK has gone out, is how far past the missing flit the latest one that
was discarded lay (R225). `queue` holds the flits that wait for a slot, oldest first; `sent` the VC and hop class of each flit that holds
a credit of the peer, oldest first; `owed` the credits to return by VC (R221). `left` and `frame` are the grants that each VC is still
sure of in the frame of 100 grants and those left in it, `used` the slots that VC0 and VC5 have taken in the 10 µs window, `turn` the
VC granted last in round robin (R223). -/
structure PortLink where
  samples : List Nat
  replay  : List (Nat × TxFlit)
  txSeq   : Nat
  rxSeq   : Nat
  nakked  : Option Nat
  replays : Nat
  drain   : Bool
  darkSeen : Bool
  queue   : List TxFlit
  sent    : List (Nat × Nat)
  owed    : Tbl Nat
  left    : Tbl Nat
  frame   : Nat
  used    : Tbl Nat
  turn    : Nat
  deriving DecidableEq, Repr

/-- A store at a Sieve (R253): whom its acknowledgement goes to, and the ingress port of a remote one. -/
structure SieveStore where
  ctx    : Nat
  line   : Nat
  mask   : BitVec 128
  data   : BitVec 1024
  ack    : Option (Nat × Nat × Nat)
  port   : Option Nat
  deriving DecidableEq, Repr

/-- A Sieve entry (R253). -/
structure SieveEnt where
  idx     : Nat
  ctx     : Nat
  line    : Nat
  mask    : BitVec 128
  data    : BitVec 1024
  fresh   : Bool
  last    : Nat
  deriving DecidableEq, Repr

/-- The Sieve of one Pantry slice. -/
structure Sieve where
  entries : List SieveEnt
  queue   : List SieveStore
  deriving DecidableEq, Repr

/-- A remote request at this target that waits for the Ladle's copy of its page (R241, R327), or an acknowledgement
that waits for it. -/
structure HeldWrite where
  ctx    : Nat
  page   : Nat
  line   : Nat
  mask   : BitVec 128
  data   : BitVec 1024
  src    : Nat
  master : Nat
  tag    : Nat
  addr   : BitVec 64
  since  : Nat
  deriving DecidableEq, Repr

/-! ### Control (01, 15, 16, 17, 18) -/

/-- A fault record (Table 16.9). -/
structure FaultRec where
  time    : Nat
  seq     : Nat
  die     : Nat
  cls     : Nat
  unit    : Nat
  code    : Nat
  context : Nat
  step    : Nat
  detail  : BitVec 256
  deriving DecidableEq, Repr

/-- An event in a steward's queue (R25): the record it becomes, what raised it when Wened acts on it, whether it is
of the kind that the eight reserved entries are for, and the lost-event bit. -/
structure StewEvent where
  frec : FaultRec
  ev   : Option UnitEvent
  jobEnding : Bool
  lost : Bool
  deriving DecidableEq, Repr

/-- A control action that waits for its quiesce fence (R23, Table 1.5). -/
inductive FenceAct where
  | routeCommit (e : Nat) (table : Tbl Nat)
  | spareSwap (cluster : Nat)
  | haltCtx (ctx : Nat) (code : Nat) (stream : Option Nat)
  | pageRemap (stack : Fin 16) (ctx page : Nat)
  deriving DecidableEq, Repr

/-- A waiting update of the access tables (R24): the new entry of one master ID, or, with `none`, of every cluster. -/
structure AccUpdate where
  master : Option Nat
  entry  : BitVec 32
  deriving DecidableEq, Repr

/-- Guaranteed operations of Wened that take time, by R389: the brown-out save of a sag, power-down, a cold start from
stage 2 and a warm reset with the RESET_CAUSE each sets, and the cold start that a release of RST_N asks for. -/
inductive GuarOp where
  | save | powerDown | coldReset (cause : Nat) | warmReset (cause : Nat) | rst
  deriving DecidableEq, Repr

/-- A brown-out record (Table 18.4), by its parts; `valid` once its header is committed. -/
structure Brownout where
  valid  : Bool
  cause  : Nat
  seq    : Nat
  time   : Nat
  uptime : Nat
  ckpt   : List (Nat × Nat × Nat × Nat × Nat)
  replay : List Byte
  fabric : List Nat
  faults : List FaultRec
  plant  : List (Nat × Nat × Nat × List Byte)
  counters : List Nat
  deriving DecidableEq, Repr

/-- A firmware slot (R387): what FW_SLOT reports. -/
structure FwSlot where
  valid    : Bool
  svn      : Nat
  numUcode : Nat
  version  : Nat
  family   : Nat
  digest   : Nat
  deriving DecidableEq, Repr

/-- A segmented dictionary write in progress (R378). -/
structure SegWrite where
  path  : Path
  index : Nat
  sub   : Nat
  bytes : List Byte
  deriving DecidableEq, Repr

/-- A Taster request (R400, R412). -/
structure TasterReq where
  kind  : Nat
  unit  : Nat
  raise : Bool
  deriving DecidableEq, Repr

/-- The Taster of one die: waiting requests, the slice that runs (kind, unit, and 1 for a running module's cluster
plus 2 for a request), the time of its start, its sweep position, the sweep's items that were passed over and keep their place (R402),
sweeps completed, SEQ of its last failure, and the step ordinal at which it last tested a running module's cluster. -/
structure Taster where
  reqs    : List TasterReq
  slice   : Option (Nat × Nat × Nat)
  last    : Option Nat
  pos     : Nat
  passed  : List Nat
  sweeps  : Nat
  lastFail : Nat
  lastStep : Option Nat
  deriving DecidableEq, Repr

/-- Spares and retirements of a compute die's fuse banks (R395, R398): failed physical clusters, spares whose most recent
slice passed, the physical cluster of each unit that the identity does not give, retired ways as slice and way. -/
structure Fuses where
  failed  : List Nat
  tested  : List Nat
  map     : Tbl Nat
  ways    : List (Nat × Nat)
  deriving DecidableEq, Repr

/-- Rank 0's decision on one generation (R336). -/
structure GenVotes where
  gen   : Nat
  votes : List Shard
  acks  : List Nat
  state : Nat
  deriving DecidableEq, Repr

/-- A spool slot of a Ladle: the page and generation, the lines the buddy has not acknowledged, whether buddy and storage
have acknowledged, and where the record lies at the buddy. -/
structure SpoolSlot where
  ctx    : Nat
  vpage  : Nat
  lines  : Nat
  buddy  : Bool
  store  : Bool
  base   : Nat
  gen    : Nat
  deriving DecidableEq, Repr

/-- A page record in the buddy slot: its generation and page, and where its bytes lie in the slot's memory. -/
structure BuddyRec where
  gen   : Nat
  vpage : Nat
  base  : Nat
  deriving DecidableEq, Repr

/-- The buddy slot (R333): its key, base generation and image, journal. -/
structure BuddySlot where
  job     : Nat
  rank    : Nat
  base    : Nat
  image   : List BuddyRec
  journal : List BuddyRec
  inFlight : Bool
  raw     : Mem
  deriving DecidableEq, Repr

/-- A replay record (Table 13.4). -/
structure ReplayRec where
  type : Nat
  seq  : Nat
  step : Nat
  key  : Nat
  ts   : Nat
  data : List Byte
  deriving DecidableEq, Repr

/-- Ethernet part of the state. `tx` holds the datagrams that wait in the port's four queues, `out` those that have left, in order.
`freeAt` is the time at which the datagram being sent ends, `window` numbers the 10 µs window, of whose slots queue 2 has had
`mgmtSlots`; `share3` and `share4` are the slots of the present hundred that queues 3 and 4 have had (R301). -/
structure EthState where
  streams : Tbl Stream
  mstreams : Tbl Stream
  cache   : List Nat
  held    : List HeldCmd
  busy    : List BusyCmd
  log     : List LogEnt
  tx      : List TxDg
  answers : List (Nat × Nat)
  pfcPaused : Bool
  pfcUntil : Nat
  out     : List TxDg
  freeAt  : Nat
  window  : Nat
  mgmtSlots : Nat
  share3  : Nat
  share4  : Nat
  qpRate  : Tbl Nat
  deriving DecidableEq, Repr

/-- Fabric part of the state. `tx` holds the flits that have left, in order. `ring` holds the VC0 flits that cross between optical dies on
the management ring, `ringWait` those that wait for it at their ingress ports (R224); `window` numbers the 10 µs window of the output
arbiters (R223). `rlc` holds the lines of the remote-line caches of all compute dies, most recently used first (R246).
`moving` holds the by-pass switches that move: lane, plus 2 when the switch closes. -/
structure FabState where
  shadow  : Tbl Nat
  links   : Tbl PortLink
  flows   : List Flow
  tx      : List TxFlit
  ring    : List TxFlit
  ringWait : List TxFlit
  window  : Nat
  moving  : List Nat
  dead    : List Nat
  sieves  : Tbl Sieve
  held    : List HeldWrite
  sieveFull : Option Nat
  loanMem : Mem
  rlc     : List RlcLine
  deriving DecidableEq, Repr

/-- Solver part of the state. `clock` is the operating point that each half runs at (R177, R420). -/
structure SolvState where
  queues   : Tbl SolverQ
  resident : Tbl Mem
  colsPassed : Tbl (List Nat)
  clock    : Tbl Nat
  deriving DecidableEq, Repr

/-- Checkpoint, reclaim and replay part of the state. -/
structure CkptState where
  pending  : List Nat
  gens     : List GenVotes
  manifests : List (Nat × List Byte)
  spool    : Tbl (List SpoolSlot)
  heldPages : List (Nat × Nat)
  buddy    : BuddySlot
  unfolded : List (Nat × Nat)
  lastStored : Nat
  restoreNext : Nat
  restoreCands : List (Nat × Nat × Nat)
  restoreMixed : Nat
  resumeGen : Option Nat
  reclaimPartial : Bool
  reclaimCut : Bool
  pred     : List (List Nat)
  lastWarn : Option Nat
  predLast : List Nat
  rbuf     : List ReplayRec
  rout     : List (List ReplayRec)
  rseg     : Nat
  rgapFrom : Option Nat
  rrec     : Bool
  rin      : List ReplayRec
  rinEnd   : Bool
  rplay    : Bool
  deriving DecidableEq, Repr

/-- Security and Wened part of the state. `quotePending` holds the quotes asked for: the context of a tenant's, and the
nonce. `mgmtGenKey` is the management key of each management stream, as it stood when the stream was opened. `window` is
an open presence window. `replies` holds the reply records of the dictionary requests served, by path. `marker`: the ZEROISE marker, true for DECOMMISSION. `guar` holds the guaranteed operations: the
one in progress, then those that run after it; `saving` the record being written. `warm`: the reset in progress is a warm
one. `powerEn` and `resetHeld` are the power-enable and reset lines that Wened asserts, by die (R22). `heldSag`: HELD after a sag. `bootNs` is the time of the cold start, `stagedOk` the image types whose staged slot has
been verified, `scrubDue` a device scrub that waits for power. `slots`, `booted` and `preferred` are the firmware store:
slot headers by 2 × TYPE + slot, the slot that booted last and the preferred one by TYPE, as slot + 1. -/
structure WenState where
  idKeys   : Bool
  mgmtKey  : Option Nat
  mgmtGenKey : Tbl Nat
  ownerSeq : Nat
  ckptKey  : Nat
  mrs      : List Nat
  quoteO   : Nat
  quotePending : List (Option Nat × Nat)
  quotesSigned : Nat
  window   : Bool
  ownerEn  : Bool
  sealOk   : Bool
  debug    : Bool
  rbOverride : Option Nat
  rbOverridden : Bool
  marker   : Option Bool
  guar     : List GuarOp
  saving   : Option Brownout
  warm     : Bool
  heldSag  : Bool
  bootNs   : Int
  scrubDue : Bool
  seg      : Option SegWrite
  can      : Option (Nat × List Byte)
  canTx    : List (List Byte)
  replies  : List (Path × List Byte)
  slots    : Tbl FwSlot
  booted   : Tbl Nat
  preferred : Tbl Nat
  staged   : Option (Nat × Nat)
  stagedOk : List Nat
  rstLow   : Bool
  compatPin : Bool
  powered  : Bool
  powerEn  : List Nat
  resetHeld : List Nat
  brown    : List Brownout
  saves    : Nat
  counters : List Nat
  deriving DecidableEq, Repr

/-- What Wened reports to the fabric manager beside fault records (R321, R336, R340). -/
inductive FmNote where
  | committed (gen : Nat)
  | aborted (gen reason : Nat)
  | reclaimStart
  | reclaimCutoff
  deriving DecidableEq, Repr

/-- A Pantry line of one set: its tag, whether a keep-hinted access holds it, whether it has yet to be written back (R144,
R146). -/
structure PLine where
  tag   : Nat
  keep  : Bool
  dirty : Bool
  deriving DecidableEq, Repr

/-- What a tenant reads of one context while a scrub runs (R366). -/
structure FrozenCtx where
  ent   : Tbl Nat
  snap  : Tbl Nat
  mr4   : Nat
  quote : Nat
  binds : List Binding
  deriving DecidableEq, Repr

/-- Tenant telemetry as it stood at step 1 of a scrub (R365, R366): the entries and their change counters, the time, the measurement
registers, the presence bits, and what each context reports of itself. -/
structure Frozen where
  ent      : Tbl Nat
  snap     : Tbl Nat
  ptpNs    : Nat
  mrs      : List Nat
  window   : Bool
  ownerEn  : Bool
  sealOk   : Bool
  ctxs     : List (Nat × FrozenCtx)
  deriving DecidableEq, Repr

/-- Package, power and test part of the state. `regions` holds the region modes, 0 INTERLEAVED and 1 + k AFFINE(k) (R141); `pantry`
the lines of each set, most recently used first, keyed by (32 × die + slice) × 1,024 + set (R144); `sysPages` the flags of the
device's own pages (R150); `lent` the pages of a loan; `sysKeys` the runtime and buddy memory keys (R154); `serials` counts the
contexts created. `switchTo` is the context that a SCHEDULE names, with 0 while it waits for a
step point and 1 while the switch is under way; `bundle` the BUNDLE_OPEN in progress: context, source and target tensor,
source offset. `frozen` is what tenants read while a scrub runs (R366). `fenceDone` holds the fences whose completion a steward has reported to Wened (R23). `xcache` is the translation cache, most recently used first: serial of the context, translation key, bytes. -/
structure PkgState where
  stew     : Tbl (List StewEvent)
  lostBit  : List Nat
  breaks   : List (Nat × Nat)
  fences   : List FenceAct
  fenceDone : List FenceAct
  access   : Tbl (BitVec 32)
  accPend  : List AccUpdate
  parts    : Tbl Nat
  retrain  : Tbl Nat
  stackRead : List Nat
  faults   : List FaultRec
  reports  : List (FaultRec × Bool)
  notes    : List FmNote
  fuses    : Tbl Fuses
  tasters  : Tbl Taster
  full     : List Nat
  tripped  : Tbl Nat
  waitCool : Bool
  pllLost  : List Nat
  opNext   : Option (Nat × Bool)
  govWin   : List Nat
  scrubbing : Bool
  frozen   : Option Frozen
  ptpSec   : Nat
  coarse   : Nat × Nat
  switchTo : Option (Nat × Nat)
  bundle   : Option (Nat × Nat × Nat × Nat)
  loanKey  : Option Nat
  xcache   : List (Nat × Nat × Nat)
  regions  : Tbl Nat
  pantry   : Tbl (List PLine)
  sysPages : Tbl (BitVec 16)
  lent     : List PageRun
  sysKeys  : Option (Nat × Nat)
  serials  : Nat
  deriving DecidableEq, Repr

/-- The machine. `pending` is the queue of commands, first in, first out; `freeIdx` counts the free values drawn. -/
structure State where
  pending : List Instr
  freeIdx : Nat
  ptpNs   : Nat
  ent     : Tbl Nat
  snap    : Tbl Nat
  ctxs    : Tbl Context
  solv    : SolvState
  plants  : Tbl Plant
  eth     : EthState
  fab     : FabState
  ckpt    : CkptState
  wen     : WenState
  pkg     : PkgState
  deriving DecidableEq, Repr

/-- No command of the table stops the package without a next state: an error is a status, a fault record, a halted
worker or a counter, and each is a next state. The type therefore has no constructor. -/
inductive Fault where
  deriving DecidableEq, Repr

/-- Reasons for which a command has no meaning. -/
inductive Refusal where
  /-- Raised by an arm of `exec` whose meaning is not written yet. Safe: nothing is claimed of the command. -/
  | notModelled (mnemonic : String)
  /-- Raised by an op whose subcode, format or field the op table does not assign. Load refuses every module that
  holds such a word (R82, R93, R120, R126: MODULE_BAD_OPERAND), so no worker ever issues it. Safe. -/
  | reservedEncoding (mnemonic : String)
  deriving DecidableEq, Repr

/-! ### Defaults and reset -/

/-- The empty view (R69): no element, and a tensor number beyond those a module can declare. -/
def View.empty : View := ⟨4096, 0, 0, 0, 0, 0⟩

/-- A tile slot at module start: +0 of type FP32 (R69, R92). -/
def Tile.initial : Tile := ⟨.fp32, 0⟩

/-- A worker before any module starts, with the initial values of Table 3.3. -/
def Worker.initial : Worker :=
  { run := .idle, wait := none, since := 0, pc := 0, loops := [], s := [], v := [], t := [], m := [], vl := 4096, acw := 0,
    asw := 0, f := [], tickets := [], nextTicket := 0, srOrd := 0, elemStart := 0, stopped := none, record := 0,
    gq := [], gf := [], latches := [], nextSet := 0, wregs := [], wf := [], rseq := 0, rpend := [], slots := [], flags := [], replBits := [], l0 := [],
    l0Bad := [] }

/-- A context ID that names no context. -/
def Context.dead : Context :=
  { live := false, serial := 0, memKey := none, place := [], lower := [], parts := [], lender := 0xFFFF, peerLost := false,
    noCommit := false, sessKey := none, n := 0, rank := 0, ids := [], binds := [], mod := none,
    modState := .none, runStream := 0, haltStream := none, workers := [], step := 0, stepStartNs := 0,
    seed := 0, vmem := [], gBad := [], pages := [], shadows := [], inputs := [], outs := [], regs := [],
    replDecl := [], replicas := [], replLines := [], coll := none, collSeq := 0, collIn := [], checks := [],
    corruptSinceCommit := false, mr4 := 0, quote := 0, capture := none, prior := [], saves := [],
    fullNext := true, outDigest := [], souts := [], bulkIn := [], evRetries := 0, evRetrain := 0, evSlices := 0,
    evRefresh := 0, evHot := [], ent := [], snap := [] }

/-- A target with no problem. -/
def SolverQ.empty : SolverQ := ⟨none, []⟩

/-- A plant-timed stream that is OFF. -/
def Plant.off : Plant :=
  { period := 0, serving := false, desc := 0, texec := 0, fp := 0, window := false, samples := [], values := [],
    stale := [], missing := false, run := .notRun, base := [], shift := 0, fallbacks := 0, param := none,
    closed := none, enter := 0, resume := false, stop := false, stopping := false, queued := none, lastPayload := [] }

/-- A FREE stream entry (R291). -/
def Stream.free : Stream := ⟨0, 0, 0, 0, 0, 0, 0, 0, 0, []⟩

/-- A port's link state before it trains. -/
def PortLink.initial : PortLink := ⟨[], [], 0, 0, none, 0, false, false, [], [], [], [], 0, [], 0⟩

/-- An empty Sieve (R431). -/
def Sieve.empty : Sieve := ⟨[], []⟩

/-- A firmware slot that holds nothing. -/
def FwSlot.empty : FwSlot := ⟨false, 0, 0, 0, 0, 0⟩

/-- The factory's slot 0 of each image type (DESIGN CHOICE, log entry 1). -/
def FwSlot.factory : FwSlot := ⟨true, 0, 0, 1, 0x41, 0⟩

/-- A Taster with nothing to do. -/
def Taster.initial : Taster := ⟨[], none, none, 0, [], 0, 0, none⟩

/-- Fuse banks with no failed unit, the identity map and every spare tested (DESIGN CHOICE, log entry 1). -/
def Fuses.factory : Fuses := ⟨[], [500, 501, 502, 503, 504, 505, 506, 507, 508, 509, 510, 511], [], []⟩

/-- An empty buddy slot. -/
def BuddySlot.empty : BuddySlot := ⟨0, 0, 0, [], [], false, []⟩

/-- Ethernet state after reset: every entry FREE. -/
def EthState.reset : EthState := ⟨[], [], [], [], [], [], [], [], false, 0, [], 0, 0, 0, 0, 0, []⟩

/-- Fabric state after reset. -/
def FabState.reset : FabState := ⟨[], [], [], [], [], [], 0, [], [], [], [], none, [], []⟩

/-- Solver state after reset: no problem, resident areas zero. -/
def SolvState.reset : SolvState := ⟨[], [], [], []⟩

/-- Checkpoint state after reset (R324, R431). -/
def CkptState.reset : CkptState :=
  { pending := [], gens := [], manifests := [], spool := [], heldPages := [],
    buddy := BuddySlot.empty, unfolded := [], lastStored := 0, restoreNext := 0, restoreCands := [],
    restoreMixed := 0, resumeGen := none, reclaimPartial := false, reclaimCut := false, pred := [], lastWarn := none, predLast := [], rbuf := [],
    rout := [], rseg := 0, rgapFrom := none, rrec := false, rin := [], rinEnd := false, rplay := false }

/-- Wened's state as manufactured (log entries 1 and 2 for what the spec leaves open). -/
def WenState.reset : WenState :=
  { idKeys := true, mgmtKey := none, mgmtGenKey := [], ownerSeq := 0, ckptKey := 0, mrs := [0, 0, 0, 0], quoteO := 0,
    quotePending := [], quotesSigned := 0, window := false, ownerEn := false, sealOk := true, debug := false,
    rbOverride := none, rbOverridden := false, marker := none, guar := [], saving := none, warm := false,
    heldSag := false, bootNs := 0, scrubDue := false, seg := none, can := none, canTx := [], replies := [],
    slots := [(0, FwSlot.factory), (2, FwSlot.factory), (4, FwSlot.factory), (6, FwSlot.factory),
      (8, FwSlot.factory), (10, FwSlot.factory), (12, FwSlot.factory), (14, FwSlot.factory)],
    booted := [], preferred := [], staged := none, stagedOk := [], rstLow := false, compatPin := false,
    powered := false, powerEn := [], resetHeld := [], brown := [], saves := 0, counters := [] }

/-- Package state after reset. -/
def PkgState.reset : PkgState :=
  { stew := [], lostBit := [], breaks := [], fences := [], fenceDone := [], access := [], accPend := [], parts := [],
    retrain := [], stackRead := [], faults := [], reports := [], notes := [], fuses := [], tasters := [], full := [],
    tripped := [], waitCool := false, pllLost := [], opNext := none, govWin := [], scrubbing := false, frozen := none,
    ptpSec := 0,
    coarse := (0, 0), switchTo := none, bundle := none,
    loanKey := none, xcache := [], regions := [], pantry := [], sysPages := [], lent := [], sysKeys := none, serials := 0 }

/-- The machine with every entry at its default: before the input has become valid for the first time, RESET_CAUSE
POWER_ON. -/
def State.reset : State :=
  { pending := [], freeIdx := 0, ptpNs := 0, ent := [], snap := [], ctxs := [], solv := SolvState.reset,
    plants := [], eth := EthState.reset, fab := FabState.reset, ckpt := CkptState.reset, wen := WenState.reset,
    pkg := PkgState.reset }

end Sys2Proof.Machine
end

