-- ==== Sys2Proof/Machine/Operands.lean ====
section
/-! DEFINITION. Operands of worker ops: where tensors lie (R138, R143, R235), views and their elements (R69, R114,
R115), reads and writes of one element with the page state they leave (R150, R151), latent errors (R139, R153). -/

namespace Sys2Proof.Machine

open Sys2Proof

/-- The module that holds nothing. -/
def Module.empty : Module := ⟨0, 0, 0, 0, [], [], [], [], 0⟩

/-- The context's module, or the empty one. -/
def modOf (c : Context) : Module := c.mod.getD Module.empty

/-- Declaration of tensor `t`. -/
def tensorOf (c : Context) (t : Nat) : Option Tensor := (modOf c).tensors[t]?

/-- Elements of a tensor: the product of its dimensions. -/
def tensorElems (t : Tensor) : Nat := t.dims.foldl (· * ·) 1

/-- Size of a tensor in bytes; an INT4 element counts as half a byte (R71). -/
def tensorBytes (t : Tensor) : Nat := (tensorElems t * fmtBits t.fmt + 7) / 8

/-- `n` rounded up to a multiple of `k`. -/
def roundUp (n k : Nat) : Nat := (n + k - 1) / k * k

/-- Bytes of a 64 KiB page. -/
def pageBytes : Nat := 65536

/-- Space the tensors of one level take, each rounded up. -/
def levelSpace (ts : List Tensor) (level unit copies : Nat) : Nat :=
  ts.foldl (fun n t => if t.level = level then n + copies * roundUp (tensorBytes t) unit else n) 0

/-- Level to which tensor `t` has spilled, 3 for a ring peer; 0 while it lies at its own level (R158). -/
def lowerOf (c : Context) (t : Nat) : Nat := tget 0 c.lower t

/-- Sum over the tensors before `t` of what each takes. -/
def spaceBefore (c : Context) (t : Nat) (f : Nat → Tensor → Nat) : Nat :=
  (((modOf c).tensors.take t).zipIdx).foldl (fun n x => n + f x.2 x.1) 0

/-- Offset of L0 tensor `t` in the scratchpad: declaration order, multiples of 256, the spilled ones left out. Load gives an L0
tensor no byte beyond 0xDFFFF; the rest is the translator's (R138). -/
def l0Base (c : Context) (t : Nat) : Nat :=
  spaceBefore c t (fun i d => if d.level = 0 ∧ lowerOf c i = 0 then roundUp (tensorBytes d) 256 else 0)

/-- Context-virtual offset of L2 tensor `t`: declaration order, multiples of 64 KiB (R235). -/
def l2Base (m : Module) (t : Nat) : Nat := levelSpace (m.tensors.take t) 2 pageBytes 1

/-- Context-virtual offset of L1 tensor `t`: the L1 tensors follow the L2 tensors, eight instances each (R235). -/
def l1Base (m : Module) (t : Nat) : Nat :=
  levelSpace m.tensors 2 pageBytes 1 + levelSpace (m.tensors.take t) 1 pageBytes 8

/-- Pages of the context-virtual space. -/
def layoutPages (m : Module) : Nat :=
  (levelSpace m.tensors 2 pageBytes 1 + levelSpace m.tensors 1 pageBytes 8) / pageBytes

/-- Compute die of a logical cluster (Table 1.2). -/
def dieOf (cl : Nat) : Nat := cl / 500

/-- Bytes of a tensor's instance in whole pages. -/
def pagedBytes (d : Tensor) : Nat := roundUp (tensorBytes d) pageBytes

/-- Where the 4,000 instances of a spilled L0 tensor lie: past the layout of R235, in declaration order (DESIGN CHOICE, log entry
88). -/
def lodgeBase (c : Context) (t : Nat) : Nat :=
  layoutPages (modOf c) * pageBytes
    + spaceBefore c t (fun i d => if d.level = 0 ∧ lowerOf c i ≠ 0 then 4000 * pagedBytes d else 0)

/-- First byte of the instance of tensor `t` that the worker on cluster `cl` reaches. -/
def tensorBase (c : Context) (cl t : Nat) : Nat :=
  match tensorOf c t with
  | none => 0
  | some d =>
    if d.level = 0 then (if lowerOf c t = 0 then l0Base c t else lodgeBase c t + cl * pagedBytes d)
    else if d.level = 1 then l1Base (modOf c) t + dieOf cl * pagedBytes d
    else l2Base (modOf c) t

/-- Level at which tensor `t` lies: its own, or the one it has spilled to. A ring peer's memory counts as L2. -/
def tensorLevel (c : Context) (t : Nat) : Nat :=
  if lowerOf c t = 0 then ((tensorOf c t).map (·.level)).getD 0 else min (lowerOf c t) 2

/-- Pages of the context's own memory: the layout of R235 and the spilled L0 tensors after it. -/
def ctxPages (c : Context) : Nat := lodgeBase c (modOf c).tensors.length / pageBytes

/-- Elements of a view. -/
def viewCount (v : View) : Nat := v.rows * v.cols

/-- Tensor element that view element `i` names, in row-major view order. -/
def viewElem (v : View) (i : Nat) : Int := v.origin + (i / v.cols : Nat) * v.rstride + (i % v.cols : Nat) * v.cstride

/-- Format of a view's tensor. -/
def viewFmt (c : Context) (v : View) : Option Fmt := (tensorOf c v.tensor).map (·.fmt)

/-- Level at which a view's tensor lies. -/
def viewLevel (c : Context) (v : View) : Nat := tensorLevel c v.tensor

/-- Home level of a view's tensor, as declared. -/
def homeLevel (c : Context) (v : View) : Nat := ((tensorOf c v.tensor).map (·.level)).getD 0

/-- Whether a view's tensor has format `f` (R122). A slot that no VDEF has set names no tensor and so has no format to break; its want
of elements is judged by itself. -/
def viewIs (c : Context) (f : Fmt) (v : View) : Bool :=
  match viewFmt c v with
  | some g => decide (g = f)
  | none => decide (viewCount v = 0)

/-- Whether a VDEF window lies inside its tensor (R83): both corners in each direction do. -/
def viewInside (t : Tensor) (v : View) : Bool :=
  if viewCount v = 0 then true
  else
    let r := ((v.rows - 1 : Nat) : Int) * v.rstride
    let k := ((v.cols - 1 : Nat) : Int) * v.cstride
    let lo := v.origin + min r 0 + min k 0
    let hi := v.origin + max r 0 + max k 0
    decide (0 ≤ lo ∧ hi < tensorElems t)

/-- Where one element lies: level, byte offset in the tensor, byte address in its memory, its width in bits,
whether it is the high nibble of its byte, whether it is the last of an odd number of INT4 elements, which stands alone in its
byte (R37), and whether its memory is lent by a ring peer (R159). -/
structure Place where
  level : Nat
  off   : Nat
  addr  : Nat
  bits  : Nat
  high  : Bool
  alone : Bool
  peer  : Bool
  deriving DecidableEq, Repr

/-- The place of tensor element `k` of tensor `t` for the worker on cluster `cl`. -/
def tensorPlace (c : Context) (cl t : Nat) (k : Nat) : Place :=
  match tensorOf c t with
  | none => ⟨0, 0, 0, 8, false, false, false⟩
  | some d =>
    let b := fmtBits d.fmt
    let off := k * b / 8
    ⟨tensorLevel c t, off, tensorBase c cl t + off, b, decide (b = 4 ∧ k % 2 = 1),
      decide (b = 4 ∧ k % 2 = 0 ∧ k + 1 = tensorElems d), decide (lowerOf c t = 3)⟩

/-- The place of view element `i`. -/
def viewPlace (c : Context) (cl : Nat) (v : View) (i : Nat) : Place := tensorPlace c cl v.tensor (viewElem v i).toNat

/-- Bytes an element touches. -/
def placeBytes (p : Place) : Nat := (p.bits + 7) / 8

/-- Memory that holds a level for a worker. -/
def placeMem (c : Context) (w : Worker) (p : Place) : Mem := if p.level = 0 then w.l0 else c.vmem

/-- An element's bits in a memory. -/
def memElem (m : Mem) (p : Place) : Nat :=
  let n := leNat (rdBytes m p.addr (placeBytes p))
  if p.bits = 4 then (if p.high then n / 16 else n % 16) else n

/-- Reads an element. -/
def readPlace (c : Context) (w : Worker) (p : Place) : Nat := memElem (placeMem c w p) p

/-- Reads view element `i`. -/
def readElem (c : Context) (cl : Nat) (w : Worker) (v : View) (i : Nat) : Nat := readPlace c w (viewPlace c cl v i)

/-- The bytes that storing an element leaves at its address. The high nibble beside an element that stands alone becomes 0x0
(R37). -/
def elemBytes (m : Mem) (p : Place) (x : Nat) : List (BitVec 8) :=
  if p.alone then [BitVec.ofNat 8 (x % 16)]
  else if p.bits = 4 then
    let old := (rdByte m p.addr).toNat
    [BitVec.ofNat 8 (if p.high then old % 16 + 16 * (x % 16) else old / 16 * 16 + x % 16)]
  else natLe (placeBytes p) x

/-! ### Page state (R150, R151) -/

/-- Page state word of a context's page before its first write: ZERO (R151). -/
def pageFresh : BitVec 16 := 0x1000

/-- Page state flags of page `p` of the context. -/
def pageFlags (c : Context) (p : Nat) : BitVec 16 := tget pageFresh c.pages p

/-- PROTECT of a page. -/
def pageProtected (c : Context) (p : Nat) : Bool := (pageFlags c p).getLsbD 13

/-- A write is accepted into page `p`: DIRTY set, ZERO cleared. -/
def touchPage (c : Context) (p : Nat) : Context :=
  { c with pages := tset pageFresh c.pages p ((pageFlags c p ||| 0x4000) &&& ~~~ (0x1000 : BitVec 16)) }

/-- PROTECT of a page changed. -/
def setProtect (c : Context) (p : Nat) (on : Bool) : Context :=
  let f := pageFlags c p
  { c with pages := tset pageFresh c.pages p (if on then f ||| 0x2000 else f &&& ~~~ (0x2000 : BitVec 16)) }

/-- DIRTY of a page cleared, as a capture does. -/
def clearDirty (c : Context) (p : Nat) : Context :=
  { c with pages := tset pageFresh c.pages p (pageFlags c p &&& ~~~ (0x4000 : BitVec 16)) }

/-- Stores bytes at a context-virtual address and marks the pages of its first and last byte. -/
def writeCtx (c : Context) (a : Nat) (bs : List (BitVec 8)) : Context :=
  let c' := touchPage { c with vmem := wrBytes c.vmem a bs } (a / pageBytes)
  if (a + bs.length - 1) / pageBytes = a / pageBytes then c' else touchPage c' ((a + bs.length - 1) / pageBytes)

/-- The page of an element that lies in L2; none elsewhere. Only L2 pages of protected state stop a write. -/
def placePage (p : Place) : Option Nat := if p.level = 0 then none else some (p.addr / pageBytes)

/-- Whether a write of the element meets a protected page. -/
def placeProtected (c : Context) (p : Place) : Bool :=
  match placePage p with
  | some g => pageProtected c g
  | none => false

/-! ### Latent errors (R139, R153) -/

/-- Whether the element lies in a word or granule with an uncorrectable error. -/
def placeBad (c : Context) (w : Worker) (p : Place) : Bool :=
  if p.level = 0 then decide (p.addr / 8 ∈ w.l0Bad) || decide ((p.addr + placeBytes p - 1) / 8 ∈ w.l0Bad)
  else decide (p.addr / 32 ∈ c.gBad) || decide ((p.addr + placeBytes p - 1) / 32 ∈ c.gBad)

/-- Whether a write of the element ends as an uncorrectable error: fewer than 8 bytes into a bad scratchpad word. -/
def writeBad (c : Context) (w : Worker) (p : Place) : Bool :=
  decide (p.level = 0) && decide (p.bits < 64) && placeBad c w p

/-- Stores a byte string in a scratchpad. A latent error goes with the 8-byte words that are written whole (R139). -/
def l0Fill (w : Worker) (a : Nat) (bs : List (BitVec 8)) : Worker :=
  { w with l0 := wrBytes w.l0 a bs, l0Bad := w.l0Bad.filter (fun i => !decide (a ≤ 8 * i ∧ 8 * i + 8 ≤ a + bs.length)) }

/-- Stores an element: to the scratchpad, whose 8-byte writes clear a latent error, or to the context's memory. -/
def writePlace (c : Context) (w : Worker) (p : Place) (x : Nat) : Context × Worker :=
  if p.level = 0 then
    (c, { w with l0 := wrBytes w.l0 p.addr (elemBytes w.l0 p x),
                 l0Bad := if p.bits = 64 then w.l0Bad.filter (· ≠ p.addr / 8) else w.l0Bad })
  else (writeCtx c p.addr (elemBytes c.vmem p x), w)

/-- Writes view element `i`. -/
def writeElem (c : Context) (cl : Nat) (w : Worker) (v : View) (i x : Nat) : Context × Worker :=
  writePlace c w (viewPlace c cl v i) x

/-- Writes a list of elements from index `i` on. -/
def writeElems (c : Context) (cl : Nat) (w : Worker) (v : View) (i : Nat) (xs : List Nat) : Context × Worker :=
  match xs with
  | [] => (c, w)
  | x :: xs =>
    let r := writeElem c cl w v i x
    writeElems r.1 cl r.2 v (i + 1) xs

/-- Every element of a view, in order. -/
def readView (c : Context) (cl : Nat) (w : Worker) (v : View) : List Nat :=
  (List.range (viewCount v)).map (readElem c cl w v)

/-- The byte range from a view's lowest to its highest element (R135), as an extent of its tensor; scratchpad extents
carry level 0. -/
def viewExtent (c : Context) (v : View) : Extent :=
  let b : Int := match viewFmt c v with | some f => fmtBits f | none => 8
  let r := ((v.rows - 1 : Nat) : Int) * v.rstride
  let k := ((v.cols - 1 : Nat) : Int) * v.cstride
  ⟨viewLevel c v, v.tensor, (v.origin + min r 0 + min k 0) * b / 8, ((v.origin + max r 0 + max k 0) * b + b - 1) / 8⟩

/-- Whether two extents share a byte. -/
def extentOverlap (x y : Extent) : Bool :=
  decide (x.level = y.level ∧ x.tensor = y.tensor ∧ x.lo ≤ y.hi ∧ y.lo ≤ x.hi)

/-- Whether an element lies in memory that a ring peer lent and that is lost (R159). -/
def placeDead (c : Context) (p : Place) : Bool := p.peer && c.peerLost

/-- The granule with an error that an element touches. -/
def badGranule (c : Context) (p : Place) : Nat := if p.addr / 32 ∈ c.gBad then p.addr / 32 else (p.addr + placeBytes p - 1) / 32

/-- Unit-stride views (R127). -/
def unitStride (v : View) : Bool := decide (v.cstride = 1) && (decide (v.rows ≤ 1) || decide (v.rstride = v.cols))

/-- Pages of a view that lie in L1 or L2. -/
def viewPages (c : Context) (cl : Nat) (v : View) (n : Nat) : List Nat :=
  ((List.range n).filterMap (fun i => placePage (viewPlace c cl v i))).eraseDups

/-- Whether some element `i < n` of a destination view lies in a protected page, or in a page that waits for its
remap (R153). -/
def destHeld (c : Context) (cl : Nat) (v : View) (n : Nat) : Bool :=
  (viewPages c cl v n).any (fun p => pageProtected c p || c.gBad.any (fun g => decide (g * 32 / pageBytes = p)))

end Sys2Proof.Machine
end

