-- ==== Sys2Proof/Machine/Ops.lean ====
section
/-! DEFINITION. Named operations over the state: entries, contexts, workers, clocks, free values, fault records and
steward events (R25, R393), datagrams the device sends (R295), halting a context (R83, R297), issuing a worker op. -/

namespace Sys2Proof.Machine

open Sys2Proof

/-! ### Entries (R373, R377) -/

/-- A value cut to its entry's size. -/
def fitEntry (k v : Nat) : Nat :=
  match entryOf k with
  | some e => v % 2 ^ (8 * typeSize e.type)
  | none => v

/-- Value of a device-wide entry. -/
def rd (s : State) (k : Nat) : Nat := tget (entryDefault k) s.ent k

/-- The change counter of an entry advances. -/
def bumpSnap (s : State) (k : Nat) : State := { s with snap := tmod 0 s.snap k (fun n => (n + 1) % 2 ^ 32) }

/-- An accepted write of an entry: SNAP advances at every one (R377). -/
def wrHost (s : State) (k v : Nat) : State :=
  bumpSnap { s with ent := tset (entryDefault k) s.ent k (fitEntry k v) } k

/-- The device changes an entry: SNAP advances when the value changes (R377). -/
def wr (s : State) (k v : Nat) : State := if rd s k = fitEntry k v then s else wrHost s k v

/-- Adds to an entry. -/
def incr (s : State) (k n : Nat) : State := wr s k (rd s k + n)

/-- Value of a context-scoped entry. -/
def erd (c : Context) (k : Nat) : Nat := tget (entryDefault k) c.ent k

/-- Sets a context-scoped entry. -/
def ewr (c : Context) (k v : Nat) : Context :=
  if erd c k = v then c
  else { c with ent := tset (entryDefault k) c.ent k v, snap := tmod 0 c.snap k (fun n => (n + 1) % 2 ^ 32) }

/-- Adds to a context-scoped entry. -/
def eincr (c : Context) (k n : Nat) : Context := ewr c k (erd c k + n)

/-- A signed value as the bits of a `w`-bit entry. -/
def sbits (w : Nat) (v : Int) : Nat := ofSigned w v

/-! ### Contexts and workers -/

/-- Context `id`. -/
def getC (s : State) (id : Nat) : Context := tget Context.dead s.ctxs id

/-- Replaces context `id`. -/
def setC (s : State) (id : Nat) (c : Context) : State := { s with ctxs := tset Context.dead s.ctxs id c }

/-- Changes context `id`. -/
def modC (s : State) (id : Nat) (f : Context → Context) : State := setC s id (f (getC s id))

/-- The worker on logical cluster `cl`. -/
def getW (c : Context) (cl : Nat) : Worker := tget Worker.initial c.workers cl

/-- Replaces a worker. -/
def setW (c : Context) (cl : Nat) (w : Worker) : Context := { c with workers := tset Worker.initial c.workers cl w }

/-- The running context (RUNNING_CTX). -/
def runningId (s : State) : Option Nat := if rd s 0x703001 = 0xFFFF then none else some (rd s 0x703001)

/-- Live contexts by ID. -/
def liveIds (s : State) : List Nat := (s.ctxs.filter (fun p => p.2.live)).map (fun p => p.1)

/-- Whether the context's module runs: its workers may issue. -/
def isRunning (c : Context) : Bool := c.live && decide (c.modState = .running)

/-- A scalar register; s0 reads as zero (Table 3.3). -/
def getS (w : Worker) (r : SReg) : BitVec 64 := if r.val = 0 then 0 else tget 0 w.s r.val

/-- Writes a scalar register; writes to s0 are discarded. -/
def setS (w : Worker) (r : SReg) (x : BitVec 64) : Worker := if r.val = 0 then w else { w with s := tset 0 w.s r.val x }

/-- A view slot. -/
def getV (w : Worker) (v : VReg) : View := tget View.empty w.v v.val

/-- A tile slot. -/
def getT (w : Worker) (t : TReg) : Tile := tget Tile.initial w.t t.val

/-- Replaces a tile slot. -/
def setT (w : Worker) (t : TReg) (x : Tile) : Worker := { w with t := tset Tile.initial w.t t.val x }

/-- A mask register. -/
def getM (w : Worker) (m : MReg) : BitVec 4096 := tget 0 w.m m.val

/-- Replaces a mask register. -/
def setM (w : Worker) (m : MReg) (x : BitVec 4096) : Worker := { w with m := tset 0 w.m m.val x }

/-- A worker flag. -/
def getF (w : Worker) (f : Nat) : BitVec 64 := tget 0 w.f f

/-- Adds to a worker flag, whole (R84). -/
def addF (w : Worker) (f inc : Nat) : Worker := { w with f := tset 0 w.f f (getF w f + BitVec.ofNat 64 inc) }

/-- Flags merged into the ASW (R39). -/
def mergeAsw (w : Worker) (fl : Flags) : Worker := { w with asw := w.asw ||| fl }

/-! ### Clocks and free values -/

/-- Ticks of 1/168 ns in one nanosecond. Every clock's cycle is a whole number of them. -/
def ticksPerNs : Nat := 168

/-- Ticks of one AC cycle at the operating point in force: 800, 700 or 600 MHz. -/
def acTicks (s : State) : Nat :=
  match rd s 0x200100 with
  | 0 => 210
  | 1 => 240
  | _ => 280

/-- Microseconds, rounded down, of a duration in ticks. -/
def ticksToUs (t : Nat) : Nat := t / (168 * 1000)

/-- ⌈a / b⌉. -/
def cdiv (a b : Nat) : Nat := (a + b - 1) / b

/-- DIE_STATE. -/
def dieState (s : State) (d : Nat) : Nat := rd s (0x101001 + d)

/-- Power cap of an operating point (Table 18.3). -/
def opCap (v : Nat) : Nat := if v = 0 then 1250 else if v = 1 then 1000 else 800

/-- Whether the fence of an operating point change to `v` may take effect: every solver half runs at the new point (R420 step 2),
and no Griddle or Whisk op of the running context is in flight. -/
def opReady (s : State) (v : Nat) : Bool :=
  (List.range 4).all (fun h => decide (tget 0 s.solv.clock h = v))
    && (match runningId s with
      | some id => (getC s id).workers.all (fun p => p.2.gf.isEmpty && p.2.wf.isEmpty)
      | none => true)

/-- The fence of an operating point change (R420 steps 3 and 4): once every synthesiser is locked and every solver target has
switched, OP_CURRENT and POWER_CAP_W change. Where a target has still to switch, the change waits for the next step point
(DEDUCED, log entry 83). -/
def applyOp (s : State) : State :=
  match s.pkg.opNext with
  | some (v, true) =>
    if opReady s v then wr (wr { s with pkg := { s.pkg with opNext := none } } 0x200100 v) 0x200102 (opCap v) else s
  | _ => s

/-- An operating point change takes effect at once while no module runs (R420 step 3). -/
def settleOp (s : State) : State :=
  match runningId s with
  | some id => if isRunning (getC s id) then s else applyOp s
  | none => applyOp s

/-- A fresh free number. -/
def drawNat (s : State) : Nat × State := (Config.freeNat s.freeIdx, { s with freeIdx := s.freeIdx + 1 })

/-- `n` fresh free bytes. -/
def drawBytes (s : State) (n : Nat) : List Byte × State :=
  ((List.range n).map (Config.freeByte s.freeIdx), { s with freeIdx := s.freeIdx + 1 })

/-! ### Fault records and steward events (R25, R392, R393) -/

/-- Wened writes one fault record and reports it. The log holds the last 1,024 (Table 16.8). `lost` is the lost-event
bit of the event that the record comes from. -/
def logRec (s : State) (r : FaultRec) (lost : Bool) : State :=
  let r' := { r with time := s.ptpNs, seq := rd s 0x100400 }
  let log := s.pkg.faults ++ [r']
  let s := { s with pkg := { s.pkg with faults := log.drop (log.length - 1024), reports := s.pkg.reports ++ [(r', lost)] } }
  bumpSnap (incr s 0x100400 1) 0x100401

/-- A record by its parts. -/
def mkRec (die cls unit code ctx step : Nat) (detail : BitVec 256) : FaultRec := ⟨0, 0, die, cls, unit, code, ctx, step, detail⟩

/-- Wened writes a record of its own. -/
def logFault (s : State) (die cls unit code ctx step : Nat) (detail : BitVec 256) : State :=
  logRec s (mkRec die cls unit code ctx step detail) false

/-- A unit raises an event into the queue of its die's steward: 64 entries, eight of them reserved for events that end
or roll back a job. An event that finds no entry of its kind is lost and counted (R25). -/
def raiseEvent (s : State) (die : Nat) (r : FaultRec) (ev : Option UnitEvent) (jobEnding : Bool) : State :=
  let q := tget [] s.pkg.stew die
  let others := (q.filter (fun e => !e.jobEnding)).length
  if q.length < 64 ∧ (jobEnding ∨ others < 56) then
    { s with pkg := { s.pkg with stew := tset [] s.pkg.stew die (q ++ [⟨{ r with die := die }, ev, jobEnding, false⟩]) } }
  else
    incr { s with pkg := { s.pkg with lostBit := addOnce s.pkg.lostBit die } } 0x101200 1

/-- The master ID of a unit (R15, R16). -/
def masterId (die unit : Nat) : Nat := die * 1024 + unit

/-! ### Datagrams the device sends (R295, R301) -/

/-- Key of a stream in its table. -/
def getStream (s : State) (mgmt : Bool) (id : Nat) : Stream :=
  tget Stream.free (if mgmt then s.eth.mstreams else s.eth.streams) id

/-- Replaces a stream entry. -/
def setStream (s : State) (mgmt : Bool) (id : Nat) (e : Stream) : State :=
  if mgmt then { s with eth := { s.eth with mstreams := tset Stream.free s.eth.mstreams id e } }
  else { s with eth := { s.eth with streams := tset Stream.free s.eth.streams id e } }

/-- The key that a stream's datagrams are sealed under: the context's session key, or the management key as it stood when the stream was opened (R289,
R350). -/
def sealKey (s : State) (mgmt : Bool) (ctx id : Nat) : Nat := if mgmt then tget 0 s.wen.mgmtGenKey id else ((getC s ctx).sessKey).getD 0

/-- RoCEv2 payload bytes leave the port in queue 4 (R301); they travel unencrypted (R298). -/
def sendRoce (s : State) (ctx : Nat) (bs : List Byte) : State :=
  { s with eth := { s.eth with tx := s.eth.tx ++ [⟨4, false, ctx, 0, 0, 0, 0, 0, bs, none⟩] } }

/-- Sends one datagram on a stream with the next TX sequence number, by relay where `relay` names one (R383). -/
def sendVia (s : State) (mgmt : Bool) (id opcode : Nat) (bytes : List Byte) (relay : Option (Nat × Nat)) : State × TxDg :=
  let e := getStream s mgmt id
  let dg : TxDg := ⟨if mgmt then 2 else 3, mgmt, e.ctx, id, e.txNext, e.gen, sealKey s mgmt e.ctx id, opcode, bytes, relay⟩
  let s := setStream s mgmt id { e with txNext := (e.txNext + 1) % 2 ^ 32 }
  ({ s with eth := { s.eth with tx := s.eth.tx ++ [dg] } }, dg)

/-- Sends one datagram on a stream from the Ethernet port. -/
def sendDg (s : State) (mgmt : Bool) (id opcode : Nat) (bytes : List Byte) : State × TxDg := sendVia s mgmt id opcode bytes none

/-- The completion payload (Table 12.6). -/
def completionBytes (e : Stream) (seq status detail ts : Nat) : List Byte :=
  natLe 4 seq ++ natLe 4 ((e.rxNext + 2 ^ 32 - 1) % 2 ^ 32) ++ natLe 2 status ++ natLe 1 e.credit ++ natLe 1 0
    ++ natLe 4 detail ++ natLe 8 ts

/-- Completes a command: one COMPLETION leaves and is kept in the status log, which holds the last 64 sequences of
each stream (R295). A command that came by relay is answered by relay; the log entry is the same. -/
def complete (s : State) (mgmt : Bool) (id : Nat) (h : DgHdr) (status detail : Nat) (extra : List Byte) : State :=
  let r := sendVia s mgmt id 0x8000 (completionBytes (getStream s mgmt id) h.seq status detail h.ts ++ extra) h.relay
  let keep := r.1.eth.log.filter (fun l => !(decide (l.mgmt = mgmt ∧ l.stream = id ∧ l.seq + 64 ≤ h.seq)))
  { r.1 with eth := { r.1.eth with log := keep ++ [⟨mgmt, id, h.seq, r.2⟩] } }

/-! ### Records of commands (R312, R313) -/

/-- The context named in REPLAY_CTX. -/
def replayCtx (s : State) : Nat := rd s 0x900101 % 4096

/-- Bytes of one record (Table 13.4). -/
def recSize (r : ReplayRec) : Nat := 32 + (r.data.length + 7) / 8 * 8

/-- Bytes that some records take. -/
def recsSize (rs : List ReplayRec) : Nat := rs.foldl (fun n r => n + recSize r) 0

/-- Bytes in the replay buffer: records not yet sent, and segments not yet acknowledged. -/
def bufferSize (s : State) : Nat := recsSize s.ckpt.rbuf + s.ckpt.rout.foldl (fun n seg => n + recsSize seg) 0

/-- Capacity of the buffer, REPLAY_BUF_MIB. -/
def bufferCap (s : State) : Nat := rd s 0x900103 * 1048576

/-- The records of the next segment: as many as fit in 1 MiB with its 32-byte head, at least one. -/
def segmentLen : Nat → List ReplayRec → Nat
  | _, [] => 0
  | n, r :: rs => if n + recSize r ≤ 1048576 then segmentLen (n + recSize r) rs + 1 else 0

/-- The bytes of a record (Table 13.4). -/
def replayBytes (r : ReplayRec) : List Byte :=
  natLe 1 r.type ++ natLe 3 0 ++ natLe 4 r.data.length ++ natLe 4 r.seq ++ natLe 4 r.step ++ natLe 8 r.key ++ natLe 8 r.ts ++ r.data
    ++ List.replicate ((r.data.length + 7) / 8 * 8 - r.data.length) 0

/-- A segment as it leaves: the plaintext head, then the records sealed under the session key of the recorded context, with no additional
data (R313). -/
def segmentBytes (s : State) (n : Nat) (rs : List ReplayRec) : List Byte :=
  natLe 4 0x4C504552 ++ natLe 4 (rd s 0x900200) ++ natLe 8 n ++ natLe 4 ((rs.head?.map (·.seq)).getD 0) ++ natLe 4 rs.length ++ natLe 8 0
    ++ gcmSeal (sealKey s false (replayCtx s) 0) ((natLe 4 (rd s 0x900200)).reverse ++ (natLe 8 n).reverse.drop 4 ++ natLe 4 0) []
      (rs.flatMap replayBytes)

/-- A full segment leaves for REPLAY_SINK (R313). -/
def cutSegment (s : State) : State :=
  if recsSize s.ckpt.rbuf + 32 < 1048576 then s
  else
    let n := max 1 (segmentLen 32 s.ckpt.rbuf)
    let s := sendRoce s (replayCtx s) (segmentBytes s s.ckpt.rseg (s.ckpt.rbuf.take n))
    { s with ckpt := { s.ckpt with rout := s.ckpt.rout ++ [s.ckpt.rbuf.take n], rbuf := s.ckpt.rbuf.drop n,
                                   rseg := s.ckpt.rseg + 1 } }

/-- Takes one record. When the buffer is full the device acts by REPLAY_ON_FULL: with 1, records are lost until the buffer has
drained to half; with 0 the answer is true, and the job halts. -/
def appendRec (s : State) (type step key ts : Nat) (data : List Byte) : State × Bool :=
  let seq := rd s 0x900201
  let r : ReplayRec := ⟨type, seq, step, key, ts, data⟩
  let s := wr s 0x900201 (seq + 1)
  if s.ckpt.rgapFrom.isSome then (s, false)
  else if bufferCap s < bufferSize s + recSize r then
    if rd s 0x900102 = 1 then ({ s with ckpt := { s.ckpt with rgapFrom := some seq } }, false) else (s, true)
  else (cutSegment { s with ckpt := { s.ckpt with rbuf := s.ckpt.rbuf ++ [r] } }, false)

/-- The `n` bytes of a number, most significant first (R288). -/
def natBe (n v : Nat) : List Byte := (natLe n v).reverse

/-- A datagram's header as it arrived (Table 12.2). -/
def hdrBytes (h : DgHdr) (opcode : Nat) : List Byte :=
  natBe 1 h.version ++ natBe 1 (bit h.fromDev * 128 + bit h.mgmt * 64 + h.flagsRes % 64) ++ natBe 2 opcode
    ++ natBe 4 (h.ctx % 4096 * 2 ^ 20 + h.stream % 2 ^ 20) ++ natBe 4 h.seq ++ natBe 2 h.length ++ natBe 2 h.gen

/-- Opcode of a command (Table 12.5). -/
def cmdOpcode : TCmd → Nat
  | .nop => 0x0001
  | .load _ => 0x0010
  | .run => 0x0011
  | .halt _ _ => 0x0012
  | .input _ => 0x0020
  | .outputResend _ _ _ => 0x0021
  | .regMem _ => 0x0030
  | .deregMem _ _ => 0x0031
  | .bulk _ => 0x0032
  | .entryRead _ => 0x0040
  | .entryWrite _ => 0x0041
  | .mgmtRead _ => 0x4000
  | .mgmtWrite _ => 0x4001
  | .streamOpen _ => 0x4010
  | .streamClose _ => 0x4011
  | .context _ _ _ => 0x4020
  | .unassigned op => op

/-- A dictionary request record (Table 16.2). The signature of an authorisation is not held: free bytes. -/
def drecBytes (r : DRec) (free : Nat → Byte) : List Byte :=
  natLe 1 r.op ++ natLe 1 r.flags ++ natLe 2 r.index ++ natLe 1 r.sub ++ natLe 1 r.res ++ natLe 2 r.ctx ++ natLe 4 r.offset
    ++ natLe 4 r.length ++ (if r.op = 2 then padTo ((r.length + 7) / 8 * 8) r.value else [])
    ++ (match r.auth with | some a => natLe 8 a.seq ++ (List.range 512).map free | none => [])

/-- Plaintext payload of a command of `n` bytes (Table 12.5, Table 12.10). Where the payload is not one that the opcode lays
out, its bytes are free. -/
def cmdBytes (c : TCmd) (n : Nat) (free : Nat → Byte) : List Byte :=
  match c with
  | .nop => (List.range n).map free
  | .run => (List.range n).map free
  | .load a => natLe 4 a.rKey ++ natLe 4 a.res ++ natLe 8 a.offset ++ natLe 8 a.length
  | .halt mode res => natLe 1 mode ++ natLe 7 res
  | .input a => natLe 2 a.decl ++ natLe 2 ((if a.last then 1 else 0) + 2 * a.res) ++ natLe 4 a.step ++ natLe 8 a.offset ++ a.data
  | .outputResend decl res step => natLe 2 decl ++ natLe 2 res ++ natLe 4 step
  | .regMem a => natLe 2 a.tensor ++ natLe 1 a.rights ++ natLe 5 a.res ++ natLe 8 a.offset ++ natLe 8 a.length
  | .deregMem k res => natLe 4 k ++ natLe 4 res
  | .bulk a => natLe 4 a.qp ++ natLe 1 a.op ++ natLe 3 a.res ++ natLe 2 a.tensor ++ natLe 6 0 ++ natLe 8 a.local' ++ natLe 8 a.remote
      ++ natLe 4 a.key ++ natLe 4 0 ++ natLe 8 a.length
  | .entryRead r => drecBytes r free
  | .entryWrite r => drecBytes r free
  | .mgmtRead r => drecBytes r free
  | .mgmtWrite r => drecBytes r free
  | .streamOpen _ => (List.range n).map free
  | .streamClose _ => (List.range n).map free
  | .context _ _ _ => (List.range n).map free
  | .unassigned _ => (List.range n).map free

/-- Step ordinal at which a command takes effect: the one an INPUT names, else the current one. -/
def cmdStep (c : Context) : TCmd → Nat
  | .input a => a.step
  | _ => c.step

/-- Data of a COMMAND record (Table 13.5): header, payload, completion status. -/
def commandData (s : State) (h : DgHdr) (c : TCmd) (status : Nat) : List Byte :=
  hdrBytes h (cmdOpcode c) ++ cmdBytes c h.length (Config.freeByte s.freeIdx) ++ natLe 2 status

/-- The device records context `id` (R312). -/
def recording (s : State) (id : Nat) : Bool := s.ckpt.rrec && decide (replayCtx s = id)

/-- The COMMAND record of a command that ends as its job ends. -/
def recordEnded (s : State) (b : BusyCmd) (status : Nat) : State :=
  if !b.mgmt && recording s b.hdr.ctx then
    (appendRec { s with freeIdx := s.freeIdx + 1 } 0x02 (cmdStep (getC s b.hdr.ctx) b.cmd) (b.stream * 2 ^ 32 + b.hdr.seq) b.hdr.ts
      (commandData s b.hdr b.cmd status)).1
  else s

/-- Commands in progress end with a status. -/
def endBusy (s : State) (bs : List BusyCmd) (status detail : Nat) : State :=
  bs.foldl (fun s b => recordEnded (complete s b.mgmt b.stream b.hdr status detail []) b status) s

/-- Command streams of a context that are not FREE, by ID. -/
def ctxStreams (s : State) (ctx : Nat) : List Nat :=
  (s.eth.streams.filter (fun p => decide (p.2.state ≠ 0 ∧ p.2.kind = 1 ∧ p.2.ctx = ctx))).map (fun p => p.1)

/-- Completes a command that is waiting or held with a status, moving RX_NEXT over it where it stands there. -/
def completeHeld (s : State) (h : HeldCmd) (status detail : Nat) : State :=
  let e := getStream s h.mgmt h.stream
  let s := if e.rxNext = h.hdr.seq then setStream s h.mgmt h.stream { e with rxNext := e.rxNext + 1 } else s
  complete s h.mgmt h.stream h.hdr status detail []

/-- Completes every command of one stream that is in progress, waiting or held, in sequence order; with `keep` the one
in progress stays. -/
def flushStream (s : State) (mgmt : Bool) (id status detail : Nat) (keep : Bool) : State :=
  let busy := s.eth.busy.filter (fun b => decide (b.mgmt = mgmt ∧ b.stream = id) && !keep)
  let held := s.eth.held.filter (fun b => decide (b.mgmt = mgmt ∧ b.stream = id))
  let s := { s with eth := { s.eth with
    busy := s.eth.busy.filter (fun b => keep || !decide (b.mgmt = mgmt ∧ b.stream = id)),
    held := s.eth.held.filter (fun b => !decide (b.mgmt = mgmt ∧ b.stream = id)) } }
  let s := endBusy s busy status detail
  (held.mergeSort (fun a b => decide (a.hdr.seq ≤ b.hdr.seq))).foldl (fun s h => completeHeld s h status detail) s

/-- One NOTICE (Table 12.10). -/
def sendNotice (s : State) (id kind detail : Nat) : State :=
  (sendDg s false id 0x8002 (natLe 2 kind ++ natLe 2 0 ++ natLe 4 detail)).1

/-! ### Halting a context (R83, R297) -/

/-- The steward sets every command stream of the context to HALTED; its commands complete with JOB_HALTED, but for the
HALT in progress on stream `keep`, and each stream receives one NOTICE JOB_HALTED. -/
def haltStreams (s : State) (ctx code : Nat) (keep : Option Nat) : State :=
  (ctxStreams s ctx).foldl (fun s id =>
    let e := getStream s false id
    if e.state = 2 then s
    else sendNotice (flushStream (setStream s false id { e with state := 2 }) false id 0x0506 code (decide (keep = some id))) id 2 code) s

/-- Queues an action behind a quiesce fence (R23). -/
def addFence (s : State) (a : FenceAct) : State := { s with pkg := { s.pkg with fences := s.pkg.fences ++ [a] } }

/-- Ends the context's module: its streams are HALTED, issue stops, and a fence halts its workers. A module that does
not run is not halted again. -/
def haltCtx (s : State) (ctx code : Nat) (stream : Option Nat) : State :=
  if (getC s ctx).modState = .running ∨ (getC s ctx).modState = .paused then
    addFence (modC (haltStreams s ctx code stream) ctx (fun c => { c with modState := .halting })) (.haltCtx ctx code stream)
  else s

/-- A worker's record becomes WHISK_LAST_RECORD of its context (R132). -/
def putRecord (c : Context) (cl : Nat) (w : Worker) (r : BitVec 256) : Context :=
  ewr (setW c cl { w with record := r }) 0x503005 r.toNat

/-- A worker halts: its state stays, a fault record of class `cls` is raised by its cluster, and the context's module
halts with DETAIL `code` (R83, R297). `rcode` is the record's CODE. -/
def haltWorker (s : State) (id cl : Nat) (c : Context) (w : Worker) (code cls rcode : Nat) (detail : BitVec 256)
    (ev : Option UnitEvent) : State :=
  let s := setC s id (setW c cl { w with run := .halted code, wait := none })
  let s := raiseEvent s (dieOf cl) (mkRec 0 cls (cl % 500) rcode id c.step detail) ev true
  haltCtx s id code none

/-- The stack page that holds page `p` of a context (R141). A page that no load has placed stands for itself (log entry 89). -/
def physPage (c : Context) (p : Nat) : Nat :=
  match c.place.find? (fun r => decide (r.vpage ≤ p ∧ p < r.vpage + r.count)) with
  | some r => r.phys + (p - r.vpage)
  | none => p

/-- Pages of a 1 GiB region (R141). -/
def regionPages : Nat := 16384

/-- Stack of a page by its region's mode: INTERLEAVED (p + r) mod 16, AFFINE(k) 2k + (p mod 2) (R141). -/
def pageStack (s : State) (pp : Nat) : Nat :=
  match tget 0 s.pkg.regions (pp / regionPages) with
  | 0 => (pp % regionPages + pp / regionPages) % 16
  | k + 1 => (2 * k + pp % 2) % 16

/-- Stack of the line at a context-virtual address. -/
def stackOf (s : State) (c : Context) (a : Nat) : Nat := pageStack s (physPage c (a / pageBytes))

/-- Stack-local line number ℓ of a context-virtual address (R149). Which page of its stack a page is, is not stated. -/
def stackLine (s : State) (c : Context) (a : Nat) : Nat :=
  Config.stackPage (physPage c (a / pageBytes)) % (rd s 0x300100 * 16384) * 512 + a / 128 % 512

/-- Die-local line number λ (R144). -/
def dieLine (s : State) (c : Context) (a : Nat) : Nat := 2 ^ 29 * (stackOf s c a % 2) + stackLine s c a

/-- Home Pantry slice of the line at a context-virtual address: 32 for each compute die, by λ[4:0] xor λ[19:15] (R144). -/
def sliceOf (s : State) (c : Context) (a : Nat) : Nat :=
  32 * (stackOf s c a / 2) + ((dieLine s c a % 32) ^^^ (dieLine s c a / 2 ^ 15 % 32))

/-- Channel of a stack that the line uses: ℓ[3:0] xor ℓ[12:9] (R149). -/
def channelOf (s : State) (c : Context) (a : Nat) : Nat := (stackLine s c a % 16) ^^^ (stackLine s c a / 2 ^ 9 % 16)

/-- The event of an uncorrectable error that the worker on cluster `cl` of the running context met: its own scratchpad
or logic, or a granule of a stack (R139, R153). -/
def badEvent (s : State) (c : Context) (cl : Nat) (p : Option Place) : UnitEvent :=
  match p with
  | some p =>
    if p.level = 0 then .clusterFault (Fin.ofNat 4000 cl) (some (p.addr / 8))
    else .stackGranule (Fin.ofNat 16 (stackOf s c p.addr)) ((runningId s).getD 0) (badGranule c p)
  | none => .clusterFault (Fin.ofNat 4000 cl) none

/-- A unit fault event (Table 1.6, R394): the work of cluster `cl` is lost; the module of its context halts with
DETAIL 0x0106. -/
def unitFault (s : State) (die unit ctx : Nat) (ev : Option UnitEvent) (detail : BitVec 256) : State :=
  haltCtx (raiseEvent s die (mkRec 0 0x01 unit 0x0A0A ctx (getC s ctx).step detail) ev true) ctx 0x0106 none

/-! ### Issuing a worker op (R69, R78, R82) -/

/-- Outcome of one presented op: completed or issued; completed with the next code word already set; turned away until
presented again; worker halted with DETAIL `code` and a record of class `cls`, CODE `rcode` and what Wened acts on. -/
inductive OpRes where
  | done (s : State) (c : Context) (w : Worker)
  | jump (s : State) (c : Context) (w : Worker)
  | wait (s : State) (c : Context) (w : Worker) (why : WaitWhy)
  | halt (s : State) (c : Context) (w : Worker) (code cls rcode : Nat) (detail : BitVec 256) (ev : Option UnitEvent)

/-- The worker at code word `pc` with the loop frames it stands in: a body's end starts the next pass or leaves the
loop (LOOP, Table 3.13). -/
def closeLoops (w : Worker) (pc : Nat) : List LoopFrame → Worker
  | [] => { w with pc := pc, loops := [] }
  | f :: rest =>
    if pc = f.stop then
      if f.pass + 1 < f.count then
        setS { w with pc := f.start, loops := { f with pass := f.pass + 1 } :: rest } f.d (BitVec.ofNat 64 (f.pass + 1))
      else closeLoops w pc rest
    else { w with pc := pc, loops := f :: rest }

/-- The worker after an op with `ext` extension words. -/
def advance (w : Worker) (ext : Nat) : Worker := closeLoops w (w.pc + 1 + ext) w.loops

/-- Whether a fence that waits has stopped issue at cluster `cl` (R23 step 1): a spare swap at its own cluster, a route change
and a page remap at every one. A halt ends issue by the module's state. -/
def fenceStops (cl : Nat) : FenceAct → Bool
  | .spareSwap x => decide (x = cl)
  | .haltCtx _ _ _ => false
  | .routeCommit _ _ => true
  | .pageRemap _ _ _ => true

/-- Whether issue at cluster `cl` is stopped: by a fence, or while the cluster entries of the access tables are being replaced
(R23, R24, R357). -/
def issueStopped (s : State) (cl : Nat) : Bool :=
  s.pkg.fences.any (fenceStops cl) || s.pkg.accPend.any (fun u => u.master.isNone)

/-- Whether every op that a worker has issued has completed, its remote accesses among them (R23 step 2). An op that is turned
away and waits to be presented again has not issued; a collective ends by its own messages. -/
def opsDone (k : Worker) : Bool :=
  k.gf.isEmpty && k.wf.isEmpty && k.stopped.isNone && k.rpend.isEmpty && k.slots.all (fun p => p.2.isNone) && k.flags.isEmpty

/-- The slice that runs on a die: kind and unit (R400). -/
def dieSlice (s : State) (d : Nat) : Option (Nat × Nat) := (tget Taster.initial s.pkg.tasters d).slice.map (fun x => (x.1, x.2.1))

/-- Whether a slice runs on the cluster that serves logical cluster `cl`. -/
def sliceOnCluster (s : State) (cl : Nat) : Bool :=
  decide (dieSlice s (dieOf cl) = some (1, tget (cl % 500) (tget Fuses.factory s.pkg.fuses (dieOf cl)).map (cl % 500)))

/-- Whether a slice runs on a cluster mapped to a running module (R403). -/
def sliceHolds (s : State) : Bool :=
  s.pkg.tasters.any (fun p => match p.2.slice with | some (_, _, b) => decide (b % 2 = 1) | none => false)

/-- Whether a fence waits for the release of a slice on its unit (R404). -/
def sliceWaits (s : State) : FenceAct → Bool
  | .spareSwap cl => sliceOnCluster s cl
  | .haltCtx id _ _ => decide (runningId s = some id) && sliceHolds s
  | .routeCommit _ _ => false
  | .pageRemap stack _ _ => (match dieSlice s (8 + stack.val) with | some (3, _) => true | _ => false)

/-- Whether the ops issued by the units that a fence stops have completed (R23 step 2), and no slice holds them. -/
def fenceClear (s : State) (f : FenceAct) : Bool := !sliceWaits s f && (match f with
  | .spareSwap cl => (match runningId s with | some id => opsDone (getW (getC s id) cl) | none => true)
  | .haltCtx id _ _ => (getC s id).workers.all (fun p => opsDone p.2)
  | .routeCommit _ _ => (match runningId s with | some id => (getC s id).workers.all (fun p => opsDone p.2) | none => true)
  | .pageRemap _ _ _ => (match runningId s with | some id => (getC s id).workers.all (fun p => opsDone p.2) | none => true))

/-- Whether the worker may issue its next op. -/
def mayIssue (c : Context) (w : Worker) : Bool := isRunning c && decide (w.run = .running) && w.stopped.isNone

/-- The state after the worker on cluster `cl` of context `id` met an outcome. -/
def applyRes (id cl ext : Nat) : OpRes → State
  | .done s c w => setC s id (setW c cl (advance w ext))
  | .jump s c w => setC s id (setW c cl w)
  | .wait s c w why => setC s id (setW c cl { w with wait := some why })
  | .halt s c w code cls rcode d ev => haltWorker s id cl c w code cls rcode d ev

/-- A page becomes held: the Ladle copies held pages next, in the order they became held (R327). -/
def holdPage (s : State) (id p : Nat) : State :=
  if (id, p) ∈ s.ckpt.heldPages then s else { s with ckpt := { s.ckpt with heldPages := s.ckpt.heldPages ++ [(id, p)] } }

/-- Pages of the running context that a write has met protected become held. -/
def noteHeld (s : State) (ps : List Nat) : State := ps.foldl (fun s p => holdPage s ((runningId s).getD 0) p) s

/-- An op waits for the pages of its destination, and `more`, that are protected, or for a page remap (R153). -/
def pageWait (s : State) (c : Context) (cl : Nat) (k : Worker) (v : View) (n : Nat) (more : List Nat) : OpRes :=
  let ps := (viewPages c cl v n ++ more).filter (pageProtected c)
  if ps = [] then .wait s c k .remap else .wait (noteHeld s ps) c k .page

/-- The context of an op presented again after a wait for the Ladle: the wait counts into LADLE_STALL_US, which is held in
ticks (R327). -/
def endWait (s : State) (c : Context) (k : Worker) : Context :=
  if k.wait = some .page then eincr c 0x801101 ((s.ptpNs - k.since) * ticksPerNs) else c

/-- Presents an op of `ext` extension words to the worker on cluster `cl` of the running context. A worker that may not
issue, or whose issue a fence has stopped, leaves the state as it is. -/
def issue (s : State) (cl ext : Nat) (f : State → Nat → Context → Worker → OpRes) : State :=
  match runningId s with
  | none => s
  | some id =>
    if mayIssue (getC s id) (getW (getC s id) cl) && !issueStopped s cl then
      let k := getW (getC s id) cl
      applyRes id cl ext (f s id (endWait s (getC s id) k) { k with wait := none, since := s.ptpNs })
    else s

/-- An operand halt (class OPERAND), whose record carries the same code. -/
def operandHalt (s : State) (c : Context) (w : Worker) (code : Nat) : OpRes := .halt s c w code 0x03 code 0 none

/-- Halt codes of R297. -/
def codeOperandRange : Nat := 0x0101
/-- Halt codes of R297. -/
def codeGriddleOperand : Nat := 0x0102
/-- Halt codes of R297. -/
def codeWhiskOperand : Nat := 0x0103
/-- Halt codes of R297. -/
def codeWhiskIndex : Nat := 0x0104
/-- Halt codes of R297. -/
def codeStepCount : Nat := 0x0105
/-- Halt codes of R297. -/
def codeUnitFault : Nat := 0x0106

/-- Tensor of a view that is one of the context's replica regions, by its number (R252). -/
def replicaOf (c : Context) (t : Nat) : Option Nat := c.replicas.findIdx? (fun r => decide (r.tensor = t))

/-- The worker after writing locally to tensor `t`: its replica-written bit is set when `t` is a replica region
(R252). -/
def markReplica (c : Context) (w : Worker) (t : Nat) : Worker :=
  match replicaOf c t with
  | some r => { w with replBits := addOnce w.replBits r }
  | none => w

/-- FSET, RWRITEF, BAR, STEP, CKPT and END halt a worker that has written a replica region and not invalidated it
(R252). -/
def replicaGuard (s : State) (c : Context) (w : Worker) (k : OpRes) : OpRes :=
  if w.replBits = [] then k else .halt s c w 0x0306 0x04 0x0306 0 none

end Sys2Proof.Machine
end

