-- ==== Sys2Proof/Machine/Port.lean ====
section
/-! DEFINITION. How the Ethernet port sends (R301): four queues, their order and their shares, and PFC (R286). -/

namespace Sys2Proof.Machine

open Sys2Proof

/-- The Ethernet die is in service (Table 1.10). -/
def edUp (s : State) : Bool := decide (dieState s 38 = 2 ∨ dieState s 38 = 4)

/-- CTX_STREAM of a datagram (Table 12.2). -/
def ctxStream (d : TxDg) : Nat := d.ctx % 4096 * 2 ^ 20 + d.stream % 2 ^ 20

/-- Header of a datagram that the device sends (Table 12.2). -/
def txHeader (d : TxDg) : List Byte :=
  natBe 1 1 ++ natBe 1 (128 + bit d.mgmt * 64) ++ natBe 2 d.opcode ++ natBe 4 (ctxStream d) ++ natBe 4 d.seq ++ natBe 2 d.bytes.length
    ++ natBe 2 d.gen

/-- The UDP payload of a datagram as it leaves: its header, then the payload sealed with the header as additional data (R288, R289). RoCEv2
bytes travel as they are (R298). -/
def wireBytes (d : TxDg) : List Byte :=
  if d.queue = 4 then d.bytes
  else
    txHeader d ++ gcmSeal d.key (natBe 4 (ctxStream d) ++ natBe 4 d.seq ++ natBe 4 (2 ^ 31 + bit d.mgmt * 2 ^ 30 + d.gen % 65536))
      (txHeader d) d.bytes

/-- Slots that a datagram takes: the port moves 200 bytes in a nanosecond, and a slot is one nanosecond (DESIGN CHOICE, log entry 105).
Header and tag are 32 bytes (R288). -/
def txSlots (d : TxDg) : Nat := max 1 (cdiv (32 + d.bytes.length) 200)

/-- Whether a queue may send: during a scrub queue 2 alone (R301); queue 2 while it has used less than 1 % of the window's slots; queue 4 while
PFC does not pause it (R286). -/
def queueOpen (s : State) (q : Nat) : Bool :=
  match q with
  | 2 => decide (s.eth.mgmtSlots < 100)
  | 4 => !s.pkg.scrubbing && !s.eth.pfcPaused
  | _ => !s.pkg.scrubbing

/-- The oldest datagram of a queue that may send. -/
def queueHead (s : State) (q : Nat) : Option TxDg := if queueOpen s q then s.eth.tx.find? (fun d => decide (d.queue = q)) else none

/-- Queues 3 and 4 in the order of their shares: first the one that has had less of its weight in the present hundred slots. -/
def weighted (s : State) : List Nat :=
  let w := rd s 0x102106
  if s.eth.share3 * (100 - w) ≤ s.eth.share4 * w then [3, 4] else [4, 3]

/-- The datagram that the port sends next (R301). -/
def nextDg (s : State) : Option TxDg := ([1, 2] ++ weighted s).findSome? (queueHead s)

/-- The port's account of a datagram that starts. -/
def countDg (e : EthState) (d : TxDg) : EthState :=
  let n := txSlots d
  let e := if 100 ≤ e.share3 + e.share4 then { e with share3 := 0, share4 := 0 } else e
  match d.queue with
  | 2 => { e with mgmtSlots := e.mgmtSlots + n }
  | 3 => { e with share3 := e.share3 + n }
  | 4 => { e with share4 := e.share4 + n }
  | _ => e

/-- A datagram leaves the port. -/
def sendNext (s : State) (d : TxDg) : State :=
  let e := countDg s.eth d
  { s with eth := { e with tx := e.tx.erase d, out := e.out ++ [d], freeAt := s.ptpNs + txSlots d } }

/-- A pause ends, and a 10 µs window begins. -/
def portClock (s : State) : State :=
  let s := if s.eth.pfcPaused && decide (s.eth.pfcUntil ≤ s.ptpNs) then { s with eth := { s.eth with pfcPaused := false } } else s
  if s.eth.window = s.ptpNs / 10000 then s
  else { s with eth := { s.eth with window := s.ptpNs / 10000, mgmtSlots := 0 } }

/-- One nanosecond of the port: while it is in service and its link is up it sends one datagram at a time. -/
def portTick (s : State) : State :=
  let s := portClock s
  if edUp s && decide (rd s 0x102001 = 1) && decide (s.eth.freeAt ≤ s.ptpNs) then
    match nextDg s with
    | some d => sendNext s d
    | none => s
  else s

end Sys2Proof.Machine
end

