-- ==== Sys2Proof/Machine/Act.lean ====
section
/-! DEFINITION. Activation functions of one element (R123, Table 5.2). The exact value is computed in fixed point, far more
closely than any format holds it; which neighbour of it the fixed algorithm returns is a free choice within the rule's bound. -/

namespace Sys2Proof.Machine

open Sys2Proof

/-! ### Exact values in fixed point. A number `v` at scale `k` is the integer nearest below `v × 2^k`, but for a few units. -/

/-- Σ 1/(q^(2i+1) (2i+1)) over `n` terms at scale `k`, with alternating signs where `alt`: artanh(1/q), or arctan(1/q). -/
def invSeries (alt : Bool) (q k n : Nat) : Nat :=
  ((List.range n).foldl (fun (a : Int) i =>
    let t : Int := (2 ^ k / (q ^ (2 * i + 1) * (2 * i + 1)) : Nat)
    if alt ∧ i % 2 = 1 then a - t else a + t) 0).toNat

/-- π, by Machin's formula. -/
def fixPi (k : Nat) : Nat := 16 * invSeries true 5 k k - 4 * invSeries true 239 k k

/-- ln 2. -/
def fixLn2 (k : Nat) : Nat := 2 * invSeries false 3 k k

/-- e^x at scale `k` for `x ≥ 0` given at scale `k`: Taylor's series of x / 2^24, then 24 squarings. -/
def fixExp (k x : Nat) : Nat :=
  let y := x / 2 ^ 24
  let t := (List.range (k + 1)).foldl (fun (a : Nat × Nat) i =>
    let u := a.2 * y / 2 ^ k / (i + 1)
    (a.1 + u, u)) (2 ^ k, 2 ^ k)
  (List.range 24).foldl (fun a _ => a * a / 2 ^ k) t.1

/-- ln of `s × 2^-top` at scale `k`, where `top` is the place of the leading bit of `s`: 2 artanh((m − 1) / (m + 1)). -/
def fixLnMant (k s : Nat) : Nat :=
  let p := 2 ^ Nat.log2 s
  let z := (s - p) * 2 ^ k / (s + p)
  2 * ((List.range k).foldl (fun (a : Nat × Nat) i => (a.1 + a.2 / (2 * i + 1), a.2 * z / 2 ^ k * z / 2 ^ k)) (0, z)).1

/-- Scale for an argument: its distance from the values at which a function is representable stays far above the error. -/
def actScale (s : Nat) (e : Int) : Nat := 448 + 4 * (-(topExp s e)).toNat

/-- The magnitude of an argument at scale `k`. -/
def atScale (k s : Nat) (e : Int) : Nat := if 0 ≤ e + k then s * 2 ^ (e + k).toNat else s / 2 ^ (-(e + k)).toNat

/-- A positive value that lies between `sig` and `sig + 1` at exponent `exp`, for rounding. -/
def between (neg : Bool) (sig : Nat) (exp : Int) : Num := .fin neg (2 * sig + 1) (exp - 1)

/-- n / d of two integers as a value to be rounded. -/
def quotient (neg : Bool) (n d : Nat) : Num :=
  let l := Nat.log2 d + 448
  between neg (n * 2 ^ l / d) (-(l : Int))

/-- A value so small that it only rounds to a neighbour of zero. -/
def nearZero (neg : Bool) : Num := between neg 0 (-40000)

/-- A value just below `s × 2^e`. -/
def justBelow (neg : Bool) (s : Nat) (e : Int) : Num := between neg (s * 2 ^ 40000 - 1) (e - 40000)

/-- 2 √(2/π) (x + 0.044715 x³) at scale `k` for `x ≥ 0`. -/
def geluArg (k x : Nat) : Nat :=
  let c := isqrt (2 * 2 ^ (3 * k) / fixPi k)
  2 * (c * (x + 44715 * (x * x / 2 ^ k * x / 2 ^ k) / 1000000) / 2 ^ k)

/-- The exact value of a function at ± s × 2^e, for the arguments that Table 5.2 does not list. -/
def actExact (op : Act) (neg : Bool) (s : Nat) (e : Int) : Num :=
  let k := actScale s e
  let x := atScale k s e
  let one := 2 ^ k
  let big := decide (12 ≤ topExp s e)
  match op with
  | .relu => .fin neg s e
  | .exp =>
    if big then (if neg then nearZero false else .fin false 1 40000)
    else if neg then quotient false one (fixExp k x) else between false (fixExp k x) (-(k : Int))
  | .sigmoid =>
    if big then (if neg then nearZero false else justBelow false 1 0)
    else if neg then quotient false one (fixExp k x + one) else quotient false (fixExp k x) (fixExp k x + one)
  | .tanh =>
    if big then justBelow neg 1 0
    else quotient neg (fixExp k (2 * x) - one) (fixExp k (2 * x) + one)
  | .gelu =>
    if 6 ≤ topExp s e then (if neg then nearZero true else justBelow false s e)
    else
      let E := fixExp k (geluArg k x)
      if neg then quotient true x (E + one) else quotient false (x * E / one) (E + one)
  | .log =>
    let v : Int := topExp s e * fixLn2 k + fixLnMant k s
    between (decide (v < 0)) (if v < 0 then (-v - 1).toNat else v.toNat) (-(k : Int))

/-! ### The result -/

/-- A neighbour of the exact value. `up` takes the one above; where a rounding would overflow, ACW.RM decides as IEEE 754 has it. -/
def neighbour (f : Fmt) (rm : RM) (up : Bool) : Num → Nat × Flags
  | .fin n s e =>
    let r := roundFloat f .ieee (if up then .rup else .rdn) n s e
    if r.2 &&& fOverflow = 0 then r else roundFloat f .ieee rm n s e
  | _ => (0, 0)

/-- The next magnitude away from the exact value, which gelu's bound of 2 units also admits. -/
def stepAway (f : Fmt) (up : Bool) (r : Nat × Flags) : Nat × Flags :=
  let neg := signOf f r.1
  let mag := r.1 % signBit f
  let mag' := if up = neg then mag - 1 else mag + 1
  if mag = 0 ∨ (fspec f).maxMag < mag' then r
  else (withSign f neg mag', fInexact ||| flagIf (decide (mag' < 2 ^ (fspec f).m)) fUnderflow)

/-- A result within the bound of R123. The exact value of an unlisted argument is irrational, so INEXACT is always raised. -/
def actNear (f : Fmt) (op : Act) (rm : RM) (a : Nat) (v : Num) : Nat × Flags :=
  let up := Config.actUp op f a (rmCode rm)
  let r := neighbour f rm up v
  if op = .gelu ∧ Config.geluAway f a (rmCode rm) = true then stepAway f up r else r

/-- Activation of one element (R123, Table 5.2). -/
def actElem (f : Fmt) (op : Act) (rm : RM) (a : Nat) : Nat × Flags :=
  match op, decode f a with
  | _, .nan s => (canonicalNaN f, flagIf s fInvalid)
  | .relu, .fin false _ _ => (a, 0)
  | .relu, .inf false => (a, 0)
  | .relu, _ => (0, 0)
  | .tanh, .zero _ => (a, 0)
  | .tanh, .inf n => (pow2Bits f n 0, 0)
  | .sigmoid, .zero _ => (pow2Bits f false (-1), 0)
  | .sigmoid, .inf false => (pow2Bits f false 0, 0)
  | .sigmoid, .inf true => (0, 0)
  | .gelu, .zero _ => (a, 0)
  | .gelu, .inf false => (a, 0)
  | .gelu, .inf true => (withSign f true 0, 0)
  | .exp, .zero _ => (pow2Bits f false 0, 0)
  | .exp, .inf false => (a, 0)
  | .exp, .inf true => (0, 0)
  | .log, .zero _ => (infBits f true, fDivzero)
  | .log, .inf false => (a, 0)
  | .log, .inf true => (canonicalNaN f, fInvalid)
  | .log, .fin true _ _ => (canonicalNaN f, fInvalid)
  | .log, .fin false s e => if s = 2 ^ Nat.log2 s ∧ topExp s e = 0 then (0, 0) else actNear f op rm a (actExact op false s e)
  | op, .fin n s e => actNear f op rm a (actExact op n s e)

end Sys2Proof.Machine
end

