-- ==== Sys2Proof/Machine/Fab.lean ====
section
/-! DEFINITION. Sending on the fabric: the route table, the choice of a candidate for a flow (R217, R219, R220), flits
queued to a port (R221, R225), and the packets a device unit sends (R237, R282). -/

namespace Sys2Proof.Machine

open Sys2Proof

/-- This device's fabric address (DEVICE_ID). -/
def ownId (s : State) : Nat := rd s 0x400100

/-- Group of a device ID. -/
def idGroup (d : Nat) : Nat := d / 256 % 256

/-- Ring of a device ID. -/
def idRing (d : Nat) : Nat := d / 8 % 32

/-- Position of a device ID. -/
def idPos (d : Nat) : Nat := d % 8

/-- The route entry that a destination selects (R217); none when it is this device. -/
def routeEntry (s : State) (dest : Nat) : Option Nat :=
  let own := ownId s
  if dest = own then none
  else if idGroup dest ≠ idGroup own then some (rd s (0x402200 + idGroup dest))
  else if idRing dest ≠ idRing own then some (rd s (0x402100 + idRing dest))
  else some (rd s (0x402000 + idPos dest))

/-- Valid candidates of an entry in index order, by port (R214). -/
def candidates (e : Nat) : List Nat :=
  ((List.range 4).filter (fun c => decide (e / 2 ^ (8 * c) % 256 ≥ 128))).map (fun c => e / 2 ^ (8 * c) % 32)

/-- Link state of a port. -/
def getLink (s : State) (p : Nat) : PortLink := tget PortLink.initial s.fab.links p

/-- Replaces a port's link state. -/
def setLink (s : State) (p : Nat) (l : PortLink) : State :=
  { s with fab := { s.fab with links := tset PortLink.initial s.fab.links p l } }

/-- A flit that waits, with no payload yet. -/
def flitOf (vc kind dest src epoch hops flow : Nat) : TxFlit :=
  ⟨vc, kind, dest, src, epoch, hops, flow, none, none, none, none, none, none, none, 0, 0, 0, 0⟩

/-- Whether packets may leave by a port: UP and not being drained (R217, R231). -/
def portUsable (s : State) (p : Nat) : Bool := decide (rd s (0x401000 + p) = 3) && !(getLink s p).drain

/-- The port with the lowest metric, the first of equals (R220); a static port's metric reads 0xFFFF. -/
def bestPort (s : State) : List Nat → Option Nat
  | [] => none
  | p :: ps =>
    match bestPort s ps with
    | none => some p
    | some q => if rd s (0x401400 + q) < rd s (0x401400 + p) then some q else some p

/-- A new choice among an entry's candidates. -/
def chooseCand (s : State) (e : Nat) : Option Nat :=
  let ps := (candidates e).filter (portUsable s)
  if rd s 0x403100 = 1 then bestPort s ps else ps.head?

/-- The flow of a packet, where the device has carried it. -/
def flowOf (s : State) (src dest vc flow : Nat) : Option Flow :=
  s.fab.flows.find? (fun f => decide (f.src = src ∧ f.dest = dest ∧ f.vc = vc ∧ f.flow = flow))

/-- A flow's choice as one of its packets comes, and the port whose acknowledgement of the flow that packet waits for: where the 50 µs limit or a
drain takes the flow from one port to another (R220, R231). A flow that has sent nothing for 2 µs waits for none. -/
def routeFlow (s : State) (src dest vc flow e : Nat) : Option (Flow × Option Nat) :=
  let fresh := (chooseCand s e).map (fun p => (⟨src, dest, vc, flow, p, s.ptpNs, s.ptpNs⟩ : Flow))
  match flowOf s src dest vc flow with
  | none => fresh.map (fun g => (g, none))
  | some f =>
    if f.last + 2000 ≤ s.ptpNs then fresh.map (fun g => (g, none))
    else if f.chosen + 50000 ≤ s.ptpNs ∨ portUsable s f.port = false ∨ f.port ∉ candidates e then
      fresh.map (fun g => (g, if g.port = f.port then none else some f.port))
    else some ({ f with last := s.ptpNs }, none)

/-- The flow table with one flow replaced. -/
def putFlow (fs : List Flow) (f : Flow) : List Flow :=
  (fs.filter (fun g => !decide (g.src = f.src ∧ g.dest = f.dest ∧ g.vc = f.vc ∧ g.flow = f.flow))) ++ [f]

/-- The receive buffer of a flit's ingress port has let it go: a credit of its VC goes back to the sender (R221). -/
def freeBuffer (s : State) (f : TxFlit) : State :=
  match f.hold with
  | none => s
  | some q => setLink s q { getLink s q with owed := tmod 0 (getLink s q).owed f.vc (· + 1) }

/-- A flit waits for a slot of port `p` (R223). -/
def portSend (s : State) (p : Nat) (f : TxFlit) : State :=
  setLink s p { getLink s p with queue := (getLink s p).queue ++ [{ f with port := some p }] }

/-- The port by which a VC0 packet reaches a direct neighbour: the one whose latest probe named it (R212, R213). -/
def neighbourPort (s : State) (dest : Nat) : Option Nat :=
  (List.range 32).find? (fun p => portUsable s p && decide (rd s (0x401100 + p) / 2 ^ 64 % 65536 = dest ∧ 2 ^ 88 ≤ rd s (0x401100 + p)))

/-- The port by which a flit for another device leaves, with the flow's choice noted and the port whose acknowledgement it waits for; none where
no candidate serves (R217). With epoch 0 a VC0 flit reaches direct neighbours only (R213). -/
def egress (s : State) (f : TxFlit) : Option (State × Nat × Option Nat) :=
  if rd s 0x400200 = 0 ∧ f.vc = 0 then (neighbourPort s f.dest).map (fun p => (s, p, none))
  else
    (routeEntry s f.dest).bind (fun e => (routeFlow s f.src f.dest f.vc f.flow e).map (fun x =>
      ({ s with fab := { s.fab with flows := putFlow s.fab.flows x.1 } }, x.1.port, x.2)))

/-- A packet that this device has looked up leaves, or is discarded for want of a route (R217). One for this device itself is delivered. -/
def routeFlit (s : State) (f : TxFlit) : State :=
  if f.dest = ownId s then { s with fab := { s.fab with tx := s.fab.tx ++ [{ f with port := none }] } }
  else match egress s f with
    | none => incr (freeBuffer s f) 0x406002 1
    | some (s, p, a) => portSend s p { f with after := a }

/-- A packet of this device leaves. With epoch 0 only VC0 leaves (R213); during a scrub only VC0 (R232). -/
def launchFlit (s : State) (f : TxFlit) : State :=
  if f.vc ≠ 0 ∧ (rd s 0x400200 = 0 ∨ s.pkg.scrubbing = true) then incr s 0x406002 1 else routeFlit s f

/-- A unit of this device sends a packet. -/
def sendPkt (s : State) (vc kind dest flow : Nat) (rp : Option RPkt) (cp : Option CPkt) : State :=
  launchFlit s { flitOf vc kind dest (ownId s) (rd s 0x400200 % 65536) 1 (flow % 16) with rp := rp, cp := cp }

/-- A steward sends a message on a VC. Which KIND such packets carry is not stated. -/
def sendMsg (s : State) (vc dest : Nat) (m : Ctl) : State :=
  launchFlit s { flitOf vc Config.ctlKind dest (ownId s) (rd s 0x400200 % 65536) 1 0 with ctl := some m }

/-- A steward sends a message on VC0. -/
def sendCtl (s : State) (dest : Nat) (m : Ctl) : State := sendMsg s 0 dest m

/-- A VC0 packet to a direct neighbour by a given port (R212, R231). -/
def sendPort (s : State) (p kind : Nat) (m : Ctl) : State :=
  portSend s p
    { flitOf 0 kind (rd s (0x401100 + p) / 2 ^ 64 % 65536) (ownId s) (rd s 0x400200 % 65536) 1 0 with ctl := some m }

/-- A remote packet with its address, context, requester and tag; other fields zero. -/
def rpkt (space device offset ctx master tag : Nat) : RPkt :=
  ⟨BitVec.ofNat 64 (space * 2 ^ 60 + device % 65536 * 2 ^ 44 + offset % 2 ^ 44), ctx, master, tag, 0, 0, 0, 0⟩

/-- Space of a global address (Table 10.1). -/
def addrSpace (a : BitVec 64) : Nat := a.toNat / 2 ^ 60

/-- Device of a global address. -/
def addrDevice (a : BitVec 64) : Nat := a.toNat / 2 ^ 44 % 65536

/-- Offset of a global address. -/
def addrOffset (a : BitVec 64) : Nat := a.toNat % 2 ^ 44

/-- The device that holds rank `r` of the context's job (R236). -/
def deviceOf (c : Context) (r : Nat) : Nat := c.ids.getD r 0xFFFF

end Sys2Proof.Machine
end

