-- ==== Sys2Proof/Machine/Link.lean ====
section
/-! DEFINITION. The link layer of the Celale ports: the payload of a packet (Tables 10.4 and 11.6), receive buffers and credits (R221),
the output arbiter and its slots (R222, R223), VC0 flits on the management ring (R224), acknowledgement (R225), and the ports that a
packet may arrive by (R212, R213, R222, R232). -/

namespace Sys2Proof.Machine

open Sys2Proof

/-! ### Payloads (R238, R282) -/

/-- A remote packet's 256 payload bytes (Table 10.4). -/
def rpktBytes (p : RPkt) : List Byte :=
  natLe 8 p.addr.toNat ++ natLe 2 p.ctx ++ natLe 2 p.master ++ natLe 2 p.tag ++ natLe 1 p.status ++ natLe 1 p.inc ++ natLe 16 0
    ++ natLe 16 p.mask.toNat ++ natLe 16 0 ++ natLe 128 p.data.toNat ++ natLe 64 0

/-- A collective packet's 256 payload bytes (Table 11.6). -/
def cpktBytes (p : CPkt) : List Byte :=
  natLe 8 p.sig.toNat ++ natLe 4 p.step ++ natLe 4 p.chunk ++ natLe 2 p.seq ++ natLe 2 p.flit ++ natLe 2 p.origin ++ natLe 1 p.form
    ++ natLe 1 p.tier ++ natLe 2 p.res ++ natLe 2 0 ++ natLe 4 p.count ++ natLe 224 p.data.toNat

/-- A flit's payload, where its packet's table lays it out or it passes through; the layout of a message between stewards is not
stated. -/
def flitPayload (f : TxFlit) : Option (BitVec 2048) :=
  match f.raw, f.rp, f.cp with
  | some x, _, _ => some x
  | none, some p, _ => some (BitVec.ofNat 2048 (leNat (rpktBytes p)))
  | none, none, some p => some (BitVec.ofNat 2048 (leNat (cpktBytes p)))
  | none, none, none => none

/-! ### Receive buffers and credits (R218, R221) -/

/-- Flits of a VC in a port's receive buffer. -/
def bufferFlits (vc : Nat) : Nat :=
  match vc with
  | 0 => 24
  | 1 => 192
  | 2 => 192
  | 3 => 256
  | 4 => 128
  | 5 => 64
  | 6 => 64
  | _ => 24

/-- Whether a buffer that holds flits of some hop classes has a place for one more: two places of a VC's share are kept for each of the
nine classes, the rest is shared. -/
def classRoom (vc : Nat) (held : List Nat) (cls : Nat) : Bool :=
  let n := fun c => (held.filter (fun x => decide (x = c))).length
  decide (n cls < 2) || decide ((List.range 9).foldl (fun t c => t + (n (c + 1) - 2)) 0 < bufferFlits vc - 18)

/-- Whether the peer's receive buffer has a credit for a flit. -/
def creditOk (l : PortLink) (f : TxFlit) : Bool :=
  classRoom f.vc ((l.sent.filter (fun x => decide (x.1 = f.vc))).map (fun x => x.2)) f.hops

/-- Credits of a VC return: the flits that held them longest have left the peer's buffer (DESIGN CHOICE, log entry 102). -/
def creditsBack (vc : Nat) : Nat → List (Nat × Nat) → List (Nat × Nat)
  | 0, xs => xs
  | _ + 1, [] => []
  | n + 1, x :: xs => if x.1 = vc then creditsBack vc n xs else x :: creditsBack vc (n + 1) xs

/-- The flits in a port's receive buffer: those that came by it and wait for a slot or for the ring. -/
def receiveBuffer (s : State) (p : Nat) : List TxFlit :=
  (s.fab.links.flatMap (fun l => l.2.queue) ++ s.fab.ringWait).filter (fun f => decide (f.hold = some p))

/-- Whether a port's receive buffer takes one more flit. -/
def bufferRoom (s : State) (p vc cls : Nat) : Bool :=
  classRoom vc (((receiveBuffer s p).filter (fun f => decide (f.vc = vc))).map (fun f => f.hops - 1)) cls

/-- Whether a port withholds the credits of VC1: a store that came by it waits for a full queue of a Sieve (R256). -/
def withheld (s : State) (p : Nat) : Bool :=
  s.fab.sieves.any (fun v => (v.2.queue.drop 32).any (fun x => decide (x.port = some p)))

/-- The VC whose credits a port's next trailer returns, and how many: the lowest-numbered VC that has any (DESIGN CHOICE, log
entry 102). -/
def creditReturn (s : State) (p : Nat) : Nat × Nat :=
  let owed := (getLink s p).owed
  match (List.range 8).find? (fun v => decide (tget 0 owed v ≠ 0) && !(decide (v = 1) && withheld s p)) with
  | some v => (v, min 31 (tget 0 owed v))
  | none => (0, 0)

/-! ### Slots (R221 to R223) -/

/-- Whether two flits belong to one flow. -/
def sameFlow (f g : TxFlit) : Bool := decide (f.src = g.src ∧ f.dest = g.dest ∧ f.vc = g.vc ∧ f.flow = g.flow)

/-- Whether a port has still to send, or to have acknowledged, a flit of a flow (R220). Flits that themselves wait for another port come later. -/
def flowUnacked (s : State) (p : Nat) (f : TxFlit) : Bool :=
  (getLink s p).replay.any (fun x => sameFlow x.2 f)
    || (((getLink s p).queue.filter (fun g => sameFlow g f)).takeWhile (fun g => g.after.isNone)) != []

/-- PORT_STATE. -/
def portState (s : State) (p : Nat) : Nat := rd s (0x401000 + p)

/-- Whether a port sends a flit of a VC now: every VC on an UP port, VC0 on a DRAINED one, VC0 and VC7 in test, probes on a TRAINING or
MISCABLED one; during a scrub VC0 alone (R212, R223, R226, R231, R232). -/
def portSends (s : State) (p : Nat) (f : TxFlit) : Bool :=
  match portState s p with
  | 2 => decide (f.kind = 0x1F)
  | 3 => decide (f.vc = 0) || !s.pkg.scrubbing
  | 4 => decide (f.vc = 0)
  | 5 => decide (f.vc = 0)
  | 6 => decide (f.kind = 0x1F)
  | _ => false

/-- Whether a waiting flit may take a slot: the port sends it, the peer has a credit, the replay buffer of 256 flits a place, and the port
that its flow has left has nothing unacknowledged (R220, R221, R225). -/
def flitReady (s : State) (p : Nat) (f : TxFlit) : Bool :=
  portSends s p f && creditOk (getLink s p) f && decide ((getLink s p).replay.length < 256)
    && (match f.after with | some q => !flowUnacked s q f | none => true)

/-- The first flit of a VC that may leave, and the queue without it. A flit never passes an earlier one of its flow. `before` is what stands
ahead, latest first. -/
def firstReady (ok : TxFlit → Bool) (vc : Nat) : List TxFlit → List TxFlit → Option (TxFlit × List TxFlit)
  | _, [] => none
  | before, f :: fs =>
    if decide (f.vc = vc) && !before.any (sameFlow f) && ok f then some (f, before.reverse ++ fs)
    else firstReady ok vc (f :: before) fs

/-- Slots of a 10 µs window: one every 5.44 ns. -/
def windowSlots : Nat := 1838

/-- Whether VC0 or VC5 has used less than its cap of the window's slots. -/
def underCap (s : State) (l : PortLink) (vc : Nat) : Bool := decide (tget 0 l.used vc * 1000 < rd s (0x403000 + vc) * windowSlots)

/-- The weighted VCs after the one granted last, in round robin. -/
def robin (turn : Nat) : List Nat := ([1, 2, 3, 4, 6].filter (fun v => decide (turn < v))) ++ [1, 2, 3, 4, 6].filter (fun v => decide (v ≤ turn))

/-- VCs in the order in which the arbiter asks them (R223): VC0 and VC5 under their caps, then those that have grants left in the frame, then the
others. -/
def grantOrder (s : State) (l : PortLink) : List Nat :=
  let ws := robin l.turn
  [0, 5].filter (underCap s l) ++ ws.filter (fun v => decide (tget 0 l.left v ≠ 0)) ++ ws.filter (fun v => decide (tget 0 l.left v = 0))

/-- Byte of VC_ARB_SET for a VC. -/
def arbSet (s : State) (vc : Nat) : Nat := rd s 0x403008 / 2 ^ (8 * vc) % 256

/-- A frame of 100 grants begins with the weights last set; VC_ARB reports them (R233). -/
def newFrame (s : State) (p : Nat) : State :=
  let l := getLink s p
  let s := [1, 2, 3, 4, 6].foldl (fun s v => wr s (0x403000 + v) (arbSet s v)) s
  setLink s p { l with frame := 100, left := [1, 2, 3, 4, 6].foldl (fun t v => tset 0 t v (arbSet s v)) [] }

/-- A 10 µs window begins with the caps last set (R233). -/
def newWindow (s : State) : State :=
  let s := wr (wr s 0x403000 (arbSet s 0)) 0x403005 (arbSet s 5)
  { s with fab := { s.fab with window := s.ptpNs / 10000, links := s.fab.links.map (fun l => (l.1, { l.2 with used := [] })) } }

/-- The arbiter's account of a grant. -/
def countGrant (l : PortLink) (vc : Nat) : PortLink :=
  if vc = 0 ∨ vc = 5 then { l with used := tmod 0 l.used vc (· + 1) }
  else { l with frame := l.frame - 1, left := tmod 0 l.left vc (· - 1), turn := vc }

/-- The highest sequence number received in order on a port (ACK_SEQ). -/
def ackSeq (s : State) (p : Nat) : Nat := ((getLink s p).rxSeq + 4095) % 4096

/-- A flit as it leaves by a port: its trailer acknowledges and returns credits (Table 9.3). -/
def trailed (s : State) (p : Nat) (f : TxFlit) (seq : Nat) : TxFlit :=
  { f with port := some p, seq := seq, ack := ackSeq s p, cvc := (creditReturn s p).1, ccount := (creditReturn s p).2 }

/-- The flit leaves, and the credits that its trailer returns are no longer owed. -/
def emit (s : State) (p : Nat) (f : TxFlit) : State :=
  let l := getLink s p
  let s := setLink s p { l with owed := tmod 0 l.owed f.cvc (· - f.ccount) }
  { s with fab := { s.fab with tx := s.fab.tx ++ [f] } }

/-- A granted flit leaves: it takes a sequence number and a credit, and stays in the replay buffer until it is acknowledged (R221, R225). Its place
in this device's receive buffer is free. -/
def grant (s : State) (p : Nat) (f : TxFlit) (rest : List TxFlit) : State :=
  let l := countGrant (getLink s p) f.vc
  let f' := trailed s p f l.txSeq
  let l := { l with queue := rest, replay := l.replay ++ [(l.txSeq, f')], txSeq := (l.txSeq + 1) % 4096, sent := l.sent ++ [(f.vc, f.hops)] }
  freeBuffer (emit (setLink s p l) p f') f

/-- A test pattern. -/
def testFlit (s : State) : TxFlit := { flitOf 7 Config.testKind 0 (ownId s) 0 0 0 with raw := some (Config.testPattern s.freeIdx) }

/-- An idle flit. -/
def idleFlit (s : State) : TxFlit := flitOf 0 0x1E 0 (ownId s) 0 0 0

/-- One slot of a port (R221, R223): the flit that the arbiter grants, else a test pattern on a port in test, else an idle flit. -/
def slot (s : State) (p : Nat) : State :=
  let s := if (getLink s p).frame = 0 ∧ (getLink s p).queue ≠ [] then newFrame s p else s
  match (grantOrder s (getLink s p)).findSome? (fun v => firstReady (flitReady s p) v [] (getLink s p).queue) with
  | some x => grant s p x.1 x.2
  | none =>
    if portState s p = 5 then emit { s with freeIdx := s.freeIdx + 1 } p (trailed s p (testFlit s) 0)
    else emit s p (trailed s p (idleFlit s) 0)

/-- Ports that send. -/
def activePorts (s : State) : List Nat := (List.range 32).filter (fun p => decide (2 ≤ portState s p))

/-! ### VC0 on the management ring (R21, R224) -/

/-- Flits bound for an optical die that are on the ring, at most its 24 credits. -/
def ringLoad (s : State) (die : Nat) : Nat := (s.fab.ring.filter (fun f => decide (f.port.map (· / 4) = some die))).length

/-- The oldest waiting flits enter the ring where it can take them. One that it takes frees its place at the ingress port. -/
def ringEnter (s : State) : State :=
  s.fab.ringWait.foldl (fun s f =>
    if ringLoad s ((f.port.getD 0) / 4) < 24 then
      freeBuffer { s with fab := { s.fab with ring := s.fab.ring ++ [{ f with hold := none }], ringWait := s.fab.ringWait.erase f } } f
    else s) s

/-- The oldest flit on the ring reaches its optical die, and waits there for a slot; where its port has gone, it is routed anew. -/
def ringLeave (s : State) : State :=
  match s.fab.ring with
  | [] => s
  | f :: rest =>
    let s := { s with fab := { s.fab with ring := rest } }
    match f.port with
    | some p => if portUsable s p then ringEnter (portSend s p f) else ringEnter (routeFlit s f)
    | none => ringEnter s

/-- A VC0 flit in transit: to a port of its own optical die at once, to another over the ring. -/
def transitVc0 (s : State) (f : TxFlit) (inPort : Nat) : State :=
  match egress s f with
  | none => incr (freeBuffer s f) 0x406002 1
  | some (s, p, a) =>
    let f := { f with port := some p, after := a }
    if p / 4 = inPort / 4 then portSend s p f
    else ringEnter { s with fab := { s.fab with ringWait := s.fab.ringWait ++ [f] } }

/-- What the fabric does in one nanosecond: the ring carries a flit to its die, a window may begin, and each port that sends takes a slot every
5.44 ns (R221; log entry 102). -/
def fabricTick (s : State) : State :=
  let s := ringLeave s
  let s := if s.fab.window = s.ptpNs / 10000 then s else newWindow s
  if s.ptpNs * 25 / 136 = (s.ptpNs - 1) * 25 / 136 then s else (activePorts s).foldl slot s

/-! ### Acknowledgement (R225) -/

/-- The flits of a replay buffer after the receiver has acknowledged up to a sequence number. -/
def acked (replay : List (Nat × TxFlit)) (seq : Nat) : List (Nat × TxFlit) :=
  if replay.any (fun x => decide (x.1 = seq)) then (replay.dropWhile (fun x => decide (x.1 ≠ seq))).drop 1 else replay

/-- What the trailer of a flit that arrives does: it acknowledges and returns credits. -/
def takeTrailer (l : PortLink) (ack cvc ccount : Nat) : PortLink :=
  let r := acked l.replay ack
  { l with replay := r, replays := if r.length = l.replay.length then l.replays else 0, sent := creditsBack cvc ccount l.sent }

/-! ### Arrival (R212, R213, R222, R232) -/

/-- Whether a port takes a flit in: every VC on an UP port, VC0 on a DRAINED one, VC0 and VC7 in test, probes alone on a MISCABLED one, and
none on a DARK or DOWN one. -/
def portCarries (s : State) (p vc kind : Nat) : Bool :=
  match portState s p with
  | 2 => decide (kind = 0x1F)
  | 3 => true
  | 4 => decide (vc = 0)
  | 5 => decide (vc = 0 ∨ vc = 7)
  | 6 => decide (kind = 0x1F)
  | _ => false

/-- Whether a packet of this device arrives on one of its VCs: its port carries it, a route epoch is in force, and no scrub runs. A packet on
another VC than its kind travels on is discarded (DESIGN CHOICE, log entry 103). -/
def packetArrives (s : State) (f : Flit) (vcs : List Nat) : Bool :=
  portCarries s f.port.val f.vc f.kind && decide (f.vc ∈ vcs) && decide (rd s 0x400200 ≠ 0) && !s.pkg.scrubbing

end Sys2Proof.Machine
end

