-- ==== Sys2Proof/Machine/Mem.lean ====
section
/-! DEFINITION. Stacked memory and the Pantries (06): regions and the pages that the runtime gives a context (R141 to R143), page state
words (R150), Pantry lines under the hints (R144 to R147), the narrow path (R152), lines spilled to a ring peer (R159), and the
counters of the accesses (R164). -/

namespace Sys2Proof.Machine

open Sys2Proof

/-! ### Regions (R141, R142) -/

/-- First region of the context area: 8 on grade A, 4 on grade C. -/
def firstRegion (s : State) : Nat := if rd s 0x300101 = 504 then 8 else 4

/-- First region of the buddy region. -/
def buddyRegion (s : State) : Nat := firstRegion s + rd s 0x300101

/-- First byte of the buddy region. -/
def buddyBase (s : State) : Nat := buddyRegion s * 2 ^ 30

/-- Bytes of stacked memory. -/
def physBytes (s : State) : Nat := rd s 0x300100 * 16 * 2 ^ 30

/-- Stack pages that contexts and a loan hold: first page and count. -/
def usedRuns (s : State) : List (Nat × Nat) :=
  (s.ctxs.flatMap (fun p => if p.2.live then p.2.place else []) ++ s.pkg.lent).map (fun r => (r.phys, r.count))

/-- The free pages of `[lo, hi)` beside runs in rising order. -/
def gaps (lo hi : Nat) : List (Nat × Nat) → List (Nat × Nat)
  | [] => if lo < hi then [(lo, hi - lo)] else []
  | u :: us =>
    if u.1 + u.2 ≤ lo ∨ hi ≤ u.1 then gaps lo hi us
    else if lo < u.1 then (lo, u.1 - lo) :: gaps (u.1 + u.2) hi us
    else gaps (u.1 + u.2) hi us

/-- The free pages of a region. -/
def regionGaps (used : List (Nat × Nat)) (r : Nat) : List (Nat × Nat) :=
  gaps (r * regionPages) ((r + 1) * regionPages) (used.mergeSort (fun a b => decide (a.1 ≤ b.1)))

/-- Placement in progress: region modes, pages taken, runs made, and the next page to place with how many follow. -/
structure Placing where
  regions : Tbl Nat
  used : List (Nat × Nat)
  runs : List PageRun
  next : Nat
  need : Nat

/-- Pages taken from free pages of a region, lowest first. -/
def takeGaps (a : Placing) (gs : List (Nat × Nat)) : Placing :=
  gs.foldl (fun a g =>
    let n := min g.2 a.need
    if n = 0 then a
    else { a with used := (g.1, n) :: a.used, runs := a.runs ++ [⟨a.next, n, g.1⟩], next := a.next + n, need := a.need - n }) a

/-- Whether a region may give pages of a mode: it has that mode, or holds nothing and takes it. -/
def regionFits (a : Placing) (mode r : Nat) : Bool :=
  decide (tget 0 a.regions r = mode) || decide (regionGaps a.used r = [(r * regionPages, regionPages)])

/-- Pages from some regions in turn: with `any` from every one, else from those of the mode. -/
def takeRegions (mode : Nat) (any : Bool) : Placing → List Nat → Placing
  | a, [] => a
  | a, r :: rs =>
    if a.need = 0 then a
    else if any then takeRegions mode any (takeGaps a (regionGaps a.used r)) rs
    else if regionFits a mode r then
      takeRegions mode any (takeGaps { a with regions := tset 0 a.regions r mode } (regionGaps a.used r)) rs
    else takeRegions mode any a rs

/-- Places `n` pages from virtual page `v` on in regions of a mode, lowest free pages first. Where the regions of the mode are used up and
none is free, other free pages of the context area serve (DESIGN CHOICE, log entry 89). -/
def placePages (rs : List Nat) (mode : Nat) (a : Placing) (v n : Nat) : Placing :=
  takeRegions mode true (takeRegions mode false { a with next := v, need := n } rs) rs

/-- Regions of the context area. -/
def areaRegions (s : State) : List Nat := (List.range (rd s 0x300101)).map (fun i => firstRegion s + i)

/-- Parts of an L2 tensor: eight runs of ⌈d / 8⌉ slices of its outermost dimension, each as the pages that begin in it (R143; log entry 89): part,
first page, count. -/
def partPages (d : Tensor) : List (Nat × Nat × Nat) :=
  let outer := d.dims.getD (d.rank - 1) 1
  let slice := tensorBytes d / outer
  let start := fun (k : Nat) => (min (k * ((outer + 7) / 8)) outer * slice + pageBytes - 1) / pageBytes
  (List.range 8).map (fun k => (k, start k, (if k = 7 then pagedBytes d / pageBytes else start (k + 1)) - start k))

/-- Places one L2 tensor from virtual page `v` on: interleaved, or in parts, part k in AFFINE(k) regions. -/
def placeL2 (rs : List Nat) (a : Placing) (v : Nat) (d : Tensor) (parts : Bool) : Placing :=
  if parts then (partPages d).foldl (fun a p => placePages rs (p.1 + 1) a (v + p.2.1) p.2.2) a
  else placePages rs 0 a v (pagedBytes d / pageBytes)

/-- Virtual pages of the shadow copies, past the context's own pages. -/
def shadowPages (c : Context) : Nat :=
  (modOf c).streams.foldl (fun n x => if x.kind = 1 then n + 2 * (((tensorOf c x.tensor).map pagedBytes).getD 0 / pageBytes) else n) 0

/-- The runtime gives a loaded module its pages, in the order of R142: the L1 instances, each in the AFFINE regions of its die, with the
spilled L0 instances of that die's workers; the shadow copies; the L2 tensors in declaration order. A tensor at a ring peer takes none. -/
def placeContext (s : State) (c : Context) : Placing :=
  let rs := areaRegions s
  let m := modOf c
  let ts := (m.tensors.zipIdx.map (fun x => (x.2, x.1))).filter (fun t => decide (lowerOf c t.1 ≠ 3))
  let a : Placing := ⟨s.pkg.regions, usedRuns s, [], 0, 0⟩
  let a := (ts.filter (fun t => decide (t.2.level = 1 ∨ t.2.level = 0 ∧ lowerOf c t.1 ≠ 0))).foldl (fun a t =>
    (List.range 8).foldl (fun a k =>
      placePages rs (k + 1) a (tensorBase c (500 * k) t.1 / pageBytes)
        ((if t.2.level = 0 then 500 else 1) * (pagedBytes t.2 / pageBytes))) a) a
  let a := placePages rs 0 a (ctxPages c) (shadowPages c)
  (ts.filter (fun t => decide (t.2.level = 2))).foldl (fun a t =>
    placeL2 rs a (tensorBase c 0 t.1 / pageBytes) t.2 (decide (t.1 ∈ c.parts))) a

/-- The page map of a context after load (R142, R143). -/
def mapContext (s : State) (id : Nat) : State :=
  let s := modC s id (fun c => { c with place := [] })
  let c := getC s id
  let m := modOf c
  let parts := (List.range m.tensors.length).filter (fun t =>
    decide (((tensorOf c t).map (·.level)) = some 2) && Config.partitioned (rd s 0x501000) m.digest t)
  let a := placeContext s { c with parts := parts }
  let s := setC s id { c with parts := parts, place := a.runs }
  { s with pkg := { s.pkg with regions := a.regions } }

/-- Pages that this device lends, taken from the free context area (R159). -/
def lendPages (s : State) (gib : Nat) : State :=
  let s := { s with pkg := { s.pkg with lent := [] } }
  let a := placePages (areaRegions s) 0 ⟨s.pkg.regions, usedRuns s, [], 0, 0⟩ 0 (gib * regionPages)
  { s with pkg := { s.pkg with lent := a.runs, regions := a.regions } }

/-- Whether a device offset lies in the pages lent. -/
def inLent (s : State) (off : Nat) : Bool :=
  s.pkg.lent.any (fun r => decide (r.phys * pageBytes ≤ off ∧ off + 128 ≤ (r.phys + r.count) * pageBytes))

/-! ### Page state words (R150) -/

/-- Flags of a page that the device owns. -/
def sysFlags (s : State) (pp : Nat) : BitVec 16 := tget pageFresh s.pkg.sysPages pp

/-- A write is accepted into a page that the device owns: DIRTY set, ZERO cleared (R151). -/
def touchSys (s : State) (off : Nat) : State :=
  let pp := off / pageBytes
  let w := (sysFlags s pp ||| 0x4000) &&& ~~~ (0x1000 : BitVec 16)
  { s with pkg := { s.pkg with sysPages := tset pageFresh s.pkg.sysPages pp w } }

/-- The context that holds a stack page, and its page there. -/
def pageHolder (s : State) (pp : Nat) : Option (Nat × Nat) :=
  s.ctxs.findSome? (fun p =>
    if p.2.live then
      (p.2.place.find? (fun r => decide (r.phys ≤ pp ∧ pp < r.phys + r.count))).map (fun r => (p.1, r.vpage + (pp - r.phys)))
    else none)

/-- The page state word of a stack page (Table 6.4): the runtime's, the buddy's and a loan's pages are the device's own, a page of a page map is its
context's, and any other is free. -/
def pageState (s : State) (pp : Nat) : BitVec 16 :=
  if pp < firstRegion s * regionPages then 0x8000 ||| sysFlags s pp
  else if buddyRegion s * regionPages ≤ pp then 0x8001 ||| sysFlags s pp
  else if inLent s (pp * pageBytes) then 0x8002 ||| sysFlags s pp
  else match pageHolder s pp with
    | some h => pageFlags (getC s h.1) h.2 ||| BitVec.ofNat 16 (h.1 % 4096)
    | none => 0x9FFF

/-- The memory key that a page's owner selects (R154). -/
def pageKey (s : State) (pp : Nat) : Option Nat :=
  let w := pageState s pp
  match w.getLsbD 15, w.toNat % 4096 with
  | false, id => (getC s id).memKey
  | true, 0 => s.pkg.sysKeys.map (fun k => k.1)
  | true, 1 => s.pkg.sysKeys.map (fun k => k.2)
  | true, 2 => s.pkg.loanKey
  | true, _ => none

/-- What a stack holds of a line of a context: its bytes under the memory key, with 2^29 × stack + ℓ as data unit number (R154). -/
def stackCipher (s : State) (c : Context) (a : Nat) : Option (BitVec 1024) :=
  (pageKey s (physPage c (a / pageBytes))).map (fun k =>
    xtsLine k (2 ^ 29 * stackOf s c a + stackLine s c a) (BitVec.ofNat 1024 (leNat (rdBytes c.vmem (a / 128 * 128) 128))))

/-! ### The Pantry (R144 to R147) -/

/-- Key of the set of a line, its die and slice first. -/
def setKey (s : State) (c : Context) (a : Nat) : Nat := sliceOf s c a * 1024 + dieLine s c a / 32 % 1024

/-- Tag of a line. -/
def lineTag (s : State) (c : Context) (a : Nat) : Nat := dieLine s c a / 2 ^ 15

/-- Ways of a slice that are not retired (R398). -/
def waysOf (s : State) (slice : Nat) : Nat :=
  16 - ((tget Fuses.factory s.pkg.fuses (slice / 32)).ways.filter (fun w => decide (w.1 = slice % 32))).eraseDups.length

/-- What an access to a set does: the lines after it, whether it hit, the bytes moved to and from the stack, and whether a keep line was made
ordinary. -/
structure SetRes where
  lines : List PLine
  hit   : Bool
  bytes : Nat
  ovf  : Bool

/-- The least recently used line that no keep protects. -/
def victim (ls : List PLine) : Option PLine := (ls.filter (fun l => !l.keep)).getLast?

/-- An access to a set under a hint (Table 6.3): a stream-through access changes no replacement state and allocates nothing; the others make the
line the most recently used, and a miss allocates it. A line written back is 128 bytes more. A write that allocates fetches the line
(DESIGN CHOICE, log entry 90). -/
def setAccess (ways : Nat) (ls : List PLine) (tag hint : Nat) (write : Bool) : SetRes :=
  match ls.find? (fun l => decide (l.tag = tag)) with
  | some l =>
    let l' := { l with dirty := l.dirty || write }
    let rest := ls.filter (fun x => !decide (x.tag = tag))
    ⟨if hint = 0 then ls.map (fun x => if x.tag = tag then l' else x) else l' :: rest, true, 0, false⟩
  | none =>
    if hint = 0 then ⟨ls, false, 128, false⟩
    else
      let ovf := decide (hint = 1) && decide (8 ≤ (ls.filter (fun l => l.keep)).length)
      let new : PLine := ⟨tag, decide (hint = 1) && !ovf, write⟩
      if ls.length < ways then ⟨new :: ls, false, 128, ovf⟩
      else match victim ls with
        | none => ⟨ls, false, 128, ovf⟩
        | some v => ⟨new :: ls.filter (fun x => !decide (x.tag = v.tag)), false, 128 + (if v.dirty then 128 else 0), ovf⟩

/-- The lines of a set. -/
def setLines (s : State) (k : Nat) : List PLine := tget [] s.pkg.pantry k

/-- Replaces the lines of a set. -/
def setSet (s : State) (k : Nat) (ls : List PLine) : State := { s with pkg := { s.pkg with pantry := tset [] s.pkg.pantry k ls } }

/-- Counters of one line access: a hit or a miss, a slice cycle, the stack's bytes, a keep line made ordinary (R164). -/
def countLine (c : Context) (hit : Bool) (bytes busy : Nat) (ovf : Bool) : Context :=
  let c := eincr (eincr c (if hit then 0x302002 else 0x302003) 1) 0x302004 1
  let c := if bytes = 0 then c else eincr (eincr c 0x302006 bytes) 0x302007 busy
  if ovf then eincr c 0x30200A 1 else c

/-- One access of a context to a line. -/
def lineAccess (s : State) (c : Context) (a hint : Nat) (write : Bool) : State × Context :=
  let k := setKey s c a
  let r := setAccess (waysOf s (k / 1024)) (setLines s k) (lineTag s c a) hint write
  (setSet s k r.lines, countLine c r.hit r.bytes r.bytes r.ovf)

/-- One narrow access (R152): served by the line where it is present, else by its granule alone. A granule takes a stack as long as
256 bytes of line traffic. -/
def narrowAccess (s : State) (c : Context) (a : Nat) (write : Bool) : State × Context :=
  let k := setKey s c a
  let r := setAccess (waysOf s (k / 1024)) (setLines s k) (lineTag s c a) 0 write
  (setSet s k r.lines, eincr (countLine c r.hit (if r.hit then 0 else 32) 256 false) 0x302009 1)

/-- A write that belongs to no tensor goes through: a present line takes it (Table 6.3). -/
def streamWrite (s : State) (c : Context) (a n : Nat) : State :=
  (List.range ((a + n + 127) / 128 - a / 128)).foldl (fun s i =>
    let b := (a / 128 + i) * 128
    let k := setKey s c b
    setSet s k (setAccess 16 (setLines s k) (lineTag s c b) 0 true).lines) s

/-- Compute die of a line held in set `k`, and its die-local page: λ follows from slice, set and tag. -/
def lineSpot (k : Nat) (l : PLine) : Nat × Nat :=
  (k / 32768, (l.tag * 2 ^ 15 + k % 1024 * 32 + ((k / 1024 % 32) ^^^ (l.tag % 32))) / 512)

/-- Compute die and die-local page of a page of a context. -/
def pageSpot (s : State) (c : Context) (p : Nat) : Nat × Nat :=
  (stackOf s c (p * pageBytes) / 2, dieLine s c (p * pageBytes) / 512)

/-- The lines of some pages leave the Pantries, with no write-back (R147). -/
def dropPages (s : State) (c : Context) (ps : List Nat) : State :=
  s.pkg.pantry.foldl (fun s p =>
    setSet s p.1 (p.2.filter (fun l => !decide (lineSpot p.1 l ∈ ps.map (pageSpot s c))))) s

/-! ### Placement that changes (R160) -/

/-- The runs of a page map without those of tensor `t`. -/
def runsWithout (c : Context) (t : Nat) : List PageRun :=
  let n := ((tensorOf c t).map pagedBytes).getD 0
  c.place.filter (fun r => !decide (tensorBase c 0 t ≤ r.vpage * pageBytes ∧ r.vpage * pageBytes < tensorBase c 0 t + n))

/-- Tensor `t` of level 2 is placed anew, with `parts` the tensors in parts and `lower` the spilled ones afterwards; its lines leave the Pantries. Nothing
changes where the pages are not free. -/
def replaceTensor (s : State) (id t : Nat) (parts : List Nat) (lower : Tbl Nat) : State :=
  let c := getC s id
  match tensorOf c t with
  | none => s
  | some d =>
    let s' := setC s id { c with place := runsWithout c t }
    let a := placeL2 (areaRegions s) ⟨s.pkg.regions, usedRuns s', [], 0, 0⟩ (tensorBase c 0 t / pageBytes) d (decide (t ∈ parts))
    if (a.runs.map (·.count)).sum = pagedBytes d / pageBytes then
      let s := dropPages s c ((List.range (pagedBytes d / pageBytes)).map (fun i => tensorBase c 0 t / pageBytes + i))
      let s := setC s id { c with place := runsWithout c t ++ a.runs, parts := parts, lower := lower }
      { s with pkg := { s.pkg with regions := a.regions } }
    else s

/-- The runtime changes the placement of L2 tensors at a step point, where no op is on its way: between interleaved and in parts, or back from a ring
peer. Bits never change. -/
def movePlacement (s : State) (id : Nat) : State :=
  (Config.moves (getC s id).serial (getC s id).step).foldl (fun s x =>
    let c := getC s id
    if ((tensorOf c x.1).map (·.level)) ≠ some 2 then s
    else if x.2 = 2 then (if lowerOf c x.1 = 3 ∧ c.peerLost = false then replaceTensor s id x.1 c.parts (tset 0 c.lower x.1 0) else s)
    else if lowerOf c x.1 ≠ 0 then s
    else if x.2 = 1 then replaceTensor s id x.1 (addOnce c.parts x.1) c.lower
    else replaceTensor s id x.1 (c.parts.filter (· ≠ x.1)) c.lower) s

/-! ### Lines at a ring peer (R159) -/

/-- A line of a spilled tensor goes to the lender or comes from it: sent by the stack controller of the line's page, under the context's
key. Where in the lender's pages the line lies is not stated. -/
def peerLine (s : State) (id : Nat) (c : Context) (a : Nat) (write : Bool) : State × Context :=
  let m := masterId (a / pageBytes % 8) 0x210
  let p := rpkt 0 c.lender ((Config.peerBase id + a) / 128 * 128) id m 0
  let x := xtsLine (c.memKey.getD 0) (Config.peerUnit id (a / 128)) (BitVec.ofNat 1024 (leNat (rdBytes c.vmem (a / 128 * 128) 128)))
  (sendPkt s 1 (if write then 0x02 else 0x01) c.lender m
    (some (if write then { p with mask := BitVec.allOnes 128, data := x } else p)) none, eincr c 0x30200B 128)

/-! ### Scratchpad banks (R139, R140) -/

/-- Cycles that accesses at these addresses need: at most four distinct words per bank and cycle (R139, R140). -/
def bankCycles (addrs : List Nat) : Nat :=
  let words := (addrs.map (· / 8)).eraseDups
  (List.range 32).foldl (fun m b => max m (((words.filter (fun w => w % 32 = b)).length + 3) / 4)) 1

/-- Extra cycles of the beats of elements `[e, n)`, `lanes` of them a beat, by the scratchpad addresses that each touches. -/
def bankExtra (lanes e n : Nat) (touch : Nat → List Nat) : Nat :=
  (List.range ((n - e + lanes - 1) / lanes)).foldl (fun t g =>
    t + (bankCycles (((List.range lanes).filter (fun j => e + g * lanes + j < n)).flatMap
      (fun j => touch (e + g * lanes + j))) - 1)) 0

/-- Scratchpad address of a view's element; none where the view lies elsewhere or has no such element. -/
def l0Touch (c : Context) (cl : Nat) (v : View) (i : Nat) : List Nat :=
  if viewLevel c v = 0 && decide (i < viewCount v) then [(viewPlace c cl v i).addr] else []

/-- Elements of a format that the loader carries in one beat of 256 bytes (R101). -/
def loaderLanes (f : Fmt) : Nat := 2048 / fmtBits f

/-- The loader's extra cycles for `n` elements of a format count into L0_BANK_WAIT_US (R140). -/
def loaderWait (s : State) (c : Context) (f : Fmt) (n : Nat) (touch : Nat → List Nat) : Context :=
  eincr c 0x302001 (bankExtra (loaderLanes f) 0 n touch * acTicks s)

/-! ### Trouble with operands (R110, R139, R153, R159, R260) -/

/-- Why an op cannot use an element: an uncorrectable error, or memory at a ring peer that is lost. -/
inductive Trouble where
  | bad (p : Place)
  | dead (p : Place)

/-- Places of some elements of a view. -/
def placesOf (c : Context) (cl : Nat) (v : View) (is : List Nat) : List Place := is.map (viewPlace c cl v)

/-- Every element of a view. -/
def allOf (v : View) : List Nat := List.range (viewCount v)

/-- The first trouble among what an op reads and then writes. -/
def trouble (c : Context) (k : Worker) (reads writes : List Place) : Option Trouble :=
  match reads.find? (fun p => placeDead c p || placeBad c k p) with
  | some p => some (if placeDead c p then .dead p else .bad p)
  | none => (writes.find? (fun p => placeDead c p || writeBad c k p)).map (fun p => if placeDead c p then .dead p else .bad p)

/-- The record of a remote request that failed (R260). -/
def failRecord (code device cl addr : Nat) : BitVec 256 :=
  BitVec.ofNat 256 (leNat (natLe 2 code ++ natLe 2 device ++ natLe 2 cl ++ natLe 2 0 ++ natLe 8 addr))

/-- A worker halts on a dead lender, as on a dead target (R159, R260). `detail` is the fault record's. -/
def deadRes (s : State) (cl : Nat) (c : Context) (k : Worker) (addr : Nat) (detail : BitVec 256) : OpRes :=
  .halt s (ewr c 0x407002 (failRecord 0x0302 c.lender cl (rpkt 0 c.lender addr 0 0 0).addr.toNat).toNat) k 0x0302 0x04 0x0302 detail none

/-- A worker halts on a trouble. -/
def troubleRes (s : State) (cl : Nat) (c : Context) (k : Worker) : Trouble → OpRes
  | .bad p => .halt s c k codeUnitFault 0x01 0x0A0A 0 (some (badEvent s c cl (some p)))
  | .dead p => deadRes s cl c k p.addr 0

/-! ### Accesses of ops -/

/-- The context that runs, for the packets and counters of its ops. -/
def runCtx (s : State) : Nat := (runningId s).getD 0

/-- A list without neighbours that are equal. -/
def runsOf : List Nat → List Nat
  | [] => []
  | x :: xs => x :: (runsOf xs).dropWhile (fun y => decide (y = x))

/-- Accesses to elements of a view in walk order (R145, R152, R159): each run of elements in one line is one access to that line, an indexed access
to an L2 element is a narrow access, and lines at a ring peer travel. -/
def viewAccess (s : State) (c : Context) (cl : Nat) (v : View) (is : List Nat) (write indexed : Bool) : State × Context :=
  let hint := ((tensorOf c v.tensor).map (·.hint)).getD 0
  let as := is.map (fun i => (viewPlace c cl v i).addr)
  if viewLevel c v = 0 then (s, c)
  else if lowerOf c v.tensor = 3 then
    (runsOf (as.map (· / 128))).foldl (fun sc l => peerLine sc.1 (runCtx s) sc.2 (l * 128) write) (s, c)
  else if indexed && decide (viewLevel c v = 2) then
    as.foldl (fun sc a => narrowAccess sc.1 sc.2 a write) (s, c)
  else (runsOf (as.map (· / 128))).foldl (fun sc l => lineAccess sc.1 sc.2 (l * 128) hint write) (s, c)

/-- The tensor of a context that a context-virtual offset lies in. -/
def tensorAt (c : Context) (a : Nat) : Option Tensor :=
  ((modOf c).tensors.zipIdx.find? (fun t =>
    if t.1.level = 2 then decide (l2Base (modOf c) t.2 ≤ a ∧ a < l2Base (modOf c) t.2 + pagedBytes t.1)
    else if t.1.level = 1 then decide (l1Base (modOf c) t.2 ≤ a ∧ a < l1Base (modOf c) t.2 + 8 * pagedBytes t.1)
    else false)).map (fun t => t.1)

/-- A remote access to a line carries the hint of the line's tensor (R145). -/
def remoteAccess (s : State) (c : Context) (a : Nat) (write : Bool) : State × Context :=
  lineAccess s c a (((tensorAt c a).map (·.hint)).getD 0) write

/-! ### Sieve entries that leave (R255) -/

/-- A Sieve entry writes its bytes into the Pantry line: it takes a line slot of the slice, and the write-back counts. -/
def writeBack (s : State) (e : SieveEnt) : State :=
  let r := remoteAccess s (getC s e.ctx) e.line true
  incr (setC r.1 e.ctx r.2) 0x407301 1

/-- The Sieve entries that `hit` selects, by slice, are written back and freed. -/
def flushSieves (s : State) (hit : Nat → SieveEnt → Bool) : State :=
  let es := s.fab.sieves.flatMap (fun p => p.2.entries.filter (fun e => hit p.1 e && e.fresh))
  let sv := s.fab.sieves.foldl (fun (m : Tbl Sieve) p =>
    tset Sieve.empty m p.1 { p.2 with entries := p.2.entries.filter (fun e => !hit p.1 e) }) s.fab.sieves
  es.foldl writeBack { s with fab := { s.fab with sieves := sv } }

end Sys2Proof.Machine
end

