-- ==== Sys2Proof/Machine/Scalar.lean ====
section
/-! DEFINITION. Control and scalar ops (R82, opcodes 0x000 to 0x00A): NOP, SLI, SLIH, SALU, LOOP, BRNZ, WID, RDCW, WRCW,
VDEF. -/

namespace Sys2Proof.Machine

open Sys2Proof

/-- The outcome of a command that always has a next state. -/
abbrev Out := Host.Outcome State Fault Refusal

/-- SALU on two values (Table 3.13). -/
def saluVal (op : SaluOp) (a b : BitVec 64) : BitVec 64 :=
  match op with
  | .add => a + b
  | .sub => a - b
  | .mul => a * b
  | .and => a &&& b
  | .or => a ||| b
  | .xor => a ^^^ b
  | .shl => a <<< (b.toNat % 64)
  | .shr => a >>> (b.toNat % 64)
  | .sra => a.sshiftRight (b.toNat % 64)
  | .min => if a.slt b then a else b
  | .max => if a.slt b then b else a
  | .eq => if a = b then 1 else 0
  | .lt => if a.slt b then 1 else 0
  | .ltu => if a.ult b then 1 else 0

/-- NOP: no effect. -/
def execNop (w : Cluster) (s : State) : Out := .next (issue s w 0 (fun s _ c k => .done s c k))

/-- SLI: s[D] := I32, sign-extended. -/
def execSli (w : Cluster) (d : SReg) (imm : BitVec 32) (s : State) : Out :=
  .next (issue s w 0 (fun s _ c k => .done s c (setS k d (imm.signExtend 64))))

/-- SLIH: s[D][63:32] := I32. -/
def execSlih (w : Cluster) (d : SReg) (imm : BitVec 32) (s : State) : Out :=
  .next (issue s w 0 (fun s _ c k => .done s c (setS k d (imm ++ (getS k d).setWidth 32))))

/-- SALU: s[D] := s[A] op s[B]. -/
def execSalu (w : Cluster) (op : SaluOp) (d a b : SReg) (s : State) : Out :=
  .next (issue s w 0 (fun s _ c k => .done s c (setS k d (saluVal op (getS k a) (getS k b)))))

/-- The worker at a LOOP: a zero count skips the body; else the first pass begins with pass index 0. -/
def enterLoop (k : Worker) (d a : SReg) (b : Nat) : Worker :=
  let stop := k.pc + 1 + (b + 1)
  let n := (getS k a).toNat
  if n = 0 then closeLoops k stop k.loops
  else setS { k with pc := k.pc + 1, loops := ⟨k.pc + 1, stop, d, 0, n⟩ :: k.loops } d 0

/-- LOOP: runs the next B + 1 words s[A] times. -/
def execLoop (w : Cluster) (d a : SReg) (b : Fin 4096) (s : State) : Out :=
  .next (issue s w 0 (fun s _ c k => .jump s c (enterLoop k d a b.val)))

/-- BRNZ: if s[D] is not zero, continue at the next op plus I32 words. -/
def execBrnz (w : Cluster) (d : SReg) (off : BitVec 32) (s : State) : Out :=
  .next (issue s w 0 (fun s _ c k =>
    if getS k d = 0 then .done s c k else .jump s c { k with pc := ((k.pc : Int) + 1 + off.toInt).toNat }))

/-- The value WID reads. -/
def widVal (c : Context) (cl : Nat) : WidSel → Nat
  | .worker => 4000 * c.rank + cl
  | .cluster => cl
  | .rank => c.rank
  | .devices => c.n
  | .step => c.step

/-- WID. -/
def execWid (w : Cluster) (d : SReg) (sel : WidSel) (s : State) : Out :=
  .next (issue s w 0 (fun s _ c k => .done s c (setS k d (BitVec.ofNat 64 (widVal c w.val sel)))))

/-- Whether a Griddle op of the worker has not completed. -/
def griddleBusy (k : Worker) : Bool := !(k.gq.isEmpty && k.gf.isEmpty)

/-- RDCW: s[D] := ACW or ASW. A read of the ASW waits for every earlier Griddle op (R107). -/
def execRdcw (w : Cluster) (d : SReg) (asw : Bool) (s : State) : Out :=
  .next (issue s w 0 (fun s _ c k =>
    if asw then
      if griddleBusy k then .wait s c k .griddle else .done s c (setS k d (k.asw.setWidth 64))
    else .done s c (setS k d (k.acw.setWidth 64))))

/-- Bits that a write of the ACW or ASW must leave zero: those above [2:0] or [7:0] (Tables 2.3, 2.4). -/
def cwReserved (asw : Bool) (x : BitVec 64) : Bool := if asw then decide (x >>> 8 ≠ 0) else decide (x >>> 3 ≠ 0)

/-- The worker after WRCW: with reserved bits set, or SR_EN set by a module without STOCH_ROUND (R452), nothing is
written and INVALID is set. -/
def writeCw (c : Context) (k : Worker) (asw : Bool) (x : BitVec 64) : Worker :=
  if cwReserved asw x || (!asw && x.getLsbD 2 && !(modOf c).features.testBit 3) then mergeAsw k fInvalid
  else if asw then { k with asw := x.setWidth 32 } else { k with acw := x.setWidth 32 }

/-- WRCW: waits for every earlier Griddle op (R107), then writes. -/
def execWrcw (w : Cluster) (asw : Bool) (a : SReg) (s : State) : Out :=
  .next (issue s w 0 (fun s _ c k =>
    if griddleBusy k then .wait s c k .griddle else .done s c (writeCw c k asw (getS k a))))

/-- The view VDEF defines. -/
def vdefView (k : Worker) (tensor : Nat) (sc : SReg) (rows cols rstride cstride : BitVec 32) (origin : BitVec 64) : View :=
  ⟨tensor, rows.toNat, cols.toNat, rstride.toInt, cstride.toInt, (origin + getS k sc).toInt⟩

/-- VDEF: v[D] := window on tensor A. A window that reaches outside its tensor, or names no tensor, halts with
OPERAND_RANGE (R83; log entry 15 for a tensor that is not declared). -/
def execVdef (w : Cluster) (d : VReg) (tensor : Fin 4096) (sc : SReg) (rows cols rstride cstride : BitVec 32)
    (origin : BitVec 64) (s : State) : Out :=
  .next (issue s w 3 (fun s _ c k =>
    let v := vdefView k tensor.val sc rows cols rstride cstride origin
    match tensorOf c tensor.val with
    | none => operandHalt s c k codeOperandRange
    | some t =>
      if viewInside t v then .done s c { k with v := tset View.empty k.v d.val v }
      else operandHalt s c k codeOperandRange))

end Sys2Proof.Machine
end

