-- ==== Sys2Proof/Machine/Griddle.lean ====
section
/-! DEFINITION. The Griddle (04): GZERO, GMMA and GLD join the worker's issue order; GRIDDLE_ISSUE checks and computes
the op that stands first; GRIDDLE_COMPLETE writes its tile and merges its flags. -/

namespace Sys2Proof.Machine

open Sys2Proof

/-! ### Pairs (R46, R97) -/

/-- Accumulator type of a pair (Table 2.6). -/
def pairAcc (a b : Fmt) : TileType :=
  if a = .fp64 ∨ b = .fp64 then .fp64
  else if a = .fp32 ∨ b = .fp32 then .fp32
  else if isFloat a || isFloat b then .fp32
  else .int32

/-- K of a pair (Table 2.6). -/
def pairK (a b : Fmt) : Nat :=
  match pairAcc a b with
  | .fp64 => 1
  | .int32 => if a = .int4 ∧ b = .int4 then 16 else 8
  | .fp32 =>
    if a = .fp32 ∨ b = .fp32 then 1
    else if a = .jf16 ∨ b = .jf16 ∨ a = .fp16 ∨ b = .fp16 then 4 else 8

/-- Rows of the long side (R95). -/
def tileRows : TileType → Nat
  | .fp64 => 8
  | _ => 16

/-- Format of a tile's elements. -/
def tileFmt : TileType → Fmt
  | .fp64 => .fp64 | .fp32 => .fp32 | .int32 => .int32

/-- Tile type of a format; none for a format no tile has (R93, R94). -/
def tileTypeOf : Fmt → Option TileType
  | .fp64 => some .fp64 | .fp32 => some .fp32 | .int32 => some .int32 | _ => none

/-- Beats of one update (R98). -/
def pairBeats (a b : Fmt) : Nat := if pairAcc a b = .fp64 then 2 else 1

/-- Product slots of one beat (Table 4.3). -/
def pairSlots (a b : Fmt) : Nat := if pairAcc a b = .fp64 then 16 else 64 * pairK a b

/-! ### Tiles (R91) -/

/-- Element (m, n) of a tile. -/
def tileGet (t : Tile) (m n : Nat) : Nat :=
  let b := fmtBits (tileFmt t.type)
  t.bits.toNat / 2 ^ (b * (4 * m + n)) % 2 ^ b

/-- A tile by its elements, in row-major order. -/
def tileOf (ty : TileType) (xs : List Nat) : Tile :=
  ⟨ty, BitVec.ofNat 2048 (xs.foldr (fun x n => x + 2 ^ fmtBits (tileFmt ty) * n) 0)⟩

/-- A tile of zeros. -/
def tileZero (ty : TileType) : Tile := ⟨ty, 0⟩

/-- Indices (m, n) of a tile in row-major order. -/
def tileIndices (ty : TileType) : List (Nat × Nat) := (List.range (4 * tileRows ty)).map (fun i => (i / 4, i % 4))

/-- The tile slot as the next Griddle op meets it: the result of the latest op on it that has issued (R105), else the
slot itself. -/
def latestTile (k : Worker) (d : TReg) : Tile :=
  match (k.gf.reverse).find? (fun g => g.d = d) with
  | some g => g.tile
  | none => getT k d

/-! ### GMMA (R95, R96, R108) -/

/-- Operand pairs of element (m, n) in update `u`. Products past the inner length are omitted. -/
def gmmaProds (A B : Nat → Nat → Nat) (K L u m n : Nat) : List (Nat × Nat) :=
  ((List.range K).filter (fun k => u * K + k < L)).map (fun k => (A m (u * K + k), B (u * K + k) n))

/-- One element through updates 0 to U − 1. -/
def gmmaElem (fa fb : Fmt) (rm : RM) (A B : Nat → Nat → Nat) (K L U m n x : Nat) : Nat × Flags :=
  (List.range U).foldl (fun acc u =>
    let ps := gmmaProds A B K L u m n
    let r := if pairAcc fa fb = .int32 then gUpdateInt fa fb acc.1 ps
      else gUpdate (tileFmt (pairAcc fa fb)) fa fb rm acc.1 ps
    (r.1, acc.2 ||| r.2)) (x, 0)

/-- The tile a GMMA leaves, and its flags. `t` is the tile before, already cleared for ZA = 1. -/
def gmmaTile (fa fb : Fmt) (rm : RM) (A B : Nat → Nat → Nat) (P Q L U : Nat) (t : Tile) : Tile × Flags :=
  let K := pairK fa fb
  let rs := (tileIndices t.type).map (fun p =>
    if p.1 < P ∧ p.2 < Q then gmmaElem fa fb rm A B K L U p.1 p.2 (tileGet t p.1 p.2) else (tileGet t p.1 p.2, 0))
  (tileOf t.type (rs.map (fun r => r.1)), rs.foldl (fun fl r => fl ||| r.2) 0)

/-- R96's checks of formats and shapes: true when the op fails. -/
def gmmaShapeBad (c : Context) (fa fb : Fmt) (a b : View) (U : Nat) : Bool :=
  decide (viewFmt c a ≠ some fa) || decide (viewFmt c b ≠ some fb)
    || decide (tileRows (pairAcc fa fb) < a.rows) || decide (4 < b.cols) || decide (a.cols ≠ b.rows)
    || decide (U ≠ (a.cols + pairK fa fb - 1) / pairK fa fb)

/-- R96's checks, the tile's type among them: true when the op fails. -/
def gmmaBad (c : Context) (k : Worker) (fa fb : Fmt) (za : Bool) (d : TReg) (a b : View) (U : Nat) : Bool :=
  gmmaShapeBad c fa fb a b U || (!za && decide ((latestTile k d).type ≠ pairAcc fa fb))

/-- R94's checks: true when the op fails. -/
def gldBad (c : Context) (a : View) : Bool :=
  match (viewFmt c a).bind tileTypeOf with
  | none => true
  | some ty => decide (tileRows ty < a.rows) || decide (4 < a.cols)

/-- The tile GLD leaves, from the staged elements of v[A]. -/
def gldTile (c : Context) (a : View) (xs : List Nat) : Tile :=
  match (viewFmt c a).bind tileTypeOf with
  | none => Tile.initial
  | some ty => tileOf ty ((tileIndices ty).map (fun p =>
      if p.1 < a.rows ∧ p.2 < a.cols then xs.getD (p.1 * a.cols + p.2) 0 else 0))

/-! ### Operand staging (R100, R101, R136) -/

/-- Views a waiting Griddle op reads. -/
def gopViews : GOp → List View
  | .zero _ _ => []
  | .ld _ a => [a]
  | .mma _ _ _ _ a b _ => [a, b]

/-- Whether an op has operands to stage: GZERO has none, and an op without elements has none. -/
def gopStages : GOp → Bool
  | .zero _ _ => false
  | .ld _ a => decide (viewCount a ≠ 0)
  | .mma _ _ _ _ a b _ => decide (viewCount a ≠ 0 ∧ viewCount b ≠ 0)

/-- Whether an op fails the operand checks that need no tile; nothing of it is staged. -/
def gopShapeBad (c : Context) : GOp → Bool
  | .zero _ _ => false
  | .ld _ a => gldBad c a
  | .mma fa fb _ _ a b U => gmmaShapeBad c fa fb a b U

/-- Local views that remote reads of the worker have yet to fill (R240). -/
def readsOut (k : Worker) : List View :=
  ((k.rpend ++ k.slots.filterMap (fun p => p.2)).filter (fun r => decide (r.kind = .read))).map (fun r => r.dst)

/-- Whether the latch fill of an op must wait for a Whisk op, or a remote read into its
bytes, that has not completed (R136, R72). -/
def fillBlocked (c : Context) (k : Worker) (g : GOp) : Bool :=
  (gopViews g).any (fun v => viewCount v ≠ 0 && (k.wf.any (fun e => extentOverlap e (viewExtent c v))
    || (readsOut k).any (fun r => viewCount r ≠ 0 && extentOverlap (viewExtent c r) (viewExtent c v))))

/-- The first trouble among the operands of an op. -/
def gopTrouble (c : Context) (cl : Nat) (k : Worker) (g : GOp) : Option Trouble :=
  trouble c k ((gopViews g).flatMap (fun v => placesOf c cl v (allOf v))) []

/-- Whether no op holds a latch set: neither one that waits nor one whose beats may still run (R100). -/
def setFree (k : Worker) (i : Nat) : Bool :=
  k.gq.all (fun g => decide (g.set ≠ some i)) && k.gf.all (fun f => decide (f.set ≠ some i))

/-- The queue with the first op that is still to be staged given a latch set. -/
def stageFirst (i : Nat) : List GWait → List GWait
  | [] => []
  | g :: gs => if gopStages g.op && g.set.isNone then { g with set := some i } :: gs else g :: stageFirst i gs

/-- The loader stages the operands of the first op in issue order that has none yet, into the set in turn, where that set is free, no earlier write
into its views is on its way, and its operands can be read. A GLD takes its turn with the GMMA ops (DESIGN CHOICE, log entry 91). -/
def stageNext (s : State) (c : Context) (cl : Nat) (k : Worker) : State × Context × Worker :=
  match k.gq.find? (fun g => gopStages g.op && g.set.isNone) with
  | none => (s, c, k)
  | some g =>
    if setFree k k.nextSet && !gopShapeBad c g.op && !fillBlocked c k g.op && (gopTrouble c cl k g.op).isNone then
      let a := (gopViews g.op).getD 0 View.empty
      let b := (gopViews g.op).getD 1 View.empty
      let latch : Latch := ⟨readView c cl k a, readView c cl k b⟩
      let k' := { k with gq := stageFirst k.nextSet k.gq, latches := tset default k.latches k.nextSet latch, nextSet := 1 - k.nextSet }
      let sc := (gopViews g.op).foldl (fun sc v =>
        viewAccess sc.1 (loaderWait sc.1 sc.2 ((viewFmt c v).getD .fp64) (viewCount v) (l0Touch c cl v)) cl v (allOf v) false false) (s, c)
      (sc.1, sc.2, k')
    else (s, c, k)

/-- The loader stages what the two sets can hold. -/
def stage (s : State) (c : Context) (cl : Nat) (k : Worker) : State × Context × Worker :=
  let r := stageNext s c cl k
  stageNext r.1 r.2.1 cl r.2.2

/-- An op joins the worker's issue order (R102). -/
def queueOp (s : State) (c : Context) (cl : Nat) (k : Worker) (g : GOp) : OpRes :=
  let r := stage s c cl { k with gq := k.gq ++ [⟨g, none⟩] }
  .done r.1 r.2.1 r.2.2

/-- GZERO: t[D] := +0 of type FMT; joins the issue order. Other formats never pass load (R93). -/
def execGzero (w : Cluster) (fmt : Fmt) (d : TReg) (s : State) : Out :=
  match tileTypeOf fmt with
  | none => .refused (.reservedEncoding "GZERO")
  | some _ => .next (issue s w 0 (fun s _ c k => queueOp s c w k (.zero fmt d)))

/-- GMMA: joins the issue order with its views as they stand. INT32 operands never pass load (Table 4.2). -/
def execGmma (w : Cluster) (fmt bfmt : Fmt) (za : Bool) (d : TReg) (a b : VReg) (u : Fin 256) (s : State) : Out :=
  if fmt = .int32 ∨ bfmt = .int32 then .refused (.reservedEncoding "GMMA")
  else .next (issue s w 1 (fun s _ c k => queueOp s c w k (.mma fmt bfmt za d (getV k a) (getV k b) (u.val + 1))))

/-- GLD: joins the issue order. -/
def execGld (w : Cluster) (d : TReg) (a : VReg) (s : State) : Out :=
  .next (issue s w 0 (fun s _ c k => queueOp s c w k (.ld d (getV k a))))

/-! ### Issue and completion (R102 to R110) -/

/-- Tile a waiting Griddle op writes. -/
def gopTile : GOp → TReg
  | .zero _ d => d
  | .ld d _ => d
  | .mma _ _ _ d _ _ _ => d

/-- A worker halts on an uncorrectable error in its Griddle (R110). -/
def unitHalt (s : State) (id cl : Nat) (c : Context) (k : Worker) : State :=
  haltWorker s id cl c k codeUnitFault 0x01 0x0A0A 0 (some (badEvent s c cl none))

/-- What issuing the first op gives: nothing (an op without elements), a halt, or a flight with its beats, product
slots and products. GZERO and GLD have no pair, and their beats offer no product slots (DESIGN CHOICE, log entry 92: Table 4.5 names none). -/
inductive GIssue where
  | nothing
  | operand
  | flight (f : GFlight) (beats slots products : Nat)

/-- What a waiting op has staged. -/
def stagedOf (k : Worker) (g : GWait) : Latch := match g.set with | some i => tget default k.latches i | none => default

/-- The op that stands first, checked and computed from its latch set (R96, R104, R105). -/
def griddleOp (c : Context) (k : Worker) (w : GWait) : GIssue :=
  let l := stagedOf k w
  match w.op with
  | .zero fmt d => .flight ⟨d, tileZero ((tileTypeOf fmt).getD .fp32), 0, none⟩ 1 0 0
  | .ld d a =>
    if viewCount a = 0 then .nothing
    else if gldBad c a then .operand
    else .flight ⟨d, gldTile c a l.a, 0, w.set⟩ 1 0 0
  | .mma fa fb za d a b U =>
    if viewCount a = 0 ∨ viewCount b = 0 then .nothing
    else if gmmaBad c k fa fb za d a b U then .operand
    else
      let t0 := if za then tileZero (pairAcc fa fb) else latestTile k d
      let r := gmmaTile fa fb (rmOf k.acw) (fun m i => l.a.getD (m * a.cols + i) 0)
        (fun i n => l.b.getD (i * b.cols + n) 0) a.rows b.cols a.cols U t0
      let beats := U * pairBeats fa fb
      .flight ⟨d, r.1, r.2, w.set⟩ beats (beats * pairSlots fa fb) (a.rows * b.cols * a.cols)

/-- Whether the Griddle of cluster `cl` may issue, no fence stopping it (R23, R111): also while the worker waits at a barrier or in a collective, not while a
Whisk op is stopped (R102, R131). -/
def griddleMay (s : State) (c : Context) (cl : Nat) (k : Worker) : Bool :=
  isRunning c && !issueStopped s cl && k.stopped.isNone
    && (match k.run with | .running => true | .atBar _ => true | .inColl => true | _ => false)

/-- The worker after its first op has left the issue order: the earlier ops' beats have run, so their latch sets are free (R100). -/
def issued (k : Worker) (rest : List GWait) (f : Option GFlight) : Worker :=
  { k with gq := rest, gf := k.gf.map (fun x => { x with set := none }) ++ f.toList }

/-- The state with a worker whose loader has staged what it can. -/
def putStaged (s : State) (id cl : Nat) (c : Context) (k : Worker) : State :=
  let r := stage s c cl k
  setC r.1 id (setW r.2.1 cl r.2.2)

/-- The op `g` that stands first, its operands staged as far as they can be, issues; it stays while they are not all present (R102). -/
def issueFirst (s : State) (id cl : Nat) (c : Context) (k : Worker) (g : GWait) (rest : List GWait) (err : Bool) : State :=
  match griddleOp c k g with
  | .nothing => putStaged s id cl c (issued k rest none)
  | .operand => haltWorker s id cl c k codeGriddleOperand 0x03 codeGriddleOperand 0 none
  | .flight f beats slots products =>
    if err then unitHalt s id cl c k
    else if gopStages g.op && g.set.isNone then
      match gopTrouble c cl k g.op with
      | some t => applyRes id cl 0 (troubleRes s cl c k t)
      | none => setC s id (setW c cl k)
    else
      let c := eincr (eincr (eincr c 0x502000 beats) 0x502001 slots) 0x502002 products
      putStaged s id cl c (issued k rest (some f))

/-- GRIDDLE_ISSUE: the op that stands first in the worker's issue order issues (R102). `stageWait` and `tileWait` are the cycles
it stood first and waited on conditions 1 and 2 (R112); `err`: an uncorrectable error was found in its latch set. -/
def execGriddleIssue (w : Cluster) (stageWait tileWait : Nat) (err : Bool) (s : State) : Out :=
  .next (match runningId s with
  | none => s
  | some id =>
    let c := getC s id
    let k := getW c w.val
    if griddleMay s c w.val k then
      let r := stage s c w.val k
      match r.2.2.gq with
      | [] => s
      | g :: rest =>
        issueFirst r.1 id w.val (eincr (eincr r.2.1 0x502003 (stageWait * acTicks s)) 0x502004 (tileWait * acTicks s)) r.2.2 g rest err
    else s)

/-- GRIDDLE_COMPLETE: the oldest op in flight writes its tile and merges its flags into the ASW (R104). After an
uncorrectable error its flags are not merged and its tile is not written: no result ever reads it (R110). -/
def execGriddleComplete (w : Cluster) (error : Bool) (s : State) : Out :=
  .next (match runningId s with
  | none => s
  | some id =>
    let c := getC s id
    let k := getW c w.val
    match k.gf with
    | [] => s
    | f :: rest =>
      if error then unitHalt s id w.val c { k with gf := rest }
      else putStaged s id w.val c (mergeAsw (setT { k with gf := rest } f.d f.tile) f.flags))

/-- A write into these bytes must wait: an earlier Griddle op has not finished reading them (R136), or an earlier Whisk
op writes them (R135). -/
def viewClash (c : Context) (k : Worker) (reads : List View) (dest : List View) : Option WaitWhy :=
  let es := (reads ++ dest).filter (fun v => viewCount v ≠ 0) |>.map (viewExtent c)
  let ds := dest.filter (fun v => viewCount v ≠ 0) |>.map (viewExtent c)
  if k.wf.any (fun e => es.any (extentOverlap e)) then some .whisk
  else if (readsOut k).any (fun v => es.any (extentOverlap (viewExtent c v))) then some .remote
  else if k.gq.any (fun g => g.set.isNone && gopStages g.op
      && (gopViews g.op).any (fun v => ds.any (extentOverlap (viewExtent c v)))) then some .griddle
  else none

end Sys2Proof.Machine
end

