-- ==== Sys2Proof/Machine/Whisk.lean ====
section
/-! DEFINITION. The Whisk (05): element walk under VL and masks, precise element stops and faults, and its ops. -/

namespace Sys2Proof.Machine

open Sys2Proof

/-! ### Which formats an op accepts (Tables 5.1, 5.3) -/

/-- The formats in which the Whisk does arithmetic. -/
def isLong : Fmt → Bool
  | .fp64 | .fp32 | .fp16 => true
  | _ => false

/-- WBIN. -/
def binAccepts (op : BinOp) (f : Fmt) : Bool :=
  match op with
  | .add | .sub | .mul => isLong f || decide (f = .int32)
  | .div => isLong f
  | .max | .min => true
  | .copysign => isFloat f

/-- WUN. -/
def unAccepts (op : UnOp) (f : Fmt) : Bool :=
  match op with
  | .neg | .abs => isFloat f
  | .sqrt => isLong f

/-- WACT. -/
def actAccepts (f : Fmt) : Bool := decide (f = .fp64 ∨ f = .fp32)

/-- WRED, CALLRED and CRSCAT (Table 5.3): the mode, the op and the format of v[A]. -/
def redAccepts (mode : RedMode) (op : RedOp) (f : Fmt) : Bool :=
  match mode, op with
  | .plain, .sum => isLong f || decide (f = .int32)
  | .plain, _ => true
  | .exact, .sum => !decide (f = .fp64)
  | .repro, .sum => decide (f = .fp64)
  | _, _ => false

/-- Formats of v[D] that a reduction of `f` may have. -/
def redDest (mode : RedMode) (f d : Fmt) : Bool :=
  match mode with
  | .exact => decide (d = .fp32 ∨ d = .fp64)
  | _ => decide (d = f)

/-! ### Operands of an op -/

/-- Elements the op processes (R114). -/
def whiskCount (k : Worker) (op : WOp) : Nat :=
  match op.kind with
  | .cmp _ => min k.vl (viewCount op.a)
  | .red _ _ => viewCount op.a
  | _ => min k.vl (viewCount op.d)

/-- Source views, each with its number in an element record. -/
def whiskSrcs (op : WOp) : List (View × Nat) :=
  match op.kind with
  | .bin _ | .cmp _ | .sel _ => [(op.a, 0), (op.b, 1)]
  | .fma => [(op.a, 0), (op.b, 1), (op.d, 2)]
  | .acc _ _ _ => []
  | .gth | .sct => [(op.b, 1), (op.a, 0)]
  | _ => [(op.a, 0)]

/-- Views the op writes; a compare writes a mask. -/
def whiskDests (op : WOp) : List View :=
  match op.kind with
  | .cmp _ => []
  | _ => [op.d]

/-- Working format of a WACC (R124). -/
def accFmt (t : Tile) : Fmt := if t.type = .fp64 then .fp64 else .fp32

/-- R122: whether the op fails its operand checks. -/
def whiskBad (c : Context) (k : Worker) (op : WOp) : Bool :=
  let n := whiskCount k op
  let is := viewIs c
  let short := fun (v : View) => decide (viewCount v < n)
  match op.kind with
  | .bin _ | .sel _ | .fma => !(is op.fmt op.a && is op.fmt op.b && is op.fmt op.d) || short op.a || short op.b
  | .un _ | .act _ => !(is op.fmt op.a && is op.fmt op.d) || short op.a
  | .cvt => !is op.fmt op.d || short op.a
  | .cmp _ => !(is op.fmt op.a && is op.fmt op.b) || short op.b
  | .acc _ _ t => !is op.fmt op.d || decide (tileRows (getT k t).type < op.d.rows) || decide (4 < op.d.cols)
  | .gth => !(is op.fmt op.a && is op.fmt op.d && is .int32 op.b) || short op.b
  | .sct => !(is op.fmt op.a && is op.fmt op.d && is .int32 op.b) || short op.a || short op.b
  | .red mode _ => !is op.fmt op.a || decide (viewCount op.d = 0)
      || !(match viewFmt c op.d with | some d => redDest mode op.fmt d | none => false)

/-- Whether element `i` is masked (R117). A view element beyond the 4,096 bits of a mask has no bit and is masked. -/
def whiskMasked (k : Worker) (op : WOp) (i : Nat) : Bool :=
  match op.msk with
  | some m => !(getM k m).getLsbD i
  | none => false

/-! ### One element (R129, R130) -/

/-- Why an element is not processed (Table 5.4): kind, operand, level and byte offset (or index value), and its byte
address. -/
structure EStop where
  kind    : Nat
  operand : Nat
  level   : Nat
  off     : Int
  addr    : Nat
  deriving DecidableEq, Repr

/-- What an element writes. -/
inductive EWrite where
  | elem (p : Place) (x : Nat)
  | mask (b : Bool)
  deriving DecidableEq, Repr

/-- Whether a register group can hold an operand: its elements fit in 512 bits, or it repeats one element (R118). -/
def fitsGroup (c : Context) (v : View) : Bool :=
  decide (viewCount v ≠ 0) && (decide (viewCount v * fmtBits ((viewFmt c v).getD .fp64) ≤ 512) || decide (v.rstride = 0 ∧ v.cstride = 0))

/-- The register group in which the native code holds source operand `o` of an op, in the short-register form (R118; log entry 12). Two
operands never share a group. -/
def heldGroup (c : Context) (k : Worker) (op : WOp) (o : Nat) : Option (Fin 8) :=
  let at' := fun (i : Nat) => if (whiskSrcs op).any (fun s => decide (s.2 = i) && fitsGroup c s.1) then
      Config.heldOperand (modOf c).digest k.pc i else none
  if o = 0 then at' 0
  else if o = 1 ∧ at' 1 ≠ at' 0 then at' 1
  else none

/-- Reads a source element, or stops on its uncorrectable error or its dead lender. An operand in a register group meets no element fault
(R119). -/
def readSrc (c : Context) (cl : Nat) (k : Worker) (op : WOp) (v : View) (i operand : Nat) : Except EStop Nat :=
  let p := viewPlace c cl v i
  if (heldGroup c k op operand).isSome then .ok (readPlace c k p)
  else if placeDead c p then .error ⟨0x03, operand, p.level, p.off, p.addr⟩
  else if placeBad c k p then .error ⟨0x02, operand, p.level, p.off, p.addr⟩
  else .ok (readPlace c k p)

/-- Checks the write of a destination element. -/
def checkDest (c : Context) (k : Worker) (p : Place) : Except EStop Unit :=
  if placeDead c p then .error ⟨0x03, 2, p.level, p.off, p.addr⟩
  else if writeBad c k p then .error ⟨0x02, 2, p.level, p.off, p.addr⟩
  else if placeProtected c p then .error ⟨0x10, 2, p.level, p.off, p.addr⟩
  else .ok ()

/-- Reads an index and checks its range (R127). -/
def readIndex (c : Context) (cl : Nat) (k : Worker) (op : WOp) (v : View) (i limit : Nat) : Except EStop Nat := do
  let raw ← readSrc c cl k op v i 1
  let x := intVal .int32 raw
  if x < 0 ∨ (limit : Int) ≤ x then .error ⟨0x01, 1, viewLevel c v, x, 0⟩ else .ok x.toNat

/-- Reads every source of element `i`, in the order of `whiskSrcs`. -/
def readSrcs (c : Context) (cl : Nat) (k : Worker) (op : WOp) (i : Nat) : List (View × Nat) → Except EStop (List Nat)
  | [] => .ok []
  | (v, o) :: vs => do
    let x ← readSrc c cl k op v i o
    let xs ← readSrcs c cl k op i vs
    .ok (x :: xs)

/-- WACC on one element (R124): scale, optional activation, conversion; each stage raises its own flags. -/
def accElem (f : Option Act) (scale : BitVec 32) (t : Tile) (fmt : Fmt) (rm : RM) (r col : Nat) : Nat × Flags :=
  let w := accFmt t
  let sc := decode .fp32 scale.toNat
  let el := decode (tileFmt t.type) (tileGet t r col)
  let m := mulNum sc el
  let x := fusedSum w .ieee rm [m.1] m.2
  let y : Nat × Flags := match f with
    | some g => actElem w g rm x.1
    | none => (x.1, 0)
  let z := convertElem fmt w rm none y.1
  (z.1, x.2 ||| snanFlag [sc, el] ||| y.2 ||| z.2)

/-- Whether the op is a conversion that rounds stochastically, and so counts in the op ordinal (R56). -/
def srOp (k : Worker) (op : WOp) : Bool := decide (op.kind = .cvt) && isShort op.fmt && srEn k.acw

/-- The value an element-wise op computes from its sources. -/
def elemValue (c : Context) (cl : Nat) (k : Worker) (op : WOp) (i : Nat) (xs : List Nat) : Nat × Flags :=
  let rm := rmOf k.acw
  let x := fun j => xs.getD j 0
  match op.kind with
  | .bin o => binElem op.fmt o rm (x 0) (x 1)
  | .fma => fmaElem op.fmt rm (x 0) (x 1) (x 2)
  | .un o => unElem op.fmt o rm (x 0)
  | .act f => actElem op.fmt f rm (x 0)
  | .cvt =>
    let r := if srOp k op then some (srBits c.seed (4000 * c.rank + cl) c.step k.srOrd i).toNat else none
    convertElem op.fmt ((viewFmt c op.a).getD op.fmt) rm r (x 0)
  | .sel m => (if (getM k m).getLsbD i then x 0 else x 1, 0)
  | .acc f sc t => accElem f sc (getT k t) op.fmt rm (i / op.d.cols) (i % op.d.cols)
  | _ => (0, 0)

/-- One unmasked element: what it writes and the flags it merges, or why it is not processed (R129). -/
def elemStep (c : Context) (cl : Nat) (k : Worker) (op : WOp) (i : Nat) : Except EStop (EWrite × Flags) :=
  match op.kind with
  | .cmp o => do
    let xs ← readSrcs c cl k op i (whiskSrcs op)
    let r := compareElem op.fmt o (xs.getD 0 0) (xs.getD 1 0)
    .ok (.mask r.1, r.2)
  | .gth => do
    let j ← readIndex c cl k op op.b i (viewCount op.a)
    let x ← readSrc c cl k op op.a j 0
    let p := viewPlace c cl op.d i
    checkDest c k p
    .ok (.elem p x, 0)
  | .sct => do
    let j ← readIndex c cl k op op.b i (viewCount op.d)
    let x ← readSrc c cl k op op.a i 0
    let p := viewPlace c cl op.d j
    checkDest c k p
    .ok (.elem p x, 0)
  | _ => do
    let xs ← readSrcs c cl k op i (whiskSrcs op)
    let r := elemValue c cl k op i xs
    let p := viewPlace c cl op.d i
    checkDest c k p
    .ok (.elem p r.1, r.2)

/-- A walk in progress. -/
structure WRun where
  c    : Context
  k    : Worker
  fl   : Flags
  done : Nat
  stop : Option (Nat × EStop)

/-- Applies what an element writes. -/
def applyWrite (op : WOp) (i : Nat) (c : Context) (k : Worker) : EWrite → Context × Worker
  | .elem p x => writePlace c k p x
  | .mask b => (c, setM k op.dm (BitVec.ofNat 4096
      ((getM k op.dm).toNat - (if (getM k op.dm).getLsbD i then 2 ^ i else 0) + (if b then 2 ^ i else 0))))

/-- The walk: one element at a time in increasing order; elements before a stop keep their results (R116, R130). -/
def whiskLoop (cl : Nat) (op : WOp) : List Nat → WRun → WRun
  | [], r => r
  | i :: is, r =>
    if whiskMasked r.k op i then whiskLoop cl op is r
    else match elemStep r.c cl r.k op i with
      | .error e => { r with stop := some (i, e) }
      | .ok (w, fl) =>
        let ck := applyWrite op i r.c r.k w
        whiskLoop cl op is ⟨ck.1, ck.2, r.fl ||| fl, r.done + 1, none⟩

/-! ### Reductions (R126) -/

/-- The unmasked elements of v[A], or the first that cannot be read. -/
def redTerms (c : Context) (cl : Nat) (k : Worker) (op : WOp) : List Nat → Except (Nat × EStop) (List Nat)
  | [] => .ok []
  | i :: is =>
    if whiskMasked k op i then redTerms c cl k op is
    else match readSrc c cl k op op.a i 0 with
      | .error e => .error (i, e)
      | .ok x => match redTerms c cl k op is with
        | .error e => .error e
        | .ok xs => .ok (x :: xs)

/-- Result of a reduction: a value with flags, nothing to write, or too many terms. -/
inductive RedRes where
  | value (x : Nat) (fl : Flags)
  | keep
  | exceeded
  deriving DecidableEq, Repr

/-- The reduction of a list of terms into format `d`. -/
def redValue (mode : RedMode) (rop : RedOp) (f d : Fmt) (rm : RM) (xs : List Nat) : RedRes :=
  let nums := xs.map (decode f)
  let rdf := xs.foldl (fun fl x => fl ||| readFlags f x) 0
  match mode with
  | .plain =>
    match xs with
    | [] => if rop = .sum then .value 0 0 else .keep
    | _ =>
      let r := treeReduce (redCombine f rop rm) xs.length xs
      .value (r.1.getD 0 0) r.2
  | .exact =>
    match exactSum nums with
    | none => .exceeded
    | some p =>
      let r := exactResult d rm p
      .value r.1 (r.2 ||| rdf ||| snanFlag nums)
  | .repro =>
    let r := reproResult rm (reproSum (reproM nums) nums)
    .value r.1 (r.2 ||| snanFlag nums)

/-! ### Beats (R113, R134, R140) -/

/-- Views and formats that decide the lanes of an op. -/
def whiskViews (op : WOp) : List View := whiskDests op ++ (whiskSrcs op).map (fun p => p.1)

/-- Elements per beat. An exact reduction takes 16, as Table 5.7 gives its beats, also where its v[D] is FP64 (DESIGN CHOICE, log entry 93: R113's
words give 8 to an op with an FP64 view). -/
def whiskLanes (c : Context) (k : Worker) (op : WOp) : Nat :=
  let wide := (whiskViews op).any (fun v => viewCount v ≠ 0 && decide (viewFmt c v = some .fp64))
  let work := match op.kind with
    | .acc _ _ t => decide (accFmt (getT k t) = .fp64)
    | .red mode _ => decide (mode = .repro)
    | _ => false
  match op.kind with
  | .red .exact _ => 16
  | _ => if wide || work then 8 else 16

/-- Beats per lane group of an activation. -/
def actBeats (f : Act) (w : Fmt) : Nat := if f = .relu then 1 else if w = .fp64 then 6 else 3

/-- The figure c of Table 5.7. -/
def whiskC (op : WOp) : Nat :=
  match op.kind with
  | .bin .div | .un .sqrt => if op.fmt = .fp64 then 4 else 2
  | .act f => actBeats f op.fmt
  | _ => 1

/-- Place of element `i` among the elements that an op's lane groups walk: a WACC walks its tile, four columns a row. -/
def laneIndex (op : WOp) (i : Nat) : Nat :=
  match op.kind with
  | .acc _ _ _ => 4 * (i / op.d.cols) + i % op.d.cols
  | _ => i

/-- End of the last lane group that runs, for an op from element `e` of `n`: that of the element at which it ends early, or all (Table 5.6). -/
def runEnd (lanes e n : Nat) (stop : Option Nat) : Nat :=
  match stop with
  | some f => min n (e + ((f - e) / lanes + 1) * lanes)
  | none => n

/-- Beats of an op that starts at element `e` of `n` and ends early at `stop`, without bank conflicts (Table 5.7). -/
def whiskBeats (c : Context) (k : Worker) (op : WOp) (e n : Nat) (stop : Option Nat) : Nat :=
  let lanes := whiskLanes c k op
  match op.kind with
  | .acc f _ t =>
    (match stop with | some i => laneIndex op i / lanes + 1 | none => 4)
      * (match f with | some g => actBeats g (accFmt (getT k t)) | none => 1)
  | .red .repro _ => (if stop.isSome then 1 else 2) * ((runEnd lanes e n stop + 7) / 8)
  | .red _ _ => (runEnd lanes e n stop + lanes - 1) / lanes
  | _ => (runEnd lanes e n stop - e + lanes - 1) / lanes * whiskC op

/-- Value of an index element, where it lies in the view it addresses. -/
def indexOf (c : Context) (cl : Nat) (k : Worker) (op : WOp) (limit i : Nat) : Option Nat :=
  match readIndex c cl k op op.b i limit with | .ok j => some j | .error _ => none

/-- Scratchpad addresses that element `i` touches. -/
def whiskTouches (c : Context) (cl : Nat) (k : Worker) (op : WOp) (i : Nat) : List Nat :=
  let idx := fun (v : View) => match indexOf c cl k op (viewCount v) i with | some j => l0Touch c cl v j | none => []
  match op.kind with
  | .gth => l0Touch c cl op.b i ++ l0Touch c cl op.d i ++ idx op.a
  | .sct => l0Touch c cl op.b i ++ l0Touch c cl op.a i ++ idx op.d
  | .red _ _ => l0Touch c cl op.a i
  | _ => (whiskViews op).flatMap (fun v => l0Touch c cl v i)

/-- Extra beats of R128: the bank conflicts of every lane group that runs, none where every view is unit-stride. -/
def whiskExtra (c : Context) (cl : Nat) (k : Worker) (op : WOp) (e n : Nat) (stop : Option Nat) : Nat :=
  let indexed := match op.kind with | .gth | .sct => true | _ => false
  if !indexed && (whiskViews op).all unitStride then 0
  else
    let lanes := whiskLanes c k op
    let passes := match op.kind with | .red .repro _ => (if stop.isSome then 1 else 2) | _ => 1
    passes * bankExtra lanes e (runEnd lanes e n stop) (whiskTouches c cl k op)

/-- WHISK_BEATS and L0_BANK_WAIT_US of an op: the beats that run (R137, R140). -/
def countBeats (s : State) (c : Context) (cl : Nat) (k : Worker) (op : WOp) (e n : Nat) (stop : Option Nat) : Context :=
  let x := whiskExtra c cl k op e n stop
  eincr (eincr c 0x503000 (whiskBeats c k op e n stop + x)) 0x302001 (x * acTicks s)

/-! ### Registers and memory accesses (R118, R145, R152) -/

/-- What a register group holds of an operand: its elements, the first in the lowest bits; one element repeated where that is the operand. -/
def groupBits (c : Context) (cl : Nat) (k : Worker) (v : View) : Nat :=
  let b := fmtBits ((viewFmt c v).getD .fp64)
  (List.range (512 / b)).foldl (fun n i =>
    if decide (v.rstride = 0 ∧ v.cstride = 0) || decide (i < viewCount v) then
      n + 2 ^ (b * i) * readElem c cl k v (if v.rstride = 0 ∧ v.cstride = 0 then 0 else i) else n) 0

/-- The registers with the operands that the op's form holds in them. -/
def loadGroups (c : Context) (cl : Nat) (k : Worker) (op : WOp) : Worker :=
  [(0, op.a), (1, op.b)].foldl (fun k' x =>
    match heldGroup c k op x.1 with
    | some g => { k' with wregs := (List.range 4).foldl (fun t j =>
        tset 0 t (4 * g.val + j) (BitVec.ofNat 128 (groupBits c cl k x.2 / 2 ^ (128 * j)))) k'.wregs }
    | none => k') k

/-- Accesses of the elements that an op has processed, view by view: sources first, then the destination (log entry 90). -/
def whiskAccess (s : State) (c : Context) (cl : Nat) (k : Worker) (op : WOp) (is : List Nat) : State × Context :=
  let go := fun (v : View) (js : List Nat) (w x : Bool) (sc : State × Context) => viewAccess sc.1 sc.2 cl v js w x
  let idx := fun (v : View) => is.filterMap (indexOf c cl k op (viewCount v))
  match op.kind with
  | .gth => go op.d is true false (go op.a (idx op.a) false true (go op.b is false false (s, c)))
  | .sct => go op.d (idx op.d) true true (go op.a is false false (go op.b is false false (s, c)))
  | .red _ _ => go op.d [0] true false (go op.a is false false (s, c))
  | _ => (whiskDests op).foldl (fun sc v => go v is true false sc) ((whiskSrcs op).foldl (fun sc v => go v.1 is false false sc) (s, c))

/-- The unmasked elements of `[e, f)`. -/
def unmasked (k : Worker) (op : WOp) (e f : Nat) : List Nat := (List.range' e (f - e)).filter (fun i => !whiskMasked k op i)

/-! ### Issue -/

/-- The 32-byte element record (Table 5.5). -/
def elemRecord (kind operand opcode codeWord elem level cl : Nat) (off : Int) (step : Nat) : BitVec 256 :=
  BitVec.ofNat 256 (leNat (natLe 1 kind ++ natLe 1 operand ++ natLe 2 opcode ++ natLe 4 codeWord ++ natLe 2 elem
    ++ natLe 1 level ++ natLe 1 0 ++ natLe 2 cl ++ natLe 2 0 ++ natLe 8 (ofSigned 64 off) ++ natLe 4 step ++ natLe 4 0))

/-- A worker halts on an element fault (R132, R133): the record is written and logged with the fault. -/
def elemHalt (s : State) (c : Context) (cl : Nat) (k : Worker) (opcode i : Nat) (e : EStop) : OpRes :=
  let r := elemRecord e.kind e.operand opcode k.pc i e.level cl e.off c.step
  let c := eincr (putRecord c cl k r) 0x503004 1
  let k := { k with record := r, elemStart := 0, stopped := none }
  if e.kind = 0x01 then .halt s c k codeWhiskIndex 0x02 codeWhiskIndex r none
  else if e.kind = 0x03 then deadRes s cl c k e.addr r
  else .halt s c k codeUnitFault 0x01 0x0A0A r (some (badEvent s c cl (some ⟨e.level, 0, e.addr, 8, false, false, false⟩)))

/-- A worker stops at a protected page (R131). -/
def elemStop (s : State) (c : Context) (cl : Nat) (k : Worker) (op : WOp) (i : Nat) (e : EStop) : OpRes :=
  let r := elemRecord e.kind e.operand op.opcode k.pc i e.level cl e.off c.step
  .jump (noteHeld s [e.addr / pageBytes]) (eincr (putRecord c cl k r) 0x503002 1) { k with record := r, elemStart := i, stopped := some op }

/-- The worker after an op has issued and left its results: extents until it completes, the ordinal of R56. -/
def whiskFinish (c : Context) (k : Worker) (op : WOp) : Worker :=
  let ext := match op.kind with
    | .cmp _ => [(⟨3, op.dm.val, 0, 0⟩ : Extent)]
    | _ => [viewExtent c op.d]
  { k with wf := k.wf ++ ext, elemStart := 0, stopped := none, srOrd := if srOp k op then k.srOrd + 1 else k.srOrd }

/-- The worker's replica-written bit after an op has written `n` elements (R252). -/
def whiskMark (c : Context) (k : Worker) (op : WOp) (n : Nat) : Worker :=
  match op.kind with
  | .cmp _ => k
  | _ => if n = 0 then k else markReplica c k op.d.tensor

/-- Runs a reduction (R126, R130): the destination is checked before the first term is read. -/
def redRun (s : State) (c : Context) (cl : Nat) (k : Worker) (op : WOp) (mode : RedMode) (rop : RedOp) : OpRes :=
  let n := whiskCount k op
  let p := viewPlace c cl op.d 0
  match checkDest c k p with
  | .error x => if x.kind = 0x10 then elemStop s c cl k op 0 x else elemHalt s c cl k op.opcode 0 x
  | .ok _ =>
    let k := loadGroups c cl k op
    match redTerms c cl k op (List.range n) with
    | .error (i, x) => elemHalt s (countBeats s c cl k op 0 n (some i)) cl k op.opcode i x
    | .ok xs =>
      let c := eincr (countBeats s c cl k op 0 n none) 0x503001 xs.length
      match redValue mode rop op.fmt ((viewFmt c op.d).getD op.fmt) (rmOf k.acw) xs with
      | .exceeded => .halt s c k 0x0406 0x03 0x0406 0 none
      | .keep =>
        let sc := (whiskSrcs op).foldl (fun sc v => viewAccess sc.1 sc.2 cl v.1 (unmasked k op 0 n) false false) (s, c)
        .done sc.1 sc.2 (whiskFinish c k op)
      | .value x fl =>
        let sc := whiskAccess s c cl k op (unmasked k op 0 n)
        let ck := writePlace sc.2 k p x
        .done sc.1 ck.1 (whiskMark ck.1 (whiskFinish ck.1 (mergeAsw ck.2 fl) op) op 1)

/-- Runs an op from its ELEM_START (R130, R131). -/
def whiskRun (s : State) (c : Context) (cl : Nat) (k : Worker) (op : WOp) : OpRes :=
  let n := whiskCount k op
  let e := k.elemStart
  match op.kind with
  | .red mode rop => redRun s c cl k op mode rop
  | _ =>
    let k := loadGroups c cl k op
    let r := whiskLoop cl op (List.range' e (n - e)) ⟨c, k, 0, 0, none⟩
    let at' := r.stop.map (fun x => x.1)
    let sc := whiskAccess s (eincr (countBeats s r.c cl k op e n at') 0x503001 r.done) cl k op (unmasked k op e (at'.getD n))
    let k := whiskMark r.c (mergeAsw r.k r.fl) op r.done
    match r.stop with
    | none => .done sc.1 sc.2 (whiskFinish sc.2 k op)
    | some (i, x) => if x.kind = 0x10 then elemStop sc.1 sc.2 cl k op i x else elemHalt sc.1 sc.2 cl k op.opcode i x

/-- Whether the op has no element to process and so no effect (R69). A WRED is never without effect: with a destination it writes at least the
empty result, and without one it fails its checks (R122). -/
def whiskEmpty (k : Worker) (op : WOp) : Bool :=
  match op.kind with
  | .red _ _ => false
  | _ => decide (whiskCount k op = 0)

/-- Whether a mask the op reads or writes is still being written (R135). -/
def maskClash (k : Worker) (op : WOp) : Bool :=
  let ms := (op.msk.toList ++ (match op.kind with | .sel m => [m] | .cmp _ => [op.dm] | _ => [])).map (fun m => m.val)
  k.wf.any (fun e => decide (e.level = 3 ∧ e.tensor ∈ ms))

/-- Whether a Griddle op on the tile has not completed (R106). -/
def tileBusy (k : Worker) (t : TReg) : Bool := k.gq.any (fun g => gopTile g.op = t) || k.gf.any (fun g => g.d = t)

/-- What the op must wait for before it issues: a Griddle op on its tile, an overlapping Whisk op, a latch fill of its
destination, or the remap of a destination page (R106, R135, R136, R153). -/
def whiskWait (c : Context) (cl : Nat) (k : Worker) (op : WOp) : Option WaitWhy :=
  let tile := match op.kind with | .acc _ _ t => tileBusy k t | _ => false
  if tile then some .griddle
  else if maskClash k op then some .whisk
  else match viewClash c k ((whiskSrcs op).map (fun p => p.1)) (whiskDests op) with
    | some w => some w
    | none =>
      if (whiskDests op).any (fun v => (viewPages c cl v (viewCount v)).any
          (fun p => c.gBad.any (fun g => decide (g * 32 / pageBytes = p)))) then some .remap else none

/-- Presents a Whisk op. -/
def whiskIssue (s : State) (cl : Nat) (c : Context) (k : Worker) (op : WOp) : OpRes :=
  if whiskEmpty k op then .done s c { k with srOrd := if srOp k op then k.srOrd + 1 else k.srOrd }
  else match whiskWait c cl k op with
    | some w => .wait s c k w
    | none => if whiskBad c k op then operandHalt s c k codeWhiskOperand else whiskRun s c cl k op

/-- Presents a Whisk op of the worker on cluster `w`. -/
def whisk (w : Cluster) (kind : WKind) (opcode : Nat) (fmt : Fmt) (mk : Option MReg) (d a b : Option VReg) (dm : MReg)
    (ext : Nat) (s : State) : State :=
  let v := fun (k : Worker) (x : Option VReg) => match x with | some r => getV k r | none => View.empty
  issue s w ext (fun s _ c k => whiskIssue s w c k ⟨kind, opcode, fmt, mk, v k d, v k a, v k b, dm, ext⟩)

/-! ### The ops -/

/-- WVL: VL := min(max(s[A], 1), 4,096), s[A] taken as signed (log entry 16); s[D] := VL. -/
def execWvl (w : Cluster) (d a : SReg) (s : State) : Out :=
  .next (issue s w 0 (fun s _ c k =>
    let v := (min (max (getS k a).toInt 1) 4096).toNat
    .done s (eincr c 0x503000 1) (setS { k with vl := v } d (BitVec.ofNat 64 v))))

/-- WBIN. -/
def execWbin (w : Cluster) (fmt : Fmt) (op : BinOp) (mk : Option MReg) (d a b : VReg) (s : State) : Out :=
  if binAccepts op fmt then .next (whisk w (.bin op) 0x0C1 fmt mk d a b 0 0 s) else .refused (.reservedEncoding "WBIN")

/-- WFMA. -/
def execWfma (w : Cluster) (fmt : Fmt) (mk : Option MReg) (d a b : VReg) (s : State) : Out :=
  if isLong fmt then .next (whisk w .fma 0x0C2 fmt mk d a b 0 0 s) else .refused (.reservedEncoding "WFMA")

/-- WUN. -/
def execWun (w : Cluster) (fmt : Fmt) (op : UnOp) (mk : Option MReg) (d a : VReg) (s : State) : Out :=
  if unAccepts op fmt then .next (whisk w (.un op) 0x0C3 fmt mk d a none 0 0 s) else .refused (.reservedEncoding "WUN")

/-- WACT. -/
def execWact (w : Cluster) (fmt : Fmt) (f : Act) (mk : Option MReg) (d a : VReg) (s : State) : Out :=
  if actAccepts fmt then .next (whisk w (.act f) 0x0C4 fmt mk d a none 0 0 s) else .refused (.reservedEncoding "WACT")

/-- WCVT. -/
def execWcvt (w : Cluster) (fmt : Fmt) (mk : Option MReg) (d a : VReg) (s : State) : Out :=
  .next (whisk w .cvt 0x0C5 fmt mk d a none 0 0 s)

/-- WCMP: m[D] := v[A] cmp v[B]. -/
def execWcmp (w : Cluster) (fmt : Fmt) (op : CmpOp) (mk : Option MReg) (d : MReg) (a b : VReg) (s : State) : Out :=
  .next (whisk w (.cmp op) 0x0C6 fmt mk none a b d 0 s)

/-- WSEL. -/
def execWsel (w : Cluster) (fmt : Fmt) (mk : Option MReg) (m : MReg) (d a b : VReg) (s : State) : Out :=
  .next (whisk w (.sel m) 0x0C7 fmt mk d a b 0 0 s)

/-- WACC. -/
def execWacc (w : Cluster) (fmt : Fmt) (f : Option Act) (scale : BitVec 32) (mk : Option MReg) (d : VReg) (t : TReg)
    (s : State) : Out :=
  .next (whisk w (.acc f scale t) 0x0C8 fmt mk d none none 0 1 s)

/-- WRED. -/
def execWred (w : Cluster) (fmt : Fmt) (mode : RedMode) (op : RedOp) (mk : Option MReg) (d a : VReg) (s : State) : Out :=
  if redAccepts mode op fmt then .next (whisk w (.red mode op) 0x0C9 fmt mk d a none 0 0 s)
  else .refused (.reservedEncoding "WRED")

/-- WGTH. -/
def execWgth (w : Cluster) (fmt : Fmt) (mk : Option MReg) (d a b : VReg) (s : State) : Out :=
  .next (whisk w .gth 0x0CA fmt mk d a b 0 0 s)

/-- WSCT. -/
def execWsct (w : Cluster) (fmt : Fmt) (mk : Option MReg) (d a b : VReg) (s : State) : Out :=
  .next (whisk w .sct 0x0CB fmt mk d a b 0 0 s)

/-- Whether the element at which the worker is stopped may now be written: the Ladle has copied its page. -/
def resumeReady (c : Context) (cl : Nat) (k : Worker) (op : WOp) : Bool :=
  match op.kind with
  | .red _ _ => !placeProtected c (viewPlace c cl op.d 0)
  | .sct => match indexOf c cl k op (viewCount op.d) k.elemStart with
    | some j => !placeProtected c (viewPlace c cl op.d j)
    | none => true
  | _ => !placeProtected c (viewPlace c cl op.d k.elemStart)

/-- Whether a stopped op may go on: its module runs, or is being halted behind a fence that waits for the op (R131). -/
def stopGoesOn (c : Context) (k : Worker) : Bool :=
  c.live && decide (c.modState = .running ∨ c.modState = .halting) && decide (k.run = .running)

/-- ELEM_RESUME: the Ladle has copied the page; the stopped op issues again from ELEM_START (R131). `waitNs` is the
time it stood stopped. -/
def execElemResume (w : Cluster) (waitNs : Nat) (s : State) : Out :=
  .next (match runningId s with
  | none => s
  | some id =>
    let c := getC s id
    let k := getW c w.val
    match k.stopped with
    | none => s
    | some op =>
      if stopGoesOn c k && resumeReady c w.val k op then
        let c := eincr (eincr c 0x503003 (waitNs * ticksPerNs)) 0x801101 (waitNs * ticksPerNs)
        applyRes id w.val op.ext (whiskRun s c w.val { k with stopped := none } op)
      else s)

/-- WHISK_COMPLETE: the oldest Whisk op that has issued completes (R134). -/
def execWhiskComplete (w : Cluster) (s : State) : Out :=
  .next (match runningId s with
  | none => s
  | some id => setC s id (let c := getC s id; setW c w.val { getW c w.val with wf := (getW c w.val).wf.drop 1 }))

end Sys2Proof.Machine
end

