-- ==== Sys2Proof/Machine/Moves.lean ====
section
/-! DEFINITION. The moves (R453): MOVS, MOVG, MOVSC, FILL and PREF, and the end of a tensor's life (R147). -/

namespace Sys2Proof.Machine

open Sys2Proof

/-- Pages of the instance of tensor `t` that the worker on cluster `cl` reaches. -/
def tensorPages (c : Context) (cl t : Nat) : List Nat :=
  match tensorOf c t with
  | none => []
  | some d => if tensorLevel c t = 0 then [] else
      (List.range (pagedBytes d / pageBytes)).map (fun i => tensorBase c cl t / pageBytes + i)

/-- The life of the instance of tensor `t` that the worker reaches ends: every byte reads as zero. At L0 the zero-fill writes whole words, which
also ends their errors (R139). At L1 and L2 every page is ZERO and DIRTY (R147). -/
def endLife (c : Context) (cl : Nat) (k : Worker) (t : Nat) : Context × Worker :=
  match tensorOf c t with
  | none => (c, k)
  | some d =>
    let base := tensorBase c cl t
    if tensorLevel c t = 0 then
      (c, { k with l0 := zeroRange k.l0 base (tensorBytes d),
                   l0Bad := k.l0Bad.filter (fun w => !decide (base ≤ 8 * w ∧ 8 * w < base + tensorBytes d)) })
    else
      ({ c with vmem := zeroRange c.vmem base (tensorBytes d),
                pages := (tensorPages c cl t).foldl (fun m p => tset pageFresh m p (tget pageFresh m p ||| 0x5000)) c.pages }, k)

/-- Whether the end of life must wait: a page of the tensor is protected (R147). -/
def lifeHeld (c : Context) (cl t : Nat) : Bool := (tensorPages c cl t).any (pageProtected c)

/-- A move waits for engines that still use its bytes, and for held pages (R72, R151), else goes on with `go`. -/
def moveWait (s : State) (c : Context) (cl : Nat) (k : Worker) (lu : Bool) (srcs : List View) (d : View) (t : Nat)
    (go : OpRes) : OpRes :=
  match viewClash c k srcs [d] with
  | some w => .wait s c k w
  | none =>
    if destHeld c cl d (viewCount d) || (lu && lifeHeld c cl t) then
      pageWait s c cl k d (viewCount d) (if lu then tensorPages c cl t else [])
    else go

/-- What a move accesses: views with their elements in walk order, whether it writes them, whether by index. -/
abbrev Touched := View × List Nat × Bool × Bool

/-- Scratchpad addresses of the loader's access number `i` of each view. -/
def movedAt (c : Context) (cl : Nat) (ts : List Touched) (i : Nat) : List Nat :=
  ts.flatMap (fun t => match t.2.1[i]? with | some j => l0Touch c cl t.1 j | none => [])

/-- The accesses of a move by the stream loader, with its bank conflicts (R140, R145, R152). -/
def moveAccess (s : State) (c : Context) (cl : Nat) (fmt : Fmt) (ts : List Touched) : State × Context :=
  let n := ts.foldl (fun n t => max n t.2.1.length) 0
  ts.foldl (fun sc t => viewAccess sc.1 sc.2 cl t.1 t.2.1 t.2.2.1 t.2.2.2) (s, loaderWait s c fmt n (movedAt c cl ts))

/-- The first trouble that a move meets in the elements it processes, what it reads first. -/
def moveTrouble (c : Context) (cl : Nat) (k : Worker) (ts : List Touched) : Option Trouble :=
  trouble c k ((ts.filter (fun t => !t.2.2.1)).flatMap (fun t => placesOf c cl t.1 t.2.1))
    ((ts.filter (fun t => t.2.2.1)).flatMap (fun t => placesOf c cl t.1 t.2.1))

/-- A move that has passed its checks: it halts on a trouble, or goes on with its accesses made. -/
def moveGo (s : State) (c : Context) (cl : Nat) (k : Worker) (fmt : Fmt) (ts : List Touched) (go : State → Context → OpRes) : OpRes :=
  match moveTrouble c cl k ts with
  | some t => troubleRes s cl c k t
  | none => let sc := moveAccess s c cl fmt ts; go sc.1 sc.2

/-- The end of life of the instance that view A reaches; its Pantry lines are dropped (R147). -/
def lifeEnd (s : State) (c : Context) (cl : Nat) (k : Worker) (t : Nat) : OpRes :=
  let r := endLife c cl k t
  .done (dropPages s c (tensorPages c cl t)) r.1 r.2

/-- The state after a move has written `ws` (destination element, bits), with the life of v[A] ended for LU. -/
def moveDone (s : State) (c : Context) (cl : Nat) (k : Worker) (lu : Bool) (d : View) (t : Nat) (ws : List (Nat × Nat)) : OpRes :=
  let ck := ws.foldl (fun ck w => writeElem ck.1 cl ck.2 d w.1 w.2) (c, k)
  let k := if ws = [] then ck.2 else markReplica ck.1 ck.2 d.tensor
  if lu then lifeEnd s ck.1 cl k t else .done s ck.1 k

/-- Index values of the first `n` elements of an INT32 view. -/
def indexList (c : Context) (cl : Nat) (k : Worker) (v : View) (n : Nat) : List Int :=
  (List.range n).map (fun i => intVal .int32 (readElem c cl k v i))

/-- A move halts on its lowest bad index `i` (R453). Each destination element keeps its old value or takes its new
one; which is a free value. -/
def moveIndexHalt (s : State) (c : Context) (cl : Nat) (k : Worker) (opcode : Nat) (b d : View) (idx : List Int) (i : Nat)
    (ws : List (Nat × Nat)) : OpRes :=
  let n := s.freeIdx
  let ws := ws.filter (fun w => Config.moveMix n w.1)
  let ck := ws.foldl (fun ck w => writeElem ck.1 cl ck.2 d w.1 w.2) (c, k)
  elemHalt { s with freeIdx := n + 1 } ck.1 cl ck.2 opcode i ⟨0x01, 1, viewLevel c b, idx.getD i 0, 0⟩

/-- First index outside `[0, limit)`. -/
def badIndex (idx : List Int) (limit : Nat) : Option Nat := idx.findIdx? (fun x => decide (x < 0 ∨ (limit : Int) ≤ x))

/-- MOVS: v[D] := v[A], read wholly before it is written. -/
def execMovs (w : Cluster) (fmt : Fmt) (lu : Bool) (d a : VReg) (s : State) : Out :=
  .next (issue s w 0 (fun s _ c k =>
    let vd := getV k d
    let va := getV k a
    let n := viewCount vd
    if n = 0 then .done s c k
    else moveWait s c w k lu [va] vd va.tensor (
        if !(viewIs c fmt va && viewIs c fmt vd) || decide (viewCount va < n) then operandHalt s c k codeWhiskOperand
        else moveGo s c w k fmt [(va, List.range n, false, false), (vd, List.range n, true, false)] (fun s c =>
          moveDone s c w k lu vd va.tensor ((List.range n).map (fun i => (i, readElem c w k va i)))))))

/-- MOVG: v[D][i] := v[A][v[B][i]]. -/
def execMovg (w : Cluster) (fmt : Fmt) (lu : Bool) (d a b : VReg) (s : State) : Out :=
  .next (issue s w 0 (fun s _ c k =>
    let vd := getV k d
    let va := getV k a
    let vb := getV k b
    let n := viewCount vd
    if n = 0 then .done s c k
    else moveWait s c w k lu [va, vb] vd va.tensor (
        if !(viewIs c fmt va && viewIs c fmt vd && viewIs c .int32 vb) || decide (viewCount vb < n) then
          operandHalt s c k codeWhiskOperand
        else
          let idx := indexList c w k vb n
          let ok := (List.range n).filter (fun i => decide (0 ≤ idx.getD i 0 ∧ idx.getD i 0 < viewCount va))
          let ws := ok.map (fun i => (i, readElem c w k va (idx.getD i 0).toNat))
          moveGo s c w k fmt [(vb, List.range n, false, false), (va, ok.map (fun i => (idx.getD i 0).toNat), false, true),
            (vd, ok, true, false)] (fun s c =>
            match badIndex idx (viewCount va) with
            | some i => moveIndexHalt s c w k 0x041 vb vd idx i ws
            | none => moveDone s c w k lu vd va.tensor ws))))

/-- MOVSC: v[D][v[B][i]] := v[A][i]; on repeated indices the highest i wins. -/
def execMovsc (w : Cluster) (fmt : Fmt) (lu : Bool) (d a b : VReg) (s : State) : Out :=
  .next (issue s w 0 (fun s _ c k =>
    let vd := getV k d
    let va := getV k a
    let vb := getV k b
    let n := viewCount va
    if n = 0 then .done s c k
    else moveWait s c w k lu [va, vb] vd va.tensor (
        if !(viewIs c fmt va && viewIs c fmt vd && viewIs c .int32 vb) || decide (viewCount vb < n) then
          operandHalt s c k codeWhiskOperand
        else
          let idx := indexList c w k vb n
          let ok := (List.range n).filter (fun i => decide (0 ≤ idx.getD i 0 ∧ idx.getD i 0 < viewCount vd))
          let ws := ok.map (fun i => ((idx.getD i 0).toNat, readElem c w k va i))
          moveGo s c w k fmt [(vb, List.range n, false, false), (va, List.range n, false, false), (vd, ws.map (fun x => x.1), true, true)]
            (fun s c =>
            match badIndex idx (viewCount vd) with
            | some i => moveIndexHalt s c w k 0x042 vb vd idx i ws
            | none => moveDone s c w k lu vd va.tensor ws))))

/-- FILL: each element of v[D] := the low bits of s[A]. -/
def execFill (w : Cluster) (fmt : Fmt) (d : VReg) (a : SReg) (s : State) : Out :=
  .next (issue s w 0 (fun s _ c k =>
    let vd := getV k d
    let n := viewCount vd
    if n = 0 then .done s c k
    else moveWait s c w k false [] vd 0 (
        if !viewIs c fmt vd then operandHalt s c k codeWhiskOperand
        else moveGo s c w k fmt [(vd, List.range n, true, false)] (fun s c =>
          moveDone s c w k false vd 0 ((List.range n).map (fun i => (i, (getS k a).toNat % 2 ^ fmtBits fmt)))))))

/-- PREF: stages v[A], with no effect on results; with LU it stages nothing and ends the life of v[A]'s tensor
(R147). Level 3 is no level that a tensor is declared at and never passes load (log entry 15). -/
def execPref (w : Cluster) (lu : Bool) (a : VReg) (level : Fin 4) (s : State) : Out :=
  if level.val = 3 then .refused (.reservedEncoding "PREF")
  else .next (issue s w 0 (fun s _ c k =>
    let va := getV k a
    if lu && decide (viewCount va ≠ 0) then
      if lifeHeld c w va.tensor then pageWait s c w k va 0 (tensorPages c w va.tensor)
      else
        match viewClash c k [] [va] with
        | some y => .wait s c k y
        | none => lifeEnd s c w k va.tensor
    else .done s c k))

end Sys2Proof.Machine
end

