-- ==== Sys2Proof/Machine/Log.lean ====
section
/-! DEFINITION. The replay log (R312, R313) as a recording device keeps it, and the next record that a replaying device
consumes (R315). -/

namespace Sys2Proof.Machine

open Sys2Proof

/-- Writes one record of context `id` at step ordinal `step`; a full buffer may halt the job. -/
def putReplay (s : State) (id type step key ts : Nat) (data : List Byte) : State :=
  let x := appendRec s type step key ts data
  if x.2 then haltCtx (raiseEvent x.1 24 (mkRec 0 0x0F 0x200 0x0902 id step 0) none true) id 0x0902 none else x.1

/-- Logs an external input of context `id` while the device records it (R312). -/
def logInput (s : State) (id type step key ts : Nat) (data : List Byte) : State :=
  if recording s id then putReplay s id type step key ts data else s

/-- Whether the device replays context `id` (R315). -/
def replaying (s : State) (id : Nat) : Bool := s.ckpt.rplay && decide (replayCtx s = id)

/-- Position of the next logged record of a type and key. -/
def findReplay (s : State) (type key : Nat) : Option ReplayRec :=
  s.ckpt.rin.find? (fun r => decide (r.type = type ∧ r.key = key))

/-- The log without its first record of a type and key. -/
def dropReplay (s : State) (type key : Nat) : State :=
  match s.ckpt.rin.findIdx? (fun r => decide (r.type = type ∧ r.key = key)) with
  | some i => { s with ckpt := { s.ckpt with rin := s.ckpt.rin.eraseIdx i } }
  | none => s

/-- A job-ending code of the runtime: its record and the halt (R83, Table 17.1). -/
def endJob (s : State) (id cls code : Nat) : State :=
  haltCtx (raiseEvent s 24 (mkRec 0 cls 0x200 code id (getC s id).step 0) none true) id code none

/-- A job ends with no further checkpoint committed (R86, R268). -/
def endJobSealed (s : State) (id cls code : Nat) : State := endJob (modC s id (fun c => { c with noCommit := true })) id cls code

end Sys2Proof.Machine
end

