-- ==== Sys2Proof/Machine/Capture.lean ====
section
/-! DEFINITION. The capture instant (R319 to R325), the step digests (R316), step timing (R311), and stream inputs taking
effect (R201, R296): what a step point does beside moving its workers on. -/

namespace Sys2Proof.Machine

open Sys2Proof

/-! ### Byte ranges of context memory -/

/-- Pages `[a, b]` are written: DIRTY set, ZERO cleared. -/
def touchPages (c : Context) (a n : Nat) : Context := (List.range n).foldl (fun c i => touchPage c (a + i)) c

/-- Stores a byte string at a context-virtual address. -/
def writeRange (c : Context) (a : Nat) (bs : List Byte) : Context :=
  if bs = [] then c
  else touchPages { c with vmem := wrBytes c.vmem a bs } (a / pageBytes) ((a + bs.length - 1) / pageBytes + 1 - a / pageBytes)

/-- Bytes `[off, off + n)` of the instance of tensor `t` on die `die`. -/
def tensorRead (c : Context) (die t off n : Nat) : List Byte := rdBytes c.vmem (tensorBase c (500 * die) t + off) n

/-- Whether a write to a page waits: for the Ladle's copy where it is protected (R151), or for its remap (R153). -/
def pageWaits (c : Context) (p : Nat) : Bool := pageProtected c p || c.gBad.any (fun g => decide (g * 32 / pageBytes = p))

/-- Pages of a byte range. -/
def rangePages (a n : Nat) : List Nat :=
  if n = 0 then [] else (List.range ((a + n - 1) / pageBytes + 1 - a / pageBytes)).map (fun i => a / pageBytes + i)

/-- Whether a byte range of the context meets a page whose writes wait. -/
def rangeHeld (c : Context) (a n : Nat) : Bool := (rangePages a n).any (pageWaits c)

/-- Pages of a range that are protected become held. -/
def holdRange (s : State) (id a n : Nat) : State :=
  (rangePages a n).foldl (fun s p => if pageProtected (getC s id) p then holdPage s id p else s) s

/-- A unit that is no cluster stores a byte string in a context's memory (R145, R151). -/
def storeRange (s : State) (id a : Nat) (bs : List Byte) : State :=
  modC (streamWrite s (getC s id) a bs.length) id (fun c => writeRange c a bs)

/-- Whether a byte range holds a granule with an uncorrectable error. -/
def rangeBad (c : Context) (a n : Nat) : Bool := c.gBad.any (fun g => decide (g * 32 < a + n ∧ a < g * 32 + 32))

/-! ### Protected state (R322, R323) -/

/-- Pages of every instance of tensor `t` that lies in stacked memory: 4,000 of a spilled L0 tensor, 8 of an L1 tensor. -/
def instancePages (c : Context) (t : Nat) : List Nat :=
  match tensorOf c t with
  | none => []
  | some d =>
    let n := pagedBytes d / pageBytes
    if tensorLevel c t = 0 then []
    else (List.range ((if d.level = 0 then 4000 else if d.level = 1 then 8 else 1) * n)).map (fun i => tensorBase c 0 t / pageBytes + i)

/-- Whether tensor `t` is in protected state. -/
def isCkpt (c : Context) (t : Nat) : Bool := ((tensorOf c t).map (·.ckpt)).getD false

/-- The protected pages of a context's tensors, ascending by tensor (R322). -/
def ckptPages (c : Context) : List Nat :=
  (List.range (modOf c).tensors.length).flatMap (fun t => if isCkpt c t then instancePages c t else [])

/-- Whether tensor `t` goes into the workers' save areas: an L0 tensor with CKPT that lies in the scratchpad. A spilled one is captured with its pages
(DEDUCED, log entry 88). -/
def inSaveArea (c : Context) (t : Nat) : Bool := isCkpt c t && decide (tensorLevel c t = 0)

/-- Save-area pages of one worker: its 112 KiB record and its L0 tensors with CKPT (R323). -/
def savePagesEach (c : Context) : Nat :=
  roundUp (114688 + spaceBefore c (modOf c).tensors.length (fun i d => if inSaveArea c i then tensorBytes d else 0)) pageBytes
    / pageBytes

/-- Halves of a binding: half index die × 2 + half (R192). -/
def bindHalves (b : Binding) : List Nat :=
  match b.kind with
  | 0 => [b.die * 2 + b.half]
  | 1 => [b.die * 2, b.die * 2 + 1]
  | _ => [0, 1, 2, 3]

/-- Whether a half serves an armed plant stream (R195). -/
def plantOn (s : State) (h : Nat) : Bool :=
  (List.range 256).any (fun n => decide (rd s (0xC01E00 + n) ≠ 0 ∧ rd s (0xC01500 + n) % 4 = h))

/-- Halves of the context's targets that serve no armed plant stream. -/
def savedHalves (s : State) (c : Context) : List Nat := (c.binds.flatMap bindHalves).filter (fun h => !plantOn s h)

/-- Pages that the resident areas of the context's targets take in the save area: 8 MiB per half. -/
def residentPages (s : State) (c : Context) : Nat := 128 * (savedHalves s c).length

/-- Save-area pages by VPAGE (R323). -/
def savePages (s : State) (c : Context) : List Nat :=
  (List.range (4000 * savePagesEach c + residentPages s c)).map (fun i => 0x80000000 + i)

/-! ### Whether and what to capture -/

/-- The context of the device's job: the one that runs, else the lowest. -/
def jobCtx (s : State) : Option Nat := match runningId s with | some id => some id | none => (liveIds s).head?

/-- Whether captures are enabled on the device (R320). -/
def captureEnabled (s : State) : Bool :=
  decide (rd s 0x800100 ≠ 0 ∧ s.wen.ckptKey ≠ 0 ∧ (rd s 0x800200 ≠ 0xFFFF ∨ rd s 0x800300 = 1))

/-- Whether the step point that opens ordinal `k` is a capture point (R320). -/
def capturePoint (s : State) (c : Context) (k : Nat) : Bool :=
  c.workers.any (fun p => decide (p.2.run = .atStep true)) || decide (k ∈ s.ckpt.pending)

/-- Spool slots of a context that wait for an acknowledgement. -/
def spoolOf (s : State) (id : Nat) : List SpoolSlot :=
  (s.ckpt.spool.flatMap (fun p => p.2)).filter (fun x => decide (x.ctx = id))

/-- Steps 1 and 2 of Table 14.2: every page record of the previous generation is acknowledged, and no problem of the
context runs or waits. -/
def captureReady (s : State) (id : Nat) : Bool :=
  (match (getC s id).capture with | some p => p.todo.isEmpty && (spoolOf s id).isEmpty | none => true)
    && s.solv.queues.all (fun q => (match q.2.running with | some r => decide (r.2.ctx ≠ id) | none => true)
      && q.2.waiting.all (fun p => decide (p.ctx ≠ id)))

/-- Grade A (GRADE 0x1002:04). -/
def gradeA (s : State) : Bool := decide (rd s 0x100204 = 0x41)

/-- Bytes of a page record (R329). -/
def recordBytes : Nat := 65616

/-- Journal capacity of the buddy slot (R333). -/
def journalCap (s : State) : Nat := if gradeA s then 64 * 2 ^ 30 else 32 * 2 ^ 30

/-- Most bytes of protected state that a device captures (R322). -/
def captureCap (s : State) : Nat := if gradeA s then 448 * 2 ^ 30 else 224 * 2 ^ 30

/-- The pages a capture takes (R324). -/
def takenPages (c : Context) (full : Bool) : List Nat :=
  (ckptPages c).filter (fun p => full || (pageFlags c p).getLsbD 14)

/-- The dirty reason that step 4 of Table 14.2 finds; 0 when the capture fits (R322, R334). -/
def fitReason (s : State) (c : Context) (full : Bool) : Nat :=
  if captureCap s < ((ckptPages c).length + (savePages s c).length) * pageBytes then 0x0801
  else if !full && decide (journalCap s < s.ckpt.unfolded.foldl (fun n p => n + p.2) 0
      + ((takenPages c full).length + (savePages s c).length) * recordBytes) then 0x0802
  else 0

/-- Whether the generation is stored, and stored full (R337). -/
def storedFull (s : State) (gen : Nat) (full : Bool) : Bool :=
  decide (rd s 0x800300 = 1) && (full || decide (s.ckpt.lastStored = 0) || decide (gen % rd s 0x800302 = 0))

/-- The capture record of a generation with the pages listed. -/
def newCapture (s : State) (c : Context) (gen step salt : Nat) (full : Bool) (reason : Nat) (pages only : List Nat) : Capture :=
  { gen := gen, step := step, salt := salt, full := full, stored := decide (rd s 0x800300 = 1),
    storedFull := storedFull s gen full,
    prevGen := if storedFull s gen full ∨ rd s 0x800300 ≠ 1 then 0 else s.ckpt.lastStored,
    pages := pages, storeOnly := only, todo := pages ++ only ++ (if reason = 0 then savePages s c else []),
    count := pages.length + only.length + (if reason = 0 then (savePages s c).length else 0), recs := [], reason := reason,
    voted := false, decided := false }

/-- Step 6 of Table 14.2: each page taken is protected, cleaned and listed. -/
def protectPages (c : Context) (ps : List Nat) : Context := ps.foldl (fun c p => clearDirty (setProtect c p true) p) c

/-! ### The flush of a reclaim (R340) -/

/-- The buddy slot is pushed to BUDDY_HANDOFF, one line of each record at a time, or record by record to storage. -/
def pushSlot (s : State) : State :=
  let dest := rd s 0x802003
  let m := masterId 0 0x201
  (s.ckpt.buddy.image ++ s.ckpt.buddy.journal).foldl (fun s r =>
    if dest = 0xFFFF then sendRoce s ((jobCtx s).getD 0) (rdBytes s.ckpt.buddy.raw r.base recordBytes)
    else (List.range 513).foldl (fun s i =>
      let bs := rdBytes s.ckpt.buddy.raw (r.base + 128 * i) 128
      let p := rpkt 0 dest (buddyBase s + r.base + 128 * i) 0 m (i % 64)
      sendPkt s 4 0x02 dest m (some { p with mask := BitVec.ofNat 128 (2 ^ 128 - 1), data := BitVec.ofNat 1024 (leNat bs) }) none) s) s

/-- A loan that this device has lent is released (R159). -/
def releaseLent (s : State) : State :=
  let s := wr (wr s 0x303002 0xFFFF) 0x303003 0
  { s with pkg := { s.pkg with loanKey := none, lent := [] }, fab := { s.fab with loanMem := [] } }

/-- A reclaim goes on to its flush: the buddy slot is handed off, and the lent loan is released (Table 14.8). -/
def startFlush (s : State) : State := releaseLent (pushSlot (wr s 0x802001 2))

/-- Generations of a context that may still be decided: the newest, and earlier ones that its capture found undecided. -/
def undecided (c : Context) : List Capture := (c.prior ++ c.capture.toList).filter (fun g => !g.decided)

/-- The capture instant on this device (Table 14.2), taken at the step point that opens ordinal `step`. -/
def capture (s : State) (id step salt costNs : Nat) : State :=
  let gen := rd s 0x800101
  let s := flushSieves (wr s 0x800101 (gen + 1)) (fun _ e => decide (e.ctx = id))
  let c := getC s id
  let full := c.fullNext
  let reason := fitReason s c full
  let pages := if reason = 0 then takenPages c full else []
  let only := if reason = 0 ∧ storedFull s gen full = true then (ckptPages c).filter (· ∉ pages) else []
  let cap := newCapture s c gen step salt full reason pages only
  let c' := ewr (eincr (protectPages c (pages ++ only)) 0x801100 (costNs * ticksPerNs)) 0x801000 2
  let c' := { c' with capture := some cap, prior := undecided c, fullNext := if reason = 0 then false else full,
                      saves := ⟨gen, step, c.workers, c.seed, (savedHalves s c).map (tget [] s.solv.resident)⟩ :: c.saves }
  let s := setC s id c'
  let s := if rd s 0x802001 = 1 then startFlush s else s
  { s with ckpt := { s.ckpt with
      lastStored := if cap.stored then gen else s.ckpt.lastStored,
      unfolded := if full ∨ reason ≠ 0 then s.ckpt.unfolded
        else s.ckpt.unfolded ++ [(gen, (cap.count - cap.storeOnly.length) * recordBytes)] } }

/-- CAPTURE_STATE of a context whose capture point passes as a plain step point (R320). -/
def captureDisabled (s : State) (id : Nat) : State := modC s id (fun c => ewr c 0x801000 0)

/-! ### Step digests (R316) -/

/-- Digest of a byte string: 8-byte little-endian words, the last padded with zeros. -/
def digestWords (d : BitVec 64) (bs : List Byte) : BitVec 64 :=
  ((List.range ((bs.length + 7) / 8)).foldl (fun d i => mix (d ^^^ BitVec.ofNat 64 (field bs (8 * i) 8))) d)

/-- Where a component's digest starts. -/
def digestStart (k : Nat) : BitVec 64 := mix ((0x4A534E4400000000 : BitVec 64) ^^^ BitVec.ofNat 64 k)

/-- Bytes of DIGEST_TENSOR sub-index `k`: the L2 instance, or the L1 instances of CD0 to CD7; none for 0xFFFF. -/
def digestTensor (c : Context) (k : Nat) : List Byte :=
  let t := erd c (0x900300 + k)
  match tensorOf c t with
  | none => []
  | some d =>
    if d.level = 2 then tensorRead c 0 t 0 (tensorBytes d)
    else if d.level = 1 then (List.range 8).flatMap (fun i => tensorRead c i t 0 (tensorBytes d))
    else []

/-- OUTPUT bytes of the step, by declaration. -/
def stepOutputs (c : Context) : List Byte :=
  (c.souts.mergeSort (fun a b => decide (a.1 ≤ b.1))).flatMap (fun p => p.2)

/-- Plant answer payloads of the step, by stream and then period. -/
def plantOutputs (c : Context) : List Byte :=
  (c.outDigest.mergeSort (fun a b => decide (a.1 < b.1 ∨ (a.1 = b.1 ∧ a.2.1 ≤ b.2.1)))).flatMap (fun p => p.2.2)

/-- The ten digests. -/
def digests (c : Context) : List (BitVec 64) :=
  let asw := (List.range 4000).foldl (fun d i => mix (d ^^^ ((getW c i).asw.setWidth 64))) (digestStart 0)
  let out := digestWords (digestStart 1) (stepOutputs c ++ plantOutputs c)
  asw :: out :: (List.range 8).map (fun k => digestWords (digestStart (k + 2)) (digestTensor c (k + 1)))

/-- The bytes of ten digests. -/
def digestBytes (ds : List (BitVec 64)) : List Byte := ds.flatMap (fun d => natLe 8 d.toNat)

/-- First component whose digest differs from the logged one: component, expected, found. -/
def firstDiff (logged : List Byte) (ds : List (BitVec 64)) : Option (Nat × Nat × Nat) :=
  ((List.range 10).map (fun i => (i, field logged (8 * i) 8, (ds.getD i 0).toNat))).find? (fun x => decide (x.2.1 ≠ x.2.2))

/-- DIVERGENCE (Table 13.7). -/
def divergence (step comp rank e f : Nat) : Nat :=
  leNat (natLe 4 step ++ natLe 1 comp ++ natLe 3 0 ++ natLe 4 rank ++ natLe 4 0 ++ natLe 8 e ++ natLe 8 f)

/-- The digests of the step point that opens ordinal `k` are computed, reported and logged; a replay compares them
(R316). -/
def stepDigest (s : State) (id k : Nat) : State :=
  let c := getC s id
  let every := erd c 0x900300
  if every = 0 ∨ k % every ≠ 0 then s
  else
    let ds := digests c
    let bs := digestBytes ds
    let s := setC s id (ewr c 0x900309 (leNat (natLe 4 k ++ natLe 4 0 ++ bs)))
    let s := logInput s id 0x09 k 0 0 bs
    if replaying s id then
      let s := if rd s 0x900104 = 0 then s else putReplay s id 0x09 k 0 0 bs
      match s.ckpt.rin.find? (fun r => decide (r.type = 0x09 ∧ r.step = k)) with
      | none => s
      | some r =>
        match firstDiff r.data ds with
        | none => s
        | some d =>
          endJob (modC s id (fun c => ewr c 0x900400 (divergence k d.1 c.rank d.2.1 d.2.2))) id 0x0F 0x0904
    else s

/-! ### Step timing (R311) -/

/-- The highest refresh multiplier in force. -/
def maxRefresh (s : State) : Nat := (List.range 16).foldl (fun m i => max m (rd s (0x300301 + i))) 0

/-- Stacks throttled now. -/
def hotStacks (s : State) : List Nat := (List.range 16).filter (fun i => decide (rd s (0x300401 + i) = 1))

/-- STEP_TIMING (Table 13.7) of the step that ends. -/
def stepTiming (s : State) (c : Context) : Nat :=
  leNat (natLe 4 c.step ++ natLe 4 0 ++ natLe 8 (s.ptpNs - c.stepStartNs) ++ natLe 4 c.evRetries
    ++ natLe 1 (max c.evRefresh (maxRefresh s)) ++ natLe 1 (min 255 c.evRetrain) ++ natLe 1 (min 255 c.evSlices)
    ++ natLe 1 (c.evHot ++ (hotStacks s).filter (fun i => decide (i ∉ c.evHot))).length ++ natLe 8 0)

/-- Run time and the counts of a step begin again. -/
def startStepClock (s : State) (c : Context) : Context :=
  { c with stepStartNs := s.ptpNs, evRetries := 0, evRetrain := 0, evSlices := 0, evRefresh := maxRefresh s,
           evHot := hotStacks s }

/-- RUN_US of the context takes in the time since its step started (Table 6.8). -/
def accountRun (s : State) (c : Context) : Context := eincr c 0x302000 ((s.ptpNs - c.stepStartNs) * ticksPerNs)

/-- A timing event counts against the step of the running context. -/
def countEvent (s : State) (f : Context → Context) : State :=
  match runningId s with
  | some id => if isRunning (getC s id) then modC s id f else s
  | none => s

/-! ### Stream inputs (R201, R296, R454) -/

/-- A period number as an FP64 value (R201). -/
def periodF64 (k : Nat) : Nat := if k = 0 then 0 else (encodeNum .fp64 .rne (.fin false k 0)).1

/-- The input of a kind 3 declaration of stream `n`: the latest closed period and the vector of its number and latched
values, as many as the tensor holds; none before the first window closes (R201). -/
def plantInput (s : State) (n elems : Nat) : Option (Nat × List Byte) :=
  let p := tget Plant.off s.plants n
  p.closed.map (fun k => (k, (List.range (min elems (1 + rd s (0xC01900 + n)))).flatMap (fun i =>
    natLe 8 (if i = 0 then periodF64 k else (tget 0 p.values (i - 1)).toNat))))

/-- A declared input takes effect: its bytes fill the tensor from the start, and SIN may return it. -/
def takeInput (s : State) (id decl tensor : Nat) (bs : List Byte) : State :=
  modC (storeRange s id (tensorBase (getC s id) 0 tensor) bs) id (fun c => { c with inputs := (decl, c.step) :: c.inputs })

/-- An input that meets a page whose writes wait is held, and takes effect when its SIN is next presented (R151, R153). -/
def inputOrHold (s : State) (id tensor : Nat) (bs : List Byte) (go : State → State) : State :=
  let a := tensorBase (getC s id) 0 tensor
  if rangeHeld (getC s id) a bs.length then holdRange s id a bs.length else go s

/-- Opcode, payload and status of a logged COMMAND record (Table 13.5): a 16-byte header, the payload, the status. -/
def loggedCmd (r : ReplayRec) : Nat × List Byte × Nat :=
  ((r.data.getD 2 0).toNat * 256 + (r.data.getD 3 0).toNat, (r.data.drop 16).take (r.data.length - 18),
    field r.data (r.data.length - 2) 2)

/-- Payloads of the logged INPUT commands of declaration `i` that take effect at step ordinal `k` (R315). -/
def loggedInputs (s : State) (i k : Nat) : List (List Byte) :=
  (s.ckpt.rin.filter (fun r => decide (r.type = 0x02 ∧ r.step = k ∧ (loggedCmd r).1 = 0x0020 ∧ (loggedCmd r).2.2 = 0
    ∧ field (loggedCmd r).2.1 0 2 = i))).map (fun r => (loggedCmd r).2.1)

/-- The bytes of an input that was logged, once one of its commands carries LAST. -/
def replayInput (s : State) (i k n : Nat) : Option (List Byte) :=
  let ps := loggedInputs s i k
  if ps.any (fun p => decide (field p 2 1 % 2 = 1)) then
    some (rdBytes (ps.foldl (fun (m : Mem) p => wrBytes m (field p 8 8) (p.drop 16)) []) 0 n)
  else none

/-- What the current ordinal's input of a kind 1 declaration holds, when it is complete (R296, R315). -/
def commandInput (s : State) (id i tensor : Nat) : Option (List Byte) :=
  let c := getC s id
  let n := ((tensorOf c tensor).map tensorBytes).getD 0
  if replaying s id then replayInput s i c.step n
  else (c.shadows.find? (fun x => decide (x.decl = i ∧ x.step = c.step ∧ x.last = true))).map (fun x => rdBytes x.data 0 n)

/-- Whether a replay's next logged period of declaration `i` is the one now latched (R315). -/
def plantTurn (s : State) (id i k : Nat) : Bool :=
  !replaying s id || (match findReplay s 0x04 i with | some r => decide (field r.data 0 8 = k) | none => false)

/-- The input of declaration `i` for the current ordinal takes effect where it is complete (R85, R201, R296). In a
replay it comes from the log (R315). -/
def fetchInput (s : State) (id i : Nat) : State :=
  let c := getC s id
  match (modOf c).streams[i]? with
  | none => s
  | some d =>
    if (i, c.step) ∈ c.inputs then s
    else if d.kind = 1 then
      match commandInput s id i d.tensor with
      | none => s
      | some bs => inputOrHold s id d.tensor bs (fun s =>
        modC (takeInput s id i d.tensor bs) id (fun c' =>
          { c' with shadows := c'.shadows.filter (fun y => !decide (y.decl = i ∧ y.step = c.step)) }))
    else if d.kind = 3 then
      match plantInput s d.id (((tensorOf c d.tensor).map tensorElems).getD 0) with
      | none => s
      | some (k, bs) =>
        if plantTurn s id i k then inputOrHold s id d.tensor bs (fun s =>
          let s := if replaying s id then dropReplay s 0x04 i else s
          logInput (takeInput s id i d.tensor bs) id 0x04 c.step i 0 (natLe 8 k))
        else s
    else s

/-- Every declared input of the ordinal that has just opened. -/
def fetchInputs (s : State) (id : Nat) : State :=
  (List.range (modOf (getC s id)).streams.length).foldl (fun s i => fetchInput s id i) s

/-- Bulk reads that ended in the step take effect (Table 13.5). -/
def applyBulk (s : State) (id : Nat) : State :=
  let c := getC s id
  modC (c.bulkIn.foldl (fun s b => storeRange s id (tensorBase c 0 b.1 + b.2.1) b.2.2) s) id (fun c => { c with bulkIn := [] })

/-- The first bulk read of the step whose write waits (R151, R153): address and length. -/
def bulkWaits (c : Context) : Option (Nat × Nat) :=
  (c.bulkIn.find? (fun b => rangeHeld c (tensorBase c 0 b.1 + b.2.1) b.2.2.length)).map
    (fun b => (tensorBase c 0 b.1 + b.2.1, b.2.2.length))

/-- Logged bulk reads of the step before ordinal `k` write their tensors in a replay: the BULK command's record names
the tensor and the offset. -/
def replayBulk (s : State) (id k : Nat) : State :=
  (s.ckpt.rin.filter (fun r => decide (r.type = 0x06 ∧ r.step + 1 = k))).foldl (fun s r =>
    match s.ckpt.rin.find? (fun q => decide (q.type = 0x02 ∧ q.key = r.key)) with
    | none => s
    | some q =>
      let p := (loggedCmd q).2.1
      storeRange s id (tensorBase (getC s id) 0 (field p 8 2) + field p 16 8) r.data) s

/-- The seed in effect from ordinal `k`: the value written last, or the logged one in a replay (R57, R315). A change is
logged. -/
def stepSeed (s : State) (id k : Nat) : State :=
  let s := if replaying s id then
      match s.ckpt.rin.find? (fun r => decide (r.type = 0x08 ∧ r.step = k)) with
      | some r => modC s id (fun c => ewr c 0x901000 (field r.data 0 8))
      | none => s
    else s
  let c := getC s id
  let v := erd c 0x901000
  if c.seed = v then s else logInput (setC s id { c with seed := v }) id 0x08 k 0 0 (natLe 8 v)

end Sys2Proof.Machine
end

