-- ==== Sys2Proof/Machine/Replica.lean ====
section
/-! DEFINITION. Replica regions at a step point (R248, R249) and the remote-line caches (R246). -/

namespace Sys2Proof.Machine

open Sys2Proof

/-! ### Lines -/

/-- The 128 bytes of a line. -/
def lineOf (m : Mem) (a : Nat) : BitVec 1024 := BitVec.ofNat 1024 (leNat (rdBytes m a 128))

/-- The bytes of a line of data. -/
def lineBytes (d : BitVec 1024) : List Byte := natLe 128 d.toNat

/-! ### Remote-line caches (R246) -/

/-- Drops, on every die, the lines of a context that a test names; each drop is counted. -/
def dropLines (s : State) (id : Nat) (c : Context) (p : RlcLine → Bool) : State × Context :=
  let out := fun (l : RlcLine) => decide (l.ctx = id) && p l
  ({ s with fab := { s.fab with rlc := s.fab.rlc.filter (fun l => !out l) } }, eincr c 0x407202 (s.fab.rlc.filter out).length)

/-! ### Capacity -/

/-- Bytes of the context area that a context takes: its tensors but for those at a ring peer, the spilled L0 instances, the shadow copies of its
kind 1 declarations, and the replica copies it holds. -/
def contextUse (c : Context) : Nat :=
  ctxPages c * pageBytes - spaceBefore c (modOf c).tensors.length (fun i d => if lowerOf c i = 3 then
      (if d.level = 0 then 4000 else if d.level = 1 then 8 else 1) * pagedBytes d else 0)
    + shadowPages c * pageBytes
    + c.replicas.foldl (fun n r => n + min r.copies (c.n - 1) * (((tensorOf c r.tensor).map pagedBytes).getD 0)) 0

/-- Bytes that every live context takes, and those lent to a ring peer (LEND_GIB). -/
def areaUse (s : State) : Nat :=
  s.ctxs.foldl (fun n p => if p.2.live then n + contextUse p.2 else n) (rd s 0x303003 * 2 ^ 30)

/-- Bytes of the context area (CTX_AREA_GIB). -/
def areaCap (s : State) : Nat := rd s 0x300101 * 2 ^ 30

/-! ### Declarations (R248) -/

/-- The regions that one worker declared between the two step points. -/
def declsOf (c : Context) (cl : Nat) : List Replica := (c.replDecl.filter (fun p => decide (p.1 = cl))).map (fun p => p.2)

/-- The regions in force after a declaration: a second one on the same tensor replaces the first. -/
def putReplica (rs : List Replica) (r : Replica) : List Replica :=
  if rs.any (fun x => decide (x.tensor = r.tensor)) then rs.map (fun x => if x.tensor = r.tensor then r else x) else rs ++ [r]

/-- Outcome of the declarations at a step point. -/
inductive ReplRes where
  | keep
  | fail (code : Nat)
  | declare (rs : List Replica)

/-- Checks the step's declarations: every worker's are equal, and the regions fit (R248). Whether the workers of the job's other devices declared
the same, and whether every other holder has room, is a free value (log entry 94). -/
def replCheck (s : State) (c : Context) : State × ReplRes :=
  if c.replDecl = [] then (s, .keep)
  else
    let d := if 1 < c.n then drawNat s else (0, s)
    let ds := declsOf c 0
    if (List.range 4000).any (fun i => decide (declsOf c i ≠ ds)) ∨ d.1 % 4 = 1 then (d.2, .fail 0x0308)
    else
      let rs := ds.foldl putReplica c.replicas
      if 16 < rs.length ∨ areaCap s < areaUse s - contextUse c + contextUse { c with replicas := rs } ∨ d.1 % 4 = 2 then
        (d.2, .fail 0x0307)
      else (d.2, .declare rs)

/-! ### Holders and fills (R249) -/

/-- Ranks that hold copies of rank `r`'s instance. -/
def holders (c : Context) (r copies : Nat) : List Nat :=
  let k := min copies (c.n - 1)
  let d := max 1 (c.n / (k + 1))
  (List.range k).map (fun j => (r + (j + 1) * d) % c.n)

/-- Lines of the instance of tensor `t` of this device, by context-virtual offset. -/
def tensorLines (c : Context) (t : Nat) : List Nat :=
  match tensorOf c t with
  | none => []
  | some d => (List.range ((tensorBytes d + 127) / 128)).map (fun i => tensorBase c 0 t + 128 * i)

/-- Sends one line of this device's instance to a holder. A line with an uncorrectable error is never passed on (R153). -/
def sendFill (s : State) (id : Nat) (c : Context) (device line : Nat) : State :=
  if rangeBad c line 128 then s
  else sendPkt s 4 0x06 device 0
    (some { rpkt 3 (ownId s) line id (masterId 30 0x200) 0 with data := lineOf c.vmem line }) none

/-- This device sends its instance of a region to every holder. -/
def fillCopies (s : State) (id : Nat) (r : Replica) : State :=
  let c := getC s id
  (holders c c.rank r.copies).foldl (fun s h =>
    (tensorLines c r.tensor).foldl (fun s l => sendFill s id c (deviceOf c h) l) s) s

/-- The regions declared in the step take effect: lines held here of a region declared anew are dropped, and this
device fills the copies of its own instance. -/
def declareReplicas (s : State) (id : Nat) (rs : List Replica) : State :=
  let c := getC s id
  let fresh : List Nat := c.replDecl.map (fun p => p.2.tensor)
  let stale := fun (l : ReplLine) => fresh.any (fun t => decide (l.line ∈ tensorLines c t))
  let s := setC s id { c with replicas := rs, replDecl := [], replLines := c.replLines.filter (fun l => !stale l) }
  (rs.filter (fun r => decide (r.tensor ∈ fresh))).foldl (fun s r => fillCopies s id r) s

end Sys2Proof.Machine
end

