-- ==== Sys2Proof/Machine/Sync.lean ====
section
/-! DEFINITION. Flags, barriers, streams and step points (R84 to R86, R454): END, RDTIME, FSET, FWAIT, FRD, BAR, SIN, SOUT,
STEP, CKPT and STEP_POINT_RELEASE. -/

namespace Sys2Proof.Machine

open Sys2Proof

/-! ### RDTIME -/

/-- The time RDTIME reads: PTP nanoseconds rounded down to a multiple of 1,000 (R361). -/
def coarseNs (s : State) : Nat := s.ptpNs / 1000 * 1000

/-- Key of a worker's RDTIME records (Table 13.5). -/
def rdtimeKey (c : Context) (cl : Nat) (k : Worker) : Nat := (4000 * c.rank + cl) * 2 ^ 32 + k.pc

/-- RDTIME: the device's PTP time, logged by a recording device (R312); in a replay the logged value, for which it waits
(R315). -/
def execRdtime (w : Cluster) (d : SReg) (s : State) : Out :=
  .next (issue s w 0 (fun s id c k =>
    let key := rdtimeKey c w k
    if replaying s id then
      match findReplay s 0x07 key with
      | none => if s.ckpt.rinEnd then .halt s c k 0x0905 0x0F 0x0905 0 none else .wait s c k .replay
      | some r => .done (dropReplay s 0x07 key) c (setS k d (BitVec.ofNat 64 (field r.data 0 8)))
    else
      let t := coarseNs s
      .done (logInput s id 0x07 c.step key 0 (natLe 8 t)) c (setS k d (BitVec.ofNat 64 t))))

/-! ### Flags -/

/-- Whether the worker has remote requests or flags outstanding (R245). -/
def remoteBusy (k : Worker) : Bool := !(k.rpend.isEmpty && k.slots.isEmpty && k.flags.isEmpty)

/-- Whether line requests of the worker are unanswered. -/
def linesOut (k : Worker) : Bool := !(k.rpend.isEmpty && k.slots.isEmpty)

/-- FSET: adds to a flag of the worker on cluster s[A] of this device. It releases every earlier write of the worker, so
it waits for remote reads that have yet to write their views and for remote writes that are not acknowledged (R72). The range check
of R83 comes before that wait (DESIGN CHOICE, log entry 85). -/
def execFset (w : Cluster) (a : SReg) (inc : Fin 256) (flag : Fin 64) (s : State) : Out :=
  .next (issue s w 0 (fun s _ c k => replicaGuard s c k (
    let target := (getS k a).toNat
    if 4000 ≤ target then operandHalt s c k codeOperandRange
    else if linesOut k then .wait s c k .remote
    else if target = w.val then .done s c (addF k flag inc)
    else .done s (setW c target (addF (getW c target) flag inc)) k)))

/-- FWAIT: waits until the worker's own flag is at least s[A], both unsigned. -/
def execFwait (w : Cluster) (a : SReg) (flag : Fin 64) (s : State) : Out :=
  .next (issue s w 0 (fun s _ c k =>
    if (getF k flag).toNat < (getS k a).toNat then .wait s c k .flag else .done s c k))

/-- FRD: s[D] := own flag. -/
def execFrd (w : Cluster) (d : SReg) (flag : Fin 64) (s : State) : Out :=
  .next (issue s w 0 (fun s _ c k => .done s c (setS k d (getF k flag))))

/-! ### Barriers -/

/-- Clusters in the scope of a barrier on this device. -/
def barScope (cl : Nat) : Scope → List Nat
  | .die => (List.range 500).map (fun i => dieOf cl * 500 + i)
  | _ => List.range 4000

/-- Workers of a scope leave their barrier; a job barrier drops every remote line of the context (R246). -/
def leaveBar (s : State) (id cl : Nat) (sc : Scope) : State :=
  let c := (barScope cl sc).foldl (fun c i => setW c i (advance { getW c i with run := .running } 0)) (getC s id)
  let r := if sc = .job then dropLines s id c (fun _ => true) else (s, c)
  setC r.1 id r.2

/-- Whether every worker of this device stands at a barrier of the job. -/
def allAtBar (c : Context) : Bool := (List.range 4000).all (fun i => decide ((getW c i).run = .atBar .job))

/-- Every other member of the job hears on VC6 that this device's workers have all arrived (Table 9.4). -/
def tellMembers (s : State) (c : Context) (m : Ctl) : State :=
  (List.range c.n).foldl (fun s r => if r = c.rank then s else sendMsg s 6 (deviceOf c r) m) s

/-- A barrier opens once every worker in its scope has reached it. Whether the workers of the job's other devices have is
a free value at each presentation (log entry 17). -/
def tryBar (s : State) (id cl : Nat) (sc : Scope) : State :=
  let c := getC s id
  if (barScope cl sc).all (fun i => decide ((getW c i).run = .atBar sc)) then
    if sc = .job ∧ 1 < c.n then
      let r := drawNat s
      if r.1 % 2 = 0 then leaveBar r.2 id cl sc else r.2
    else leaveBar s id cl sc
  else s

/-- What a step point or barrier waits for: work that the worker has issued and that has not completed (R85, R245). -/
def drainWait (k : Worker) (griddle : Bool) : Option WaitWhy :=
  if griddle && griddleBusy k then some .griddle
  else if !k.wf.isEmpty then some .whisk
  else if remoteBusy k then some .remote
  else none

/-- BAR: the worker waits at the barrier. A worker that stands there already is looked at again. -/
def execBar (w : Cluster) (scope : Scope) (s : State) : Out :=
  .next (match runningId s with
  | none => s
  | some id =>
    let c₀ := getC s id
    let s := issue s w 0 (fun s _ c k => replicaGuard s c k (
      match drainWait k false with
      | some y => .wait s c k y
      | none => .jump s c { k with run := .atBar scope }))
    let c := getC s id
    let s := if allAtBar c && !allAtBar c₀ then tellMembers s c (.barrier id c.step) else s
    if isRunning (getC s id) && decide ((getW (getC s id) w).run = .atBar scope) then tryBar s id w scope else s)

/-! ### Streams -/

/-- A whole tensor as a view. -/
def wholeView (c : Context) (t : Nat) : View :=
  let n := ((tensorOf c t).map tensorElems).getD 0
  ⟨t, 1, n, 0, 1, 0⟩

/-- The declaration of an op that names one of the kinds `ks`; another never passes load (R79). -/
def declOf (c : Context) (i : Nat) (ks : List Nat) : Option StreamDecl :=
  match (modOf c).streams[i]? with
  | some d => if d.kind ∈ ks then some d else none
  | none => none

/-- SIN on a declaration whose input is in its tensor: elements move in order (R454). -/
def sinMove (s : State) (c : Context) (cl : Nat) (k : Worker) (vd : View) (t : Nat) : OpRes :=
  let vt := wholeView c t
  let n := min (viewCount vd) (viewCount vt)
  match viewClash c k [vt] [vd] with
  | some y => .wait s c k y
  | none =>
    if destHeld c cl vd n then pageWait s c cl k vd n []
    else moveGo s c cl k ((viewFmt c vd).getD .fp64) [(vt, List.range n, false, false), (vd, List.range n, true, false)] (fun s c =>
      let r := writeElems c cl k vd 0 ((List.range n).map (readElem c cl k vt))
      .done s r.1 (markReplica r.1 r.2 vd.tensor))

/-- Whether a replay's log has ended without the input that a SIN on declaration `i` needs (R315). -/
def logEnded (s : State) (id i kind : Nat) : Bool :=
  replaying s id && s.ckpt.rinEnd && (decide (kind = 1) || (findReplay s 0x04 i).isNone)

/-- SIN: waits for the step's input of the declaration; then v[D] takes it (R454). -/
def execSin (w : Cluster) (d : VReg) (decl : Fin 4096) (s : State) : Out :=
  .next (match runningId s with
  | none => s
  | some id =>
    let s := if mayIssue (getC s id) (getW (getC s id) w) then fetchInput s id decl else s
    issue s w 0 (fun s id c k =>
      match declOf c decl [1, 3] with
      | none => operandHalt s c k codeOperandRange
      | some sd =>
        let vd := getV k d
        if !(viewCount vd = 0 || decide (viewFmt c vd = (tensorOf c sd.tensor).map (·.fmt))) then
          operandHalt s c k codeOperandRange
        else if (decl.val, c.step) ∉ c.inputs then
          if logEnded s id decl.val sd.kind then .halt s c k 0x0905 0x0F 0x0905 0 none else .wait s c k .input
        else if viewCount vd = 0 then .done s c k
        else sinMove s c w k vd sd.tensor))

/-- OUTPUT datagrams of at most 8,176 data bytes; the last carries LAST (R296). -/
def sendOutput (s : State) (stream decl step : Nat) (bs : List Byte) : State :=
  let n := max 1 ((bs.length + 8175) / 8176)
  (List.range n).foldl (fun s i =>
    (sendDg s false stream 0x8001 (natLe 2 decl ++ natLe 2 (if i + 1 = n then 1 else 0) ++ natLe 4 step
      ++ natLe 8 (8176 * i) ++ (bs.drop (8176 * i)).take 8176)).1) s

/-- Bytes of a list of elements of a format. -/
def packElems (f : Fmt) (xs : List Nat) : List Byte :=
  let n := xs.foldr (fun x n => n * 2 ^ fmtBits f + x % 2 ^ fmtBits f) 0
  natLe ((xs.length * fmtBits f + 7) / 8) n

/-- The step's output leaves: OUTPUT datagrams for kind 2, a parameter block for kind 4 (R201, R296). -/
def emitOutput (s : State) (id : Nat) (c : Context) (decl : Nat) (sd : StreamDecl) (bs : List Byte) (xs : List Nat) :
    State × Context :=
  if sd.kind = 2 then
    let c := { c with outs := (c.outs.filter (fun o => decide (o.decl ≠ decl))) ++ [⟨decl, c.step, bs⟩],
                      souts := c.souts ++ [(decl, bs)] }
    let e := getStream s false sd.id
    (if e.state ≠ 0 ∧ e.ctx = id then sendOutput s sd.id decl c.step bs else s, c)
  else
    let p := tget Plant.off s.plants sd.id
    ({ s with plants := tset Plant.off s.plants sd.id { p with param := some (xs.map (BitVec.ofNat 64)) } },
      { c with souts := c.souts ++ [(decl, bs)] })

/-- SOUT: v[A] leaves as this step's output of the declaration, and its tensor keeps the elements (R454). -/
def execSout (w : Cluster) (decl : Fin 4096) (a : VReg) (s : State) : Out :=
  .next (issue s w 0 (fun s id c k =>
    let va := getV k a
    match declOf c decl [2, 4] with
    | none => operandHalt s c k codeOperandRange
    | some sd =>
      let vt := wholeView c sd.tensor
      let n := viewCount va
      if n = 0 then .done s c k
      else if viewFmt c va ≠ (tensorOf c sd.tensor).map (·.fmt) ∨ viewCount vt < n then operandHalt s c k codeOperandRange
      else match viewClash c k [va] [vt] with
        | some y => .wait s c k y
        | none =>
          if destHeld c w vt n then pageWait s c w k vt n []
          else moveGo s c w k ((viewFmt c va).getD .fp64) [(va, List.range n, false, false), (vt, List.range n, true, false)] (fun s c =>
            let xs := readView c w k va
            let bs := packElems ((viewFmt c va).getD .fp64) xs
            let r := writeElems c w k vt 0 xs
            let o := emitOutput s id r.1 decl sd bs xs
            .done o.1 o.2 (markReplica o.2 r.2 sd.tensor))))

/-! ### Step points (R85, R86) -/

/-- Whether a worker stands at a step point, or has passed its last. -/
def atStepPoint (k : Worker) : Bool :=
  match k.run with
  | .atStep _ => true
  | .atEnd => true
  | .ended => true
  | _ => false

/-- Whether every worker of this device stands at a step point. -/
def allAtStep (c : Context) : Bool := (List.range 4000).all (fun i => atStepPoint (getW c i))

/-- Whether a worker of the context has ended: it reached its last step point (R86). -/
def someEnded (c : Context) : Bool := c.workers.any (fun p => decide (p.2.run = .ended))

/-- A worker reaches a step point once its issued work has completed; with the device's last one the other members hear of it. Where another worker has ended, this one waits at
an ordinal that the other never reaches: STEP_COUNT_MISMATCH (R86). -/
def reachStep (s : State) (w : Cluster) (r : RunState) : State :=
  match runningId s with
  | none => s
  | some id =>
    let c₀ := getC s id
    let s := issue s w 0 (fun s _ c k => replicaGuard s c k (
      match drainWait k true with
      | some y => .wait s c k y
      | none => .jump s c { k with run := r }))
    let c := getC s id
    let s := if allAtStep c && !allAtStep c₀ then tellMembers s c (.stepReached id (c.step + 1)) else s
    if isRunning (getC s id) && decide ((getW (getC s id) w).run = r) && someEnded (getC s id) then endJobSealed s id 0x0F 0x0105
    else s

/-- END: the worker reaches its last step point. -/
def execEndOp (w : Cluster) (s : State) : Out := .next (reachStep s w .atEnd)

/-- STEP: the worker reaches a step point. -/
def execStepOp (w : Cluster) (s : State) : Out := .next (reachStep s w (.atStep false))

/-- CKPT: the worker reaches a step point at which a checkpoint is declared. -/
def execCkptOp (w : Cluster) (s : State) : Out := .next (reachStep s w (.atStep true))

/-- A worker resumes after a step point; one at END has ended. The stochastic-rounding op ordinal restarts (R56). -/
def resumeWorker (k : Worker) : Worker :=
  match k.run with
  | .atStep _ => { advance k 0 with run := .running, srOrd := 0 }
  | .atEnd => { k with run := .ended, srOrd := 0 }
  | _ => k

/-- The step-point effects on the context: the ordinal advances, the collective and conversion ordinals restart, cached remote lines drop,
bulk reads take effect, and the runtime changes what placement it will (R85, R160, R246, R268). -/
def openStep (s : State) (id : Nat) : State :=
  let c := getC s id
  let c := ewr (accountRun s c) 0x900500 (stepTiming s c)
  let c := startStepClock s { c with step := c.step + 1, collSeq := 0, inputs := [], souts := [], outDigest := [] }
  let r := dropLines s id c (fun _ => true)
  movePlacement (applyBulk (setC r.1 id r.2) id) id

/-- The context's module has ended: one NOTICE MODULE_END on the stream of RUN. A HALT that waited for a step point
completes. -/
def endModule (s : State) (id : Nat) : State :=
  let c := getC s id
  sendNotice (setC s id { c with modState := .ended }) c.runStream 1 0

/-- A HALT completes: its module is halted (Table 12.10). The halt code its streams report is one the spec does not
name: a free value (log entry 18). -/
def haltAtStep (s : State) (id stream : Nat) : State :=
  let bs := s.eth.busy.filter (fun b => decide (b.mgmt = false ∧ b.stream = stream))
  let s := { s with eth := { s.eth with busy := s.eth.busy.filter (fun b => !decide (b.mgmt = false ∧ b.stream = stream)) } }
  let s := endBusy s bs 0 0
  let r := drawNat s
  let code := r.1 % 2 ^ 32
  modC (haltStreams r.2 id code none) id (fun c => { c with modState := .halted code, haltStream := none })

/-- Every worker moves on. -/
def resumeAll (c : Context) : Context := { c with workers := c.workers.map (fun p => (p.1, resumeWorker p.2)) }

/-- A scheduled switch takes effect at this step point: the context waits until it is scheduled again (R357). -/
def pauseModule (s : State) (id : Nat) : State :=
  match s.pkg.switchTo with
  | some (t, 0) => modC { s with pkg := { s.pkg with switchTo := some (t, 1) } } id
      (fun c => if c.modState = .running then { c with modState := .paused } else c)
  | _ => s

/-- The last part of a step point: the module ends, halts, or gives way to another context, or every worker resumes. -/
def closeStep (s : State) (id : Nat) : State :=
  let s := applyOp (modC s id resumeAll)
  let c := getC s id
  match c.haltStream with
  | some st => haltAtStep s id st
  | none => if c.workers.all (fun p => decide (p.2.run = .ended)) then pauseModule (endModule s id) id else pauseModule s id

/-- The effects of the step point that opens ordinal `k`, all together (R85 step 3), with the capture where it is one. -/
def stepEffects (s : State) (id k salt costNs : Nat) : State :=
  let cap := capturePoint s (getC s id) k
  let s := { s with ckpt := { s.ckpt with pending := s.ckpt.pending.filter (· ≠ k) } }
  let s := stepSeed (openStep s id) id k
  let s := fetchInputs (if replaying s id then replayBulk s id k else s) id
  let s := if cap then (if captureEnabled s then capture s id k salt costNs else captureDisabled s id) else s
  closeStep s id

/-- STEP_POINT_RELEASE: every worker of the job has reached the step ordinal, and the effects take hold together. It waits
for steps 1 and 2 of a capture instant (Table 14.2). `salt` is what the device draws for a capture (R329), `costNs` the
time of capture steps 1 to 6. -/
def execStepPointRelease (salt costNs : Nat) (s : State) : Out :=
  .next (match runningId s with
  | none => s
  | some id =>
    let c := getC s id
    if !(isRunning c && allAtStep c) || sliceHolds s then s
    else if someEnded c then endJobSealed s id 0x0F 0x0105
    else if capturePoint s c (c.step + 1) && captureEnabled s && !captureReady s id then s
    else match bulkWaits c with
    | some r => holdRange s id r.1 r.2
    | none =>
      let s := stepDigest s id (c.step + 1)
      if !isRunning (getC s id) then s
      else match replCheck s (getC s id) with
        | (s, .fail code) => endJob s id 0x04 code
        | (s, .keep) => stepEffects s id (c.step + 1) salt costNs
        | (s, .declare rs) => stepEffects (declareReplicas s id rs) id (c.step + 1) salt costNs)

end Sys2Proof.Machine
end

