-- ==== Sys2Proof/Machine/Remote.lean ====
section
/-! DEFINITION. Remote ops of this device's workers (R234 to R252, R259 to R261): RREAD, RWRITE, RWRITEF, RWRITEC, RINV,
RREPL, the answers READ_RESP, WRITE_ACK, FLAG_ACK, INV_ACK and REFUSAL, REMOTE_TIMEOUT and REMOTE_DEAD_NOTICE's effect. -/

namespace Sys2Proof.Machine

open Sys2Proof

/-! ### Lines of a view (R240) -/

/-- Lines of the first `n` elements of a view, in the order of each line's first element. -/
def viewLines (c : Context) (cl : Nat) (v : View) (n : Nat) : List Nat :=
  ((List.range n).map (fun i => (viewPlace c cl v i).addr / 128 * 128)).eraseDups

/-- Mask and data of the elements of the remote view `v` that lie in a line; `xs` are their bits. Bytes outside the mask,
and a nibble beside an INT4 element, are free. -/
def lineData (c : Context) (cl : Nat) (v : View) (xs : List Nat) (line : Nat) (free : Nat) : BitVec 128 × BitVec 1024 :=
  (List.range xs.length).foldl (fun acc i =>
    let p := viewPlace c cl v i
    if p.addr / 128 * 128 = line then
      let o := p.addr - line
      let b := if p.bits = 4 then (if p.high then 8 * o + 4 else 8 * o) else 8 * o
      let m : BitVec 1024 := BitVec.ofNat 1024 ((2 ^ p.bits - 1) * 2 ^ b)
      (acc.1 ||| BitVec.ofNat 128 ((2 ^ placeBytes p - 1) * 2 ^ o),
        (acc.2 &&& ~~~ m) ||| BitVec.ofNat 1024 (xs.getD i 0 % 2 ^ p.bits * 2 ^ b))
    else acc) (0, BitVec.ofNat 1024 free)

/-- The elements of a line that has arrived go into the local view; the remote view says which they are. -/
def fillLine (c : Context) (cl : Nat) (k : Worker) (src dst : View) (line : Nat) (data : BitVec 1024) : Context × Worker :=
  let m : Mem := wrBytes [] line (lineBytes data)
  (List.range (min (viewCount src) (viewCount dst))).foldl (fun ck i =>
    let p := viewPlace c cl src i
    if p.addr / 128 * 128 = line then writeElem ck.1 cl ck.2 dst i (memElem m p) else ck) (c, k)

/-! ### Issue of requests (R242, R243) -/

/-- Requests that have been sent and not answered. -/
def sentReqs (k : Worker) : List RReq := k.slots.filterMap (fun p => p.2)

/-- Whether a request writes. -/
def isWrite (r : RReq) : Bool := decide (r.kind = .write ∨ r.kind = .writec)

/-- Whether an earlier write of the worker to the request's line is unacknowledged (R242). -/
def lineBlocked (k : Worker) (r : RReq) : Bool :=
  decide (r.kind ≠ .inv) && (sentReqs k ++ k.rpend).any (fun q =>
    isWrite q && decide (q.seq < r.seq ∧ q.dest = r.dest ∧ q.line = r.line))

/-- The lowest free slot (R242). -/
def freeSlot (k : Worker) : Option Nat := findBelow 64 (fun i => (tget none k.slots i).isNone)

/-- The packet of a request. -/
def reqPacket (id cl slot : Nat) (r : RReq) : RPkt :=
  let p := rpkt r.space r.device r.line id (masterId (dieOf cl) (cl % 500)) slot
  { p with mask := r.mask, data := r.data }

/-- Packet kind of a request (Table 10.3). -/
def reqKind : RKind → Nat
  | .read => 0x01
  | .write => 0x02
  | .writec => 0x03
  | .inv => 0x05

/-- Device a request is sent to: the holder chosen for a replica read, else its target. `via` is that holder. -/
def sendReq (s : State) (id cl slot : Nat) (r : RReq) (via : Nat) : State :=
  sendPkt s 1 (reqKind r.kind) via (masterId (dieOf cl) (cl % 500)) (some (reqPacket id cl slot r)) none

/-- How near a device is (R249): itself, its ring, its group, elsewhere. -/
def nearness (own d : Nat) : Nat :=
  if d = own then 0 else if d / 8 = own / 8 then 1 else if d / 256 = own / 256 then 2 else 3

/-- The nearest of some ranks, ties to the lowest rank. -/
def nearest (c : Context) (own : Nat) (rs : List Nat) : Option Nat :=
  (rs.mergeSort (fun a b => decide (a ≤ b))).foldl (fun best r =>
    match best with
    | none => some r
    | some q => if nearness own (deviceOf c r) < nearness own (deviceOf c q) then some r else some q) none

/-- The device that serves a replica read of rank `home`'s instance (R249). -/
def replicaHost (s : State) (c : Context) (home copies : Nat) : Nat :=
  match nearest c (ownId s) (home :: holders c home copies) with
  | some r => deviceOf c r
  | none => deviceOf c home

/-- The replica region of a context that a context-virtual offset lies in. -/
def regionAt (c : Context) (off : Nat) : Option Replica :=
  c.replicas.find? (fun r => match tensorOf c r.tensor with
    | some d => decide (tensorBase c 0 r.tensor ≤ off ∧ off < tensorBase c 0 r.tensor + tensorBytes d)
    | none => false)

/-- Rank of a device in the context's job. -/
def rankOf (c : Context) (device : Nat) : Option Nat := c.ids.findIdx? (· = device)

/-- Where a request is sent first. -/
def reqVia (s : State) (c : Context) (r : RReq) : Nat :=
  if r.space = 3 ∧ r.kind = .read then
    match regionAt c r.line, rankOf c r.device with
    | some g, some h => replicaHost s c h g.copies
    | _, _ => r.dest
  else r.dest

/-- A request of a worker has failed: the worker halts, its outstanding lines end with no data and its held flags are
never sent (R260). -/
def failReq (s : State) (id cl : Nat) (c : Context) (k : Worker) (code device addr : Nat) : State :=
  haltWorker s id cl (ewr c 0x407002 (failRecord code device cl addr).toNat) { k with rpend := [], slots := [], flags := [] } code 0x04 code 0 none

/-- Sends what the worker's slots and the order of its accesses allow, one request at a time; `fuel` bounds the number.
A request to a device named dead ends at issue (Table 10.7). -/
def pumpReqs (fuel : Nat) (s : State) (id cl : Nat) (c : Context) (k : Worker) : State :=
  match fuel with
  | 0 => setC s id (setW c cl k)
  | fuel + 1 =>
    match k.rpend.find? (fun r => !lineBlocked k r), freeSlot k with
    | some r, some slot =>
      let via := reqVia s c r
      if via ∈ s.fab.dead then
        failReq s id cl c k 0x0302 via (rpkt r.space r.device r.line 0 0 0).addr.toNat
      else
        let k' := { k with rpend := k.rpend.filter (fun q => decide (q.seq ≠ r.seq)),
                           slots := tset none k.slots slot (some { r with dest := via }) }
        let c' := eincr (eincr c 0x407100 1) 0x407101 ((s.ptpNs - r.since) * ticksPerNs)
        pumpReqs fuel (sendReq s id cl slot r via) id cl c' k'
    | _, _ => setC s id (setW c cl k)

/-- Whether the first held flag may be sent: every earlier write and flag of the worker is acknowledged (R243). -/
def flagReady (k : Worker) : Option HeldFlag :=
  match k.flags with
  | h :: _ => if h.sent || (sentReqs k ++ k.rpend).any (fun q => isWrite q && decide (q.seq < h.seq)) then none else some h
  | [] => none

/-- Sends the first held flag when it may be sent. -/
def pumpFlag (s : State) (id cl : Nat) : State :=
  let c := getC s id
  let k := getW c cl
  match flagReady k with
  | none => s
  | some h =>
    if h.device ∈ s.fab.dead then failReq s id cl c k 0x0302 h.device (rpkt 2 h.device (h.cluster * 64 + h.flag) 0 0 0).addr.toNat
    else
      let m := masterId (dieOf cl) (cl % 500)
      let s := setC s id (setW c cl { k with flags := { h with sent := true } :: k.flags.drop 1 })
      sendPkt s 6 0x04 h.device m
        (some { rpkt 2 h.device (h.cluster * 64 + h.flag) id m 0 with inc := h.inc }) none

/-- Everything of the worker that may now be sent. -/
def pump (s : State) (id cl : Nat) : State :=
  let c := getC s id
  let k := getW c cl
  pumpFlag (if k.rpend = [] then s else pumpReqs k.rpend.length s id cl c k) id cl

/-- Presents a remote op, then sends what may be sent. -/
def remoteOp (s : State) (w : Cluster) (ext : Nat) (f : State → Nat → Context → Worker → OpRes) : State :=
  match runningId s with
  | none => s
  | some id => pump (issue s w ext f) id w

/-- The worker with requests for some lines appended. -/
def addReqs (s : State) (k : Worker) (rs : List RReq) : Worker :=
  { k with rseq := k.rseq + rs.length,
           rpend := k.rpend ++ (rs.zipIdx).map (fun p => { p.1 with seq := k.rseq + p.2, since := s.ptpNs }) }

/-- Whether the remote side of an op lies in a scratchpad, which no other device reaches (R235; log entry 19). -/
def remoteL0 (c : Context) (v : View) : Bool := decide (viewCount v ≠ 0) && decide (homeLevel c v = 0)

/-! ### RREAD -/

/-- Whether a read of the view's tensor allocates in the remote-line cache (R246). -/
def readAllocates (c : Context) (v : View) : Bool :=
  decide (((tensorOf c v.tensor).map (·.hint)).getD 0 ≠ 0) && (replicaOf c v.tensor).isNone

/-- A cached line: a hit needs the context that loaded it (R246). -/
def cachedLine (s : State) (id die device line : Nat) : Option RlcLine :=
  s.fab.rlc.find? (fun l => decide (l.die = die ∧ l.ctx = id ∧ l.device = device ∧ l.line = line))

/-- Elements of two views that lie in a line of the first: those that a line which arrives fills. -/
def lineElems (c : Context) (cl : Nat) (src dst : View) (line : Nat) : List Nat :=
  (List.range (min (viewCount src) (viewCount dst))).filter (fun i => decide ((viewPlace c cl src i).addr / 128 * 128 = line))

/-- A read in progress: the machine, its context and worker, and the requests it makes. -/
structure Reading where
  s  : State
  c  : Context
  k  : Worker
  rs : List RReq

/-- One line of an RREAD: served from the die's remote-line cache, or a request. A line to which the worker has an unacknowledged write is
not served from the cache (R242). -/
def readLine (id cl device : Nat) (src dst : View) (x : Reading) (line : Nat) : Reading :=
  let replica := (replicaOf x.c src.tensor).isSome
  let al := readAllocates x.c src
  let r : RReq := ⟨.read, x.k.rseq, if replica then 3 else 1, device, device, line, 0, 0, src, dst, al, 0⟩
  match if replica || lineBlocked x.k r then none else cachedLine x.s id (dieOf cl) device line with
  | some l =>
    let sc := viewAccess x.s (eincr x.c 0x407200 1) cl dst (lineElems x.c cl src dst line) true false
    let f := fillLine sc.2 cl x.k src dst line l.data
    { x with s := { sc.1 with fab := { sc.1.fab with rlc := l :: sc.1.fab.rlc.filter (fun q => !decide (q = l)) } },
             c := f.1, k := markReplica f.1 f.2 dst.tensor }
  | none => { x with c := if al then eincr x.c 0x407201 1 else x.c, rs := x.rs ++ [r] }

/-- RREAD: local v[D] := v[A] on the device of rank s[B]; element i takes element i for every i that both views have
(log entry 19). Workers of a replica region's home read their own instance directly (R250). -/
def execRread (w : Cluster) (d a : VReg) (b : SReg) (s : State) : Out :=
  .next (remoteOp s w 0 (fun s _ c k =>
    let vd := getV k d
    let va := getV k a
    let rank := (getS k b).toNat
    let n := min (viewCount va) (viewCount vd)
    if c.n ≤ rank ∨ remoteL0 c va = true then operandHalt s c k codeOperandRange
    else if n = 0 then .done s c k
    else match viewClash c k [] [vd] with
      | some y => .wait s c k y
      | none =>
        if destHeld c w vd n then pageWait s c w k vd n []
        else if rank = c.rank ∧ (replicaOf c va.tensor).isSome = true then
          moveGo s c w k ((viewFmt c vd).getD .fp64) [(va, List.range n, false, false), (vd, List.range n, true, false)] (fun s c =>
            let r := writeElems c w k vd 0 ((List.range n).map (readElem c w k va))
            .done s r.1 (markReplica r.1 r.2 vd.tensor))
        else
          let r := (viewLines c w va n).foldl (readLine (runCtx s) w (deviceOf c rank) va vd) ⟨s, c, k, []⟩
          .done r.s r.c (addReqs s r.k r.rs)))

/-! ### RWRITE, RWRITEC, RWRITEF -/

/-- A read on its way of a line that is dropped leaves nothing in the cache (R72, R246). -/
def forgetRead (device : Nat) (ls : List Nat) (r : RReq) : RReq :=
  if r.kind = .read ∧ r.dest = device ∧ r.line ∈ ls then { r with alloc := false } else r

/-- The worker whose reads of dropped lines allocate nothing. -/
def forgetReads (device : Nat) (ls : List Nat) (k : Worker) : Worker :=
  { k with rpend := k.rpend.map (forgetRead device ls), slots := k.slots.map (fun p => (p.1, p.2.map (forgetRead device ls))) }

/-- Some lines of a device leave the caches of every die, and no read on its way brings them back (R242, R246, R247). -/
def dropDevice (s : State) (c : Context) (device : Nat) (ls : List Nat) : State × Context :=
  dropLines s (runCtx s) (c.workers.foldl (fun c p => setW c p.1 (forgetReads device ls p.2)) c)
    (fun l => decide (l.device = device ∧ l.line ∈ ls))

/-- The requests of a remote write. -/
def writeReqs (s : State) (c : Context) (cl : Nat) (k : Worker) (kind : RKind) (device : Nat) (vd va : View) (n : Nat) : List RReq :=
  let xs := (List.range n).map (readElem c cl k va)
  (viewLines c cl vd n).map (fun l =>
    let x := lineData c cl vd xs l (Config.freeNat s.freeIdx)
    ⟨kind, 0, 1, device, device, l, x.1, x.2, vd, va, false, 0⟩)

/-- A remote write of v[D] on the device of rank s[B] from local v[A]. `flag` is the increment that follows it. -/
def remoteWrite (s : State) (w : Cluster) (ext : Nat) (kind : RKind) (d a : VReg) (b : SReg)
    (flag : Option (Nat × Nat × Nat)) : State :=
  remoteOp s w ext (fun s _ c k =>
    let guard := fun r => if flag.isSome then replicaGuard s c k r else r
    guard (
    let vd := getV k d
    let va := getV k a
    let rank := (getS k b).toNat
    let n := min (viewCount va) (viewCount vd)
    let range := match flag with | some f => decide (4000 ≤ f.1) | none => false
    if c.n ≤ rank ∨ range = true ∨ remoteL0 c vd = true then operandHalt s c k codeOperandRange
    else if flag.isSome ∧ 8 ≤ (k.flags.filter (fun h => !h.sent)).length then .wait s c k .flags
    else match viewClash c k [va] [] with
      | some y => .wait s c k y
      | none =>
        moveGo s c w k ((viewFmt c va).getD .fp64) [(va, List.range n, false, false)] (fun s c =>
          let device := deviceOf c rank
          let r := writeReqs s c w k kind device vd va n
          let d := dropDevice s c device (viewLines c w vd n)
          let k := addReqs s (forgetReads device (viewLines c w vd n) k) r
          let k := match flag with
            | some f => { k with rseq := k.rseq + 1, flags := k.flags ++ [⟨k.rseq, device, f.1, f.2.1, f.2.2, false⟩] }
            | none => k
          .done { d.1 with freeIdx := s.freeIdx + 1 } d.2 k)))

/-- RWRITE. -/
def execRwrite (w : Cluster) (d a : VReg) (b : SReg) (s : State) : Out := .next (remoteWrite s w 0 .write d a b none)

/-- RWRITEF: as RWRITE, then a flag increment, held until everything earlier is acknowledged (R243). -/
def execRwritef (w : Cluster) (d a : VReg) (b : SReg) (target : Fin 4096) (flag : Fin 64) (inc : Fin 256) (s : State) : Out :=
  .next (remoteWrite s w 1 .write d a b (some (target, flag, inc)))

/-- RWRITEC: as RWRITE, through the Sieve. -/
def execRwritec (w : Cluster) (d a : VReg) (b : SReg) (s : State) : Out := .next (remoteWrite s w 0 .writec d a b none)

/-! ### RINV and RREPL -/

/-- The form of RINV that drops every replica: REPL_INV for the view's lines to every holder of this device's copies
(R251); the region's replica-written bit clears (R252). -/
def invReplicas (s : State) (c : Context) (cl : Nat) (k : Worker) (va : View) : OpRes :=
  match replicaOf c va.tensor with
  | none => .done s c k
  | some i =>
    let g := c.replicas.getD i ⟨0, 0⟩
    let hs := (holders c c.rank g.copies).map (deviceOf c)
    let rs := hs.flatMap (fun h => (viewLines c cl va (viewCount va)).map (fun l =>
      (⟨.inv, 0, 3, ownId s, h, l, 0, 0, va, View.empty, false, 0⟩ : RReq)))
    .done s c { addReqs s k rs with replBits := k.replBits.filter (· ≠ i) }

/-- RINV: drops cached copies of the lines of v[A] for rank s[B] (R247), or every replica of them for s[B] all ones. -/
def execRinv (w : Cluster) (a : VReg) (b : SReg) (s : State) : Out :=
  .next (remoteOp s w 0 (fun s _ c k =>
    let va := getV k a
    let rank := (getS k b).toNat
    if getS k b = BitVec.allOnes 64 then invReplicas s c w k va
    else if c.n ≤ rank ∨ remoteL0 c va = true then operandHalt s c k codeOperandRange
    else
      let ls := viewLines c w va (viewCount va)
      let d := dropDevice s c (deviceOf c rank) ls
      .done d.1 d.2 (forgetReads (deviceOf c rank) ls k)))

/-- RREPL: declares tensor A a replica region from the next step point (R248). Copies outside 1-8 never pass load, and a
tensor that is not an L2 tensor halts (log entry 15). -/
def execRrepl (w : Cluster) (tensor : Fin 4096) (copies : Fin 16) (s : State) : Out :=
  if copies.val = 0 ∨ 8 < copies.val then .refused (.reservedEncoding "RREPL")
  else .next (issue s w 0 (fun s _ c k =>
    if ((tensorOf c tensor).map (·.level)) = some 2 then
      .done s { c with replDecl := c.replDecl ++ [(w.val, ⟨tensor, copies⟩)] } k
    else operandHalt s c k codeOperandRange))

/-! ### Answers -/

/-- The logical cluster that a returned master ID names. -/
def masterCluster (m : Nat) : Nat := m / 1024 * 500 + m % 1024

/-- Whether a response is accepted: it arrives on its VC, reserved bits are zero, and the epoch is this device's own (R216, R237). -/
def admitAnswer (s : State) (f : Flit) (p : RPkt) (vcs : List Nat) : State × Bool :=
  if packetArrives s f vcs = false then (s, false)
  else if f.resv ∨ 4096 ≤ p.ctx ∨ 64 ≤ p.tag ∨ p.inc ≠ 0 ∨ p.mask ≠ 0 then (incr s 0x407402 1, false)
  else if f.epoch ≠ rd s 0x400200 % 65536 then (incr s 0x406000 1, false)
  else (s, true)

/-- Failure code of a STATUS (Table 10.7). -/
def statusCode : Nat → Nat
  | 1 => 0x0303
  | 2 => 0x0304
  | _ => 0x0305

/-- An answer to a line that a stack controller has sent to a lender (R159): a refusal ends the borrowing job as one of a worker's requests ends (R260). What
a read brings back is the context's own line, which the model holds. -/
def peerAnswer (s : State) (p : RPkt) : State := if p.status = 0 then s else endJob s p.ctx 0x04 (statusCode p.status)

/-- The request that an answer names, with the state after the flit is admitted. -/
def answer (s : State) (f : Flit) (p : RPkt) (vcs : List Nat) (kinds : List RKind) (ok : State → Nat → Nat → Context → Worker → RReq → State) :
    State :=
  let a := admitAnswer s f p vcs
  if !a.2 then a.1
  else
    let s := a.1
    let cl := masterCluster p.master
    let c := getC s p.ctx
    let k := getW c cl
    if p.master % 1024 = 0x210 then peerAnswer s p
    else match tget none k.slots p.tag with
    | none => s
    | some r =>
      if r.kind ∉ kinds ∨ 500 ≤ p.master % 1024 then s
      else if p.status ≠ 0 then failReq s p.ctx cl c k (statusCode p.status) r.dest p.addr.toNat
      else ok s p.ctx cl c { k with slots := tset none k.slots p.tag none } r

/-- A line that a read allocates joins the cache of the worker's die: 2,048 sets of 8 ways, least recently used out
(R246). The set is the line number's low 11 bits (log entry 20). -/
def allocLine (s : State) (id die device line : Nat) (data : BitVec 1024) : State :=
  let same := fun (l : RlcLine) => decide (l.die = die ∧ l.line / 128 % 2048 = line / 128 % 2048)
  let keep := (s.fab.rlc.filter (fun l => same l && !decide (l.ctx = id ∧ l.device = device ∧ l.line = line))).take 7
  { s with fab := { s.fab with rlc := ⟨die, id, device, line, data⟩ :: (s.fab.rlc.filter (fun l => !same l || decide (l ∈ keep))) } }

/-- READ_RESP: the line's bytes go into the local view (R240); a refusal fails the request (R260). -/
def execReadResp (f : Flit) (p : RPkt) (s : State) : Out :=
  .next (answer s f p [2] [.read] (fun s id cl c k r =>
    let sc := viewAccess s c cl r.dst (lineElems c cl r.src r.dst r.line) true false
    let x := fillLine sc.2 cl k r.src r.dst r.line p.data
    let s := if r.alloc then allocLine sc.1 id (dieOf cl) r.device r.line p.data else sc.1
    pump (setC s id (setW x.1 cl (markReplica x.1 x.2 r.dst.tensor))) id cl))

/-- FLAG_ACK: the first flag sent is acknowledged, and the next may follow (R243). -/
def flagAck (s : State) (f : Flit) (p : RPkt) (vcs : List Nat) : State :=
  let a := admitAnswer s f p vcs
  if !a.2 then a.1
  else
    let s := a.1
    let cl := masterCluster p.master
    let c := getC s p.ctx
    let k := getW c cl
    match k.flags with
    | h :: rest =>
      if !h.sent ∨ 500 ≤ p.master % 1024 then s
      else if p.status ≠ 0 then failReq s p.ctx cl c k (statusCode p.status) h.device p.addr.toNat
      else pump (setC s p.ctx (setW c cl { k with flags := rest })) p.ctx cl
    | [] => s

/-- FLAG_ACK. -/
def execFlagAck (f : Flit) (p : RPkt) (s : State) : Out := .next (flagAck s f p [6])

/-- INV_ACK: one holder has dropped one line (R251). -/
def execInvAck (f : Flit) (p : RPkt) (s : State) : Out :=
  .next (answer s f p [2] [.inv] (fun s id cl c k _ => pump (setC s id (setW c cl k)) id cl))

/-- REMOTE_TIMEOUT: no response to the request in `slot`, or to the flag that has been sent (R259). -/
def execRemoteTimeout (w : Cluster) (slot : Fin 65) (s : State) : Out :=
  .next (match runningId s with
  | none => s
  | some id =>
    let c := getC s id
    let k := getW c w
    if slot.val = 64 then
      match k.flags with
      | h :: _ =>
        if h.sent then failReq s id w c k 0x0301 h.device (rpkt 2 h.device (h.cluster * 64 + h.flag) 0 0 0).addr.toNat else s
      | [] => s
    else match tget none k.slots slot with
      | some r => failReq s id w c k 0x0301 r.dest (rpkt r.space r.device r.line 0 0 0).addr.toNat
      | none => s)

/-- Requests of one worker to a dead device end at once (Table 10.7). -/
def deadWorker (s : State) (id cl device : Nat) : State :=
  let c := getC s id
  let k := getW c cl
  match (sentReqs k).find? (fun r => decide (r.dest = device)), k.flags.find? (fun h => h.sent && decide (h.device = device)) with
  | some r, _ => failReq s id cl c k 0x0302 device (rpkt r.space r.device r.line 0 0 0).addr.toNat
  | none, some h => failReq s id cl c k 0x0302 device (rpkt 2 device (h.cluster * 64 + h.flag) 0 0 0).addr.toNat
  | none, none => s

/-- The device is dead: every outstanding request to it ends, and later ones end at issue. -/
def deadRequests (s : State) (device : Nat) : State :=
  let s := { s with fab := { s.fab with dead := addOnce s.fab.dead device } }
  let s := (liveIds s).foldl (fun s id => modC s id (fun c => if c.lender = device then { c with peerLost := true } else c)) s
  (liveIds s).foldl (fun s id => ((getC s id).workers.map (fun p => p.1)).foldl (fun s cl => deadWorker s id cl device) s) s

end Sys2Proof.Machine
end

