-- ==== Sys2Proof/Machine/Target.lean ====
section
/-! DEFINITION. Remote packets at their target (R237 to R244, R249, R251) and the Sieve (R253 to R257): READ_REQ, WRITE_REQ,
WRITEC_REQ, FLAG_INC, REPL_INV, REPL_FILL, WRITE_ACK, REFUSAL, SIEVE_MERGE, SIEVE_WRITEBACK, SIEVE_RETIRE. -/

namespace Sys2Proof.Machine

open Sys2Proof

/-! ### Admission (R239) -/

/-- Access table entry of a master (Table 15.5). -/
def accessOf (s : State) (master : Nat) : BitVec 32 := tget 0 s.pkg.access master

/-- Master ID of the optical die's port that a flit came by. -/
def portMaster (p : Port) : Nat := masterId (30 + p.val / 4) (p.val % 4)

/-- Whether a page target admits a master for a context with a right: bit 0 read, 1 write (R360). -/
def pageAdmits (s : State) (master ctx right : Nat) : Bool :=
  let e := accessOf s master
  e.getLsbD 31 && e.getLsbD right && decide ((e >>> 24).toNat % 16 = 0) && !e.getLsbD 29
    && (e.getLsbD 30 || decide ((e >>> 12).toNat % 4096 = ctx))

/-- Whether a port's entry is in force for partition 0 with a right: the check that a page of the device's own meets (R360; log entry 95). -/
def portAdmits (s : State) (f : Flit) (right : Nat) : Bool :=
  let e := accessOf s (portMaster f.port)
  e.getLsbD 31 && e.getLsbD right && decide ((e >>> 24).toNat % 16 = 0)

/-- Whether the lender's side of a loan is active (R163). -/
def loanActive (s : State) : Bool := s.pkg.loanKey.isSome && Config.loanMatched (rd s 0x303002) (rd s 0x303003)

/-- Whether a device reaches a line of this device's own pages: the partner the buddy region, the borrower the pages lent. -/
def ownPages (s : State) (f : Flit) (off : Nat) : Bool :=
  decide (f.src = rd s 0x800201 ∧ buddyBase s ≤ off) || (decide (f.src = rd s 0x303002) && loanActive s && inLent s off)

/-- Outcome of the checks of R239: a STATUS, or admitted. -/
def admitReq (s : State) (f : Flit) (p : RPkt) (spaces : List Nat) (write : Bool) : State × Option Nat :=
  let sp := addrSpace p.addr
  let off := addrOffset p.addr
  let c := getC s p.ctx
  let mapped :=
    if sp = 0 then decide (off + 128 ≤ physBytes s)
    else if sp = 2 then decide (off / 64 < 4000)
    else decide (off < layoutPages (modOf c) * pageBytes)
  if sp ∉ spaces ∨ mapped = false ∨ (sp ≠ 2 ∧ off % 128 ≠ 0) then (s, some 2)
  else if sp = 0 then
    if ownPages s f off && portAdmits s f (if write then 1 else 0) then (s, none) else (incr s 0x705000 1, some 1)
  else if !(c.live && c.memKey.isSome && decide (f.src ∈ c.ids)) then (s, some 1)
  else if !pageAdmits s (portMaster f.port) p.ctx (if write then 1 else 0) then (incr s 0x705000 1, some 1)
  else if write && decide (sp ≠ 2) && (decide (sp = 3) || (regionAt c off).isSome) then (s, some 1)
  else (s, none)

/-- Whether the reserved fields of a request's payload are zero (R12, Table 10.4). -/
def reqReserved (p : RPkt) (mask inc : Bool) : Bool :=
  decide (4096 ≤ p.ctx) || decide (64 ≤ p.tag) || decide (p.status ≠ 0) || (!mask && decide (p.mask ≠ 0))
    || (!inc && decide (p.inc ≠ 0)) || (decide (addrSpace p.addr = 2) && decide (addrOffset p.addr / 2 ^ 18 ≠ 0))

/-- Sends the answer to a request: `flow` is that of the answering unit. -/
def respond (s : State) (f : Flit) (p : RPkt) (vc kind flow status : Nat) (data : BitVec 1024) : State :=
  sendPkt s vc kind f.src flow (some { p with status := status, inc := 0, mask := 0, data := data }) none

/-- A request at this device: it arrives on one of its VCs, then reserved bits, the epoch (R216), the checks of R239, then its effect. -/
def request (s : State) (f : Flit) (p : RPkt) (vcs spaces : List Nat) (write mask inc : Bool) (rvc rkind : Nat)
    (ok : State → State) : State :=
  if !packetArrives s f vcs then s
  else if f.resv || reqReserved p mask inc then incr s 0x407402 1
  else if f.epoch ≠ rd s 0x400200 % 65536 then
    respond (incr s 0x406000 1) f p 2 0x0C (f.port.val % 4) 3 0
  else
    match admitReq s f p spaces write with
    | (s, some st) => respond s f p rvc rkind (f.port.val % 4) st 0
    | (s, none) => ok s

/-- Flow of an answer from the stack controller of a line. -/
def lineFlow (s : State) (ctx off : Nat) : Nat := stackOf s (getC s ctx) off % 2

/-! ### Reads -/

/-- An uncorrectable error met by a reader that is no worker: a unit fault event; no data (R153). -/
def stackFault (s : State) (ctx off : Nat) : State :=
  let c := getC s ctx
  let g := ((c.gBad.find? (fun g => decide (g * 32 < off + 128 ∧ off < g * 32 + 32)))).getD (off / 32)
  let k := stackOf s c off
  unitFault s (k / 2) (0x210 + k % 2) ctx (some (.stackGranule (Fin.ofNat 16 k) ctx g)) 0

/-- A line of the device's own pages: of the buddy slot for the partner, which counts from the start of the buddy region, or of a loan. -/
def ownLine (s : State) (off : Nat) : BitVec 1024 :=
  if buddyBase s ≤ off then lineOf s.ckpt.buddy.raw (off - buddyBase s) else lineOf s.fab.loanMem off

/-- A request of a unit of this device that its access table denies: counted, and a unit fault event of that unit (R360). -/
def localDenied (s : State) (die unit ctx : Nat) : State := unitFault (incr s 0x705000 1) die unit ctx none 0

/-- A line of this device's memory answers a read. -/
def readAnswer (s : State) (f : Flit) (p : RPkt) : State :=
  let off := addrOffset p.addr
  let c := getC s p.ctx
  if rangeBad c off 128 then stackFault s p.ctx off
  else
    let r := remoteAccess s c off false
    respond (setC r.1 p.ctx r.2) f p 2 0x08 (lineFlow s p.ctx off) 0 (lineOf c.vmem off)

/-- A replica read at the home: it answers, and refills the copy that the reader is served from (R249). -/
def homeRead (s : State) (f : Flit) (p : RPkt) : State :=
  let s := readAnswer s f p
  let c := getC s p.ctx
  match regionAt c (addrOffset p.addr), rankOf c (ownId s) with
  | some g, some h =>
    match nearest c f.src (h :: holders c h g.copies) with
    | some r => if r = h then s else sendFill s p.ctx c (deviceOf c r) (addrOffset p.addr)
    | none => s
  | _, _ => s

/-- A replica read at a holder: the copy's line, or one forward to the home, whose HOPS counts from this device (R249; DESIGN CHOICE, log
entry 103). -/
def holderRead (s : State) (f : Flit) (p : RPkt) : State :=
  let c := getC s p.ctx
  let home := addrDevice p.addr
  match c.replLines.find? (fun l => decide (some l.home = rankOf c home ∧ l.line = addrOffset p.addr)) with
  | some l => respond s f p 2 0x08 (lineFlow s p.ctx l.line) 0 l.data
  | none =>
    routeFlit (modC s p.ctx (fun c => eincr c 0x407400 1)) { flitOf 1 0x01 home f.src f.epoch 1 f.flow with rp := some p }

/-- READ_REQ. -/
def execReadReq (f : Flit) (p : RPkt) (s : State) : Out :=
  .next (request s f p [1, 4] [0, 1, 3] false false false 2 0x08 (fun s =>
    if addrSpace p.addr = 0 then respond s f p 2 0x08 0 0 (ownLine s (addrOffset p.addr))
    else if addrSpace p.addr = 3 then (if addrDevice p.addr = ownId s then homeRead s f p else holderRead s f p)
    else readAnswer s f p))

/-! ### Writes -/

/-- The bytes of a line under a mask, by address. -/
def maskedBytes (line : Nat) (mask : BitVec 128) (data : BitVec 1024) : List (Nat × Byte) :=
  ((List.range 128).filter (fun i => mask.getLsbD i)).map (fun i => (line + i, (data >>> (8 * i)).setWidth 8))

/-- Stores a line's masked bytes in a memory. -/
def putMasked (m : Mem) (line : Nat) (mask : BitVec 128) (data : BitVec 1024) : Mem :=
  (maskedBytes line mask data).foldl (fun m b => wrByte m b.1 b.2) m

/-- A masked line write is taken in: DIRTY set (R151, R241). -/
def takeLine (c : Context) (line : Nat) (mask : BitVec 128) (data : BitVec 1024) : Context :=
  touchPage { c with vmem := putMasked c.vmem line mask data } (line / pageBytes)

/-- Acknowledges a write. -/
def ackWrite (s : State) (ctx src master tag line : Nat) (addr : BitVec 64) : State :=
  sendPkt s 2 0x09 src (lineFlow s ctx line) (some ⟨addr, ctx, master, tag, 0, 0, 0, 0⟩) none

/-- The Sieve of a line. -/
def sieveOf (s : State) (slice : Nat) : Sieve := tget Sieve.empty s.fab.sieves slice

/-- Replaces a Sieve. SIEVE_FULL_US counts while a queue has more stores than its 32 places, so that ports withhold
credits (R256). -/
def setSieve (s : State) (slice : Nat) (v : Sieve) : State :=
  let s := { s with fab := { s.fab with sieves := tset Sieve.empty s.fab.sieves slice v } }
  let full := s.fab.sieves.any (fun p => decide (32 < p.2.queue.length))
  match s.fab.sieveFull with
  | none => if full then { s with fab := { s.fab with sieveFull := some s.ptpNs } } else s
  | some t => if full then s
    else incr { s with fab := { s.fab with sieveFull := none } } 0x407302 ((s.ptpNs - t) * ticksPerNs)

/-- A store joins the queue of its line's Sieve. -/
def sievePush (s : State) (x : SieveStore) : State :=
  let k := sliceOf s (getC s x.ctx) x.line
  setSieve s k { sieveOf s k with queue := (sieveOf s k).queue ++ [x] }

/-- Whether a Sieve entry holds the line. -/
def sieveHolds (s : State) (ctx line : Nat) : Bool :=
  (sieveOf s (sliceOf s (getC s ctx) line)).entries.any (fun e => decide (e.ctx = ctx ∧ e.line = line))

/-- A record's head arrives in the buddy slot: the journal lists its page (R333, Table 14.4). -/
def buddyParse (b : BuddySlot) (off : Nat) : BuddySlot :=
  let base := off / 65664 * 65664
  if leNat (rdBytes b.raw base 4) = 0x44524350 then
    let gen := leNat (rdBytes b.raw (base + 4) 4)
    let vp := leNat (rdBytes b.raw (base + 12) 4)
    if b.journal.any (fun r => decide (r.gen = gen ∧ r.vpage = vp)) then b
    else { b with journal := b.journal ++ [⟨gen, vp, base⟩], inFlight := true }
  else b

/-- A write in space 0: into the buddy slot, or into a loan (R159, R326). -/
def physWrite (s : State) (off : Nat) (mask : BitVec 128) (data : BitVec 1024) : State :=
  let s := touchSys s off
  if buddyBase s ≤ off then
    let b := s.ckpt.buddy
    let at' := off - buddyBase s
    { s with ckpt := { s.ckpt with buddy := buddyParse { b with raw := putMasked b.raw at' mask data } at' } }
  else { s with fab := { s.fab with loanMem := putMasked s.fab.loanMem off mask data } }

/-- A line write is taken in at its home Pantry slice, and marks its page (R145, R241). -/
def takeRemote (s : State) (ctx line : Nat) (mask : BitVec 128) (data : BitVec 1024) : State :=
  let r := remoteAccess s (getC s ctx) line true
  setC r.1 ctx (takeLine r.2 line mask data)

/-- WRITE_REQ: taken into the line, or into its Sieve entry, and acknowledged; at a protected page it waits for the
Ladle's copy (R241, R254). -/
def execWriteReq (f : Flit) (p : RPkt) (s : State) : Out :=
  .next (request s f p [1, 4] [0, 1, 3] true true false 2 0x09 (fun s =>
    let off := addrOffset p.addr
    let c := getC s p.ctx
    if addrSpace p.addr = 0 then ackWrite (physWrite s off p.mask p.data) p.ctx f.src p.master p.tag off p.addr
    else if sieveHolds s p.ctx off then sievePush s ⟨p.ctx, off, p.mask, p.data, some (f.src, p.master, p.tag), some f.port.val⟩
    else if pageWaits c (off / pageBytes) then
      let s := if pageProtected c (off / pageBytes) then holdPage s p.ctx (off / pageBytes) else s
      { s with fab := { s.fab with held := s.fab.held
        ++ [⟨p.ctx, off / pageBytes, off, p.mask, p.data, f.src, p.master, p.tag, p.addr, s.ptpNs⟩] } }
    else ackWrite (takeRemote s p.ctx off p.mask p.data) p.ctx f.src p.master p.tag off p.addr))

/-- WRITEC_REQ: always through the Sieve (R253). -/
def execWritecReq (f : Flit) (p : RPkt) (s : State) : Out :=
  .next (request s f p [1] [1, 3] true true false 2 0x09 (fun s =>
    sievePush s ⟨p.ctx, addrOffset p.addr, p.mask, p.data, some (f.src, p.master, p.tag), some f.port.val⟩))

/-- Writes that waited for a page are taken in and acknowledged, in order of arrival; their waits count. -/
def releaseHeld (s : State) (ctx page : Nat) : State :=
  let hs := s.fab.held.filter (fun h => decide (h.ctx = ctx ∧ h.page = page))
  let s := { s with fab := { s.fab with held := s.fab.held.filter (fun h => !decide (h.ctx = ctx ∧ h.page = page)) } }
  hs.foldl (fun s h => ackWrite (takeRemote (modC s ctx (fun c => eincr c 0x801101 ((s.ptpNs - h.since) * ticksPerNs))) ctx h.line h.mask h.data)
    ctx h.src h.master h.tag h.line h.addr) s

/-! ### Flags and replicas -/

/-- FLAG_INC: the increment is applied, then acknowledged (R244). -/
def execFlagInc (f : Flit) (p : RPkt) (s : State) : Out :=
  .next (request s f p [6] [2] true false true 6 0x0A (fun s =>
    let off := addrOffset p.addr
    let cl := off / 64
    let c := getC s p.ctx
    respond (setC s p.ctx (setW c cl (addF (getW c cl) (off % 64) p.inc))) f p 6 0x0A (cl % 500 % 16) 0 0))

/-- REPL_INV: the holder drops the line of the home's copy and answers (R251). -/
def execReplInv (f : Flit) (p : RPkt) (s : State) : Out :=
  .next (request s f p [1] [3] false false false 2 0x0C (fun s =>
    let home := rankOf (getC s p.ctx) f.src
    respond (modC s p.ctx (fun c => { c with replLines := c.replLines.filter (fun l =>
      !decide (some l.home = home ∧ l.line = addrOffset p.addr)) })) f p 2 0x0B (f.port.val % 4) 0 0))

/-- REPL_FILL: a line of the home's instance enters the copy (R249). -/
def execReplFill (f : Flit) (p : RPkt) (s : State) : Out :=
  .next (if !packetArrives s f [4] then s
  else if f.resv || reqReserved p false false then incr s 0x407402 1
  else if f.epoch ≠ rd s 0x400200 % 65536 then incr s 0x406000 1
  else
    match admitReq s f p [3] false with
    | (s, some _) => s
    | (s, none) =>
      let c := getC s p.ctx
      let line := addrOffset p.addr
      match rankOf c f.src, regionAt c line with
      | some h, some _ =>
        setC s p.ctx { c with replLines := ⟨h, line, p.data⟩ :: c.replLines.filter (fun l => !decide (l.home = h ∧ l.line = line)) }
      | _, _ => s)

/-! ### Acknowledgements -/

/-- Whether a master ID is a compute die's Ladle. -/
def isLadle (m : Nat) : Bool := decide (m % 1024 = 0x201 ∧ m / 1024 < 8)

/-- One line of a page record is acknowledged by the buddy; a refusal makes the vote dirty (R326, R328). A slot that every
destination has acknowledged is free. -/
def ladleAck (s : State) (p : RPkt) : State :=
  let die := p.master / 1024
  let off := addrOffset p.addr - buddyBase s
  let here := fun (x : SpoolSlot) => decide (x.base ≤ off ∧ off < x.base + 65664 ∧ x.ctx = p.ctx)
  let bad := decide (p.status ≠ 0) && (tget [] s.ckpt.spool die).any here
  let slots := (tget [] s.ckpt.spool die).map (fun x =>
    if here x then { x with lines := x.lines - 1, buddy := decide (x.lines ≤ 1) } else x)
  let slots := slots.filter (fun x => !(x.buddy && x.store) && !(bad && here x))
  let s := { s with ckpt := { s.ckpt with spool := tset [] s.ckpt.spool die slots } }
  if bad then modC s p.ctx (fun c => { c with capture := c.capture.map (fun g =>
    if g.reason = 0 then { g with reason := 0x0804 } else g) })
  else s

/-- WRITE_ACK: a worker's write is acknowledged, and what it held back may follow (R242, R243); or a Ladle's line is. -/
def execWriteAck (f : Flit) (p : RPkt) (s : State) : Out :=
  .next (if isLadle p.master then
    let a := admitAnswer s f p [2]
    if a.2 then ladleAck a.1 p else a.1
  else answer s f p [2] [.write, .writec] (fun s id cl c k _ => pump (setC s id (setW c cl k)) id cl))

/-- REFUSAL of any request (Table 10.3). -/
def execRefusal (f : Flit) (p : RPkt) (s : State) : Out :=
  .next (if isLadle p.master then
    let a := admitAnswer s f p [2]
    if a.2 then ladleAck a.1 p else a.1
  else if addrSpace p.addr = 2 then flagAck s f p [2]
  else answer s f p [2] [.read, .write, .writec, .inv] (fun s id cl c k _ => pump (setC s id (setW c cl k)) id cl))

/-! ### The Sieve (R253 to R255) -/

/-- Whether the write-back of an entry must wait: its page is protected (R254). -/
def sieveHeld (s : State) (e : SieveEnt) : Bool := e.fresh && pageProtected (getC s e.ctx) (e.line / pageBytes)

/-- The lowest free entry. -/
def freeEntry (v : Sieve) : Option Nat := findBelow 64 (fun i => v.entries.all (fun e => decide (e.idx ≠ i)))

/-- The entry with the oldest last arrival whose write-back can go. -/
def oldestEntry (s : State) (v : Sieve) : Option SieveEnt :=
  (v.entries.filter (fun e => !sieveHeld s e)).foldl (fun b e =>
    match b with
    | none => some e
    | some x => if e.last < x.last then some e else some x) none

/-- The Sieve with room for a line: its own entry, a free one, or the oldest, which writes back first. -/
def makeRoom (s : State) (v : Sieve) (x : SieveStore) : Option (State × Sieve × SieveEnt) :=
  match v.entries.find? (fun e => decide (e.ctx = x.ctx ∧ e.line = x.line)) with
  | some e => some (s, v, e)
  | none =>
    match freeEntry v with
    | some i => some (s, v, ⟨i, x.ctx, x.line, 0, 0, false, s.ptpNs⟩)
    | none =>
      match oldestEntry s v with
      | none => none
      | some o => some (if o.fresh then writeBack s o else s,
          { v with entries := v.entries.filter (fun e => decide (e.idx ≠ o.idx)) }, ⟨o.idx, x.ctx, x.line, 0, 0, false, s.ptpNs⟩)

/-- Data under a mask replaces an entry's. -/
def mergeData (mask : BitVec 128) (old new : BitVec 1024) : BitVec 1024 :=
  BitVec.ofNat 1024 (leNat ((List.range 128).map (fun i =>
    ((if mask.getLsbD i then new else old) >>> (8 * i)).setWidth 8)))

/-- SIEVE_MERGE: the store at the head of a slice's queue merges, whole, and is acknowledged (R253, R254). -/
def execSieveMerge (die : Fin 8) (slice : Fin 32) (s : State) : Out :=
  .next (
    let k := die.val * 32 + slice.val
    match (sieveOf s k).queue with
    | [] => s
    | x :: rest =>
      match makeRoom s { sieveOf s k with queue := rest } x with
      | none => s
      | some (s, v, e) =>
        let e' := { e with mask := e.mask ||| x.mask, data := mergeData x.mask e.data x.data, fresh := true, last := s.ptpNs }
        let s := setSieve s k { v with entries := (v.entries.filter (fun y => decide (y.idx ≠ e.idx))) ++ [e'] }
        let s := modC s x.ctx (fun c => eincr (takeLine c x.line x.mask x.data) 0x407300 1)
        match x.ack with
        | none => s
        | some (src, master, tag) => ackWrite s x.ctx src master tag x.line (rpkt 1 (ownId s) x.line 0 0 0).addr)

/-- The entry `e` of a slice's Sieve. -/
def entryAt (s : State) (k e : Nat) : Option SieveEnt := (sieveOf s k).entries.find? (fun x => decide (x.idx = e))

/-- SIEVE_WRITEBACK: an entry that has merged since its last write-back writes its bytes into the Pantry line. -/
def execSieveWriteback (die : Fin 8) (slice : Fin 32) (e : Fin 64) (s : State) : Out :=
  .next (
    let k := die.val * 32 + slice.val
    match entryAt s k e with
    | none => s
    | some x =>
      if !x.fresh then s
      else if sieveHeld s x then holdPage s x.ctx (x.line / pageBytes)
      else
        let v := sieveOf s k
        writeBack (setSieve s k { v with entries := v.entries.map (fun y => if y.idx = x.idx then { y with fresh := false } else y) }) x)

/-- SIEVE_RETIRE: an entry without arrivals writes back what is pending and frees. -/
def execSieveRetire (die : Fin 8) (slice : Fin 32) (e : Fin 64) (s : State) : Out :=
  .next (
    let k := die.val * 32 + slice.val
    match entryAt s k e with
    | none => s
    | some x =>
      if sieveHeld s x then s
      else
        let v := sieveOf s k
        let s' := setSieve s k { v with entries := v.entries.filter (fun y => decide (y.idx ≠ x.idx)) }
        if x.fresh then writeBack s' x else s')

end Sys2Proof.Machine
end

