-- ==== Sys2Proof/Machine/Coll.lean ====
section
/-! DEFINITION. Collectives (R263 to R285): CALLRED, CRSCAT, CAGTH, CBCST, CA2A, COLL_DEVICE_ENTRY, the packets of
Table 11.5, RESIDUE_CHECK_DONE, COLLECTIVE_TIMEOUT and LATE_WINDOW_END. -/

namespace Sys2Proof.Machine

open Sys2Proof

/-! ### Sets and aggregators (R264). A set's members are named by rank; a ring by its ID without the position. -/

/-- Sorted, without repeats. -/
def sortNat (xs : List Nat) : List Nat := (xs.mergeSort (fun a b => decide (a ≤ b))).eraseDups

/-- Ranks of the ring set of ring `g` (ID / 8), in order. -/
def ringSet (c : Context) (g : Nat) : List Nat := (List.range c.ids.length).filter (fun r => decide (deviceOf c r / 8 = g))

/-- Rings of the group set of group `g`, in order. -/
def groupSet (c : Context) (g : Nat) : List Nat :=
  sortNat ((c.ids.filter (fun d => decide (idGroup d = g))).map (fun d => d / 8))

/-- Groups of the system set, in order. -/
def systemSet (c : Context) : List Nat := sortNat (c.ids.map idGroup)

/-- The element of a set that chunk `ch` selects. -/
def rotate (xs : List Nat) (ch : Nat) : Nat := xs.getD (ch % max 1 xs.length) 0

/-- Ring aggregator of a chunk. -/
def ringAgg (c : Context) (ch g : Nat) : Nat := rotate (ringSet c g) ch

/-- Group aggregator of a chunk. -/
def groupAgg (c : Context) (ch g : Nat) : Nat := ringAgg c ch (rotate (groupSet c g) ch)

/-- System aggregator of a chunk. -/
def sysAgg (c : Context) (ch : Nat) : Nat := groupAgg c ch (rotate (systemSet c) ch)

/-- Ring of a rank. -/
def rankRing (c : Context) (r : Nat) : Nat := deviceOf c r / 8

/-- Group of a rank. -/
def rankGroup (c : Context) (r : Nat) : Nat := idGroup (deviceOf c r)

/-- Aggregator of tier `t` (0 ring, 1 group, 2 system) to which rank `r` sends chunk `ch`. -/
def aggOf (c : Context) (ch t r : Nat) : Nat :=
  match t with
  | 0 => ringAgg c ch (rankRing c r)
  | 1 => groupAgg c ch (rankGroup c r)
  | _ => sysAgg c ch

/-- Size of the set that this device's aggregator of tier `t` combines. -/
def setSize (c : Context) (t : Nat) : Nat :=
  match t with
  | 0 => (ringSet c (rankRing c c.rank)).length
  | 1 => (groupSet c (rankGroup c c.rank)).length
  | _ => (systemSet c).length

/-- Index of rank `r` in the set of tier `t`. -/
def setIndex (c : Context) (t r : Nat) : Option Nat :=
  match t with
  | 0 => (ringSet c (rankRing c c.rank)).findIdx? (· = r)
  | 1 => (groupSet c (rankGroup c c.rank)).findIdx? (· = rankRing c r)
  | _ => (systemSet c).findIdx? (· = rankGroup c r)

/-- Size of the job's largest set (R270). -/
def largestSet (c : Context) : Nat :=
  (c.ids.map (fun d => max (ringSet c (d / 8)).length (groupSet c (idGroup d)).length)).foldl max (systemSet c).length

/-! ### Chunks (R269, R270) -/

/-- Whether the op reduces. -/
def reduces (q : CollReq) : Bool := decide (q.kind = .allred ∨ q.kind = .rscat)

/-- Wire form of the op's data (Table 11.2). -/
def wireForm (q : CollReq) : Nat :=
  if reduces q then (match q.mode with | .plain => 0 | .exact => 1 | .repro => 2) else 0

/-- Bits of one element in a form. -/
def formBits (form : Nat) (f : Fmt) : Nat :=
  match form with
  | 0 => fmtBits f
  | 1 => 384
  | 2 => 256
  | _ => 16

/-- Elements per flit. -/
def perFlit (form : Nat) (f : Fmt) : Nat := 1792 / formBits form f

/-- W = 4,000 × N. -/
def jobWorkers (c : Context) : Nat := 4000 * c.n

/-- Elements of the logical vector that is cut into chunks: of the whole result, or, for CAGTH and CA2A, of what one
member contributes or sends to one other member. -/
def streamElems (c : Context) (q : CollReq) : Nat :=
  match q.kind with
  | .allred => viewCount q.d
  | .rscat => jobWorkers c * viewCount q.d
  | .agth => 4000 * viewCount q.a
  | .bcst => viewCount q.a
  | .a2a => 4000 * (viewCount q.a / c.n)

/-- Flits of a full chunk: CHUNK / 256, with the limit that ordered folds set. -/
def chunkFlits (c : Context) (q : CollReq) : Nat :=
  let b := if q.chunk = 0 then 65536 else q.chunk
  let b := if reduces q && decide (q.mode = .plain ∧ q.op = .sum) then min b (16777216 / max 1 (largestSet c)) / 4096 * 4096 else b
  max 1 (b / 256)

/-- Elements of a full chunk. -/
def chunkElems (c : Context) (q : CollReq) : Nat := chunkFlits c q * perFlit (wireForm q) q.fmt

/-- Chunks of one stream. -/
def streamChunks (c : Context) (q : CollReq) : Nat := (streamElems c q + chunkElems c q - 1) / chunkElems c q

/-- Chunks of the collective. For CAGTH each member's contribution has its own chunks, in rank order. -/
def totalChunks (c : Context) (q : CollReq) : Nat := if q.kind = .agth then c.n * streamChunks c q else streamChunks c q

/-- Range of stream elements of a chunk. -/
def chunkRange (c : Context) (q : CollReq) (ch : Nat) : Nat × Nat :=
  let k := if q.kind = .agth then ch % max 1 (streamChunks c q) else ch
  (k * chunkElems c q, min (streamElems c q) ((k + 1) * chunkElems c q))

/-- Flits of a chunk in a form. -/
def flitCount (c : Context) (q : CollReq) (ch form : Nat) : Nat :=
  let r := chunkRange c q ch
  (r.2 - r.1 + perFlit form q.fmt - 1) / perFlit form q.fmt

/-- Stream elements of one flit of a chunk. -/
def flitElems (c : Context) (q : CollReq) (ch form fl : Nat) : List Nat :=
  let r := chunkRange c q ch
  let p := perFlit form q.fmt
  (List.range (min p (r.2 - (r.1 + fl * p)))).map (fun i => r.1 + fl * p + i)

/-- Rank that owns a chunk of CAGTH or CBCST (Table 11.3). -/
def chunkOwner (c : Context) (q : CollReq) (ch : Nat) : Nat :=
  if q.kind = .agth then ch / max 1 (streamChunks c q) else q.root

/-- Whether rank `r` receives a chunk on the down path: every member, and for CRSCAT those whose workers own
elements of it. -/
def wants (c : Context) (q : CollReq) (ch r : Nat) : Bool :=
  if q.kind = .rscat then
    let g := chunkRange c q ch
    decide (g.1 < (r + 1) * 4000 * viewCount q.d ∧ r * 4000 * viewCount q.d < g.2)
  else true

/-- Whether this device is on the down path of a chunk. -/
def onDown (c : Context) (q : CollReq) (ch : Nat) : Bool :=
  let any := fun (p : Nat → Bool) => (List.range c.n).any (fun r => p r && wants c q ch r)
  wants c q ch c.rank
    || (decide (ringAgg c ch (rankRing c c.rank) = c.rank) && any (fun r => decide (rankRing c r = rankRing c c.rank)))
    || (decide (groupAgg c ch (rankGroup c c.rank) = c.rank) && any (fun r => decide (rankGroup c r = rankGroup c c.rank)))
    || decide (sysAgg c ch = c.rank)

/-- Flits of a chunk that this device has to fold, receive and write before the chunk has completed here. -/
def chunkTasks (c : Context) (q : CollReq) (ch : Nat) : Nat :=
  let n := flitCount c q ch (wireForm q)
  match q.kind with
  | .a2a => (c.n - 1) * n
  | _ =>
    let folds := if reduces q then ((List.range 3).filter (fun t => decide (aggOf c ch t c.rank = c.rank))).length else 0
    n * (folds + if onDown c q ch then 1 else 0)

/-! ### Wire forms (Table 11.2, R275) -/

/-- Bits of one element as it travels. -/
def partBits : Partial → Nat
  | .raw b => b
  | .exact b => b.toNat
  | .repro b => b.toNat
  | .expo m => ofSigned 16 m

/-- One element read from its bits. -/
def partOf (form : Nat) (b : Nat) : Partial :=
  match form with
  | 0 => .raw b
  | 1 => .exact (BitVec.ofNat 384 b)
  | 2 => .repro (BitVec.ofNat 256 b)
  | _ => .expo (toSigned 16 b)

/-- Data of a flit, element 0 lowest. -/
def packParts (form : Nat) (f : Fmt) : List Partial → Nat
  | [] => 0
  | p :: ps => partBits p % 2 ^ formBits form f + 2 ^ formBits form f * packParts form f ps

/-- The first `n` elements of a flit's data. -/
def unpackParts (form : Nat) (f : Fmt) (n : Nat) (d : BitVec 1792) : List Partial :=
  (List.range n).map (fun i => partOf form (d.toNat / 2 ^ (formBits form f * i) % 2 ^ formBits form f))

/-- What one element adds to the residue sum (R275). -/
def partValue : Partial → Int
  | .raw b => b
  | .exact b => (ExactP.unpack b).a + 2 ^ 320 * ((ExactP.unpack b).terms : Int)
  | .repro b => (ReproP.unpack b).s
  | .expo m => m + 32768

/-- RES of a flit. -/
def residue (ps : List Partial) : Nat :=
  let v := ps.foldl (fun a p => a + partValue p) 0
  (v % 127).toNat * 8 + (v % 7).toNat

/-! ### The device stage (R265, R272, R273) -/

/-- Rounding mode of an ACW.RM code. -/
def rmAt (code : Nat) : RM := rmOf (BitVec.ofNat 32 code)


/-- Terms of result element `i` of `len`: by logical cluster, then by f. `src` holds every worker's v[A]. -/
def collTerms (src : List (List Nat)) (len i : Nat) : List Nat :=
  src.flatMap (fun xs => (List.range (xs.length / max 1 len)).map (fun f => xs.getD (f * len + i) 0))

/-- Element `i` of the device's contribution in a form, with the flags of a plain reduction. `m` is the exponent of the
first reproducible pass. -/
def devicePart (q : CollReq) (form : Nat) (xs : List Nat) (m : Int) : Partial × Flags :=
  let nums := xs.map (Sys2Proof.Machine.decode q.fmt)
  match form with
  | 1 => (.exact ((exactSum nums).getD ExactP.empty).pack, 0)
  | 2 => (.repro (reproSum m nums).pack, 0)
  | 3 => (.expo (reproM nums), 0)
  | _ =>
    let t := treeReduce (redCombine q.fmt q.op (rmAt q.rm)) xs.length xs
    (.raw (t.1.getD 0 0), t.2)

/-- Element `i` of this device's stream of CAGTH or CBCST, or, for CA2A, of what it sends to rank `dst`. -/
def rawPart (c : Context) (q : CollReq) (src : List (List Nat)) (dst i : Nat) : Partial :=
  let na := max 1 (viewCount q.a)
  match q.kind with
  | .agth => .raw ((src.getD (i / na) []).getD (i % na) 0)
  | .a2a =>
    let e := max 1 (viewCount q.a / jobWorkers c)
    .raw ((src.getD (i / e / 4000) []).getD ((4000 * dst + i / e % 4000) * e + i % e) 0)
  | _ => .raw ((src.headD []).getD i 0)

/-- Value and flags of a result element at a member: one rounding of the same partial (R273). -/
def resultOf (q : CollReq) (p : Partial) : Nat × Flags :=
  let rm := rmAt q.rm
  match p with
  | .raw b => (b, 0)
  | .exact b => exactResult q.dfmt rm (ExactP.unpack b)
  | .repro b => reproResult rm (ReproP.unpack b)
  | .expo _ => (0, 0)

/-- Where result element `i` goes: destination element of each worker that receives it. `src` is the rank that a block
of CAGTH or CA2A comes from. -/
def destElem (c : Context) (q : CollReq) (src i cl : Nat) : Option Nat :=
  match q.kind with
  | .allred => some i
  | .bcst => some i
  | .agth => some (src * 4000 * viewCount q.a + i)
  | .rscat =>
    let e := max 1 (viewCount q.d)
    if i / e = 4000 * c.rank + cl then some (i % e) else none
  | .a2a =>
    let e := max 1 (viewCount q.a / jobWorkers c)
    if i / e % 4000 = cl then some ((4000 * src + i / e / 4000) * e + i % e) else none

/-- Writes one result element into v[D] of the workers that receive it, and merges its flags into their ASWs: each worker takes the
flags of its own results (R39). -/
def writeResult (c : Context) (q : CollReq) (reqs : List CollReq) (src i : Nat) (p : Partial) : Context :=
  let r := resultOf q p
  reqs.foldl (fun c w =>
    match destElem c q src i w.cluster with
    | none => c
    | some j =>
      let k := mergeAsw (getW c w.cluster) r.2
      let ck := writeElem c w.cluster k w.d j r.1
      setW ck.1 w.cluster (markReplica ck.1 ck.2 w.d.tensor)) c

/-- Writes the elements of one flit. -/
def writeFlit (c : Context) (q : CollReq) (reqs : List CollReq) (src : Nat) : List (Nat × Partial) → Context
  | [] => c
  | e :: es => writeFlit (writeResult c q reqs src e.1 e.2) q reqs src es

/-- The writes of result elements `is` to the levels where the destinations lie. -/
def flitAccess (s : State) (c : Context) (q : CollReq) (reqs : List CollReq) (src : Nat) (is : List Nat) : State × Context :=
  reqs.foldl (fun sc w => viewAccess sc.1 sc.2 w.cluster w.d (is.filterMap (fun i => destElem c q src i w.cluster)) true false) (s, c)

/-- Result elements of one flit are written, and the accesses counted. -/
def putFlit (s : State) (id : Nat) (q : CollReq) (reqs : List CollReq) (src : Nat) (es : List (Nat × Partial)) : State :=
  let r := flitAccess s (getC s id) q reqs src (es.map (fun e => e.1))
  setC r.1 id (writeFlit r.2 q reqs src es)

/-- Flags that a worker's own terms raise where the device stage reads them (R60): exact and reproducible sums only. -/
def contributeFlags (q : CollReq) (xs : List Nat) : Flags :=
  if reduces q && decide (q.mode ≠ .plain) then
    snanFlag (xs.map (Sys2Proof.Machine.decode q.fmt)) ||| (xs.foldl (fun f x => f ||| readFlags q.fmt x) 0)
  else 0

/-! ### Corrupt results (R276, R278) -/

/-- COLLECTIVE_CORRUPT of a chunk: the steward of the chunk's optical die, which sends it and holds its adder (R269, R274), raises the event
(log entry 38), and every vote not yet cast becomes dirty. -/
def raiseCorrupt (s : State) (id ch code : Nat) : State :=
  let s := modC s id (fun c => { c with corruptSinceCommit := true })
  raiseEvent (incr s 0x408301 1) (30 + ch % 8) (mkRec 0 0x05 0x200 code id (getC s id).step 0) none true

/-! ### Records and completion (R280, Table 11.4) -/

/-- Opcode of a collective. -/
def collOpcode : CollKind → Nat
  | .allred => 0x140
  | .rscat => 0x141
  | .agth => 0x142
  | .bcst => 0x143
  | .a2a => 0x144

/-- A saturating U32. -/
def sat32 (n : Nat) : Nat := min n (2 ^ 32 - 1)

/-- The completion record: the number whose 64 little-endian bytes it is. -/
def collRecord (c : Context) (x : Coll) (v : EntryVals) (done : Nat) : Nat :=
  let q := x.reqs.headD (⟨0, .allred, .fp64, .plain, .sum, 0, 0, 0, View.empty, View.empty, .fp64, 0⟩)
  leNat (natLe 4 c.step ++ natLe 2 c.collSeq ++ natLe 2 (collOpcode q.kind) ++ natLe 8 q.sig.toNat ++ natLe 8 v.first
    ++ natLe 8 v.last ++ natLe 4 v.rank ++ natLe 4 c.n ++ natLe 4 (sat32 (x.entryNs - v.first))
    ++ natLe 4 (sat32 (v.last - v.first)) ++ natLe 8 done ++ natLe 4 (totalChunks c q) ++ natLe 4 0)

/-- The record becomes the latest; the sixteen before it move down. -/
def pushRecord (c : Context) (r : Nat) : Context :=
  let c := (List.range 16).reverse.foldl (fun c i => ewr c (0x408101 + i) (erd c (0x408100 + i))) c
  ewr c 0x408100 r

/-- The lateness counters of the current window (R281). The lag counters are held in ticks. -/
def countLate (c : Context) (x : Coll) (v : EntryVals) : Context :=
  let lag := (x.entryNs - v.first) * ticksPerNs
  let c := eincr c 0x408200 1
  let c := if v.rank = c.rank then eincr c 0x408201 1 else c
  let c := eincr c 0x408202 lag
  if erd c 0x408203 < lag then ewr c 0x408203 lag else c

/-- Whether the collective has completed at this device: every chunk, and the entry values have come. -/
def collOver (c : Context) (x : Coll) : Bool :=
  x.entered && x.vals.isSome && x.chunks.isEmpty
    && decide (x.started = totalChunks c (x.reqs.headD ⟨0, .allred, .fp64, .plain, .sum, 0, 0, 0, View.empty, View.empty, .fp64, 0⟩))

/-- The collective completes: its record is written and every worker goes on. -/
def finishColl (s : State) (id : Nat) : State :=
  let c := getC s id
  match c.coll with
  | none => s
  | some x =>
    if !collOver c x then s
    else
      let v := x.vals.getD ⟨0, 0, 0⟩
      let c := countLate (pushRecord c (collRecord c x v s.ptpNs)) x v
      let c := x.reqs.foldl (fun c r =>
        let k := getW c r.cluster
        setW c r.cluster (if k.run = .inColl then { advance k 1 with run := .running } else k)) c
      setC s id { c with coll := none, collSeq := c.collSeq + 1 }

/-! ### Sending -/

/-- A collective packet of this device. -/
def collPkt (c : Context) (sig : BitVec 64) (ch fl form tier count res data : Nat) : CPkt :=
  ⟨sig, c.step, ch, c.collSeq, fl, c.rank, form, tier, res, count, BitVec.ofNat 1792 data⟩

/-- Sends a packet to rank `r` on VC3. -/
def sendColl (s : State) (id kind r : Nat) (p : CPkt) : State :=
  sendPkt s 3 kind (deviceOf (getC s id) r) (Config.collFlow p.chunk) none (some p)

/-- Changes the collective in progress. -/
def modColl (s : State) (id : Nat) (f : Coll → Coll) : State := modC s id (fun c => { c with coll := c.coll.map f })

/-- One task of a chunk is done; a chunk with none left leaves flight. -/
def taskDone (x : Coll) (ch : Nat) : Coll :=
  { x with chunks := (x.chunks.map (fun p => if p.1 = ch then (p.1, p.2 - 1) else p)).filter (fun p => decide (p.2 ≠ 0)) }

/-- One flit of a chunk in a form, with elements `ps`, made into a packet. -/
def dataPkt (c : Context) (q : CollReq) (ch fl form tier count : Nat) (ps : List Partial) : CPkt :=
  collPkt c q.sig ch fl form tier count (residue ps) (packParts form q.fmt ps)

/-! ### The paths (R271, R272) -/

/-- The result elements of one flit have come to this device as a destination: they are written, or, in the first pass of
a reproducible sum, kept. -/
def takeDown (s : State) (id : Nat) (q : CollReq) (ch fl form : Nat) (ps : List Partial) : State :=
  let c := getC s id
  let es := (flitElems c q ch form fl).zip ps
  match c.coll with
  | none => s
  | some x =>
    if form = 3 then
      modColl s id (fun x => { x with ms := x.ms ++ es.map (fun e => (e.1, match e.2 with | .expo m => m | _ => 0)) })
    else putFlit s id q x.reqs (chunkOwner c q ch) es

/-- The down path from tier `t`: 3 where the system aggregator holds the result, 2 at a group aggregator, 1 at a ring
aggregator, 0 at a member. -/
def goDown (t : Nat) (s : State) (id : Nat) (q : CollReq) (ch fl form : Nat) (ps : List Partial) : State :=
  let c := getC s id
  let each := fun (ranks : List Nat) (rec' : State → State) (s : State) =>
    ranks.foldl (fun s r =>
      if r = c.rank then rec' s else sendColl s id 0x13 r (dataPkt c q ch fl form (t - 1) c.n ps)) s
  let some' := fun (p : Nat → Bool) => (List.range c.n).any (fun r => p r && wants c q ch r)
  match t with
  | 0 => if wants c q ch c.rank then takeDown s id q ch fl form ps else s
  | 1 => each ((ringSet c (rankRing c c.rank)).filter (wants c q ch)) (fun s => goDown 0 s id q ch fl form ps) s
  | 2 => each (((groupSet c (rankGroup c c.rank)).filter (fun g => some' (fun r => decide (rankRing c r = g)))).map (ringAgg c ch))
      (fun s => goDown 1 s id q ch fl form ps) s
  | _ + 3 => each (((systemSet c).filter (fun g => some' (fun r => decide (rankGroup c r = g)))).map (groupAgg c ch))
      (fun s => goDown 2 s id q ch fl form ps) s

/-- A down flit has been dealt with here: with data, one task of its chunk is done. -/
def downDone (s : State) (id ch form : Nat) : State := if form = 3 then s else modColl s id (fun x => taskDone x ch)

/-- Combine of two elements at an adder; none where their M differ (R273), or where TERMS would reach 2^42 (R59). The flags of a plain
combine reach no ASW: no rule names one for an adder's roundings (DESIGN CHOICE, log entry 84). -/
def combinePart (q : CollReq) (x y : Partial) : Option Partial :=
  let rm := rmAt q.rm
  match x, y with
  | .raw a, .raw b => some (.raw (redCombine q.fmt q.op rm a b).1)
  | .exact a, .exact b => (exactCombine (ExactP.unpack a) (ExactP.unpack b)).map (fun p => .exact p.pack)
  | .repro a, .repro b => (reproCombine (ReproP.unpack a) (ReproP.unpack b)).map (fun p => .repro p.pack)
  | .expo a, .expo b => some (.expo (max a b))
  | _, _ => none

/-- Combine of two flits, element by element. -/
def combineFlit (q : CollReq) : List Partial → List Partial → Option (List Partial)
  | x :: xs, y :: ys => (combinePart q x y).bind (fun p => (combineFlit q xs ys).map (fun ps => p :: ps))
  | _, _ => some []

/-- The left fold of an aggregator's inputs, in ascending index (R272). -/
def foldInputs (q : CollReq) : List (List Partial) → Option (List Partial)
  | [] => some []
  | x :: xs => xs.foldl (fun acc y => acc.bind (fun a => combineFlit q a y)) (some x)

/-- An aggregator's slot for a flit, with one more input. -/
def addInput (x : Coll) (t ch fl form idx count : Nat) (ps : List Partial) : Coll × List (Nat × Nat × List Partial) :=
  let here := fun (a : AggSlot) => decide (a.tier = t ∧ a.chunk = ch ∧ a.flit = fl ∧ a.form = form)
  let ins := ((x.agg.find? here).map (fun a => a.ins)).getD []
  let ins := ins.filter (fun i => decide (i.1 < idx)) ++ [(idx, count, ps)] ++ ins.filter (fun i => decide (idx < i.1))
  ({ x with agg := x.agg.filter (fun a => !here a) ++ [⟨t, ch, fl, form, ins⟩] }, ins)

/-- The up path: an input of index `idx` at this device's aggregator of tier 3 − `n`, combined when the set is
complete, then sent on; at the system aggregator the result turns down. Without arithmetic the one input passes. -/
def goUp (n : Nat) (s : State) (id : Nat) (q : CollReq) (ch fl form idx count : Nat) (ps : List Partial) : State :=
  match n with
  | 0 => downDone (goDown 3 s id q ch fl form ps) id ch form
  | n + 1 =>
    let t := 2 - n
    let c := getC s id
    let pass := fun (s : State) (count : Nat) (ps : List Partial) =>
      if t = 2 then goUp n s id q ch fl form 0 count ps
      else
        let r := aggOf c ch (t + 1) c.rank
        if r = c.rank then
          match setIndex c (t + 1) c.rank with
          | some i => goUp n s id q ch fl form i count ps
          | none => s
        else sendColl s id 0x12 r (dataPkt c q ch fl form (t + 1) count ps)
    match c.coll with
    | none => s
    | some x =>
      if !reduces q then pass s count ps
      else if ch ∈ x.bad then s
      else
        let a := addInput x t ch fl form idx count ps
        if a.2.length < setSize c t then modColl s id (fun _ => a.1)
        else
          let x' := { a.1 with agg := a.1.agg.filter (fun g => !decide (g.tier = t ∧ g.chunk = ch ∧ g.flit = fl ∧ g.form = form)) }
          match foldInputs q (a.2.map (fun i => i.2.2)) with
          | none => raiseCorrupt (modColl s id (fun _ => { x' with bad := ch :: x'.bad })) id ch (if form = 1 then 0x0406 else 0x0405)
          | some ps => pass (downDone (modColl s id (fun _ => x')) id ch form) (a.2.foldl (fun k i => k + i.2.1) 0) ps

/-- This device's contribution of one flit goes to its ring aggregator. -/
def contribute (s : State) (id : Nat) (q : CollReq) (ch fl form : Nat) (ps : List Partial) : State :=
  let c := getC s id
  let r := ringAgg c ch (rankRing c c.rank)
  if r = c.rank then
    match setIndex c 0 c.rank with
    | some i => goUp 3 s id q ch fl form i 1 ps
    | none => s
  else sendColl s id 0x12 r (dataPkt c q ch fl form 0 1 ps)

/-- Every flit of a chunk in a form, from the workers' views. The flags of a plain sum's device stage reach every worker of the
device: no rule names the worker whose op rounds (DESIGN CHOICE, log entry 84). -/
def contributeChunk (s : State) (id : Nat) (q : CollReq) (ch form : Nat) : State :=
  (List.range (flitCount (getC s id) q ch form)).foldl (fun s fl =>
    let c := getC s id
    let reqs := (c.coll.map (fun x => x.reqs)).getD []
    let src := (c.coll.map (fun x => x.src)).getD []
    let ms := (c.coll.map (fun x => x.ms)).getD []
    let m := fun (i : Nat) => ((ms.find? (fun e => decide (e.1 = i))).map (fun e => e.2)).getD (-32768)
    let es := flitElems c q ch form fl
    if reduces q then
      let ps := es.map (fun i => devicePart q form (collTerms src (streamElems c q) i) (m i))
      let fl' := ps.foldl (fun f p => f ||| p.2) 0
      let c := reqs.foldl (fun c r => setW c r.cluster (mergeAsw (getW c r.cluster) fl')) c
      contribute (setC s id c) id q ch fl form (ps.map (fun p => p.1))
    else contribute s id q ch fl form (es.map (rawPart c q src 0))) s

/-- The blocks of a chunk for every other member, from rank + 1 on (CA2A). -/
def sendBlocks (s : State) (id : Nat) (q : CollReq) (ch : Nat) : State :=
  let c := getC s id
  let src := (c.coll.map (fun x => x.src)).getD []
  (List.range (c.n - 1)).foldl (fun s k =>
    let dst := (c.rank + 1 + k) % c.n
    (List.range (flitCount c q ch 0)).foldl (fun s fl =>
      sendColl s id 0x14 dst (dataPkt c q ch fl 0 3 1 ((flitElems c q ch 0 fl).map (rawPart c q src dst)))) s) s

/-- A chunk starts at this device. -/
def startChunk (s : State) (id : Nat) (q : CollReq) (ch : Nat) : State :=
  let c := getC s id
  match q.kind with
  | .a2a => sendBlocks s id q ch
  | .allred | .rscat => contributeChunk s id q ch (if wireForm q = 2 then 3 else wireForm q)
  | _ => if chunkOwner c q ch = c.rank then contributeChunk s id q ch 0 else s

/-- Starts chunks while fewer than 16 are in flight; `fuel` bounds their number. A chunk with no task here is complete
once it has been sent. -/
def startChunks (fuel : Nat) (s : State) (id : Nat) (q : CollReq) : State :=
  match fuel with
  | 0 => s
  | fuel + 1 =>
    let c := getC s id
    match c.coll with
    | none => s
    | some x =>
      if x.started < totalChunks c q ∧ x.chunks.length < 16 then
        let t := chunkTasks c q x.started
        let s := modColl s id (fun x => { x with started := x.started + 1,
                                                 chunks := if t = 0 then x.chunks else x.chunks ++ [(x.started, t)] })
        startChunks fuel (startChunk s id q x.started) id q
      else s

/-- After the exponents of a whole chunk have come, its second pass starts (R273). -/
def secondPass (s : State) (id : Nat) (q : CollReq) (ch : Nat) : State :=
  let c := getC s id
  match c.coll with
  | none => s
  | some x =>
    let r := chunkRange c q ch
    if (List.range (r.2 - r.1)).all (fun i => x.ms.any (fun e => decide (e.1 = r.1 + i))) then contributeChunk s id q ch 2 else s

/-! ### Entry values (R280) -/

/-- Smallest entry time, largest, and the rank of the largest, ties to the lowest rank. -/
def joinVals (a b : EntryVals) : EntryVals :=
  let later := decide (a.last < b.last) || (decide (a.last = b.last) && decide (b.rank < a.rank))
  ⟨min a.first b.first, max a.last b.last, if later then b.rank else a.rank⟩

/-- A COLL_OPEN packet. -/
def openPkt (c : Context) (sig : BitVec 64) (tier count : Nat) (v : EntryVals) : CPkt :=
  collPkt c sig 0 0 0 tier count 0 (v.first % 2 ^ 64 + 2 ^ 64 * (v.last % 2 ^ 64) + 2 ^ 128 * (v.rank % 2 ^ 32))

/-- The entry values of a COLL_OPEN packet. -/
def openVals (p : CPkt) : EntryVals :=
  ⟨p.data.toNat % 2 ^ 64, p.data.toNat / 2 ^ 64 % 2 ^ 64, p.data.toNat / 2 ^ 128 % 2 ^ 32⟩

/-- The agreed values travel down chunk 0's path to every member. -/
def openDown (t : Nat) (s : State) (id : Nat) (sig : BitVec 64) (v : EntryVals) : State :=
  let c := getC s id
  let each := fun (ranks : List Nat) (rec' : State → State) (s : State) =>
    ranks.foldl (fun s r => if r = c.rank then rec' s else sendColl s id 0x11 r (openPkt c sig (t - 1) c.n v)) s
  match t with
  | 0 => modColl s id (fun x => { x with vals := some v })
  | 1 => each (ringSet c (rankRing c c.rank)) (fun s => openDown 0 s id sig v) s
  | 2 => each ((groupSet c (rankGroup c c.rank)).map (ringAgg c 0)) (fun s => openDown 1 s id sig v) s
  | _ + 3 => each ((systemSet c).map (groupAgg c 0)) (fun s => openDown 2 s id sig v) s

/-- Entry values of the input `idx` at this device's aggregator of tier 3 − `n` for chunk 0. -/
def openUp (n : Nat) (s : State) (id : Nat) (sig : BitVec 64) (idx : Nat) (v : EntryVals) : State :=
  match n with
  | 0 => openDown 3 s id sig v
  | n + 1 =>
    let t := 2 - n
    let c := getC s id
    match c.coll with
    | none => s
    | some x =>
      let opens := x.opens ++ [(t, idx, v)]
      let s := modColl s id (fun x => { x with opens := opens })
      let mine := opens.filter (fun o => decide (o.1 = t))
      if mine.length < setSize c t then s
      else
        let v := mine.foldl (fun a o => joinVals a o.2.2) v
        let members := if t = 2 then c.n else if t = 1 then ((List.range c.n).filter (fun r => decide (rankGroup c r = rankGroup c c.rank))).length
          else (ringSet c (rankRing c c.rank)).length
        if t = 2 then openUp n s id sig 0 v
        else
          let r := aggOf c 0 (t + 1) c.rank
          if r = c.rank then
            match setIndex c (t + 1) c.rank with
            | some i => openUp n s id sig i v
            | none => s
          else sendColl s id 0x10 r (openPkt c sig (t + 1) members v)

/-- This device's own entry goes to chunk 0's ring aggregator. -/
def openOwn (s : State) (id : Nat) (sig : BitVec 64) (v : EntryVals) : State :=
  let c := getC s id
  let r := ringAgg c 0 (rankRing c c.rank)
  if r = c.rank then
    match setIndex c 0 c.rank with
    | some i => openUp 3 s id sig i v
    | none => s
  else sendColl s id 0x10 r (openPkt c sig 0 1 v)

/-! ### Packets that have arrived -/

/-- The first request of the collective in progress, which fixes its shape. -/
def collReq (c : Context) : Option CollReq := c.coll.bind (fun x => if x.entered then x.reqs.head? else none)

/-- Whether a packet of a kind can be dealt with now: it belongs to the collective in progress, its chunk is in flight,
and an aggregator of chunk 0 has the COLL_OPEN of the member it comes from (R280). -/
def collReady (c : Context) (x : Coll) (kind : Nat) (p : CPkt) : Bool :=
  x.entered && decide (p.step = c.step ∧ p.seq = c.collSeq)
    && (if kind = 0x10 ∨ kind = 0x11 then true
        else x.chunks.any (fun k => decide (k.1 = p.chunk))
          && (decide (kind ≠ 0x12) || (match setIndex c p.tier p.origin with
              | none => false
              | some i => decide (aggOf c p.chunk p.tier c.rank = c.rank)
                && (decide (aggOf c 0 p.tier c.rank ≠ c.rank) || x.opens.any (fun o => decide (o.1 = p.tier ∧ o.2.1 = i))))))

/-- Unequal signatures end the job (R268). -/
def collMismatch (s : State) (id : Nat) : State := endJobSealed s id 0x05 0x0401

/-- One packet is dealt with. An adder's and a forwarding device's check comes first; a destination's check is pending
afterwards (R277). -/
def collTake (s : State) (id : Nat) (q : CollReq) (kind : Nat) (p : CPkt) : State :=
  let c := getC s id
  let es := flitElems c q p.chunk p.form p.flit
  let ps := unpackParts p.form q.fmt es.length p.data
  let ok := decide (residue ps = p.res)
  let checked := fun (s : State) => incr s 0x408300 1
  let fails := fun (s : State) => raiseCorrupt (checked s) id p.chunk 0x0403
  let later := fun (s : State) (ok : Bool) => modC s id (fun c => { c with checks := c.checks ++ [(ok, c.step, p.chunk)] })
  let after := fun (s : State) =>
    if p.form = 3 then secondPass s id q p.chunk else startChunks (totalChunks c q) (downDone s id p.chunk p.form) id q
  match kind with
  | 0x10 =>
    if p.sig ≠ q.sig then collMismatch s id
    else if p.res ≠ 0 then fails s
    else match setIndex c p.tier p.origin with
      | some i => openUp (3 - p.tier) (checked s) id q.sig i (openVals p)
      | none => s
  | 0x11 =>
    if p.res ≠ 0 ∨ p.count ≠ c.n then fails s
    else openDown p.tier (checked s) id q.sig (openVals p)
  | 0x12 =>
    if p.sig ≠ q.sig then collMismatch s id
    else if !ok then fails (modColl s id (fun x => { x with bad := p.chunk :: x.bad }))
    else match setIndex c p.tier p.origin with
      | some i =>
        let s := goUp (3 - p.tier) (checked s) id q p.chunk p.flit p.form i p.count ps
        startChunks (totalChunks c q) (if p.form = 3 then secondPass s id q p.chunk else s) id q
      | none => s
  | 0x13 =>
    let ok := ok && decide (p.count = c.n)
    if p.tier = 0 then later (after (takeDown s id q p.chunk p.flit p.form ps)) ok
    else if ok then after (goDown p.tier (checked s) id q p.chunk p.flit p.form ps)
    else fails (after (goDown 0 s id q p.chunk p.flit p.form ps))
  | _ =>
    match c.coll with
    | none => s
    | some x => later (after (putFlit s id q x.reqs p.origin (es.zip ps))) ok

/-- Deals with every packet that waits and can be dealt with, in order of arrival; `fuel` bounds their number. -/
def collDrain (fuel : Nat) (s : State) (id : Nat) : State :=
  match fuel with
  | 0 => s
  | fuel + 1 =>
    let c := getC s id
    match c.coll, collReq c with
    | some x, some q =>
      match c.collIn.findIdx? (fun m => collReady c x m.1 m.2) with
      | none => s
      | some i =>
        match c.collIn[i]? with
        | none => s
        | some m => collDrain fuel (collTake (modC s id (fun c => { c with collIn := c.collIn.eraseIdx i })) id q m.1 m.2) id
    | _, _ => s

/-- After any change: waiting packets, then completion. -/
def collPump (s : State) (id : Nat) : State :=
  finishColl (collDrain (getC s id).collIn.length s id) id

/-- Reserved bits of a collective packet's payload (R12, Table 11.6): TIER [7:2], RES [15:10], and the DATA of a COLL_OPEN beyond its
three values. -/
def collReserved (kind : Nat) (p : CPkt) : Bool :=
  decide (4 ≤ p.tier ∨ 1024 ≤ p.res) || (decide (kind = 0x10 ∨ kind = 0x11) && decide (2 ^ 160 ≤ p.data.toNat))

/-- A collective packet arrives on VC3 (R216, R237). It belongs to the running context: Table 11.6 names none. One of a
collective that is over has no further effect. -/
def collArrive (kind : Nat) (f : Flit) (p : CPkt) (s : State) : State :=
  if !packetArrives s f [3] then s
  else if f.resv || collReserved kind p then incr s 0x407402 1
  else if f.epoch ≠ rd s 0x400200 % 65536 then incr s 0x406000 1
  else match runningId s with
    | none => s
    | some id =>
      let c := getC s id
      if p.step < c.step ∨ (p.step = c.step ∧ p.seq < c.collSeq) then s
      else collPump (setC s id { c with collIn := c.collIn ++ [(kind, p)] }) id

/-- COLL_OPEN_UP. -/
def execCollOpenUp (f : Flit) (p : CPkt) (s : State) : Out := .next (collArrive 0x10 f p s)

/-- COLL_OPEN_DOWN. -/
def execCollOpenDown (f : Flit) (p : CPkt) (s : State) : Out := .next (collArrive 0x11 f p s)

/-- COLL_UP. -/
def execCollUp (f : Flit) (p : CPkt) (s : State) : Out := .next (collArrive 0x12 f p s)

/-- COLL_DOWN. -/
def execCollDown (f : Flit) (p : CPkt) (s : State) : Out := .next (collArrive 0x13 f p s)

/-- COLL_A2A. -/
def execCollA2a (f : Flit) (p : CPkt) (s : State) : Out := .next (collArrive 0x14 f p s)

/-! ### Issue and entry (R265 to R268) -/

/-- R265, R266: the halt code of a request that breaks them. -/
def collBad (c : Context) (q : CollReq) (vd va : View) : Option Nat :=
  let nd := viewCount vd
  let na := viewCount va
  let W := jobWorkers c
  let len := if q.kind = .allred then nd else W * nd
  let shape := match q.kind with
    | .allred | .rscat => if len = 0 then decide (na = 0) else decide (0 < na ∧ na % len = 0)
    | .agth => decide (nd = W * na)
    | .bcst => decide (nd = na)
    | .a2a => decide (na = nd ∧ na % W = 0)
  let fmts := viewIs c q.fmt va && (match viewFmt c vd with
     | none => decide (nd = 0)
     | some d => if reduces q then redDest q.mode q.fmt d else decide (d = q.fmt))
  if !(shape && fmts) then some 0x0402
  else if reduces q && decide (q.mode = .exact ∧ len ≠ 0) && decide (2 ^ 42 ≤ W * (na / len)) then some 0x0406
  else none

/-- Code of a view's format in the signature. -/
def sigFmt (c : Context) (v : View) : Nat :=
  if viewCount v = 0 then Config.emptyFmt else match viewFmt c v with | some f => fmtCode f | none => Config.emptyFmt

/-- The signature (R268). -/
def collSig (c : Context) (opcode cfield chunk root rm : Nat) (vd va : View) : BitVec 64 :=
  [cfield, if chunk = 0 then 65536 else chunk, viewCount va, viewCount vd, sigFmt c va, sigFmt c vd, rm, root, c.collSeq].foldl
    (fun g w => mix (g ^^^ BitVec.ofNat 64 w)) (mix (BitVec.ofNat 64 opcode))

/-- A collective with no request yet. -/
def Coll.fresh : Coll := ⟨[], [], false, 0, [], none, [], [], 0, [], []⟩

/-- Adds a worker's request, by cluster. -/
def putReq (x : Coll) (q : CollReq) : Coll :=
  { x with reqs := x.reqs.filter (fun r => decide (r.cluster < q.cluster)) ++ [q] ++ x.reqs.filter (fun r => decide (q.cluster < r.cluster)) }

/-- A collective op of the worker on cluster `w`: it is checked, and the worker waits in the collective. -/
def collOp (w : Cluster) (kind : CollKind) (fmt : Fmt) (mode : RedMode) (op : RedOp) (cfield chunk : Nat) (d a : VReg)
    (b : Option SReg) (s : State) : State :=
  issue s w 1 (fun s _ c k =>
    let vd := getV k d
    let va := getV k a
    let root := match b with | some r => (getS k r).toNat | none => 0
    let rm := rmCode (rmOf k.acw)
    let q : CollReq := ⟨w, kind, fmt, mode, op, chunk, root, rm, vd, va, (viewFmt c vd).getD fmt,
      collSig c (collOpcode kind) cfield chunk root rm vd va⟩
    if b.isSome ∧ c.n ≤ root then operandHalt s c k codeOperandRange
    else match viewClash c k [va] [vd] with
      | some y => .wait s c k y
      | none =>
        if destHeld c w vd (viewCount vd) then pageWait s c w k vd (viewCount vd) []
        else match collBad c q vd va with
          | some code => .halt s c k code 0x05 code 0 none
          | none => .jump s { c with coll := some (putReq (c.coll.getD Coll.fresh) q) } { k with run := .inColl })

/-- C[1:0] of a mode, C[3:2] of an op. -/
def redField (mode : RedMode) (op : RedOp) : Nat :=
  (match mode with | .plain => 0 | .exact => 1 | .repro => 2) + 4 * (match op with | .sum => 0 | .max => 1 | .min => 2)

/-- CALLRED. -/
def execCallred (w : Cluster) (fmt : Fmt) (mode : RedMode) (op : RedOp) (chunk : Nat) (d a : VReg) (s : State) : Out :=
  if redAccepts mode op fmt then .next (collOp w .allred fmt mode op (redField mode op) chunk d a none s)
  else .refused (.reservedEncoding "CALLRED")

/-- CRSCAT. -/
def execCrscat (w : Cluster) (fmt : Fmt) (mode : RedMode) (op : RedOp) (chunk : Nat) (d a : VReg) (s : State) : Out :=
  if redAccepts mode op fmt then .next (collOp w .rscat fmt mode op (redField mode op) chunk d a none s)
  else .refused (.reservedEncoding "CRSCAT")

/-- CAGTH. -/
def execCagth (w : Cluster) (fmt : Fmt) (chunk : Nat) (d a : VReg) (s : State) : Out :=
  .next (collOp w .agth fmt .plain .sum 0 chunk d a none s)

/-- CBCST. -/
def execCbcst (w : Cluster) (fmt : Fmt) (chunk : Nat) (d a : VReg) (b : SReg) (s : State) : Out :=
  .next (collOp w .bcst fmt .plain .sum 0 chunk d a (some b) s)

/-- CA2A. -/
def execCa2a (w : Cluster) (fmt : Fmt) (chunk : Nat) (d a : VReg) (s : State) : Out :=
  .next (collOp w .a2a fmt .plain .sum 0 chunk d a none s)

/-- Whether a worker's own v[A] is read. -/
def readsOwn (c : Context) (q : CollReq) : Bool := decide (q.kind ≠ .bcst) || decide (q.cluster = 0 ∧ q.root = c.rank)

/-- A job of one device has no fabric stage: every result element is written at once (R263). -/
def oneDevice (s : State) (id : Nat) (q : CollReq) (reqs : List CollReq) (src : List (List Nat)) : State :=
  let sc := flitAccess s (getC s id) q reqs 0 (List.range (streamElems (getC s id) q))
  let s := sc.1
  let c := sc.2
  let c := (List.range (streamElems c q)).foldl (fun c i =>
    let xs := collTerms src (streamElems c q) i
    let p := if reduces q then devicePart q (wireForm q) xs (reproM (xs.map (Sys2Proof.Machine.decode q.fmt)))
      else (rawPart c q src 0 i, 0)
    let c := reqs.foldl (fun c r => setW c r.cluster (mergeAsw (getW c r.cluster) p.2)) c
    writeResult c q reqs 0 i p.1) c
  modColl (setC s id c) id (fun x => { x with started := totalChunks c q, vals := some ⟨x.entryNs, x.entryNs, c.rank⟩ })

/-- The first worker whose v[A] cannot be read when the device enters. -/
def entryTrouble (c : Context) (reqs : List CollReq) : Option (CollReq × Trouble) :=
  reqs.findSome? (fun r =>
    if readsOwn c r then
      (trouble c (getW c r.cluster) (placesOf c r.cluster r.a (allOf r.a)) []).map (fun t => (r, t))
    else none)

/-- The device stage reads every worker's v[A]. -/
def entryReads (s : State) (c : Context) (reqs : List CollReq) : State × Context :=
  reqs.foldl (fun sc r => if readsOwn c r then viewAccess sc.1 sc.2 r.cluster r.a (allOf r.a) false false else sc) (s, c)

/-- COLL_DEVICE_ENTRY: the last of the device's workers has issued the collective. Unequal signatures end the job;
otherwise the device stage starts, and with more than one member the chunks leave. -/
def execCollDeviceEntry (s : State) : Out :=
  .next (match runningId s with
  | none => s
  | some id =>
    let c := getC s id
    match c.coll with
    | none => s
    | some x =>
      if x.entered || decide (x.reqs.length ≠ 4000) || !isRunning c then s
      else
        match x.reqs with
        | [] => s
        | q :: rest =>
          if rest.any (fun r => decide (r.sig ≠ q.sig)) then collMismatch s id
          else
            match entryTrouble c x.reqs with
            | some (r, t) => applyRes id r.cluster 0 (troubleRes s r.cluster c (getW c r.cluster) t)
            | none =>
              let sc := entryReads s c x.reqs
              let s := sc.1
              let c := sc.2
              let src := x.reqs.map (fun r => if readsOwn c r then readView c r.cluster (getW c r.cluster) r.a else [])
              let c := (x.reqs.zip src).foldl (fun c r =>
                setW c r.1.cluster (mergeAsw (getW c r.1.cluster) (contributeFlags q r.2))) c
              let s := setC s id { c with coll := some { x with src := src, entered := true, entryNs := s.ptpNs } }
              if c.n ≤ 1 then collPump (oneDevice s id q x.reqs src) id
              else
                let s := openOwn s id q.sig ⟨s.ptpNs, s.ptpNs, c.rank⟩
                collPump (startChunks (totalChunks c q) s id q) id)

/-! ### Checks, failures, lateness -/

/-- RESIDUE_CHECK_DONE: a destination's oldest pending check completes. -/
def execResidueCheckDone (s : State) : Out :=
  .next (match s.ctxs.find? (fun p => !p.2.checks.isEmpty) with
  | none => s
  | some (id, c) =>
    match c.checks with
    | [] => s
    | k :: ks =>
      let s := incr (setC s id { c with checks := ks }) 0x408300 1
      if k.1 then s else raiseCorrupt s id k.2.2 0x0403)

/-- A collective in progress ends with `code`: its workers halt, its record is written with DONE = 0, and the module halts
(R283, R260). What the members' entries were is not known where COLL_OPEN_DOWN has not come: free values. The address,
and for a timeout the device, that REMOTE_LAST_FAIL names are free. -/
def collEnd (s : State) (id code : Nat) (device : Option Nat) : State :=
  let c := getC s id
  match c.coll with
  | none => s
  | some x =>
    if !x.entered then s
    else
      let f := drawNat s
      let g := drawNat f.2
      let h := drawNat g.2
      let a := drawNat h.2
      let v := x.vals.getD ⟨f.1 % 2 ^ 64, g.1 % 2 ^ 64, h.1 % 2 ^ 32⟩
      let dev := device.getD (a.1 / 2 ^ 64)
      let c := pushRecord c (collRecord c x v 0)
      let c := x.reqs.foldl (fun c r =>
        ewr (setW c r.cluster { getW c r.cluster with run := .halted code, wait := none }) 0x407002
          (leNat (natLe 2 code ++ natLe 2 dev ++ natLe 2 r.cluster ++ natLe 2 0 ++ natLe 8 a.1))) c
      endJob (setC a.2 id { c with coll := none }) id 0x05 code

/-- COLLECTIVE_TIMEOUT: the collective in progress has not completed COLL_TIMEOUT_MS after the device's entry. -/
def execCollectiveTimeout (s : State) : Out :=
  .next (match runningId s with
  | none => s
  | some id => collEnd s id 0x0404 none)

/-- REMOTE_DEAD_NOTICE for the collectives that a member takes part in (R283). -/
def deadCollectives (s : State) (device : Nat) : State :=
  (liveIds s).foldl (fun s id => if device ∈ (getC s id).ids then collEnd s id 0x0302 (some device) else s) s

/-- LATE_WINDOW_END: in every context the current counters become the previous set and restart (R281). -/
def execLateWindowEnd (s : State) : Out :=
  .next ((liveIds s).foldl (fun s id => modC s id (fun c =>
    (List.range 4).foldl (fun c i => ewr (ewr c (0x408204 + i) (erd c (0x408200 + i))) (0x408200 + i) 0) c)) s)

end Sys2Proof.Machine
end

