-- ==== Sys2Proof/Machine/Ckpt.lean ====
section
/-! DEFINITION. Checkpoint, restore and reclaim (R319 to R342): the Ladle, votes and commit, the buddy slot, restore, the
predictive warnings, and the effects of the checkpoint entries. -/

namespace Sys2Proof.Machine

open Sys2Proof

/-- The worker that a restore on a spare sets from the save area: Table 14.7 restores it, and R323 does not lay out the
record's fields (log entry 6). Arguments: generation, logical cluster. -/
opaque savedWorker : Nat → Nat → Worker

/-- Whether a generation is in flight (R341). -/
def genInFlight (s : State) : Bool := s.ctxs.any (fun p => !(undecided p.2).isEmpty)

/-- The capture of a generation: the newest one, or an earlier one that is not decided yet. -/
def capOf (c : Context) (gen : Nat) : Option Capture := (c.capture.toList ++ c.prior).find? (fun g => decide (g.gen = gen))

/-- Whether a generation is the context's newest. -/
def isNewest (c : Context) (gen : Nat) : Bool := decide (c.capture.map (·.gen) = some gen)

/-- Replaces the capture of a generation; an earlier one that is decided is gone. -/
def putCap (c : Context) (g : Capture) : Context :=
  if isNewest c g.gen then { c with capture := some g }
  else { c with prior := if g.decided then c.prior.filter (fun x => decide (x.gen ≠ g.gen))
                         else c.prior.map (fun x => if x.gen = g.gen then g else x) }

/-- CAPTURE_STATE follows the newest generation. -/
def capState (c : Context) (gen v : Nat) : Context := if isNewest c gen then ewr c 0x801000 v else c

/-- Changes the capture of a context. -/
def modCap (s : State) (id : Nat) (f : Capture → Capture) : State := modC s id (fun c => { c with capture := c.capture.map f })

/-- A reason turns the vote dirty; the first one stays (R335). -/
def dirtyCap (s : State) (id reason : Nat) : State := modCap s id (fun g => if g.reason = 0 then { g with reason := reason } else g)

/-! ### Votes and commit (R331, R335, R336) -/

/-- The votes of a generation at rank 0. -/
def votesOf (s : State) (gen : Nat) : GenVotes := (s.ckpt.gens.find? (fun g => decide (g.gen = gen))).getD ⟨gen, [], [], 0⟩

/-- Replaces the votes of a generation. -/
def putVotes (s : State) (g : GenVotes) : State :=
  { s with ckpt := { s.ckpt with gens := s.ckpt.gens.filter (fun x => decide (x.gen ≠ g.gen)) ++ [g] } }

/-- Sends a message to every member; `self` is its effect on this device. -/
def toMembers (s : State) (c : Context) (m : Ctl) (self : State → State) : State :=
  (List.range c.n).foldl (fun s r => if r = c.rank then self s else sendCtl s (deviceOf c r) m) s

/-- The context with a capture of a generation. -/
def capturedCtx (s : State) (gen : Nat) : Option Nat := (liveIds s).find? (fun id => (capOf (getC s id) gen).isSome)

/-- A device named in the buddy slot's key, or this device's buddy: a message goes to it, if there is one. -/
def toBuddy (s : State) (m : Ctl) : State := if rd s 0x800200 = 0xFFFF then s else sendCtl s (rd s 0x800200) m

/-- COMMIT_DONE at a member: the journal bytes of generations up to it are folded, and its buddy is told (R336). -/
def memberDone (s : State) (gen : Nat) : State :=
  toBuddy { s with ckpt := { s.ckpt with unfolded := s.ckpt.unfolded.filter (fun p => decide (gen < p.1)) } } (.commitDone gen)

/-- An acknowledgement at rank 0; the last one completes the generation. -/
def takeAck (s : State) (gen rank : Nat) : State :=
  match jobCtx s with
  | none => s
  | some id =>
    let c := getC s id
    let g := votesOf s gen
    if g.state ≠ 1 ∨ c.n ≤ rank ∨ rank ∈ g.acks then s
    else
      let g := { g with acks := g.acks ++ [rank], state := if g.acks.length + 1 = c.n then 3 else 1 }
      let s := putVotes s g
      if g.state = 3 then toMembers s c (.commitDone gen) (fun s => memberDone s gen) else s

/-- COMMIT at a member: LAST_COMMIT is set, CKPT_MARK is logged and the generation acknowledged (R336, R312). -/
def memberCommit (s : State) (gen digest : Nat) : State :=
  match capturedCtx s gen with
  | none => s
  | some id =>
    let c := getC s id
    match capOf c gen with
    | none => s
    | some g =>
      if g.decided || c.noCommit then s
      else
        let c := capState (ewr c 0x801001 (gen + 2 ^ 32 * g.step + 2 ^ 64 * (digest % 2 ^ 512))) gen 1
        let s := setC s id (putCap c { g with decided := true })
        let s := logInput s id 0x0A g.step gen 0 []
        if c.rank = 0 then takeAck s gen 0 else sendCtl s (deviceOf c 0) (.commitAck gen c.rank)

/-- ABORT at a member: every page listed in the generation is DIRTY again (R334), an aborted full capture is repeated
(R324), and the buddy is told. -/
def memberAbort (s : State) (gen : Nat) (reason : Nat) : State :=
  match capturedCtx s gen with
  | none => s
  | some id =>
    let c := getC s id
    match capOf c gen with
    | none => s
    | some g =>
      if g.decided then s
      else
        let c := { putCap (capState (g.pages.foldl touchDirty c) gen 1) { g with decided := true } with
          fullNext := c.fullNext || g.full, saves := c.saves.filter (fun v => decide (v.gen ≠ gen)) }
        let s := setC s id c
        let s := { s with ckpt := { s.ckpt with unfolded := s.ckpt.unfolded.filter (fun p => decide (p.1 ≠ gen)) } }
        toBuddy s (.abort gen reason)
where
  /-- DIRTY on one page. -/
  touchDirty (c : Context) (p : Nat) : Context := { c with pages := tset pageFresh c.pages p (pageFlags c p ||| 0x4000) }

/-- Rank 0 aborts a generation. -/
def abortGen (s : State) (c : Context) (gen reason : Nat) : State :=
  let s := putVotes s { votesOf s gen with state := 2 }
  let s := { s with pkg := { s.pkg with notes := s.pkg.notes ++ [.aborted gen reason] } }
  toMembers s c (.abort gen reason) (fun s => memberAbort s gen reason)

/-- The bytes of a shard entry (Table 14.5). -/
def entryOfShard (e : Shard) : List Byte :=
  natLe 4 e.rank ++ natLe 2 e.device ++ natLe 2 e.buddy ++ natLe 1 e.kind ++ natLe 1 (bit e.dirty) ++ natLe 2 e.reason ++ natLe 4 e.prevGen
    ++ natLe 4 e.pages ++ natLe 4 0 ++ natLe 8 e.bytes ++ natLe 8 e.storeOff ++ natLe 24 0 ++ natLe 64 e.digest

/-- The manifest of a generation whose votes are in: header, entries in rank order, signature (R332). The signature is salted, and its bytes
are free. -/
def manifestBytes (s : State) (c : Context) (g : GenVotes) : List Byte × State :=
  let step := match capOf c g.gen with | some x => x.step | none => c.step
  let head := natLe 4 0x5453464D ++ natLe 2 1 ++ natLe 2 0 ++ natLe 8 (rd s 0x800100) ++ natLe 4 g.gen ++ natLe 4 step ++ natLe 4 c.n
    ++ natLe 2 (ownId s) ++ natLe 2 0 ++ natLe 12 (rd s 0x100200) ++ natLe 4 (rd s 0x501000) ++ natLe 64 (modOf c).digest ++ natLe 8 s.ptpNs
    ++ natLe 136 0
  let es := g.votes.mergeSort (fun x y => decide (x.rank ≤ y.rank))
  let sig := drawBytes s 512
  (head ++ es.flatMap entryOfShard ++ sig.1, sig.2)

/-- Rank 0 decides once every vote is in. A job that has ended for good commits nothing: its generation is left to the vote timeout (R86, R268;
log entry 96). Rank 0 keeps the last four manifests, and writes each to STORAGE_SINK while STORAGE_EN is 1 (R332). Its digest is the SHA-512
of the whole manifest (DEDUCED, log entry 106). -/
def decideGen (s : State) (c : Context) (gen : Nat) : State :=
  let g := votesOf s gen
  if g.state ≠ 0 ∨ g.votes.length < c.n ∨ c.noCommit = true then s
  else match g.votes.find? (fun e => e.dirty) with
    | some e => abortGen s c gen e.reason
    | none =>
      let m := manifestBytes s c g
      let digest := sha512 m.1
      let ms := m.2.ckpt.manifests ++ [(gen, m.1)]
      let s := { m.2 with ckpt := { m.2.ckpt with manifests := ms.drop (ms.length - 4) } }
      let s := if rd s 0x800300 = 1 then sendRoce s ((jobCtx s).getD 0) m.1 else s
      let s := putVotes s { g with state := 1 }
      let s := { s with pkg := { s.pkg with notes := s.pkg.notes ++ [.committed gen] } }
      toMembers s c (.commit gen digest) (fun s => memberCommit s gen digest)

/-- A vote at rank 0; a rank votes once. -/
def takeVote (s : State) (gen : Nat) (e : Shard) : State :=
  match jobCtx s with
  | none => s
  | some id =>
    let c := getC s id
    let g := votesOf s gen
    if c.rank ≠ 0 ∨ c.n ≤ e.rank ∨ g.state ≠ 0 ∨ g.votes.any (fun x => decide (x.rank = e.rank)) = true then s
    else decideGen (putVotes s { g with votes := g.votes ++ [e] }) c gen

/-- The digest of a shard, over those of its records in ascending VPAGE order (R330). -/
def shardDigest (g : Capture) : Nat :=
  sha512 ((g.recs.mergeSort (fun x y => decide (x.1 ≤ y.1))).flatMap (fun r => natLe 64 r.2))

/-- The device casts its vote for the capture of a context: its shard entry goes to rank 0 (Table 14.5). The offset
that the shard takes at STORAGE_SINK is free. Either vote raises its event (Table 1.6); a clean one's CODE is
0 (DESIGN CHOICE, log entry 82). -/
def castVote (s : State) (id : Nat) (g : Capture) (reason : Nat) : State :=
  let o := drawNat s
  let s := o.2
  let c := getC s id
  let e : Shard := ⟨c.rank, ownId s, rd s 0x800200, bit g.full + 2 * bit g.stored + 4 * bit g.storedFull, decide (reason ≠ 0),
    reason, g.prevGen, g.count, g.count * recordBytes, if g.stored then o.1 % 2 ^ 64 else 0, shardDigest g⟩
  let s := setC s id (capState (putCap c { g with voted := true, reason := reason }) g.gen 3)
  let s := raiseEvent s 24 (mkRec 0 0x0F 0x200 reason id c.step 0) none false
  if c.rank = 0 then takeVote s g.gen e else sendCtl s (deviceOf c 0) (.vote g.gen e)

/-- A context with a capture that has not been voted on, its oldest first. -/
def unvoted (s : State) : Option (Nat × Capture) :=
  (liveIds s).findSome? (fun id => ((undecided (getC s id)).find? (fun g => !g.voted)).map (fun g => (id, g)))

/-- Whether every record of a generation has been acknowledged by its destinations (R335). -/
def shardStored (s : State) (id : Nat) (g : Capture) : Bool :=
  g.todo.isEmpty && (spoolOf s id).all (fun x => decide (x.gen ≠ g.gen))

/-- VOTE_CAST: once every record is acknowledged and every residue check of a flit received before the step point is complete (R279,
R335). -/
def execVoteCast (s : State) : Out :=
  .next (match unvoted s with
  | none => s
  | some (id, g) =>
    let c := getC s id
    if !(shardStored s id g && c.checks.all (fun k => decide (g.step ≤ k.2.1))) || c.noCommit then s
    else castVote s id g (if c.corruptSinceCommit then 0x0403 else g.reason))

/-- CKPT_VOTE: a member's vote arrives at rank 0. -/
def execCkptVote (gen : Nat) (e : Shard) (s : State) : Out := .next (takeVote s gen e)

/-- CKPT_VOTE_TIMEOUT: VOTE_TIMEOUT_MS have passed at rank 0 since its own capture of the generation. -/
def execCkptVoteTimeout (gen : Nat) (s : State) : Out :=
  .next (match capturedCtx s gen with
  | none => s
  | some id =>
    let c := getC s id
    if c.rank ≠ 0 ∨ (votesOf s gen).state ≠ 0 then s
    else
      let dirty := (votesOf s gen).votes.find? (fun e => e.dirty)
      abortGen s c gen (match dirty with | some e => e.reason | none => 0x0805))

/-- COMMIT: rank 0's decision arrives at a member. -/
def execCommit (gen digest : Nat) (s : State) : Out := .next (memberCommit s gen digest)

/-- COMMIT_ACK arrives at rank 0. -/
def execCommitAck (gen rank : Nat) (s : State) : Out := .next (takeAck s gen rank)

/-! ### The buddy slot (R333, R334) -/

/-- The image with a record in place of an older one of its page. -/
def putImage (im : List BuddyRec) (r : BuddyRec) : List BuddyRec := im.filter (fun x => decide (x.vpage ≠ r.vpage)) ++ [r]

/-- Journal generations up to `gen` are folded into the base, which then stands at `gen`. -/
def foldJournal (b : BuddySlot) (gen : Nat) : BuddySlot :=
  let rs := (b.journal.filter (fun r => decide (r.gen ≤ gen))).mergeSort (fun x y => decide (x.gen ≤ y.gen))
  let j := b.journal.filter (fun r => decide (gen < r.gen))
  { b with base := max b.base gen, image := rs.foldl putImage b.image, journal := j, inFlight := !j.isEmpty }

/-- COMMIT_DONE: from rank 0 at a member, or from the partner at its buddy. -/
def execCommitDone (gen : Nat) (fromPartner : Bool) (s : State) : Out :=
  .next (if fromPartner then { s with ckpt := { s.ckpt with buddy := foldJournal s.ckpt.buddy gen } } else memberDone s gen)

/-- ABORT: from rank 0 at a member, or from the partner at its buddy, which discards the generation's records. -/
def execAbort (gen : Nat) (fromPartner : Bool) (s : State) : Out :=
  .next (if fromPartner then
    let b := s.ckpt.buddy
    let j := b.journal.filter (fun r => decide (r.gen ≠ gen))
    { s with ckpt := { s.ckpt with buddy := { b with journal := j, inFlight := !j.isEmpty } } }
  else memberAbort s gen 0)

/-! ### The Ladle (R326 to R329) -/

/-- Home die of a listed page: a save-area page of CD k's workers lies at CD k (R323). -/
def pageDie (s : State) (c : Context) (p : Nat) : Nat :=
  let k := (p - 0x80000000) / max 1 (savePagesEach c)
  if 0x80000000 ≤ p then (if k < 4000 then k / 500 else 0) else sliceOf s c (p * pageBytes) / 32

/-- Stack-local page of a listed page. Which pages of its die hold the save area is not stated (R323). -/
def pageSeat (s : State) (c : Context) (p : Nat) : Nat :=
  if 0x80000000 ≤ p then Config.stackPage p % (rd s 0x300100 * 16384) else stackLine s c (p * pageBytes) / 512

/-- The page with the lowest stack-local address, the first of equals. -/
def lowestPage (s : State) : List (Nat × Nat) → Option (Nat × Nat)
  | [] => none
  | p :: ps =>
    match lowestPage s ps with
    | none => some p
    | some q => if pageSeat s (getC s q.1) q.2 < pageSeat s (getC s p.1) p.2 then some q else some p

/-- The page that the Ladle of a die copies next: held pages in the order they became held, else the listed pages in ascending stack-local
address (R326, R327). -/
def nextPage (s : State) (die : Nat) : Option (Nat × Nat × Bool) :=
  match s.ckpt.heldPages.find? (fun h => decide (pageDie s (getC s h.1) h.2 = die) && pageProtected (getC s h.1) h.2) with
  | some h => some (h.1, h.2, true)
  | none =>
    let all := (liveIds s).flatMap (fun id => match (getC s id).capture with
      | some g => (g.todo.filter (fun p => decide (pageDie s (getC s id) p = die))).map (fun p => (id, p))
      | none => [])
    (lowestPage s all).map (fun p => (p.1, p.2, false))

/-- The head of a page record (Table 14.4). -/
def recordHead (s : State) (c : Context) (g : Capture) (vpage : Nat) : List Byte :=
  natLe 4 0x44524350 ++ natLe 4 g.gen ++ natLe 4 c.rank ++ natLe 4 vpage ++ natLe 8 (rd s 0x800100) ++ natLe 4 g.step
    ++ natLe 1 (if 0x80000000 ≤ vpage then 1 else 0) ++ natLe 3 0 ++ natLe 16 g.salt ++ natLe 16 0

/-- The shard key (R329). -/
def shardKey (s : State) (c : Context) (g : Capture) : Nat :=
  leNat ((hmac512 (natLe 32 s.wen.ckptKey)
    ([0x50, 0x43, 0x52, 0x44] ++ natBe 8 (rd s 0x800100) ++ natBe 4 g.gen ++ natBe 4 c.rank ++ natLe 16 g.salt)).take 32)

/-- Bytes of a worker's save area: the 112 KiB record, whose fields R323 does not lay out, then its L0 tensors with CKPT. `free` gives the
record's bytes. -/
def saveBytes (c : Context) (k : Worker) (free : Nat → Byte) : List Byte :=
  (List.range 114688).map free ++ (List.range (modOf c).tensors.length).flatMap (fun t =>
    match (modOf c).tensors[t]? with
    | some d => if inSaveArea c t then rdBytes k.l0 (l0Base c t) (tensorBytes d) else []
    | none => [])

/-- DATA of a page record: a tensor page, a page of a worker's save area, or one of a resident area (R323). -/
def pageData (s : State) (c : Context) (g : Capture) (p : Nat) : List Byte :=
  if p < 0x80000000 then rdBytes c.vmem (p * pageBytes) pageBytes
  else
    let n := p - 0x80000000
    let each := max 1 (savePagesEach c)
    if n < 4000 * savePagesEach c then
      let saved := ((c.saves.find? (fun v => decide (v.gen = g.gen))).map (fun v => tget Worker.initial v.workers (n / each))).getD Worker.initial
      padTo pageBytes (((saveBytes c saved (Config.freeByte s.freeIdx)).drop (n % each * pageBytes)).take pageBytes)
    else
      let r := n - 4000 * savePagesEach c
      let areas := ((c.saves.find? (fun v => decide (v.gen = g.gen))).map (·.resident)).getD []
      rdBytes (areas.getD (r / 128) []) (r % 128 * pageBytes) pageBytes

/-- A page record: its head, then the page sealed under the shard key with the head as additional data (R329). -/
def pageRecord (s : State) (c : Context) (g : Capture) (p : Nat) : List Byte :=
  let head := recordHead s c g p
  head ++ gcmSeal (shardKey s c g) (natBe 4 g.gen ++ natBe 4 c.rank ++ natBe 4 p) head (pageData s c g p)

/-- Sends a page record to the buddy as WRITE_REQ lines in space 0 on VC4. -/
def sendRecord (s : State) (die id base : Nat) (bytes : List Byte) : State :=
  let m := masterId die 0x201
  (List.range 513).foldl (fun s i =>
    let chunk := (bytes.drop (128 * i)).take 128
    let p := rpkt 0 (rd s 0x800200) (buddyBase s + base + 128 * i) id m (i % 64)
    sendPkt s 4 0x02 (rd s 0x800200) m
      (some { p with mask := BitVec.ofNat 128 (2 ^ chunk.length - 1), data := BitVec.ofNat 1024 (leNat chunk) }) none) s

/-- The page leaves the Ladle's list: PROTECT is cleared, and what waited for it goes on. -/
def pageCopied (s : State) (id p : Nat) : State :=
  let s := modCap s id (fun g => { g with todo := g.todo.filter (· ≠ p) })
  let s := if p < 0x80000000 then modC s id (fun c => setProtect c p false) else s
  releaseHeld { s with ckpt := { s.ckpt with heldPages := s.ckpt.heldPages.filter (fun h => !decide (h.1 = id ∧ h.2 = p)) } } id p

/-- Whether the access tables let the Ladle of a die read a page of a context; the save area is its own unit's (R360). -/
def ladleAdmits (s : State) (die : Nat) (id p : Nat) : Bool := decide (0x80000000 ≤ p) || pageAdmits s (masterId die 0x201) id 0

/-- A page's record leaves for its destinations: the buddy, the storage's queue pair. -/
def sendCopies (s : State) (die id base : Nat) (buddy stored : Bool) (bytes : List Byte) : State :=
  let s := if buddy then sendRecord s die id base bytes else s
  if stored then sendRoce s id bytes else s

/-- A page read by a die's Ladle takes a spool slot until its destinations have acknowledged it, and its record leaves (R326, R329). Where its
slot lies in the spool is free. -/
def spoolPage (s : State) (die id : Nat) (c : Context) (g : Capture) (p : Nat) : State :=
  let base := (drawNat s).1 % 2 ^ 20 * 65664
  let toB := decide (rd s 0x800200 ≠ 0xFFFF ∧ p ∉ g.storeOnly)
  let bytes := pageRecord s c g p
  let slot : SpoolSlot := ⟨id, p, if toB then 513 else 0, !toB, !g.stored, base, g.gen⟩
  let t := modCap (sendCopies { (drawNat s).2 with freeIdx := (drawNat s).2.freeIdx + 1 } die id base toB g.stored bytes) id
    (fun g => { g with recs := g.recs ++ [(p, sha512 bytes)] })
  modC (if toB || g.stored then { t with ckpt := { t.ckpt with spool := tset [] t.ckpt.spool die (tget [] t.ckpt.spool die ++ [slot]) } } else t) id
    (fun c => eincr c 0x801102 (recordBytes * (bit toB + bit g.stored)))

/-- The Ladle of a die reads its next page into a free spool slot, clears PROTECT and sends the record
to its destinations. An uncorrectable error on the read sends nothing of the page, and the vote turns dirty (R328). -/
def ladleCopy (die : Fin 8) (fault : Bool) (s : State) : State :=
  match nextPage s die with
  | none => s
  | some (id, p, held) =>
    let slots := tget [] s.ckpt.spool die.val
    if slots.length ≥ (if held then 1024 else 992) then s
    else
      let c := getC s id
      match c.capture with
      | none => pageCopied s id p
      | some g =>
        if p ∉ g.todo then pageCopied s id p
        else if !ladleAdmits s die id p then pageCopied (dirtyCap (localDenied s die 0x201 id) id 0x0803) id p
        else if fault || (decide (p < 0x80000000) && rangeBad c (p * pageBytes) pageBytes) then
          pageCopied (dirtyCap (stackFault s id (p * pageBytes)) id 0x0803) id p
        else pageCopied (spoolPage s die id c g p) id p

/-- LADLE_SLOT_TIMEOUT: a destination has not acknowledged the oldest slot of a die in time. -/
def execLadleSlotTimeout (die : Fin 8) (s : State) : Out :=
  .next (match tget [] s.ckpt.spool die.val with
  | [] => s
  | x :: xs => dirtyCap { s with ckpt := { s.ckpt with spool := tset [] s.ckpt.spool die.val xs } } x.ctx 0x0804)

/-- CKPT_STORAGE_ACK: storage acknowledges the oldest unstored slot of a die, or reports an RDMA error. -/
def execCkptStorageAck (die : Fin 8) (error : Bool) (s : State) : Out :=
  .next (
    let slots := tget [] s.ckpt.spool die.val
    match slots.findIdx? (fun x => !x.store) with
    | none => s
    | some i =>
      match slots[i]? with
      | none => s
      | some x =>
        let slots := if x.buddy then slots.eraseIdx i else slots.set i { x with store := true }
        let s := { s with ckpt := { s.ckpt with spool := tset [] s.ckpt.spool die.val slots } }
        if error then dirtyCap s x.ctx 0x0804 else s)

/-! ### Restore (R338, R339) -/

/-- Every choice of generation, source and step that R339 allows, in its order: `cands` are the generations with a verified
manifest, `held` what each rank can restore (rank, generation, step, source). -/
def restoreChoices (n target : Nat) (cands : List Nat) (held : List (Nat × Nat × Nat × Nat)) : List (Nat × Nat × Nat) :=
  let gs := (cands.filter (fun g => decide (target = 0 ∨ g ≤ target))).mergeSort (fun a b => decide (b ≤ a))
  let ok := fun (g src : Nat) => (List.range n).all (fun r => held.any (fun h => decide (h.1 = r ∧ h.2.1 = g ∧ h.2.2.2 = src)))
  let step := fun (g : Nat) => ((held.find? (fun h => decide (h.2.1 = g))).map (fun h => h.2.2.1)).getD 0
  (gs.filter (fun g => ok g 1)).map (fun g => (g, 1, step g)) ++ (gs.filter (fun g => ok g 2)).map (fun g => (g, 2, step g))

/-- MIXED_SHARDS: for each rank its newest restorable generation, step and source. -/
def mixedShards (n : Nat) (held : List (Nat × Nat × Nat × Nat)) : Nat :=
  leNat ((List.range (min n 64)).flatMap (fun r =>
    let best := (held.filter (fun h => decide (h.1 = r))).foldl (fun b h => if h.2.1 ≥ b.1 then h.2 else b) (0, 0, 0)
    natLe 4 r ++ natLe 4 best.1 ++ natLe 4 best.2.1 ++ natLe 1 best.2.2 ++ natLe 3 0))

/-- The restore is refused with MIXED_STEP. -/
def refuseRestore (s : State) (mixed : Nat) : State :=
  let s := wr (wr s 0x801201 3) 0x801202 mixed
  raiseEvent { s with ckpt := { s.ckpt with restoreCands := [] } } 24 (mkRec 0 0x0F 0x200 0x0809 ((jobCtx s).getD 0xFFFF) 0 0) none false

/-- RESTORE_CMD's effect: the restore runs, or rank 0 refuses it. -/
def restoreStart (s : State) (target next : Nat) (cands : List Nat) (held : List (Nat × Nat × Nat × Nat)) : State :=
  let n := match jobCtx s with | some id => (getC s id).n | none => 1
  let choices := restoreChoices n target cands held
  if choices = [] then refuseRestore s (mixedShards n held)
  else
    let s := wr s 0x801201 1
    { s with ckpt := { s.ckpt with restoreCands := choices, restoreNext := next, restoreMixed := mixedShards n held } }

/-- A worker as its save-area record of the generation leaves it; L0 bytes of tensors outside protected state stay. -/
def restoreWorker (c : Context) (saved : Option SaveArea) (gen cl : Nat) (pages : List (Nat × List Byte)) : Worker :=
  let m := modOf c
  let each := savePagesEach c
  let bytes := (List.range each).flatMap (fun i =>
    ((pages.find? (fun p => decide (p.1 = 0x80000000 + cl * each + i))).map (fun p => padTo pageBytes p.2)).getD (List.replicate pageBytes 0))
  let base := match saved with | some v => tget Worker.initial v.workers cl | none => savedWorker gen cl
  let put := fun (acc : Worker × Nat) (t : Nat) => match m.tensors[t]? with
    | some d =>
      if inSaveArea c t then
        let bs := match saved with
          | some v => rdBytes (tget Worker.initial v.workers cl).l0 (l0Base c t) (tensorBytes d)
          | none => (bytes.drop acc.2).take (tensorBytes d)
        (l0Fill acc.1 (l0Base c t) bs, acc.2 + tensorBytes d)
      else acc
    | none => acc
  ((List.range m.tensors.length).foldl put
    ({ base with run := .atStep false, wait := none, l0 := (getW c cl).l0, l0Bad := (getW c cl).l0Bad }, 114688)).1

/-- One restored page: its bytes are written, which ends ZERO (R147), and DIRTY := 0. -/
def restorePage (c : Context) (p : Nat × List Byte) : Context :=
  if 0x80000000 ≤ p.1 then c
  else clearDirty (touchPage { c with vmem := wrBytes c.vmem (p.1 * pageBytes) (p.2.take pageBytes) } p.1) p.1

/-- The resident areas of the context's targets from the save area, after the workers' pages (R323). -/
def restoreResident (s : State) (c : Context) (pages : List (Nat × List Byte)) : State :=
  let first := 0x80000000 + 4000 * savePagesEach c
  let halves := savedHalves s c
  let mem := fun (i : Nat) => (List.range 128).foldl (fun (m : Mem) j =>
    match pages.find? (fun p => decide (p.1 = first + 128 * i + j)) with
    | some p => wrBytes m (j * pageBytes) (p.2.take pageBytes)
    | none => m) []
  { s with solv := { s.solv with resident := (List.range halves.length).foldl (fun r i =>
      tset [] r (halves.getD i 0) (mem i)) s.solv.resident } }

/-- RESTORE_PULL_DONE: the pull from the chosen source ends. A record or digest that fails skips the source (R339);
otherwise the baseline is set, and the next RUN resumes every worker. -/
def execRestorePullDone (ok : Bool) (pages : List (Nat × List Byte)) (s : State) : Out :=
  .next (match s.ckpt.restoreCands, jobCtx s with
  | (gen, _, step) :: rest, some id =>
    if !ok then
      let s := raiseEvent s 24 (mkRec 0 0x0F 0x200 0x080A id 0 0) none false
      if rest = [] then refuseRestore s s.ckpt.restoreMixed
      else { s with ckpt := { s.ckpt with restoreCands := rest } }
    else
      let c := getC s id
      let saved := c.saves.find? (fun v => decide (v.gen = gen))
      let c := pages.foldl restorePage c
      let c := { c with
        workers := (List.range 4000).foldl (fun m cl => tset Worker.initial m cl (restoreWorker c saved gen cl pages)) [],
        step := step, seed := (saved.map (fun v => v.seed)).getD (erd c 0x901000), collSeq := 0, coll := none, collIn := [],
        checks := [], corruptSinceCommit := false, noCommit := false, fullNext := false,
        inputs := [], shadows := [], bulkIn := [], souts := [], outDigest := [],
        capture := c.capture.map (fun g => { g with todo := [], decided := true }), prior := [],
        saves := c.saves.filter (fun v => decide (v.gen ≤ gen)) }
      let s := restoreResident (setC s id c) c pages
      let s := wr (wr s 0x800101 s.ckpt.restoreNext) 0x801201 2
      { s with ckpt := { s.ckpt with restoreCands := [], resumeGen := some gen } }
  | _, _ => s)

/-! ### Predictive warnings (R321) -/

/-- Trip limit of a die, in degrees (Table 19.8). -/
def tripC (die : Nat) : Nat :=
  if die < 8 then 115 else if die < 24 then 110 else if die < 30 then 115 else if die < 38 then 105 else if die = 38 then 115 else 125

/-- Corrected errors of the 16 stacks and retries of the 32 ports. -/
def predCounts (s : State) : List Nat :=
  (List.range 16).map (fun i => rd s (0x300501 + i)) ++ (List.range 32).map (fun i => rd s (0x401200 + i))

/-- Whether a rate warns: its second's count exceeds both bounds of Table 14.1. -/
def rateWarns (s : State) (hist : List (List Nat)) (i now : Nat) : Bool :=
  let sum := hist.foldl (fun n xs => n + xs.getD i 0) 0
  decide (rd s 0x800502 * sum < now * hist.length ∧ rd s (if i < 16 then 0x800503 else 0x800504) < now)

/-- Whether a stack or a die is near its limit. -/
def nearLimit (s : State) : Bool :=
  let m : Int := rd s 0x800505
  (List.range 16).any (fun i => decide (1050 - 10 * m ≤ toSigned 16 (rd s (0x300201 + i))))
    || (List.range 40).any (fun d => decide (10 * (tripC d : Int) - 10 * m ≤ toSigned 16 (rd s (0x200701 + d))))

/-- PRED_RATE_SAMPLE: one second's counts against the mean of the 60 s before. The record's code is free: no table names
one for a rate warning. -/
def execPredRateSample (s : State) : Out :=
  .next (
    let now := predCounts s
    let delta := (now.zip (s.ckpt.predLast ++ List.replicate 48 0)).map (fun p => p.1 - p.2)
    let hist := s.ckpt.pred
    let full := decide (hist.length = 60)
    let warn := full && decide (rd s 0x800500 = 1) && ((List.range 48).any (fun i => rateWarns s hist i (delta.getD i 0)) || nearLimit s)
    let h := hist ++ [delta]
    let s := { s with ckpt := { s.ckpt with pred := h.drop (h.length - 60), predLast := now } }
    let s := wr s 0x800501 (if h.length < 60 then 0 else if warn then 2 else 1)
    let held := match s.ckpt.lastWarn with | some t => decide (s.ptpNs < t + rd s 0x800506 * 10 ^ 9) | none => false
    if warn && !held then
      let r := drawNat s
      raiseEvent { r.2 with ckpt := { r.2.ckpt with lastWarn := some s.ptpNs } } 39
        (mkRec 0 0x09 0x200 (r.1 % 65536) 0xFFFF 0 0) none false
    else s)

/-! ### Effects of entry writes -/

/-- JOB_ID: generations restart, requests are dropped, the next capture is full (R319, R320, R324). -/
def jobIdWrite (s : State) (v : Nat) : Except Nat State :=
  if genInFlight s then .error 0x0807
  else
    let s := wr (wrHost s 0x800100 v) 0x800101 1
    let s := { s with ctxs := s.ctxs.map (fun (p : Nat × Context) => (p.1, { p.2 with fullNext := true })) }
    .ok { s with ckpt := { s.ckpt with pending := [], gens := [], lastStored := 0, unfolded := [] } }

/-- CKPT_KEY. -/
def ckptKeyWrite (s : State) (v : Nat) : Except Nat State :=
  if genInFlight s then .error 0x0807
  else .ok { wrHost s 0x800102 v with wen := { s.wen with ckptKey := v } }

/-- BUDDY_DEVICE: the next capture is full (R324). -/
def buddyDeviceWrite (s : State) (v : Nat) : Except Nat State :=
  if genInFlight s then .error 0x0807
  else
    let s := wrHost s 0x800200 v
    .ok { s with ctxs := s.ctxs.map (fun (p : Nat × Context) => (p.1, { p.2 with fullNext := true })) }

/-- BUDDY_PARTNER: a changed key clears the slot (R333). Grade, JOB_ID and rank are those read from the partner. -/
def buddyPartnerWrite (s : State) (v : Nat) (partnerA : Bool) (job rank : Nat) : Except Nat State :=
  let b := s.ckpt.buddy
  if genInFlight s then .error 0x0807
  else if v = 0xFFFF then
    if b.inFlight then .error 0x0807
    else .ok { wrHost s 0x800201 v with ckpt := { s.ckpt with buddy := BuddySlot.empty } }
  else if partnerA ≠ gradeA s then .error 0x0808
  else if b.job = job ∧ b.rank = rank then .ok (wrHost s 0x800201 v)
  else if b.inFlight then .error 0x0807
  else .ok { wrHost s 0x800201 v with ckpt := { s.ckpt with buddy := { BuddySlot.empty with job := job, rank := rank } } }

/-- CKPT_REQUEST (R320). -/
def ckptRequestWrite (s : State) (v : Nat) : Except Nat State :=
  let step := match jobCtx s with | some id => (getC s id).step | none => 0
  if v ≤ step then .error 0x0806
  else if v ∈ s.ckpt.pending then .ok (bumpSnap s 0x800400)
  else if 8 ≤ s.ckpt.pending.length then .error 0x080C
  else .ok { bumpSnap s 0x800400 with ckpt := { s.ckpt with pending := sortNat (v :: s.ckpt.pending) } }

/-! ### Reclaim (R340) -/

/-- Loans are released (R159): neither lent nor borrowed. -/
def releaseLoans (s : State) : State := releaseLent (wr (wr s 0x303000 0xFFFF) 0x303001 0)

/-- RECLAIM_CMD = START. A reclaim under way is not started again. -/
def reclaimWrite (s : State) (v : Nat) : Except Nat State :=
  if v ≠ 1 then .error 1
  else if rd s 0x802001 ∈ [1, 2, 3] then .ok (bumpSnap s 0x802000)
  else
    let s := wr (bumpSnap s 0x802000) 0x802001 1
    .ok { s with pkg := { s.pkg with notes := s.pkg.notes ++ [.reclaimStart] },
                 ckpt := { s.ckpt with reclaimPartial := false, reclaimCut := false } }

/-- RECLAIM_STEP_WAIT_EXPIRY: no capture has taken place; the job halts with RECLAIM_PARTIAL. -/
def execReclaimStepWaitExpiry (s : State) : Out :=
  .next (if rd s 0x802001 ≠ 1 then s
  else
    let s := startFlush { s with ckpt := { s.ckpt with reclaimPartial := true } }
    match runningId s with
    | some id => endJob s id 0x0F 0x080B
    | none => s)

/-- The flush is cut off: an unvoted generation votes dirty, the hand-off ends, the loans that the halted job borrowed are released too, the scrub
begins. -/
def reclaimCut (s : State) (scrub : State → State) : State :=
  if rd s 0x802001 ∉ [1, 2] then s
  else
    let s := { s with pkg := { s.pkg with notes := s.pkg.notes ++ [.reclaimCutoff] } }
    let s := match unvoted s with
      | some (id, g) => { castVote s id g 0x080B with ckpt := { (castVote s id g 0x080B).ckpt with reclaimPartial := true } }
      | none => s
    let s := releaseLoans s
    scrub (wr { s with ckpt := { s.ckpt with buddy := BuddySlot.empty, reclaimCut := true } } 0x802001 3)

end Sys2Proof.Machine
end

