-- ==== Sys2Proof/Machine/Methods.lean ====
section
/-! DEFINITION. The solver methods as algorithms (R172, R180 to R183, R188): storage of the matrices, elimination with bad pivots replaced, refinement,
CG, GMRES and ADMM_QP, over the arithmetic of either path. -/

namespace Sys2Proof.Machine

open Sys2Proof

/-! ### Arithmetic of a path -/

/-- What a method computes with. `sum` stores an initial value plus products at a place of the method, in the format of the solution where `sol`
is set, else in the internal one; `comb` is a sum of products in the order that a formula states; `exact` is an exact sum rounded once, to either format; `one` and
`const` give FP64 constants. -/
structure Arith (α : Type) where
  zero   : α
  const  : Nat → α
  neg    : α → α
  sum    : Nat → Bool → α → List (α × α) → α
  comb   : List (α × α) → α
  exact  : Bool → α → List (α × α) → α
  div    : Bool → α → α → α
  sqrt   : α → α
  isZero : α → Bool
  isNeg  : α → Bool
  bad    : α → Bool
  less   : α → α → Bool
  toF64  : α → Nat

/-- The FP64 bits of 1. -/
def f64One : Nat := 0x3FF0000000000000

/-- FP64 sum, difference of signs included, rounded to nearest even. -/
def f64Add (a b : Nat) : Nat := (binElem .fp64 .add .rne a b).1

/-- FP64 product. -/
def f64Mul (a b : Nat) : Nat := (binElem .fp64 .mul .rne a b).1

/-- The FP64 path. A product with a factor of zero changes no sum; any other sum of products is free, its order not being stated (R180; log
entry 98). A formula that is stated runs operation by operation. `key` is what the order depends on. -/
def fpArith (key : List Nat) : Arith Nat :=
  { zero := 0
    const := fun x => x
    neg := fun x => setSign .fp64 (!signOf .fp64 x) x
    sum := fun place _ x ps =>
      if ps.all (fun p => decide (p.1 % 2 ^ 63 = 0 ∨ p.2 % 2 ^ 63 = 0)) then x else Config.solverSum key place x ps % 2 ^ 64
    comb := fun ps => match ps with
      | [] => 0
      | p :: ps => ps.foldl (fun a q => f64Add a (f64Mul q.1 q.2)) (f64Mul p.1 p.2)
    exact := fun _ x ps =>
      let ms := ps.map (fun p => mulNum (decode .fp64 p.1) (decode .fp64 p.2))
      (fusedSum .fp64 .ieee .rne (decode .fp64 x :: ms.map (fun m => m.1)) (ms.any (fun m => m.2))).1
    div := fun _ x y => (divNum .fp64 .rne (decode .fp64 x) (decode .fp64 y)).1
    sqrt := fun x => (sqrtNum .fp64 .rne (decode .fp64 x)).1
    isZero := fun x => decide (x % 2 ^ 63 = 0)
    isNeg := fun x => signOf .fp64 x
    bad := fun x => decide (x / 2 ^ 52 % 2048 = 2047)
    less := fun x y => numLt false (decode .fp64 x) (decode .fp64 y)
    toF64 := fun x => x }

/-- A fixed-point value `v` × 2^−`f`; `sat` says that a stored result on its way here was held to the INT32 range (R188). -/
structure Fx where
  v   : Int
  f   : Nat
  sat : Bool
  deriving DecidableEq, Repr

/-- `n / 2^k` rounded to nearest, ties to even. -/
def halfEven (n : Int) (k : Nat) : Int :=
  let q := n / 2 ^ k
  let r := n % 2 ^ k
  if 2 ^ k < 2 * r ∨ (2 * r = 2 ^ k ∧ q % 2 = 1) then q + 1 else q

/-- A stored result of `f` fraction bits from `n` × 2^−`e`: rounded once, and held to the INT32 range (R188). -/
def fxStore (f : Nat) (n : Int) (e : Nat) (sat : Bool) : Fx :=
  let q := if e ≤ f then n * 2 ^ (f - e) else halfEven n (e - f)
  if 2 ^ 31 ≤ q then ⟨2 ^ 31 - 1, f, true⟩ else if q < -2 ^ 31 then ⟨-2 ^ 31, f, true⟩ else ⟨q, f, sat⟩

/-- Exact sum of a value and products, as integer and fraction bits. -/
def fxSum (x : Fx) (ps : List (Fx × Fx)) : Int × Nat :=
  ps.foldl (fun a p =>
    let e := max a.2 (p.1.f + p.2.f)
    (a.1 * 2 ^ (e - a.2) + p.1.v * p.2.v * 2 ^ (e - (p.1.f + p.2.f)), e)) (x.v, x.f)

/-- Whether a value or a factor has been saturated. -/
def fxSat (x : Fx) (ps : List (Fx × Fx)) : Bool := x.sat || ps.any (fun p => p.1.sat || p.2.sat)

/-- A quotient of integers rounded to nearest, ties to even; the divisor is not zero. -/
def divEven (n d : Int) : Int :=
  let n := if d < 0 then -n else n
  let d := (d.natAbs : Int)
  let q := n / d
  let r := n % d
  if d < 2 * r ∨ (2 * r = d ∧ q % 2 = 1) then q + 1 else q

/-- A stored quotient. A divisor of zero gives the end of the range on the dividend's side (DESIGN CHOICE, log entry 98). -/
def fxDiv (f : Nat) (x y : Fx) : Fx :=
  let sat := x.sat || y.sat
  if y.v = 0 then (if x.v = 0 then ⟨0, f, sat⟩ else fxStore f (if x.v < 0 then -2 ^ 31 else 2 ^ 31) 0 true)
  else fxStore f (divEven (x.v * 2 ^ (f + y.f)) (y.v * 2 ^ x.f)) f sat

/-- A stored square root of a value that is not negative. -/
def fxSqrt (f : Nat) (x : Fx) : Fx :=
  let n := x.v.toNat * 2 ^ (2 * f)
  let d := 2 ^ x.f
  let q := isqrt (n / d)
  fxStore f (if (2 * q + 1) ^ 2 * d < 4 * n ∨ ((2 * q + 1) ^ 2 * d = 4 * n ∧ q % 2 = 1) then q + 1 else q) f x.sat

/-- A finite FP64 value as a fixed-point one of `f` fraction bits; any other value is the end of its range. -/
def fxOf (f b : Nat) : Fx :=
  match decode .fp64 b with
  | .fin n s e => if 0 ≤ e then fxStore f ((if n then -1 else 1) * (s : Int) * 2 ^ e.toNat) 0 false
      else fxStore f ((if n then -1 else 1) * (s : Int)) (-e).toNat false
  | .zero _ => ⟨0, f, false⟩
  | .inf n => fxStore f (if n then -2 ^ 31 else 2 ^ 31) 0 true
  | .nan _ => ⟨0, f, false⟩

/-- The JSN-16 path: products and sums are exact, and each stored result is rounded once. `fs` and `fi` are the fraction bits of the solution and of
the internal format (R188). -/
def fxArith (fs fi : Nat) : Arith Fx :=
  { zero := ⟨0, fi, false⟩
    const := fxOf fi
    neg := fun x => { x with v := -x.v }
    sum := fun _ sol x ps => let r := fxSum x ps; fxStore (if sol then fs else fi) r.1 r.2 (fxSat x ps)
    comb := fun ps => let r := fxSum ⟨0, 0, false⟩ ps; fxStore fi r.1 r.2 (fxSat ⟨0, 0, false⟩ ps)
    exact := fun sol x ps => let r := fxSum x ps; fxStore (if sol then fs else fi) r.1 r.2 (fxSat x ps)
    div := fun sol x y => fxDiv (if sol then fs else fi) x y
    sqrt := fxSqrt fi
    isZero := fun x => decide (x.v = 0)
    isNeg := fun x => decide (x.v < 0)
    bad := fun _ => false
    less := fun x y => decide (x.v * 2 ^ y.f < y.v * 2 ^ x.f)
    toF64 := fun x => (encodeNum .fp64 .rne (numOfInt x.v (-(x.f : Int)))).1 }

variable {α : Type}

/-- The sum of two values, in the order stated. -/
def Arith.add (A : Arith α) (x y : α) : α := A.comb [(A.const f64One, x), (A.const f64One, y)]

/-- Magnitude. -/
def Arith.abs (A : Arith α) (x : α) : α := if A.isNeg x then A.neg x else x

/-- Difference of a value and products. -/
def Arith.sub (A : Arith α) (place : Nat) (sol : Bool) (x : α) (ps : List (α × α)) : α :=
  A.sum place sol x (ps.map (fun p => (A.neg p.1, p.2)))

/-- Element `i` of a list. -/
def Arith.at (A : Arith α) (xs : List α) (i : Nat) : α := xs.getD i A.zero

/-! ### Storage (R172) -/

/-- A supernode: first column, width, height, where its block begins in the storage, its rows. -/
structure SNode where
  first : Nat
  w     : Nat
  h     : Nat
  base  : Nat
  rows  : List Nat

/-- The supernodes of a structure array; `lu` adds each one's upper block to its storage. -/
def snodes (words : List Nat) (lu : Bool) : List SNode :=
  ((List.range (words.getD 0 0)).foldl (fun (acc : List SNode × Nat) j =>
    let w := words.getD (2 + 4 * j) 0
    let h := words.getD (3 + 4 * j) 0
    (acc.1 ++ [⟨words.getD (1 + 4 * j) 0, w, h, acc.2, (words.drop (words.getD (4 + 4 * j) 0)).take h⟩],
      acc.2 + w * h + (if lu then (h - w) * w else 0))) ([], 0)).1

/-- The supernode of a column. -/
def snOf (ns : List SNode) (j : Nat) : Option SNode := ns.find? (fun s => decide (s.first ≤ j ∧ j < s.first + s.w))

/-- Where entry (i, j) of a factor lies in the storage: in the block of column j, or in the upper block of row i. -/
def snSlot (ns : List SNode) (lu : Bool) (i j : Nat) : Option Nat :=
  let low := (snOf ns j).bind (fun s => (s.rows.findIdx? (· = i)).map (fun r =>
    s.base + (if lu then (s.h - s.w) * s.w else 0) + r + (j - s.first) * s.h))
  match low with
  | some k => some k
  | none =>
    if lu then (snOf ns i).bind (fun s => (s.rows.findIdx? (· = j)).bind (fun r =>
      if s.w ≤ r then some (s.base + (r - s.w) + (i - s.first) * (s.h - s.w)) else none))
    else none

/-- Where entry (i, j) of a direct method's matrix lies in MAT, by method; i is not above j for the symmetric ones. The band forms are those of
the usual band libraries (PRESUMED, log entry 98). -/
def matSlot (m n kl ku : Nat) (ns : List SNode) (i j : Nat) : Option Nat :=
  match m with
  | 1 => some (if Config.denseRows then i * n + j else j * n + i)
  | 2 | 3 => some (j * n - j * (j - 1) / 2 + (i - j))
  | 4 => if i ≤ j + kl ∧ j ≤ i + ku then some (j * (2 * kl + ku + 1) + kl + ku + i - j) else none
  | 5 => if i ≤ j + kl then some (j * (kl + 1) + (i - j)) else none
  | 8 => snSlot ns true i j
  | _ => snSlot ns false i j

/-- Stored entries of row `i` of a BSR8 matrix, as column and value. -/
def bsrRow (A : Arith α) (words : List Nat) (rows cols : Nat) (vals : List α) (i : Nat) : List (Nat × α) :=
  let nb := (rows + 7) / 8
  let b0 := words.getD (i / 8) 0
  ((List.range (words.getD (i / 8 + 1) 0 - b0)).flatMap (fun b =>
    (List.range 8).map (fun k => (8 * words.getD (nb + 1 + b0 + b) 0 + k, A.at vals (64 * (b0 + b) + i % 8 * 8 + k))))).filter
    (fun e => decide (e.1 < cols))

/-- Products of a row with a vector. -/
def rowTerms (A : Arith α) (row : List (Nat × α)) (x : List α) : List (α × α) := row.map (fun e => (e.2, A.at x e.1))

/-! ### Elimination (R182, R183) -/

/-- How a problem ends early: code, FAIL_INDEX, the pivots replaced until then. -/
structure Stop where
  code : Nat
  idx  : Nat
  replaced : List Nat

/-- The pivot rule: whether |p| is below θ, what replaces a bad pivot, and whether the policy is STOP. -/
structure PivotRule (α : Type) where
  below : α → Bool
  theta : α
  stop  : Bool

/-- A factor: its columns by row of the storage (`l` the multipliers, `u` the updated entries), the order of the rows, the pivots, and the steps
whose pivots were replaced. -/
structure Factor (α : Type) where
  l    : List (List α)
  u    : List (List α)
  rows : List Nat
  p    : List α
  replaced : List Nat

/-- A pivot by R182: itself, θ_r in its place, or the end of the problem. -/
def takePivot (A : Arith α) (P : PivotRule α) (chol : Bool) (i : Nat) (done : List Nat) (p : α) : Except Stop (α × List Nat) :=
  if A.isZero p || P.below (A.abs p) || (chol && A.isNeg p) then
    if P.stop then .error ⟨1, i, done⟩
    else .ok (if !chol && A.isNeg p then A.neg P.theta else P.theta, done ++ [i])
  else .ok (p, done)

/-- The row of largest magnitude among some positions, ties to the lowest. -/
def bestRow (A : Arith α) (col : List α) (rows : List Nat) : List Nat → Option Nat
  | [] => none
  | p :: ps =>
    match bestRow A col rows ps with
    | none => some p
    | some q => if A.less (A.abs (A.at col (rows.getD p 0))) (A.abs (A.at col (rows.getD q 0))) then some q else some p

/-- Two places of a list exchanged. -/
def swapAt (xs : List Nat) (i j : Nat) : List Nat := (xs.set i (xs.getD j 0)).set j (xs.getD i 0)

/-- Updated entries of column `j` of an LU factor: first those of the rows already eliminated, in order, then the active ones. -/
def luColumn (A : Arith α) (n : Nat) (kept : Nat → Nat → Bool) (a : Nat → Nat → α) (f : Factor α) (j : Nat) : List α :=
  (List.range n).foldl (fun col i =>
    let r := f.rows.getD i 0
    if kept r j then
      col.set r (A.sub (r * n + j) false (a r j) ((List.range (min i j)).map (fun k => (A.at (f.l.getD k []) r, A.at col (f.rows.getD k 0)))))
    else col) (List.replicate n A.zero)

/-- Step `j` of LU: the column is updated, its pivot chosen among the positions `cand` and taken, and the multipliers follow. -/
def luStep (A : Arith α) (P : PivotRule α) (n : Nat) (kept : Nat → Nat → Bool) (a : Nat → Nat → α) (cand : Nat → List Nat → List Nat)
    (f : Factor α) (j : Nat) : Except Stop (Factor α) :=
  let col := luColumn A n kept a f j
  if col.any A.bad then .error ⟨3, j, f.replaced⟩
  else
    let rows := match bestRow A col f.rows (cand j f.rows) with | some q => swapAt f.rows j q | none => f.rows
    match takePivot A P false j f.replaced (A.at col (rows.getD j 0)) with
    | .error e => .error e
    | .ok (p, rep) =>
      let l := (List.range (n - (j + 1))).foldl (fun (l : List α) i =>
        let r := rows.getD (j + 1 + i) 0
        if kept r j then l.set r (A.div false (A.at col r) p) else l) (List.replicate n A.zero)
      if l.any A.bad then .error ⟨3, j, rep⟩ else .ok ⟨f.l ++ [l], f.u ++ [col], rows, f.p ++ [p], rep⟩

/-- Step `j` of Cholesky or LDLᵀ. A multiplier of LDLᵀ meets the updated entry of the other row (DESIGN CHOICE, log entry 98). -/
def symStep (A : Arith α) (P : PivotRule α) (n : Nat) (chol : Bool) (kept : Nat → Nat → Bool) (a : Nat → Nat → α) (f : Factor α) (j : Nat) :
    Except Stop (Factor α) :=
  let other := if chol then f.l else f.u
  let col := (List.range n).map (fun i =>
    if i < j ∨ kept i j = false then A.zero
    else A.sub (i * n + j) false (a i j) ((List.range j).map (fun k => (A.at (f.l.getD k []) i, A.at (other.getD k []) j))))
  if col.any A.bad then .error ⟨3, j, f.replaced⟩
  else match takePivot A P chol j f.replaced (A.at col j) with
    | .error e => .error e
    | .ok (p, rep) =>
      let d := if chol then A.sqrt p else p
      let l := (List.range n).map (fun i => if i < j then A.zero else if i = j then d else if kept i j then A.div false (A.at col i) d else A.zero)
      if l.any A.bad then .error ⟨3, j, rep⟩ else .ok ⟨f.l ++ [l], f.u ++ [col], f.rows, f.p ++ [d], rep⟩

/-- Steps of a factorisation in turn. -/
def factorSteps (step : Factor α → Nat → Except Stop (Factor α)) : Factor α → List Nat → Except Stop (Factor α)
  | f, [] => .ok f
  | f, j :: js => match step f j with
    | .error e => .error e
    | .ok f => factorSteps step f js

/-- A factor before its first step. -/
def Factor.start (n : Nat) : Factor α := ⟨[], [], List.range n, [], []⟩

/-- Positions in which LU searches a pivot at step `j`: the active column, in the band `kl` rows of it, in a supernodal matrix the rest of the diagonal
block (R182). -/
def luCands (m n kl : Nat) (ns : List SNode) (j : Nat) (rows : List Nat) : List Nat :=
  let active := (List.range (n - j)).map (fun i => j + i)
  match m with
  | 1 => active
  | 4 => active.filter (fun p => decide (rows.getD p 0 ≤ j + kl))
  | _ => match snOf ns j with
    | some s => active.filter (fun p => decide (p < s.first + s.w))
    | none => [j]

/-- The factor of a direct method's matrix `a`; `kept` are the entries that its storage holds. -/
def factorise (A : Arith α) (P : PivotRule α) (m n kl : Nat) (ns : List SNode) (kept : Nat → Nat → Bool) (a : Nat → Nat → α) :
    Except Stop (Factor α) :=
  factorSteps (if m = 1 ∨ m = 4 ∨ m = 8 then luStep A P n kept a (luCands m n kl ns)
    else symStep A P n (decide (m = 2 ∨ m = 5 ∨ m = 6)) kept a) (Factor.start n) (List.range n)

/-- Forward substitution; `place` numbers the substitution. With `unit` the diagonal is one. -/
def forward (A : Arith α) (place n : Nat) (unit : Bool) (f : Factor α) (b : List α) : List α :=
  (List.range n).foldl (fun y i =>
    let r := f.rows.getD i 0
    let v := A.sub (place + i) false (A.at b r) ((List.range i).map (fun k => (A.at (f.l.getD k []) r, A.at y k)))
    y ++ [if unit then v else A.div false v (A.at f.p i)]) []

/-- Backward substitution over `c` i k, the entry in row i and column k above the diagonal. -/
def backward (A : Arith α) (place n : Nat) (sol : Bool) (c : Nat → Nat → α) (piv : Nat → Option α) (y : List α) : List α :=
  (List.range n).reverse.foldl (fun x i =>
    let ps := (List.range (n - (i + 1))).map (fun k => (c i (i + 1 + k), A.at x k))
    (match piv i with
     | some p => A.div sol (A.sub (place + i) false (A.at y i) ps) p
     | none => A.sub (place + i) sol (A.at y i) ps) :: x) []

/-- A system solved with its factor. -/
def solveWith (A : Arith α) (place m n : Nat) (sol : Bool) (f : Factor α) (b : List α) : List α :=
  if m = 1 ∨ m = 4 ∨ m = 8 then
    backward A (place + n) n sol (fun i k => A.at (f.u.getD k []) (f.rows.getD i 0)) (fun i => some (A.at f.p i)) (forward A place n true f b)
  else if m = 2 ∨ m = 5 ∨ m = 6 then
    backward A (place + n) n sol (fun i k => A.at (f.l.getD i []) k) (fun i => some (A.at f.p i)) (forward A place n false f b)
  else
    let y := forward A place n true f b
    let z := (List.range n).map (fun i => A.div false (A.at y i) (A.at f.p i))
    backward A (place + n) n sol (fun i k => A.at (f.l.getD i []) k) (fun _ => none) z

/-! ### Results -/

/-- What a method that runs to its last step leaves: SOL, the vectors of a warm-start record, the RESIDUAL as FP64 bits, the pivots replaced, and
every value that FIXED_SAT looks at. -/
structure Run (α : Type) where
  sol : List α
  warm : List α
  residual : Nat
  replaced : List Nat
  seen : List α

/-- The largest magnitude. -/
def Arith.norm (A : Arith α) (xs : List α) : α := xs.foldl (fun m x => if A.less m (A.abs x) then A.abs x else m) A.zero

/-- Direct methods: the right-hand sides are solved, and each refinement step takes every column in turn (R180). -/
def directRun (A : Arith α) (m n r steps : Nat) (row : Nat → List (Nat × α)) (f : Factor α) (rhs : List α) : Except Stop (Run α) :=
  let b := fun (c : Nat) => (rhs.drop (c * n)).take n
  let xs := (List.range r).map (fun c => solveWith A (n * n + 2 * n * c) m n true f (b c))
  let go := (List.range steps).foldl (fun (acc : Except Stop (List (List α) × α)) t =>
    acc.bind (fun a =>
      let res := (List.range r).map (fun c => (List.range n).map (fun i =>
        A.exact false (A.at (b c) i) (rowTerms A ((row i).map (fun e => (e.1, A.neg e.2))) (a.1.getD c []))))
      let cor := (List.range r).map (fun c => solveWith A (n * n + 2 * n * ((t + 1) * r + c)) m n true f (res.getD c []))
      let new := (List.range r).map (fun c => (List.range n).map (fun i =>
        A.exact true (A.at (a.1.getD c []) i) [(A.const f64One, A.at (cor.getD c []) i)]))
      if (res ++ cor ++ new).any (fun v => v.any A.bad) then .error ⟨3, t, f.replaced⟩
      else .ok (new, A.norm (res.flatMap id)))) (.ok (xs, A.zero))
  go.map (fun a => ⟨a.1.flatMap id, [], A.toF64 (if steps = 0 then A.zero else a.2), f.replaced, f.l.flatMap id ++ f.u.flatMap id ++ a.1.flatMap id⟩)

/-! ### Krylov methods (R180, R183) -/

/-- Σ x_i y_i at a place. -/
def Arith.dot (A : Arith α) (place : Nat) (x y : List α) : α := A.sum place false A.zero (x.zip y)

/-- x + a y, element by element. -/
def Arith.axpy (A : Arith α) (place : Nat) (sol : Bool) (x : List α) (a : α) (y : List α) : List α :=
  (x.zip y).zipIdx.map (fun e => A.sum (place + e.2) sol e.1.1 [(a, e.1.2)])

/-- b − M x. -/
def Arith.resid (A : Arith α) (place : Nat) (row : Nat → List (Nat × α)) (b x : List α) : List α :=
  b.zipIdx.map (fun e => A.sub (place + e.2) false e.1 (rowTerms A (row e.2) x))

/-- M x. -/
def Arith.apply (A : Arith α) (place : Nat) (row : Nat → List (Nat × α)) (x : List α) : List α :=
  x.zipIdx.map (fun e => A.sum (place + e.2) false A.zero (rowTerms A (row e.2) x))

/-- State of CG: x, r, p and r·r. -/
structure CG (α : Type) where
  x : List α
  r : List α
  p : List α
  rr : α

/-- One iteration of CG. With a residual of norm 0 nothing changes any more. -/
def cgStep (A : Arith α) (n : Nat) (row : Nat → List (Nat × α)) (g : CG α) (it : Nat) : Except Stop (CG α) :=
  let at' := (it + 1) * 8 * n
  if A.isZero g.rr then .ok g
  else
    let q := A.apply at' row g.p
    let pq := A.dot (at' + n) g.p q
    if A.isZero pq && A.bad (A.div false g.rr pq) then .error ⟨4, it, []⟩
    else
      let a := A.div false g.rr pq
      let x := A.axpy (at' + 2 * n) true g.x a g.p
      let r := A.axpy (at' + 3 * n) false g.r (A.neg a) q
      let rr := A.dot (at' + 4 * n) r r
      let p := A.axpy (at' + 5 * n) false r (A.div false rr g.rr) g.p
      if (x ++ r ++ p ++ [rr]).any A.bad then .error ⟨4, it, []⟩ else .ok ⟨x, r, p, rr⟩

/-- Conjugate gradients from x. -/
def cgRun (A : Arith α) (n k : Nat) (row : Nat → List (Nat × α)) (b x : List α) : Except Stop (Run α) :=
  let r := A.resid 0 row b x
  let g := (List.range k).foldl (fun (acc : Except Stop (CG α)) it => acc.bind (fun g => cgStep A n row g it)) (.ok ⟨x, r, r, A.dot n r r⟩)
  g.map (fun g => ⟨g.x, g.x, A.toF64 (A.sqrt g.rr), [], g.x ++ g.r ++ g.p⟩)

/-- A restart cycle of GMRES: basis vectors, columns of the rotated Hessenberg matrix, rotations, the rotated right-hand side. -/
structure Cycle (α : Type) where
  v : List (List α)
  h : List (List α)
  rot : List (α × α)
  g : List α

/-- A quotient whose dividend and divisor may both be zero, which then is +0 (R180). -/
def Arith.quot (A : Arith α) (x y : α) : α := if A.isZero x && A.isZero y then A.zero else A.div false x y

/-- Rotations applied to a column in turn. -/
def rotate' (A : Arith α) (place : Nat) : Nat → List (α × α) → List α → List α
  | _, [], h => h
  | i, cs :: rest, h =>
    let a := A.at h i
    let b := A.at h (i + 1)
    rotate' A place (i + 1) rest
      ((h.set i (A.sum place false A.zero [(cs.1, a), (cs.2, b)])).set (i + 1) (A.sum place false A.zero [(cs.1, b), (A.neg cs.2, a)]))

/-- One iteration of GMRES inside its cycle: modified Gram-Schmidt, then the Givens rotations. -/
def gmresStep (A : Arith α) (n place : Nat) (row : Nat → List (Nat × α)) (c : Cycle α) : Cycle α :=
  let w := A.apply place row (c.v.getLastD [])
  let o := (c.v.zipIdx).foldl (fun (a : List α × List α) v =>
    let h := A.dot (place + n * (v.2 + 1)) a.1 v.1
    (A.axpy (place + n * (v.2 + 2)) false a.1 (A.neg h) v.1, a.2 ++ [h])) (w, [])
  let nrm := A.sqrt (A.dot (place + n * (c.v.length + 3)) o.1 o.1)
  let h := rotate' A place 0 c.rot (o.2 ++ [nrm])
  let j := c.rot.length
  let a := A.at h j
  let b := A.at h (j + 1)
  let d := A.sqrt (A.sum place false A.zero [(a, a), (b, b)])
  let cs : α × α := if A.isZero d then (A.const f64One, A.zero) else (A.div false a d, A.div false b d)
  let gj := A.at c.g j
  ⟨c.v ++ [o.1.map (fun x => A.quot x nrm)], c.h ++ [(h.set j d).set (j + 1) A.zero], c.rot ++ [cs],
    (c.g.set j (A.sum place false A.zero [(cs.1, gj)])) ++ [A.neg (A.sum place false A.zero [(cs.2, gj)])]⟩

/-- The step sizes of a cycle by back substitution; none where a divisor is 0 and its dividend is not. -/
def cycleSteps (A : Arith α) (place : Nat) (c : Cycle α) : Option (List α) :=
  (List.range c.h.length).reverse.foldl (fun (acc : Option (List α)) i => acc.bind (fun y =>
    let v := A.sub (place + i) false (A.at c.g i) ((c.h.drop (i + 1)).zip y |>.map (fun e => (A.at e.1 i, e.2)))
    let d := A.at (c.h.getD i []) i
    if A.isZero d && !A.isZero v then none else some (A.quot v d :: y))) (some [])

/-- A cycle from x. -/
def cycleStart (A : Arith α) (place : Nat) (row : Nat → List (Nat × α)) (b x : List α) : Cycle α :=
  let r := A.resid place row b x
  let beta := A.sqrt (A.dot place r r)
  ⟨[r.map (fun e => A.quot e beta)], [], [], [beta]⟩

/-- Restarted GMRES: `k` iterations in all, x updated at the end of each cycle. -/
def gmresRun (A : Arith α) (n k m : Nat) (row : Nat → List (Nat × α)) (b x : List α) : Except Stop (Run α) :=
  let size := 8 * n * (m + 4)
  let r := (List.range k).foldl (fun (acc : Except Stop (List α × Cycle α)) it => acc.bind (fun xc =>
    let place := (it + 1) * size
    let c := gmresStep A n place row (if it % m = 0 then cycleStart A (place - n) row b xc.1 else xc.2)
    let bad := (c.v.flatMap id ++ c.h.flatMap id ++ c.g).any A.bad
    if bad then .error ⟨4, it, []⟩
    else if (it + 1) % m = 0 ∨ it + 1 = k then
      match cycleSteps A place c with
      | none => .error ⟨4, it, []⟩
      | some y =>
        let x := (y.zip c.v).foldl (fun x e => A.axpy place true x e.1 e.2) xc.1
        if (x ++ y).any A.bad then .error ⟨4, it, []⟩ else .ok (x, c)
    else .ok (xc.1, c))) (.ok (x, ⟨[], [], [], []⟩))
  r.map (fun xc => ⟨xc.1, xc.1, A.toF64 (A.abs (xc.2.g.getLastD A.zero)), [], xc.1 ++ xc.2.v.flatMap id⟩)

/-! ### ADMM_QP (R181) -/

/-- Entry (i, j) of K, not above the diagonal. -/
def kktEntry (A : Arith α) (n : Nat) (sigma rinv : α) (q a : Nat → List (Nat × α)) (i j : Nat) : α :=
  let pick := fun (row : List (Nat × α)) => ((row.find? (fun e => decide (e.1 = j))).map (fun e => e.2)).getD A.zero
  if i < n then (if i = j then A.add (pick (q i)) sigma else pick (q i))
  else if j < n then pick (a (i - n))
  else if i = j then A.neg rinv else A.zero

/-- The iterates of ADMM_QP. -/
structure Admm (α : Type) where
  x : List α
  z : List α
  y : List α

/-- One iteration of R181's loop. -/
def admmStep (A : Arith α) (n p place : Nat) (rho sigma alpha : α) (f : Factor α) (q l u : List α) (s : Admm α) : Admm α × List α :=
  let one := A.const f64One
  let b := (List.range n).map (fun i => A.comb [(sigma, A.at s.x i), (A.neg one, A.at q i)])
    ++ (List.range p).map (fun i => A.add (A.at s.z i) (A.neg (A.div false (A.at s.y i) rho)))
  let t := solveWith A place 7 (n + p) false f b
  let beta := A.add one (A.neg alpha)
  let zt := (List.range p).map (fun i => A.add (A.at s.z i) (A.div false (A.add (A.at t (n + i)) (A.neg (A.at s.y i))) rho))
  let xr := (List.range n).map (fun i => A.comb [(alpha, A.at t i), (beta, A.at s.x i)])
  let zr := (List.range p).map (fun i => A.comb [(alpha, A.at zt i), (beta, A.at s.z i)])
  let z := (List.range p).map (fun i =>
    let v := A.add (A.at zr i) (A.div false (A.at s.y i) rho)
    let v := if A.less v (A.at l i) then A.at l i else v
    if A.less (A.at u i) v then A.at u i else v)
  let y := (List.range p).map (fun i => A.comb [(one, A.at s.y i), (rho, A.add (A.at zr i) (A.neg (A.at z i)))])
  (⟨xr, z, y⟩, t)

/-- ADMM_QP: K is factored once, then the iterations run. The primal residual is the largest |Ax − z|. -/
def admmRun (A : Arith α) (P : PivotRule α) (n p k : Nat) (rho sigma alpha : α) (ns : List SNode) (qm am : Nat → List (Nat × α)) (q l u : List α)
    (start : Admm α) : Except Stop (Run α) :=
  let N := n + p
  let kept := fun (i j : Nat) => (snSlot ns false i j).isSome
  match factorise A P 7 N 0 ns kept (kktEntry A n sigma (A.div false (A.const f64One) rho) qm am) with
  | .error e => .error e
  | .ok f =>
    let r := (List.range k).foldl (fun (acc : Except Stop (Admm α)) it => acc.bind (fun s =>
      let o := admmStep A n p (N * N + 2 * N * it) rho sigma alpha f q l u s
      if (o.1.x ++ o.1.z ++ o.1.y ++ o.2).any A.bad then .error ⟨4, it, f.replaced⟩ else .ok o.1)) (.ok start)
    r.map (fun s =>
      let res := (List.range p).map (fun i => A.sub (N * N + 2 * N * k + i) false (A.at s.z i) (rowTerms A (am i) s.x))
      let out := (s.x ++ s.y).map (fun v => A.sum 0 true v [])
      ⟨out, s.x ++ s.z ++ s.y, A.toF64 (A.norm res), f.replaced, f.l.flatMap id ++ f.u.flatMap id ++ out ++ s.z⟩)

end Sys2Proof.Machine
end

