-- ==== Sys2Proof/Machine/Solver.lean ====
section
/-! DEFINITION. The solver dies (R165 to R192): SOLVE, SWAIT, the stages of a problem, SOLVER_FAULT, and the effects of
SD_MODE and COMPAT_JSN16. A target is its kind (0 half, 1 die, 2 pair) and its first half. -/

namespace Sys2Proof.Machine

open Sys2Proof

/-! ### Targets (R165 to R168) -/

/-- First half of a binding's target. -/
def bindFirst (b : Binding) : Nat :=
  match b.kind with
  | 0 => b.die * 2 + b.half
  | 1 => b.die * 2
  | _ => 0

/-- Halves of a target. -/
def targetHalves (kind first : Nat) : List Nat :=
  match kind with
  | 0 => [first]
  | 1 => [first, first + 1]
  | _ => [0, 1, 2, 3]

/-- g of Table 7.1. -/
def targetG (kind : Nat) : Nat :=
  match kind with
  | 0 => 1
  | 1 => 2
  | _ => 4

/-- FMA per cycle. -/
def targetP (kind : Nat) : Nat := 512 * targetG kind

/-- Bytes of the resident area. -/
def residentSize (kind : Nat) : Nat := if kind = 0 then 8388608 else 16777216

/-- HALF_STATE of a half. -/
def halfState (s : State) (h : Nat) : Nat := rd s (0x601201 + h)

/-- Whether a half of the target is OFFLINE, or in a partition. -/
def targetOffline (s : State) (kind first : Nat) : Bool := (targetHalves kind first).any (fun h => decide (2 ≤ halfState s h))

/-- Sets the state of a target's halves, where they are in service. -/
def setHalves (s : State) (kind first v : Nat) : State :=
  (targetHalves kind first).foldl (fun s h => if halfState s h = 2 then s else wr s (0x601201 + h) v) s

/-- Queue of a target. -/
def getQ (s : State) (first : Nat) : SolverQ := tget SolverQ.empty s.solv.queues first

/-- Replaces the queue of a target. -/
def setQ (s : State) (first : Nat) (q : SolverQ) : State :=
  { s with solv := { s.solv with queues := tset SolverQ.empty s.solv.queues first q } }

/-- Bytes of a target's resident area. -/
def residentRead (s : State) (first off n : Nat) : List Byte :=
  (List.range n).map (fun i => rdByte (tget [] s.solv.resident (first + (off + i) / 8388608)) ((off + i) % 8388608))

/-- Stores bytes in a target's resident area; the pair's is held alike on both dies. -/
def residentWrite (s : State) (kind first off : Nat) (bs : List Byte) : State :=
  let put := fun (r : Tbl Mem) (base : Nat) => (List.range bs.length).foldl (fun r i =>
    let h := base + (off + i) / 8388608
    tset [] r h (wrByte (tget [] r h) ((off + i) % 8388608) (bs.getD i 0))) r
  let r := put s.solv.resident first
  { s with solv := { s.solv with resident := if kind = 2 then put r 2 else r } }

/-! ### The descriptor (Tables 7.2, 7.3) -/

/-- `n` bytes of the descriptor at an offset, as a number. -/
def dField (d : Desc) (off n : Nat) : Nat := d.toNat / 2 ^ (8 * off) % 2 ^ (8 * n)

/-- METHOD. -/
def dMethod (d : Desc) : Nat := dField d 0 1
/-- PATH. -/
def dPath (d : Desc) : Nat := dField d 1 1
/-- POLICY. -/
def dPolicy (d : Desc) : Nat := dField d 2 1
/-- ASSEMBLE. -/
def dAssemble (d : Desc) : Bool := d.getLsbD 32
/-- N. -/
def dN (d : Desc) : Nat := dField d 0x08 4
/-- P. -/
def dP (d : Desc) : Nat := dField d 0x0C 4
/-- KL. -/
def dKL (d : Desc) : Nat := dField d 0x10 4
/-- KU. -/
def dKU (d : Desc) : Nat := dField d 0x14 4
/-- NRHS. -/
def dR (d : Desc) : Nat := dField d 0x18 4
/-- ITERS. -/
def dIters (d : Desc) : Nat := dField d 0x1C 4
/-- RESTART. -/
def dRestart (d : Desc) : Nat := dField d 0x20 4
/-- REFINE. -/
def dRefine (d : Desc) : Nat := dField d 0x24 4
/-- Reference at a descriptor offset. -/
def dRef (d : Desc) (off : Nat) : Nat := dField d off 8
/-- MAP_COUNT. -/
def dMapCount (d : Desc) : Nat := dField d 0xB8 4
/-- PARAM_COUNT. -/
def dParamCount (d : Desc) : Nat := dField d 0xBC 4
/-- MEAS_COUNT. -/
def dMeasCount (d : Desc) : Nat := dField d 0xC0 4

/-- SPACE of a reference. -/
def refSpace (r : Nat) : Nat := r / 2 ^ 62
/-- TENSOR of a reference. -/
def refTensor (r : Nat) : Nat := r / 2 ^ 50 % 4096
/-- OFFSET of a reference. -/
def refOff (r : Nat) : Nat := r % 2 ^ 50
/-- Whether the reference is none. -/
def refNone (r : Nat) : Bool := decide (refSpace r = 0)

/-- Whether a reference names a range of `n` bytes that lies wholly inside its tensor or area (R171). -/
def refFits (c : Context) (kind r n : Nat) : Bool :=
  match refSpace r with
  | 1 => match tensorOf c (refTensor r) with
    | some t => decide (t.level = 2) && decide (refOff r + n ≤ tensorBytes t)
    | none => false
  | 2 => decide (refOff r + n ≤ residentSize kind)
  | _ => false

/-- Bytes at a reference. -/
def refRead (s : State) (c : Context) (first r n : Nat) : List Byte :=
  if refSpace r = 1 then rdBytes c.vmem (tensorBase c 0 (refTensor r) + refOff r) n
  else if refSpace r = 2 then residentRead s first (refOff r) n
  else []

/-- U32 words at a reference. -/
def refWords (s : State) (c : Context) (first r n : Nat) : List Nat :=
  let bs := refRead s c first r (4 * n)
  (List.range n).map (fun i => field bs (4 * i) 4)

/-- Direct methods. -/
def isDirect (m : Nat) : Bool := decide (1 ≤ m ∧ m ≤ 8)
/-- Methods with a BSR8 matrix. -/
def isBsr (m : Nat) : Bool := decide (m = 9 ∨ m = 10 ∨ m = 11)
/-- Supernodal methods. -/
def isSparse (m : Nat) : Bool := decide (m = 6 ∨ m = 7 ∨ m = 8)
/-- Iterative methods. -/
def isIter (m : Nat) : Bool := isBsr m

/-! ### Structures (R172) -/

/-- What a structure array gives: its words, the BSR8 block count, the supernodes as (width, height). -/
structure Structure where
  words  : List Nat
  blocks : Nat
  sns    : List (Nat × Nat)

/-- No structure array. -/
def Structure.none : Structure := ⟨[], 0, []⟩

/-- Whether a list holds no repeat. -/
def distinct (xs : List Nat) : Bool := decide (xs.eraseDups.length = xs.length)

/-- A BSR8 structure of `rows` × `cols` elements. -/
def readBsr (s : State) (c : Context) (kind first r rows cols : Nat) : Option Structure :=
  let nb := cdiv rows 8
  if !refFits c kind r (4 * (nb + 1)) then none
  else
    let ptr := refWords s c first r (nb + 1)
    let blocks := ptr.getD nb 0
    if ptr.getD 0 0 ≠ 0 ∨ (List.range nb).any (fun i => decide (ptr.getD (i + 1) 0 < ptr.getD i 0)) = true
        ∨ refFits c kind r (4 * (nb + 1 + blocks)) = false then none
    else
      let words := refWords s c first r (nb + 1 + blocks)
      let idx := words.drop (nb + 1)
      if idx.any (fun x => decide (cdiv cols 8 ≤ x)) ∨ !((List.range nb).all (fun i =>
          distinct ((idx.drop (ptr.getD i 0)).take (ptr.getD (i + 1) 0 - ptr.getD i 0)))) then none
      else some ⟨words, blocks, []⟩

/-- A supernodal structure. -/
def readSn (s : State) (c : Context) (kind first r : Nat) : Option Structure :=
  if !refFits c kind r 4 then none
  else
    let nsn := (refWords s c first r 1).getD 0 0
    if 65536 < nsn ∨ refFits c kind r (4 * (1 + 4 * nsn)) = false then none
    else
      let hw := refWords s c first r (1 + 4 * nsn)
      let recs := (List.range nsn).map (fun j => (hw.getD (2 + 4 * j) 0, hw.getD (3 + 4 * j) 0, hw.getD (4 + 4 * j) 0))
      let size := 1 + 4 * nsn + recs.foldl (fun n x => n + x.2.1) 0
      if recs.any (fun x => decide (512 < x.1 ∨ x.2.1 < x.1 ∨ size < x.2.2 + x.2.1)) ∨ refFits c kind r (4 * size) = false then none
      else some ⟨refWords s c first r size, 0, recs.map (fun x => (x.1, x.2.1))⟩

/-- Stored entries of a supernodal factor. -/
def snEntries (x : Structure) : Nat := x.sns.foldl (fun n p => n + p.1 * p.2) 0

/-- What the accept stage finds of a descriptor's operands. -/
structure Shape where
  a    : Structure
  a2   : Structure
  kkt  : Structure
  z    : Nat
  q    : Nat

/-- S of R178. -/
def shapeS (x : Shape) : Nat := 6 + x.a.words.length + x.a2.words.length + x.kkt.words.length

/-- z and q of a method (R172). -/
def entryCounts (d : Desc) (a a2 : Structure) : Nat × Nat :=
  let n := dN d
  match dMethod d with
  | 1 => (n * n, n * n)
  | 2 | 3 => (n * (n + 1) / 2, 2 * (n * (n + 1) / 2) - n)
  | 4 => (n * (2 * dKL d + dKU d + 1), n * (dKL d + dKU d + 1))
  | 5 => (n * (dKL d + 1), 2 * (n * (dKL d + 1)) - n)
  | 6 | 7 => (snEntries a, 2 * snEntries a - n)
  | 8 => let z := a.sns.foldl (fun m p => m + p.1 * (2 * p.2 - p.1)) 0; (z, z)
  | 9 | 10 => (64 * a.blocks, 64 * a.blocks)
  | 11 => (64 * (a.blocks + a2.blocks), 0)
  | _ => (0, 0)

/-- The structures of a descriptor, read as its method requires. -/
def readShape (s : State) (c : Context) (kind first : Nat) (d : Desc) : Option Shape :=
  let m := dMethod d
  let n := dN d
  let go := fun (a a2 k : Option Structure) => match a, a2, k with
    | some a, some a2, some k => some (⟨a, a2, k, (entryCounts d a a2).1, (entryCounts d a a2).2⟩ : Shape)
    | _, _, _ => none
  let no := some Structure.none
  if isSparse m then go (readSn s c kind first (dRef d 0x48)) no no
  else if m = 11 then go (readBsr s c kind first (dRef d 0x48) n n) (readBsr s c kind first (dRef d 0x58) (dP d) n)
    (readSn s c kind first (dRef d 0x60))
  else if isBsr m then go (readBsr s c kind first (dRef d 0x48) n n) no no
  else go no no no

/-- The fingerprint (R178). -/
def fingerprint (d : Desc) (x : Shape) : BitVec 64 :=
  ([dPath d, dN d, dP d, dKL d, dKU d, dR d] ++ x.a.words ++ x.a2.words ++ x.kkt.words).foldl
    (fun fp w => mix (fp ^^^ BitVec.ofNat 64 w)) (mix ((0x4A534E3400000000 : BitVec 64) ^^^ BitVec.ofNat 64 (dMethod d)))

/-! ### Accept (R170 to R173, R188, R189, R455) -/

/-- Bytes of one matrix or vector element on the descriptor's path. -/
def elemSize (d : Desc) : Nat := if dPath d = 1 then 4 else 8

/-- Stored entries of MAT and of MAT2. -/
def matEntries (d : Desc) (x : Shape) : Nat × Nat := if dMethod d = 11 then (64 * x.a.blocks, 64 * x.a2.blocks) else (x.z, 0)

/-- Elements of RHS and of SOL. -/
def vecElems (d : Desc) : Nat × Nat :=
  let n := dN d
  match dMethod d with
  | 15 => (n, n)
  | 11 => (n, n + dP d)
  | _ => (n * dR d, n * dR d)

/-- Vectors of a warm-start record, in elements. -/
def warmElems (d : Desc) : Nat := if dMethod d = 11 then dN d + 2 * dP d else dN d

/-- Every reference: descriptor offset, whether the method requires it, whether it may be given, bytes. -/
def refTable (d : Desc) (x : Shape) : List (Nat × Bool × Bool × Nat) :=
  let m := dMethod d
  let as := dAssemble d
  let w := if m = 15 then 8 else elemSize d
  let qp := decide (m = 11)
  [(0x40, m ≠ 15 && !as, m ≠ 15, w * (matEntries d x).1), (0x48, isSparse m || isBsr m, isSparse m || isBsr m, 4 * x.a.words.length),
   (0x50, qp, qp, w * (matEntries d x).2), (0x58, qp, qp, 4 * x.a2.words.length), (0x60, qp, qp, 4 * x.kkt.words.length),
   (0x68, m = 15 || !as, true, w * (vecElems d).1), (0x70, true, true, w * (vecElems d).2),
   (0x78, qp, qp, w * dP d), (0x80, qp, qp, w * dP d), (0x88, as, as, 16 * dMapCount d),
   (0x90, false, true, 8 * dParamCount d), (0x98, false, true, 8 * dMeasCount d),
   (0xA0, false, isIter m, 32 + 8 * warmElems d), (0xA8, false, isIter m, 32 + 8 * warmElems d), (0xB0, false, true, 512)]

/-- A reference's own form (Table 7.3). -/
def refForm (r : Nat) : Bool :=
  decide (refSpace r ≠ 3) && decide (refOff r % 8 = 0) && (decide (refSpace r = 1) || decide (refTensor r = 0))

/-- A positive finite FP64 number. -/
def f64Pos (b : Nat) : Bool := match decode .fp64 b with | .fin false _ _ => true | _ => false

/-- Field checks of Table 7.2. -/
def fieldsOk (d : Desc) (kind : Nat) : Bool :=
  let m := dMethod d
  let n := dN d
  let band := decide (m = 4 ∨ m = 5)
  let q := dField d 0xC8 4
  (isDirect m || isBsr m || decide (m = 15))
  && decide (dPath d ≤ 1 ∧ dPolicy d ≤ 1 ∧ dField d 3 1 ≤ 60 ∧ dField d 4 4 ≤ 1 ∧ 1 ≤ n)
  && decide (dField d 0x28 24 = 0 ∧ dField d 0xCC 4 = 0 ∧ dField d 0xE8 24 = 0)
  && (decide (m = 11) || decide (dP d = 0))
  && (if band then decide (dKL d ≤ 1024 ∧ dKU d ≤ 1024 ∧ dKL d < n ∧ dKU d < n ∧ (m = 4 ∨ dKU d = dKL d))
      else decide (dKL d = 0 ∧ dKU d = 0))
  && (if isDirect m then decide (1 ≤ dR d ∧ dR d ≤ 64) else decide (dR d = 1))
  && (if isIter m then decide (1 ≤ dIters d ∧ dIters d ≤ 65535) else decide (dIters d = 0))
  && (if m = 10 then decide (1 ≤ dRestart d ∧ dRestart d ≤ 64) else decide (dRestart d = 0))
  && (if isDirect m then decide (dRefine d ≤ 15) else decide (dRefine d = 0))
  && decide (dMapCount d ≤ 16777216 ∧ dParamCount d ≤ 1048576 ∧ dMeasCount d ≤ 65536)
  && decide (q / 32 % 8 = 0 ∧ q / 8192 % 8 = 0 ∧ q / 2097152 % 8 = 0 ∧ q / 536870912 = 0 ∧ (dPath d = 1 ∨ q = 0))
  && !(decide (m = 15) && dAssemble d) && (decide (kind ≠ 2) || decide (m = 1))
  && (decide (m ≠ 11) || (f64Pos (dField d 0xD0 8) && f64Pos (dField d 0xD8 8) && f64Pos (dField d 0xE0 8)
      && decide (dField d 0xE0 8 < 0x4000000000000000)))
  && (dAssemble d || decide (dMapCount d = 0))
  && (decide (dMapCount d = 0) || !refNone (dRef d 0x88)) && (decide (dParamCount d = 0) || !refNone (dRef d 0x90))
  && (decide (dMeasCount d = 0) || !refNone (dRef d 0x98))

/-- Whether rows and columns beyond `rows` and `cols` hold +0 in the edge blocks of a BSR8 matrix (R172). -/
def edgeZero (s : State) (c : Context) (first r w rows cols : Nat) (x : Structure) : Bool :=
  let nb := cdiv rows 8
  (List.range nb).all (fun i => (List.range (x.words.getD (i + 1) 0 - x.words.getD i 0)).all (fun j =>
    let b := x.words.getD i 0 + j
    let col := x.words.getD (nb + 1 + b) 0
    (List.range 64).all (fun k =>
      !(decide (rows ≤ 8 * i + k / 8 ∨ cols ≤ 8 * col + k % 8))
        || decide (leNat (refRead s c first (r + w * (64 * b + k)) w) = 0))))

/-- Whether a problem fits its target (R173). -/
def shapeFits (d : Desc) (kind : Nat) (x : Shape) : Bool :=
  let m := dMethod d
  let kk := if m = 11 then 8 * snEntries x.kkt else 0
  decide (m = 15)
  || (decide (3 < m ∨ dN d ≤ 4096) && decide (snEntries x.a ≤ 8388608 ∧ snEntries x.kkt ≤ 8388608)
    && decide (8 * x.z * (if 0 < dRefine d then 2 else 1) + 4 * shapeS x + 8 * (dN d + dP d) * (2 * dR d + 4) + kk
        ≤ targetG kind * 41943040))

/-- The accept stage, apart from the path (Table 7.6): a status code, or the shape. -/
def acceptDesc (s : State) (c : Context) (kind first : Nat) (d : Desc) : Except Nat Shape :=
  if !fieldsOk d kind then .error 0x0010
  else match readShape s c kind first d with
    | none => .error 0x0010
    | some x =>
      let m := dMethod d
      let bad := (refTable d x).any (fun t =>
        let r := dRef d t.1
        !refForm r || (t.2.1 && refNone r) || (!t.2.2.1 && !refNone r) || (!refNone r && !refFits c kind r t.2.2.2))
      let edge := isBsr m && !((refNone (dRef d 0x40) || edgeZero s c first (dRef d 0x40) (elemSize d) (dN d) (dN d) x.a)
        && (decide (m ≠ 11) || edgeZero s c first (dRef d 0x50) (elemSize d) (dP d) (dN d) x.a2))
      if bad || (isBsr m && decide (dField d 0xC4 4 ≠ x.z)) || edge then .error 0x0010
      else if !shapeFits d kind x then .error 0x0011
      else .ok x

/-- R188, R189: whether a PATH = 1 problem may run. -/
def pathOk (s : State) (kind first : Nat) (d : Desc) (feature : Bool) : Bool :=
  decide (dPath d = 0) || (feature && decide (dMethod d ∈ [2, 3, 5, 9, 11]) && !dAssemble d
    && (targetHalves kind first).all (fun h => (BitVec.ofNat 8 (rd s 0x602000)).getLsbD h))

/-! ### T_exec (R175, R179) -/

/-- U and T_meth of a method. -/
def methodTime (d : Desc) (kind : Nat) (x : Shape) : Nat × Nat :=
  let n := dN d
  let P := targetP kind
  let k := dIters d
  let m := dRestart d
  let sum := fun (f : Nat × Nat → Nat) (ps : List (Nat × Nat)) => ps.foldl (fun t p => t + f p) 0
  let ldl := fun (ps : List (Nat × Nat)) =>
    sum (fun p => cdiv (p.1 * p.1 * p.2) (2 * P) + cdiv (p.1 * (p.2 - p.1) ^ 2) (2 * P) + 16 * p.1 + 64) ps
  match dMethod d with
  | 1 => let u := dR d * (cdiv (n * n) P + 16 * n); (u, cdiv (n ^ 3) (3 * P) + (if kind = 2 then 56 else 24) * n + u)
  | 2 | 3 => let u := dR d * (cdiv (n * n) P + 16 * n); (u, cdiv (n ^ 3) (6 * P) + 16 * n + u)
  | 4 =>
    let u := dR d * (cdiv (n * (2 * dKL d + dKU d + 1)) P + 16 * n)
    (u, n * (cdiv (dKL d * (dKL d + dKU d + 1)) P + 24) + u)
  | 5 => let u := dR d * (cdiv (2 * n * (dKL d + 1)) P + 16 * n); (u, n * (cdiv (dKL d * (dKL d + 1)) (2 * P) + 16) + u)
  | 6 | 7 => let u := dR d * (cdiv (2 * x.z) P + 16 * n + 64 * x.a.sns.length); (u, ldl x.a.sns + u)
  | 8 =>
    let u := dR d * (cdiv (2 * x.z) P + 16 * n + 64 * x.a.sns.length)
    (u, sum (fun p => cdiv (p.1 * p.1 * p.2) P + cdiv (p.1 * (p.2 - p.1) ^ 2) P + 24 * p.1 + 64) x.a.sns + u)
  | 9 => (0, k * (cdiv x.z P + cdiv (5 * n) P + 160))
  | 10 =>
    (0, (List.range k).foldl (fun t i => t + cdiv x.z P + (i % m + 1) * (cdiv (2 * n) P + 64) + 96) 0
      + cdiv k m * (4 * m * m + cdiv (m * n) P + 64))
  | 11 => (0, ldl x.kkt.sns + k * (cdiv (2 * snEntries x.kkt) P + cdiv (2 * (64 * x.a2.blocks)) P + cdiv (8 * (n + dP d)) P + 96))
  | _ => (0, cdiv (8 * n) 256)

/-- T_exec. -/
def texec (d : Desc) (kind : Nat) (x : Shape) : Nat :=
  let g := targetG kind
  let t := methodTime d kind x
  1024 + (if dAssemble d then cdiv (dMapCount d) (4 * g) else 0) + (cdiv x.z (32 * g) + cdiv (shapeS x) (4 * g) + 32) + t.2
    + dRefine d * (cdiv x.q (targetP kind) + 64 + t.1)

/-! ### Running a problem (R178 to R185) -/

/-- FP64 words of a byte string. -/
def words64 (bs : List Byte) : List Nat := (List.range (bs.length / 8)).map (fun i => field bs (8 * i) 8)

/-- One map entry applied to the slots; none when it is out of range. -/
def mapStep (slots par meas : List Nat) (bs : List Byte) (i : Nat) : Option (List Nat) :=
  let dest := field bs (16 * i) 4
  let src := field bs (16 * i + 4) 4
  let coef := field bs (16 * i + 8) 8
  let k := src % 2 ^ 30
  let v := match src / 2 ^ 30 with
    | 0 => some 0x3FF0000000000000
    | 1 => par[k]?
    | 2 => meas[k]?
    | _ => none
  match v, slots[dest]? with
  | some v, some old => some (slots.set dest (fmaElem .fp64 .rne coef v old).1)
  | _, _ => none

/-- Assembly (R178): the slots, or the index of the failing entry. -/
def assemble (par meas : List Nat) (bs : List Byte) : List Nat → List Nat → Except Nat (List Nat)
  | slots, [] => .ok slots
  | slots, i :: is => match mapStep slots par meas bs i with
    | some slots => assemble par meas bs slots is
    | none => .error i

/-- Whether an FP64 value is not finite. -/
def notFinite (b : Nat) : Bool := decide (b / 2 ^ 52 % 2048 = 2047)

/-- The largest magnitude of FP64 values, as bits. -/
def maxAbs (xs : List Nat) : Nat := xs.foldl (fun m x => max m (x % 2 ^ 63)) 0

/-- The status record (Table 7.8). -/
def statusRecord (status fp texec cycles maxabs replaced failIdx residual : Nat) (pivots : List Nat) : List Byte :=
  natLe 4 status ++ natLe 4 0 ++ natLe 8 fp ++ natLe 8 texec ++ natLe 8 cycles ++ natLe 8 maxabs ++ natLe 4 replaced
    ++ natLe 4 failIdx ++ natLe 8 residual ++ natLe 8 0
    ++ ((List.range 64).flatMap (fun i => natLe 4 (pivots.getD i 0xFFFFFFFF))) ++ natLe 192 0

/-- What a problem comes to: status word, MAX_ABS where it is defined, replaced pivots, FAIL_INDEX, RESIDUAL where it is defined, SOL and the
warm-start vectors. -/
structure Result where
  status   : Nat
  maxAbs   : Option Nat
  replaced : List Nat
  failIdx  : Nat
  residual : Option Nat
  sol      : List Byte
  warm     : List Byte

/-- A problem that ends with a code and no output. -/
def Result.fail (code idx : Nat) (m : Option Nat) : Result := ⟨code, m, [], idx, none, [], []⟩

/-- The warm-start record's head (R184). -/
def warmHead (d : Desc) (fp : Nat) : List Byte :=
  natLe 4 0x4D524157 ++ natLe 1 (dMethod d) ++ natLe 3 0 ++ natLe 8 fp ++ natLe 4 (dN d) ++ natLe 4 (dP d) ++ natLe 8 0

/-- Whether a warm-start record is used (R185): reserved bytes do not count. -/
def warmMatches (d : Desc) (fp : Nat) (bs : List Byte) : Bool :=
  decide (field bs 0 4 = 0x4D524157 ∧ field bs 4 1 = dMethod d ∧ field bs 8 8 = fp ∧ field bs 16 4 = dN d ∧ field bs 20 4 = dP d)

/-- τ exponent of a descriptor. -/
def dTau (d : Desc) : Nat := if dField d 3 1 = 0 then 40 else dField d 3 1

/-- θ of R182: max|a| × 2^−TAU_EXP, compared exactly and rounded once where it replaces a pivot. -/
def fpPivots (d : Desc) (mx : Nat) : PivotRule Nat :=
  let th : Int × Int := match decode .fp64 mx with | .fin _ s e => ((s : Int), e - dTau d) | _ => (0, 0)
  { below := fun p => match decode .fp64 p with
      | .fin _ s e => decide (0 < (addDyadic th (-(s : Int), e)).1)
      | _ => false
    theta := max 1 (encodeNum .fp64 .rne (.fin false th.1.toNat th.2)).1
    stop := decide (dPolicy d = 1) }

/-- θ on the fixed-point path: the larger of τ × max|a| and one unit of the internal format (R188). `v` × 2^−`f` is max|a|. -/
def fxPivots (d : Desc) (v f fi : Nat) : PivotRule Fx :=
  { below := fun p => decide (p.v * 2 ^ (f + dTau d) < (v : Int) * 2 ^ p.f ∨ p.v * 2 ^ fi < 2 ^ p.f)
    theta := if 2 ^ (f + dTau d) ≤ v * 2 ^ fi then fxStore fi v (f + dTau d) false else ⟨1, fi, false⟩
    stop := decide (dPolicy d = 1) }

/-- Operands of a problem that has passed the scan. -/
structure Operands (α : Type) where
  mat : List α
  mat2 : List α
  rhs : List α
  lower : List α
  upper : List α
  x : List α
  z : List α
  y : List α
  rho : α
  sigma : α
  alpha : α

variable {α : Type}

/-- The method of a descriptor on its operands. -/
def methodRun (A : Arith α) (P : PivotRule α) (d : Desc) (x : Shape) (o : Operands α) : Except Stop (Run α) :=
  let m := dMethod d
  let n := dN d
  if isDirect m then
    let ns := if isSparse m then snodes x.a.words (decide (m = 8)) else []
    let a := fun (i j : Nat) => match matSlot m n (dKL d) (dKU d) ns i j with | some k => A.at o.mat k | none => A.zero
    let kept := fun (i j : Nat) => !isSparse m || (snSlot ns (decide (m = 8)) i j).isSome
    let full := fun (i j : Nat) => if m = 1 ∨ m = 4 ∨ m = 8 then a i j else a (max i j) (min i j)
    match factorise A P m n (dKL d) ns kept a with
    | .error e => .error e
    | .ok f => directRun A m n (dR d) (dRefine d) (fun i => (List.range n).map (fun j => (j, full i j))) f o.rhs
  else if m = 9 then cgRun A n (dIters d) (bsrRow A x.a.words n n o.mat) o.rhs o.x
  else if m = 10 then gmresRun A n (dIters d) (dRestart d) (bsrRow A x.a.words n n o.mat) o.rhs o.x
  else admmRun A P n (dP d) (dIters d) o.rho o.sigma o.alpha (snodes x.kkt.words false) (bsrRow A x.a.words n n o.mat)
    (bsrRow A x.a2.words (dP d) n o.mat2) o.rhs o.lower o.upper ⟨o.x, o.z, o.y⟩

/-- What a method's end gives: INFO with SOLVED, the bytes of SOL, and of a warm-start record its FP64 vectors (R184, R190). -/
def runResult (A : Arith α) (bytes : α → List Byte) (sat : α → Bool) (d : Desc) (fp mx : Nat) (rejected : Bool) : Except Stop (Run α) → Result
  | .error e => ⟨e.code, some mx, e.replaced, e.idx, none, [], []⟩
  | .ok r =>
    let info := bit (decide (r.replaced ≠ [])) + 2 * bit (decide (64 < r.replaced.length)) + 4 * bit rejected + 8 * bit (r.seen.any sat)
    ⟨info * 65536, some mx, r.replaced, 0xFFFFFFFF, some (r.residual % 2 ^ 63), r.sol.flatMap bytes,
      if isIter (dMethod d) then warmHead d fp ++ r.warm.flatMap (fun v => natLe 8 (A.toF64 v)) else []⟩

/-- Vectors of a warm start, or of zeros for a cold one: x, z and y. -/
def warmVectors (d : Desc) (warm : List Nat) : List Nat × List Nat × List Nat :=
  let n := dN d
  let p := if dMethod d = 11 then dP d else 0
  let at' := fun (o k : Nat) => (List.range k).map (fun i => warm.getD (o + i) 0)
  (at' 0 n, at' n p, at' (n + p) p)

/-- The method itself, on the path of the descriptor (R180 to R185, R188). `warm` holds the vectors of a warm start that is used. -/
def runMethod (d : Desc) (kind : Nat) (x : Shape) (fp mx : Nat) (rejected : Bool) (mat mat2 rhs lower upper warm : List Nat) : Result :=
  let w := warmVectors d warm
  if dPath d = 1 then
    let q := dField d 0xC8 4
    let fx := fun (f : Nat) (b : Nat) => (⟨intVal .int32 b, f, false⟩ : Fx)
    let fm := q % 32
    let fb := q / 2 ^ 8 % 32
    let fs := q / 2 ^ 16 % 32
    let fi := q / 2 ^ 24 % 32
    let A := fxArith fs fi
    let top := (mat ++ mat2).foldl (fun a b => max a (intVal .int32 b).natAbs) 0
    runResult A (fun v => natLe 4 (ofSigned 32 v.v)) (fun v => v.sat) d fp mx rejected (methodRun A (fxPivots d top fm fi) d x
      ⟨mat.map (fx fm), mat2.map (fx fm), rhs.map (fx fb), lower.map (fx fb), upper.map (fx fb), w.1.map (fxOf fs), w.2.1.map (fxOf fi),
        w.2.2.map (fxOf fi), fxOf fi (dField d 0xD0 8), fxOf fi (dField d 0xD8 8), fxOf fi (dField d 0xE0 8)⟩)
  else
    let A := fpArith ([dMethod d, kind, dN d, dP d, dKL d, dKU d, dR d, dIters d, dRestart d, dRefine d] ++ x.a.words ++ x.a2.words ++ x.kkt.words)
    runResult A (natLe 8) (fun _ => false) d fp mx rejected (methodRun A (fpPivots d mx) d x
      ⟨mat, mat2, rhs, lower, upper, w.1, w.2.1, w.2.2, dField d 0xD0 8, dField d 0xD8 8, dField d 0xE0 8⟩)

/-- The result of a problem from its operands as staged. A matrix of zeros ends every method with ZERO_PIVOT, also one that divides by no pivot (DEDUCED
from Table 7.9, log entry 98). -/
def solveRun (s : State) (c : Context) (kind first : Nat) (d : Desc) (x : Shape) : Result :=
  let m := dMethod d
  let get := fun (off n : Nat) => if refNone (dRef d off) then [] else refRead s c first (dRef d off) n
  let w := elemSize d
  let zs := matEntries d x
  let z := zs.1 + zs.2
  let r := (vecElems d).1
  let fp := (fingerprint d x).toNat
  if m = 15 then ⟨0, none, [], 0xFFFFFFFF, some 0, get 0x68 (8 * dN d), []⟩
  else
    let staged := fun (off n : Nat) => if refNone (dRef d off) then List.replicate n 0
      else (List.range n).map (fun i => leNat (((get off (w * n)).drop (w * i)).take w))
    let slots := staged 0x40 zs.1 ++ staged 0x50 zs.2 ++ staged 0x68 r
    let slots := if dAssemble d then
        assemble (words64 (get 0x90 (8 * dParamCount d))) (words64 (get 0x98 (8 * dMeasCount d))) (get 0x88 (16 * dMapCount d))
          slots (List.range (dMapCount d))
      else .ok slots
    match slots with
    | .error i => Result.fail 5 i none
    | .ok slots =>
      let mat := slots.take z
      let rhs := slots.drop z
      let warm := get 0xA0 (32 + 8 * warmElems d)
      let bad := decide (dPath d = 0) && (mat ++ rhs ++ words64 (warm.drop 32)).any notFinite
      if bad then Result.fail 2 0xFFFFFFFF (if mat.any notFinite then none else some (maxAbs mat))
      else
        let mx := if dPath d = 1 then
            (encodeNum .fp64 .rne (numOfInt (mat.foldl (fun a b => max a (intVal .int32 b).natAbs) 0) (-(dField d 0xC8 4 % 32 : Nat)))).1
          else maxAbs mat
        if mx = 0 then Result.fail 1 0 (some 0)
        else
          let used := warm ≠ [] && warmMatches d fp warm
          runMethod d kind x fp mx (decide (warm ≠ []) && !used) (mat.take zs.1) (mat.drop zs.1) rhs
            (staged 0x78 (dP d)) (staged 0x80 (dP d)) (if used then words64 (warm.drop 32) else [])

/-! ### Life of a problem (R174 to R177, R186, R187) -/

/-- Queue that holds the problem of the plant slot that runs on a half. -/
def plantQ (h : Nat) : Nat := 4 + h

/-- Halves of the target whose queue is `f`. -/
def queueHalves (kind f : Nat) : List Nat := if 4 ≤ f then [f - 4] else targetHalves kind f

/-- The queues of running problems on a half, with the problems. -/
def runningOn (s : State) (h : Nat) : List (Nat × SolverStage × Problem) :=
  (List.range 8).filterMap (fun f => match (getQ s f).running with
    | some (st, p) => if h ∈ queueHalves p.kind f then some (f, st, p) else none
    | none => none)

/-- Whether a problem runs or waits on a target that contains a half, a plant slot's problem among them. -/
def halfBusy (s : State) (h : Nat) : Bool :=
  (List.range 8).any (fun f => match (getQ s f).running, (getQ s f).waiting with
    | some (_, p), _ => decide (h ∈ queueHalves p.kind f)
    | none, p :: _ => decide (h ∈ queueHalves p.kind f)
    | none, [] => false)

/-- Each half that runs no problem switches to the operating point for which the synthesisers are locked (R177, R420 step 2). -/
def switchTargets (s : State) : State :=
  match s.pkg.opNext with
  | some (v, true) => { s with solv := { s.solv with clock :=
      ((List.range 4).filter (fun h => (runningOn s h).isEmpty)).foldl (fun t h => tset 0 t h v) s.solv.clock } }
  | _ => s

/-- Whether a Taster slice tests a column of the target (R177). -/
def sliceOn (s : State) (kind first : Nat) : Bool :=
  (targetHalves kind first).any (fun h => match (tget Taster.initial s.pkg.tasters (28 + h / 2)).slice with
    | some (k, u, _) => decide (k = 4 ∧ u / 16 = h % 2)
    | none => false)

/-- The next problem of a target starts its stage-in; on an OFFLINE target it will end with TARGET_OFFLINE. No problem starts beside a Taster slice on its target (R177). -/
def startNext (s : State) (first : Nat) : State :=
  let s := settleOp (switchTargets s)
  let q := getQ s first
  match q.running, q.waiting with
  | none, p :: rest =>
    if sliceOn s p.kind first then s
    else
    let p := if targetOffline s p.kind first then { p with fail := some 0x23 } else p
    setHalves (setQ s first ⟨some (.stageIn, p), rest⟩) p.kind first 1
  | _, _ => s

/-- Every target that holds a problem and runs none starts the next. -/
def startAll (s : State) : State := (List.range 4).foldl startNext s

/-- The record of a problem, where its descriptor names one: bytes to write. A MAX_ABS or a RESIDUAL that no rule defines is free. -/
def problemRecord (s : State) (p : Problem) (r : Result) (cycles : Nat) : List Byte :=
  let free := Config.freeNat s.freeIdx
  statusRecord r.status p.fp.toNat p.texec cycles (r.maxAbs.getD (free % 2 ^ 64)) r.replaced.length r.failIdx
    (r.residual.getD (free / 2 ^ 64 % 2 ^ 63)) (r.replaced.take 64)

/-- Writes bytes at a reference of a problem's context. -/
def refWrite (s : State) (ctx kind first r : Nat) (bs : List Byte) : State :=
  if refSpace r = 2 then residentWrite s kind first (refOff r) bs
  else if refSpace r = 1 then storeRange s ctx (tensorBase (getC s ctx) 0 (refTensor r) + refOff r) bs
  else s

/-- L2 ranges that a problem writes back. -/
def writeRanges (c : Context) (p : Problem) : List (Nat × Nat) :=
  ([(0x70, p.sol.length), (0xA8, p.warm.length), (0xB0, p.record.length)].filter (fun x =>
    decide (refSpace (dRef p.desc x.1) = 1 ∧ 0 < x.2))).map (fun x =>
      (tensorBase c 0 (refTensor (dRef p.desc x.1)) + refOff (dRef p.desc x.1), x.2))

/-- Pages of byte ranges. -/
def rangesPages (rs : List (Nat × Nat)) : List Nat := rs.flatMap (fun r => rangePages r.1 r.2)

/-- Counts a problem that has ended (Table 7.10). -/
def countProblem (s : State) (ctx : Nat) (status texec : Nat) : State :=
  modC s ctx (fun c =>
    let c := eincr (eincr c 0x604000 1) 0x604001 texec
    let c := eincr (eincr c 0x604003 (status / 2 ^ 16 % 2)) 0x604004 (status / 2 ^ 18 % 2)
    if status % 65536 = 0 then c else eincr c 0x604005 1)

/-- The ticket of a problem gets its status. -/
def finishTicket (s : State) (p : Problem) (status : Nat) : State :=
  match p.by' with
  | .plant _ => s
  | .ticket id cl num => modC s id (fun c =>
      let k := getW c cl
      setW c cl { k with tickets := k.tickets.map (fun t => if t.num = num then { t with status := some (BitVec.ofNat 32 status) } else t) })

/-- References that are staged in over the memory system, with their bytes: those with SPACE 0b01 that the problem reads (Table 7.6, Table 7.12). -/
def stagedRefs (d : Desc) (x : Shape) : List (Nat × Nat) :=
  ((refTable d x).filter (fun t => decide (refSpace (dRef d t.1) = 1 ∧ t.1 ∉ [0x70, 0xA8, 0xB0] ∧ (dAssemble d = true ∨ t.1 ∉ [0x88, 0x90, 0x98])))).map
    (fun t => (t.1, t.2.2.2))

/-- Bytes staged in. -/
def stageBytes (d : Desc) (x : Shape) : Nat := (stagedRefs d x).foldl (fun n t => n + t.2) 0

/-- Where a staged read meets an uncorrectable error: in a range that holds one, or, where the command says that one was found, at a free place of
a staged range. -/
def stageBad (s : State) (c : Context) (d : Desc) (x : Shape) (fault : Bool) : Option Nat :=
  let rs := (stagedRefs d x).map (fun t => (tensorBase c 0 (refTensor (dRef d t.1)) + refOff (dRef d t.1), t.2)) |>.filter (fun r => decide (0 < r.2))
  match rs.find? (fun r => rangeBad c r.1 r.2) with
  | some r => (c.gBad.find? (fun g => decide (g * 32 < r.1 + r.2 ∧ r.1 < g * 32 + 32))).map (fun g => g * 32)
  | none =>
    if fault then
      let free := Config.freeNat s.freeIdx
      (rs[free % max 1 rs.length]?).map (fun r => r.1 + free / max 1 rs.length % r.2)
    else none

/-- Cycles beyond the full rate, in ticks, into STAGE_WAIT_US. -/
def stageWait (s : State) (ctx kind cycles bytes : Nat) : State :=
  modC s ctx (fun c => eincr c 0x604002 ((cycles - cdiv bytes (256 * targetG kind)) * acTicks s))

/-- SOLVER_STAGE_IN_DONE: the operands are in the workspace. `fault`: an uncorrectable error on a read, which ends the
problem with STAGE_FAULT at once and raises its own event (R187, R153). Operands that no longer pass when they are read end the problem with
BAD_DESCRIPTOR at its scheduled end, as R194 has it for a plant slot (DESIGN CHOICE, log entry 100: no rule states it for a SOLVE). -/
def execSolverStageInDone (h : Half) (cycles : Nat) (fault : Bool) (s : State) : Out :=
  .next (
    let q := getQ s h.val
    match q.running with
    | some (.stageIn, p) =>
      let c := getC s p.ctx
      let p := { p with stageCycles := cycles }
      match acceptDesc s c p.kind h.val p.desc with
      | .error _ => setQ s h.val { q with running := some (.execute, { p with fail := some (p.fail.getD 0x10) }) }
      | .ok x =>
        let s := stageWait s p.ctx p.kind cycles (stageBytes p.desc x)
        match (if p.fail.isSome then none else stageBad s c p.desc x fault) with
        | some off =>
          let p := { p with fail := some 0x20, status := 0x20 }
          let s := stackFault { s with freeIdx := s.freeIdx + 1 } p.ctx off
          let s := raiseEvent s (28 + h.val / 2) (mkRec 0 0x06 (h.val % 2) 0x20 p.ctx c.step 0) none false
          let p := { p with record := problemRecord s p (Result.fail 0x20 0xFFFFFFFF none) cycles }
          setQ { s with freeIdx := s.freeIdx + 1 } h.val { q with running := some (.writeBack, p) }
        | none =>
          let r := solveRun s c p.kind h.val p.desc x
          let p := { p with status := BitVec.ofNat 32 r.status, sol := r.sol, warm := r.warm, record := problemRecord s p r cycles }
          setQ { s with freeIdx := s.freeIdx + 1 } h.val { q with running := some (.execute, p) }
    | _ => s)

/-- What became of a stream's period when its problem has ended. -/
def plantStatus (s : State) (by' : Submitter) (st : BitVec 32) : State :=
  match by' with
  | .plant n =>
    let p := tget Plant.off s.plants n
    if p.run = .running then { s with plants := tset Plant.off s.plants n { p with run := .done st } } else s
  | .ticket _ _ _ => s

/-- The problem of a plant slot ends: its outputs and its record lie in the resident area (R194, R199). -/
def plantEnd (s : State) (h : Nat) (p : Problem) : State :=
  let code := p.fail.getD p.status.toNat
  let r := if p.fail.isSome then problemRecord s p (Result.fail code 0xFFFFFFFF none) 0 else p.record
  let s := if p.fail.isSome then s
    else refWrite (refWrite s p.ctx 0 h (dRef p.desc 0x70) p.sol) p.ctx 0 h (dRef p.desc 0xA8) p.warm
  let s := if code = 0x10 then s else refWrite s p.ctx 0 h (dRef p.desc 0xB0) r
  let s := setHalves (setQ { s with freeIdx := s.freeIdx + 1 } (plantQ h) SolverQ.empty) 0 h 0
  plantStatus (countProblem s p.ctx code p.texec) p.by' (BitVec.ofNat 32 code)

/-- SOLVER_EXEC_END: T_exec has passed. A fault decides the status, and nothing but the record is written back (R186).
Where a plant slot runs on the half, its problem is the one that ends. -/
def execSolverExecEnd (h : Half) (s : State) : Out :=
  .next (
    match (getQ s (plantQ h.val)).running with
    | some (_, p) => plantEnd s h.val p
    | none =>
      let q := getQ s h.val
      match q.running with
      | some (.execute, p) =>
        match p.fail with
        | none => setQ s h.val { q with running := some (.writeBack, p) }
        | some code =>
          let p := { p with status := BitVec.ofNat 32 code, sol := [], warm := [],
                            record := problemRecord s p (Result.fail code 0xFFFFFFFF none) p.stageCycles }
          setQ { s with freeIdx := s.freeIdx + 1 } h.val { q with running := some (.writeBack, p) }
      | _ => s)

/-- SOLVER_WRITEBACK_DONE: the outputs and the record are written, the ticket gets its status, and the target's next
problem starts. The write-back waits for pages that the Ladle has yet to copy (Table 14.3), and for a page remap (R153). -/
def execSolverWritebackDone (h : Half) (cycles : Nat) (s : State) : Out :=
  .next (
    let q := getQ s h.val
    match q.running with
    | some (.writeBack, p) =>
      let c := getC s p.ctx
      if (rangesPages (writeRanges c p)).any (pageWaits c) then
        (writeRanges c p).foldl (fun s r => holdRange s p.ctx r.1 r.2) s
      else
        let record := if p.record = [] then [] else p.record.take 0x18 ++ natLe 8 (p.stageCycles + cycles) ++ p.record.drop 0x20
        let s := refWrite s p.ctx p.kind h.val (dRef p.desc 0x70) p.sol
        let s := refWrite s p.ctx p.kind h.val (dRef p.desc 0xA8) p.warm
        let s := if p.status.toNat = 0x10 then s else refWrite s p.ctx p.kind h.val (dRef p.desc 0xB0) record
        let s := stageWait s p.ctx p.kind cycles ((writeRanges c p).foldl (fun n r => n + r.2) 0)
        let s := countProblem s p.ctx p.status.toNat p.texec
        let s := setHalves (setQ s h.val { q with running := none }) p.kind h.val 0
        startNext (finishTicket s p p.status.toNat) h.val
    | _ => s)

/-- A half's running problem meets a fault (R186). -/
def faultHalf (s : State) (h code : Nat) : State :=
  (runningOn (wr s (0x601201 + h) 2) h).foldl (fun s q =>
    let f := q.1
    let st := q.2.1
    let p := q.2.2
    let p := { p with fail := some (p.fail.getD (if p.kind = 0 then code else 0x21)) }
    let p := if st = .writeBack then
        { p with status := BitVec.ofNat 32 (p.fail.getD code), sol := [], warm := [],
                 record := problemRecord s p (Result.fail (p.fail.getD code) 0xFFFFFFFF none) p.stageCycles }
      else p
    setQ s f { getQ s f with running := some (st, p) }) (wr s (0x601201 + h) 2)

/-- Context that a half's target is bound to; 0xFFFF for none. -/
def halfOwner (s : State) (h : Nat) : Nat :=
  ((liveIds s).find? (fun id => (getC s id).binds.any (fun b => decide (h ∈ bindHalves b)))).getD 0xFFFF

/-- SOLVER_FAULT: an uncorrectable error in a half's elements or SRAM, or in the die's assembler. The unit fault event is
raised at detection; the job is not rolled back (R186). -/
def execSolverFault (h : Half) (assembler : Bool) (s : State) : Out :=
  .next (
    let die := h.val / 2
    let s := if assembler then faultHalf (faultHalf s (2 * die) 0x22) (2 * die + 1) 0x22 else faultHalf s h.val 0x21
    let s := { s with freeIdx := s.freeIdx + 1 }
    raiseEvent s (28 + die) (mkRec 0 0x06 (if assembler then 2 else h.val % 2) (if assembler then 0x22 else 0x21)
      (halfOwner s h.val) 0 0) none false)

/-! ### SOLVE and SWAIT (Table 3.13) -/

/-- Submits a problem of a worker to its target: a refusal at accept completes the ticket at once, with its record, whose T_EXEC is the formula's and
whose STAGE_CYCLES are 0 (DESIGN CHOICE, log entry 100). On a half that serves an armed plant stream the problem will end with TARGET_OFFLINE
(R195). -/
def submit (s : State) (id cl : Nat) (c : Context) (k : Worker) (b : Binding) (d : Desc) : State × Context × Worker :=
  let first := bindFirst b
  let num := (Config.ticketBase + k.nextTicket) % 2 ^ 64
  let feature := (BitVec.ofNat 64 (modOf c).features).getLsbD 10
  let refused := fun (code : Nat) (x : Option Shape) =>
    let k' := { k with nextTicket := k.nextTicket + 1, tickets := k.tickets ++ [⟨num, some (BitVec.ofNat 32 code)⟩] }
    let s := countProblem (setC s id (setW c cl k')) id code 0
    match x with
    | none => (s, getC s id, k')
    | some x =>
      let p : Problem := ⟨d, id, b.kind, first, .ticket id cl num, texec d b.kind x, fingerprint d x, none, 0, 0, [], [], []⟩
      let s := refWrite s id b.kind first (dRef d 0xB0) (problemRecord s p (Result.fail code 0xFFFFFFFF none) 0)
      let s := { s with freeIdx := s.freeIdx + 1 }
      (s, getC s id, k')
  match acceptDesc s c b.kind first d with
  | .error code => refused code (if code = 0x11 then readShape s c b.kind first d else none)
  | .ok x =>
    if !pathOk s b.kind first d feature then refused 0x12 (some x)
    else
      let p : Problem := ⟨d, id, b.kind, first, .ticket id cl num, texec d b.kind x, fingerprint d x, none, 0, 0, [], [], []⟩
      let p := if (targetHalves b.kind first).any (plantOn s) then { p with fail := some 0x23 } else p
      let q := getQ s first
      let s := startNext (setQ s first { q with waiting := q.waiting ++ [p] }) first
      (s, c, { k with nextTicket := k.nextTicket + 1, tickets := k.tickets ++ [⟨num, none⟩] })

/-- SOLVE: copies the descriptor at v[A] and submits it to binding C; s[D] := ticket. It waits while 16 tickets are
outstanding or the target's queue is full. -/
def execSolve (w : Cluster) (d : SReg) (a : VReg) (cn : Fin 8) (s : State) : Out :=
  .next (issue s w 0 (fun s id c k =>
    let va := getV k a
    if !(viewIs c .int32 va && unitStride va && decide (viewCount va = 64) && decide (homeLevel c va ≠ 1)) then
      operandHalt s c k codeOperandRange
    else match c.binds.find? (fun b => decide (b.num = cn.val)) with
      | none => operandHalt s c k codeOperandRange
      | some b =>
        if 16 ≤ k.tickets.length then .wait s c k .tickets
        else if 32 ≤ (getQ s (bindFirst b)).waiting.length then .wait s c k .solverQueue
        else match viewClash c k [va] [] with
          | some y => .wait s c k y
          | none =>
            moveGo s c w k .int32 [(va, List.range 64, false, false)] (fun s c =>
              let desc : Desc := BitVec.ofNat 2048 ((List.range 64).foldl (fun n i => n + readElem c w k va i * 2 ^ (32 * i)) 0)
              let r := submit s id w c k b desc
              let k := r.2.2
              .done r.1 r.2.1 (setS k d (BitVec.ofNat 64 (Config.ticketBase + (k.nextTicket - 1)))))))

/-- SWAIT: waits for ticket s[A]; s[D] := its status, zero-extended. -/
def execSwait (w : Cluster) (d a : SReg) (s : State) : Out :=
  .next (issue s w 0 (fun s _ c k =>
    match k.tickets.find? (fun t => decide (t.num = (getS k a).toNat)) with
    | none => operandHalt s c k codeOperandRange
    | some t =>
      match t.status with
      | none => .wait s c k .ticket
      | some st => .done s c (setS { k with tickets := k.tickets.filter (fun u => decide (u.num ≠ t.num)) } d (st.setWidth 64))))

/-! ### Teardown and entries -/

/-- Problems of a context end with ABORTED, nothing of theirs is written back, and its bindings' resident areas are
zero-filled (R177, R167). -/
def abortProblems (s : State) (id : Nat) : State :=
  let s := (List.range 8).foldl (fun s f =>
    let q := getQ s f
    let s := q.waiting.foldl (fun s p => if p.ctx = id then finishTicket s p 0x24 else s) s
    let s := setQ s f { q with waiting := q.waiting.filter (fun p => decide (p.ctx ≠ id)) }
    match q.running with
    | some (_, p) =>
      if p.ctx = id then setHalves (setQ (finishTicket s p 0x24) f { getQ s f with running := none }) p.kind (f % 4) 0 else s
    | none => s) s
  startAll s

/-- The resident area of a target is zero-filled (R167). -/
def clearResident (s : State) (kind first : Nat) : State :=
  { s with solv := { s.solv with resident := (targetHalves kind first).foldl terase s.solv.resident } }

/-- SD_MODE (R192). -/
def sdModeWrite (s : State) (die v : Nat) : Except Nat State :=
  if 1 < v then .error 1
  else if (liveIds s).any (fun id => (getC s id).binds.any (fun b => (bindHalves b).any (fun h => decide (h / 2 = die)))) then .error 0x0601
  else .ok (wrHost s (0x601001 + die) v)

/-- COMPAT_JSN16 (R189). -/
def compatWrite (s : State) (v : Nat) : Except Nat State :=
  if 16 ≤ v then .error 2
  else if (List.range 4).any (fun h => decide (v / 2 ^ h % 2 ≠ rd s 0x602000 / 2 ^ h % 2) && halfBusy s h) then .error 0x0602
  else .ok (wrHost s 0x602000 v)

end Sys2Proof.Machine
end

