-- ==== Sys2Proof/Machine/Dgram.lean ====
section
/-! DEFINITION. Arrival of a datagram at the Ethernet port: what a scrub lets through (R301), the entry cache (R292) and
checks 1 to 5 of R290. -/

namespace Sys2Proof.Machine

open Sys2Proof

/-- Entries the ED's cache holds (R292). -/
def cacheSize : Nat := 16384

/-- The entry of stream `id` is used: a miss is counted, and the least recently used entry gives way. -/
def touchEntry (s : State) (id : Nat) : State :=
  let hit := decide (id ∈ s.eth.cache)
  let s := if hit then s else incr s 0x102300 1
  { s with eth := { s.eth with cache := (id :: s.eth.cache.filter (fun x => decide (x ≠ id))).take cacheSize } }

/-- Whether the key that a datagram is sealed under is held (R289). -/
def keyHeld (s : State) (h : DgHdr) : Bool :=
  if h.mgmt then s.wen.mgmtKey.isSome else (getC s h.ctx).sessKey.isSome

/-- Step 3 of Table 12.3: source address and port, or, for a datagram that came by relay, a relay stream of the relaying
device (R383). -/
def peerOk (e : Stream) (h : DgHdr) : Bool :=
  match h.relay with
  | none => decide (e.peer = h.src ∧ e.port = h.port)
  | some (d, _) => h.mgmt && decide (e.peer = 0 ∧ e.port = d)

/-- Checks 1 to 5 of Table 12.3: the state with what is counted, and whether the datagram goes on. -/
def arrive (s : State) (h : DgHdr) : State × Bool :=
  if s.pkg.scrubbing && !h.mgmt then (incr s 0x102206 1, false)
  else if h.version ≠ 1 ∨ h.udpLen ≠ 32 + h.length ∨ 8192 < h.length ∨ h.fromDev = true then (incr s 0x102200 1, false)
  else
    let s := if h.mgmt then s else touchEntry s h.stream
    let e := getStream s h.mgmt h.stream
    let known := if h.mgmt then decide (e.state = 1) else decide (e.state ≠ 0 ∧ e.ctx = h.ctx)
    if !known || !peerOk e h || decide (e.gen ≠ h.gen) then (incr s 0x102201 1, false)
    else if !(h.tagOk && keyHeld s h) then (incr s 0x102202 1, false)
    else (s, true)

/-- The window of R293 below RX_NEXT. -/
def seqWindow : Nat := 64

/-- A plant stream's sequence check: any number above RX_NEXT − 64 that the replay bitmap has not seen. `seen` holds the
accepted numbers of the window. -/
def plantSeq (e : Stream) (seq : Nat) : Option Stream :=
  if seq + seqWindow ≤ e.rxNext ∨ seq ∈ e.seen then none
  else
    let top := max e.rxNext seq
    some { e with rxNext := top, seen := (seq :: e.seen).filter (fun x => decide (top < x + seqWindow)) }

/-- The stream ID of plant-timed stream `n` (R291). -/
def plantStream (n : Nat) : Nat := 0xFFF00 + n

end Sys2Proof.Machine
end

