-- ==== Sys2Proof/Machine/Plant.lean ====
section
/-! DEFINITION. Plant-timed streams (R193 to R204): PS_CTRL, the events of a period, measurements, and PTP_STATE. -/

namespace Sys2Proof.Machine

open Sys2Proof

/-! ### A stream's entries and its state -/

/-- Internals of stream `n`. -/
def getP (s : State) (n : Nat) : Plant := tget Plant.off s.plants n

/-- Replaces the internals of stream `n`. -/
def setP (s : State) (n : Nat) (p : Plant) : State := { s with plants := tset Plant.off s.plants n p }

/-- PS_STATE. -/
def psState (s : State) (n : Nat) : Nat := rd s (0xC01E00 + n)
/-- PERIOD. -/
def psPeriod (s : State) (n : Nat) : Nat := rd s (0xC01000 + n)
/-- EPOCH. -/
def psEpoch (s : State) (n : Nat) : Nat := rd s (0xC01100 + n)
/-- WIN_OPEN. -/
def psWinOpen (s : State) (n : Nat) : Nat := rd s (0xC01200 + n) / 2 ^ 32
/-- WIN_CLOSE. -/
def psWinClose (s : State) (n : Nat) : Nat := rd s (0xC01200 + n) % 2 ^ 32
/-- SLOT. -/
def psSlot (s : State) (n : Nat) : Nat := rd s (0xC01300 + n)
/-- DEADLINE. -/
def psDeadline (s : State) (n : Nat) : Nat := rd s (0xC01400 + n)
/-- Half of PS_TARGET. -/
def psHalf (s : State) (n : Nat) : Nat := rd s (0xC01500 + n) % 4
/-- PS_CONTEXT. -/
def psCtx (s : State) (n : Nat) : Nat := rd s (0xC01600 + n) % 4096
/-- U. -/
def psU (s : State) (n : Nat) : Nat := rd s (0xC01800 + n) % 256
/-- H. -/
def psH (s : State) (n : Nat) : Nat := rd s (0xC01800 + n) / 256 % 256
/-- ANS_OFFSET. -/
def psAns (s : State) (n : Nat) : Nat := rd s (0xC01800 + n) / 65536
/-- PS_MEAS_CH. -/
def psChannels (s : State) (n : Nat) : Nat := rd s (0xC01900 + n)

/-- A problem time in whole nanoseconds at an AC cycle of `ac` ticks, rounded up (R194). -/
def execNs (texec ac : Nat) : Nat := cdiv (texec * ac) ticksPerNs

/-- Armed streams on a half, apart from `n`. -/
def armedOn (s : State) (h n : Nat) : List Nat :=
  (List.range 256).filter (fun m => decide (m ≠ n ∧ psState s m ≠ 0 ∧ psHalf s m = h))

/-- Whether two half-open intervals overlap. -/
def overlaps (a b c d : Nat) : Bool := decide (a < d ∧ c < b)

/-- Whether streams that are armed keep check 4 of R194 at an AC cycle of `ac` ticks (R195). -/
def plantsFit (s : State) (ac : Nat) : Bool :=
  (List.range 256).all (fun n => decide (psState s n = 0 ∨ psSlot s n + execNs (getP s n).texec ac + 1000 ≤ psDeadline s n))

/-! ### PS_CTRL (R194, R202) -/

/-- FP64 words of a half's resident area. -/
def residentWords (s : State) (h off n : Nat) : List (BitVec 64) :=
  (List.range n).map (fun i => BitVec.ofNat 64 (leNat (residentRead s h (off + 8 * i) 8)))

/-- The U × H words of SOL from ANS_OFFSET. -/
def trajectory (s : State) (n : Nat) (d : Desc) : List (BitVec 64) :=
  residentWords s (psHalf s n) (refOff (dRef d 0x70) + 8 * psAns s n) (psU s n * psH s n)

/-- Offsets of the references in a descriptor (Table 7.2). -/
def refOffsets : List Nat := [0x40, 0x48, 0x50, 0x58, 0x60, 0x68, 0x70, 0x78, 0x80, 0x88, 0x90, 0x98, 0xA0, 0xA8, 0xB0]

/-- Check 3 of R194: the descriptor's shape, where it is accepted. -/
def plantDesc (s : State) (n : Nat) (d : Desc) : Option Shape :=
  let h := psHalf s n
  let u := psU s n
  let hz := psH s n
  match acceptDesc s (getC s (psCtx s n)) 0 h d with
  | .error _ => none
  | .ok x =>
    if pathOk s 0 h d true && refOffsets.all (fun o => decide (refSpace (dRef d o) = 0 ∨ refSpace (dRef d o) = 2))
        && !refNone (dRef d 0x98) && decide (dMeasCount d = psChannels s n)
        && decide (1 ≤ u ∧ u ≤ 64 ∧ 1 ≤ hz ∧ hz ≤ 64 ∧ u * hz ≤ 160 ∧ 8 * (psAns s n + u * hz) ≤ elemSize d * (vecElems d).2) then some x
    else none

/-- The descriptor at PS_DESC, where it lies in the resident area. -/
def plantDescAt (s : State) (n : Nat) : Option Desc :=
  let off := rd s (0xC01700 + n)
  if off % 8 = 0 ∧ off + 256 ≤ residentSize 0 then some (BitVec.ofNat 2048 (leNat (residentRead s (psHalf s n) off 256))) else none

/-- Checks 1 and 2 of R194: the code of the first that fails. -/
def armBad (s : State) (n : Nat) : Option Nat :=
  let h := psHalf s n
  let c := getC s (psCtx s n)
  if psPeriod s n < 50000 ∨ psWinClose s n ≤ psWinOpen s n ∨ psSlot s n < psWinClose s n + 2000 ∨ psPeriod s n < psDeadline s n then
    some 0x0C01
  else if rd s (0x601001 + h / 2) ≠ 0 ∨ c.live = false ∨ halfBusy s h = true
      ∨ c.binds.any (fun b => decide (b.kind = 0 ∧ b.die * 2 + b.half = h)) = false then some 0x0C02
  else none

/-- Checks 4 and 5 of R194. -/
def slotBad (s : State) (n texec : Nat) : Option Nat :=
  let len := execNs texec (acTicks s) + 1000
  let slot := psSlot s n
  if psDeadline s n < slot + len then some 0x0C04
  else if (armedOn s (psHalf s n) n).any (fun m => decide (psPeriod s m ≠ psPeriod s n ∨ psEpoch s m ≠ psEpoch s n)
      || overlaps slot (slot + len) (psSlot s m) (psSlot s m + execNs (getP s m).texec (acTicks s) + 1000)) then some 0x0C05
  else none

/-- The stream's entry opens (R196), its peer from PS_GATEWAY: an address counts as the number whose bytes, lowest first,
are the address in order. None when its GEN is exhausted. -/
def openPlant (s : State) (n : Nat) : Option State :=
  let id := plantStream n
  let e := getStream s false id
  let gw := rd s (0xC01C00 + n)
  if 0xFFFF ≤ e.gen then none
  else
    let e' : Stream := ⟨1, 2, psCtx s n, e.gen + 1, 0, 0, 0, gw % 2 ^ 128, gw / 2 ^ 128 % 65536, []⟩
    some (wr (setStream s false id e') (0xC01F00 + n) (e.gen + 1))

/-- The first period whose start lies at least 1 ms after now. -/
def firstPeriod (s : State) (n : Nat) : Nat := cdiv (s.ptpNs + 1000000 - psEpoch s n) (psPeriod s n)

/-- ARM: the checks of R194 in order, then the latched descriptor and the open entry. -/
def psArm (s : State) (n : Nat) : Except Nat State :=
  if psState s n ≠ 0 then .error 0x0C06
  else match armBad s n with
    | some code => .error code
    | none =>
      match (plantDescAt s n).bind (fun d => (plantDesc s n d).map (fun x => (d, x))) with
      | none => .error 0x0C03
      | some (d, x) =>
        match slotBad s n (texec d 0 x) with
        | some code => .error code
        | none =>
          match openPlant s n with
          | none => .error 0x050F
          | some s =>
            let vals := residentWords s (psHalf s n) (refOff (dRef d 0x98)) (psChannels s n)
            let values := (List.range vals.length).foldl (fun t i => tset 0 t i (vals.getD i 0)) []
            let p : Plant := { Plant.off with
              period := firstPeriod s n, desc := d, texec := texec d 0 x, fp := fingerprint d x, values := values,
              base := trajectory s n d, param := (getP s n).param, lastPayload := (getP s n).lastPayload, queued := (getP s n).queued }
            .ok (wr (setP s n p) (0xC01E00 + n) 1)

/-- The stream goes OFF: its entry is FREE again and the half is released (R196, R202). A last datagram that is built still leaves, or is
discarded when it is late (R199). -/
def psOff (s : State) (n : Nat) : State :=
  let id := plantStream n
  let p := getP s n
  let s := setP s n { Plant.off with lastPayload := p.lastPayload, period := p.period, queued := p.queued }
  wr (setStream s false id { getStream s false id with state := 0 }) (0xC01E00 + n) 0

/-- RESUME: at the next period start. -/
def psResume (s : State) (n : Nat) : Except Nat State :=
  if psState s n = 3 then .ok (setP s n { getP s n with resume := true }) else .error 0x0C06

/-- STOP: at once in ARMED, at the next period start in RUN and HOLD. -/
def psStop (s : State) (n : Nat) : Except Nat State :=
  match psState s n with
  | 0 => .error 0x0C06
  | 1 => .ok (psOff s n)
  | _ => .ok (setP s n { getP s n with stop := true })

/-- PS_CTRL; the write counts in SNAP like any other. -/
def psCtrlWrite (s : State) (n v : Nat) : Except Nat State :=
  match v with
  | 1 => (psArm s n).map (fun s => bumpSnap s (0xC01D00 + n))
  | 2 => (psResume s n).map (fun s => bumpSnap s (0xC01D00 + n))
  | 3 => (psStop s n).map (fun s => bumpSnap s (0xC01D00 + n))
  | _ => .error 1

/-- A datagram of the stream that has not left is dropped. -/
def dropPlant (s : State) (n : Nat) : State :=
  setP { s with eth := { s.eth with tx := s.eth.tx.filter (fun d => !decide (d.queue = 1 ∧ d.stream = plantStream n)) } } n
    { getP s n with queued := none }

/-- Context teardown sets every stream of the context to OFF, and nothing further is sent (R202). -/
def plantTeardown (s : State) (id : Nat) : State :=
  (List.range 256).foldl (fun s n =>
    if psState s n ≠ 0 ∧ psCtx s n = id then psOff (dropPlant s n) n
    else if psCtx s n = id then dropPlant s n else s) s

/-- Writes of the stream's other entries, 0xC010 to 0xC01C: those of its times and of what its slots run, 0xC010 to 0xC019, only while it is OFF
(R204; DESIGN CHOICE, log entry 99: which entries "timing or descriptor" means). -/
def psEntryWrite (s : State) (k v : Nat) : Except Nat State :=
  let n := k % 256
  let idx := k / 256
  if psState s n ≠ 0 ∧ idx ≤ 0xC019 then .error 0x0C06
  else if (idx = 0xC015 ∧ 4 ≤ v) ∨ (idx = 0xC016 ∧ 4096 ≤ v) then .error 2
  else if idx = 0xC01C ∧ 2 ^ 144 ≤ v then .error 2
  else if (idx = 0xC017 ∧ v % 8 ≠ 0) ∨ (idx = 0xC019 ∧ (v = 0 ∨ 65536 < v)) ∨ (idx = 0xC01B ∧ v = 0) then .error 1
  else .ok (wrHost s k v)

/-! ### The events of a period -/

/-- PLANT_PERIOD_START: an ARMED stream runs; else the next period begins, and RESUME or STOP takes effect. -/
def execPlantPeriodStart (n : PlantNo) (s : State) : Out :=
  .next (
    let p := getP s n.val
    let st := psState s n.val
    if st = 0 then s
    else
      let k := if p.serving then p.period + 1 else p.period
      let p := { p with period := k, serving := true, window := true, samples := [], missing := false, run := .notRun }
      if st = 1 then wr (setP s n.val p) (0xC01E00 + n.val) 2
      else if p.stop then setP s n.val { p with stop := false, stopping := true, window := false }
      else if p.resume && decide (st = 3) then
        wr (setP s n.val { p with resume := false, fallbacks := 0, stale := [], enter := 0 }) (0xC01E00 + n.val) 2
      else setP s n.val { p with resume := false })

/-- The values a window latches: sampled channels take their winners, others keep theirs. -/
def latchValues (p : Plant) : Tbl (BitVec 64) := p.samples.foldl (fun t x => tset 0 t x.1 x.2.2.2) p.values

/-- Stale counts of `ch` channels after a window. -/
def latchStale (p : Plant) (ch : Nat) : Tbl Nat :=
  (List.range ch).foldl (fun t i => if p.samples.any (fun x => decide (x.1 = i)) then tset 0 t i 0 else tset 0 t i (tget 0 t i + 1)) p.stale

/-- FP64 bytes of words. -/
def wordBytes (xs : List (BitVec 64)) : List Byte := xs.flatMap (fun x => natLe 8 x.toNat)

/-- A parameter block takes effect: the PARAM range takes as many words as PARAM_COUNT allows (R201). -/
def putParam (s : State) (n : Nat) (d : Desc) (xs : List (BitVec 64)) : State :=
  if refNone (dRef d 0x90) then s
  else residentWrite s 0 (psHalf s n) (refOff (dRef d 0x90)) (wordBytes (xs.take (dParamCount d)))

/-- The parameter block that takes effect when the window of period `k` closes; in a replay the logged one. -/
def paramAt (s : State) (n k : Nat) : Option (List (BitVec 64)) :=
  if replaying s (psCtx s n) then
    (s.ckpt.rin.find? (fun r => decide (r.type = 0x05 ∧ r.key = n ∧ field r.data 0 8 = k))).map (fun r =>
      (words64 (r.data.drop 8)).map (BitVec.ofNat 64))
  else (getP s n).param

/-- Entries of a measurement payload (Table 8.1). -/
def measEntries (bs : List Byte) : List (Nat × BitVec 64) :=
  (List.range (field bs 8 2)).map (fun i => (field bs (16 + 12 * i) 4, BitVec.ofNat 64 (field bs (20 + 12 * i) 8)))

/-- One channel's sample against the winner so far: the latest TS, then the higher sequence number (R197). -/
def putSample (xs : List (Nat × Nat × Nat × BitVec 64)) (ts seq ch : Nat) (v : BitVec 64) : List (Nat × Nat × Nat × BitVec 64) :=
  if xs.any (fun x => decide (x.1 = ch ∧ (ts < x.2.1 ∨ (ts = x.2.1 ∧ seq < x.2.2.1)))) then xs
  else (xs.filter (fun x => decide (x.1 ≠ ch))) ++ [(ch, ts, seq, v)]

/-- The samples of a period's window in a replay: those of the logged measurements that were accepted (R315). -/
def replaySamples (s : State) (n k : Nat) : List (Nat × Nat × Nat × BitVec 64) :=
  (s.ckpt.rin.filter (fun r => decide (r.type = 0x03 ∧ r.key = n * 2 ^ 48 + k % 2 ^ 48))).foldl (fun xs r =>
    (measEntries (r.data.drop 16)).foldl (fun xs e =>
      putSample xs (field r.data 16 8) (beNat ((r.data.drop 8).take 4)) e.1 e.2) xs) []

/-- PLANT_WIN_CLOSE: the window is latched and written to the MEAS range, and a waiting parameter block takes effect
(R198, R201). An SIN that waited for a first window may go on. -/
def execPlantWinClose (n : PlantNo) (s : State) : Out :=
  .next (
    let p := getP s n.val
    if p.window then
      let id := psCtx s n.val
      let p := if replaying s id then { p with samples := replaySamples s n.val p.period } else p
      let ch := psChannels s n.val
      let stale := latchStale p ch
      let p' := { p with window := false, values := latchValues p, stale := stale, samples := [], closed := some p.period,
                         missing := stale.any (fun x => decide (rd s (0xC01A00 + n.val) < x.2)), param := none }
      let par := paramAt s n.val p.period
      let s := setP s n.val p'
      let s := match par with
        | none => s
        | some xs => logInput (putParam s n.val p.desc xs) id 0x05 (getC s id).step n.val 0 (natLe 8 p.period ++ wordBytes xs)
      let s := residentWrite s 0 (psHalf s n.val) (refOff (dRef p.desc 0x98))
        (wordBytes ((List.range ch).map (fun i => tget 0 p'.values i)))
      match runningId s with
      | some r => if isRunning (getC s r) then fetchInputs s r else s
      | none => s
    else s)

/-- The problem of a slot, with the fault it will end with: an OFFLINE half, operands that no longer pass (R194), or a
path that is no longer enabled. -/
def slotProblem (s : State) (n : Nat) (p : Plant) : Problem :=
  let h := psHalf s n
  let c := getC s (psCtx s n)
  let pr : Problem := ⟨p.desc, psCtx s n, 0, h, .plant n, p.texec, p.fp, none, 0, 0, [], [], []⟩
  if targetOffline s 0 h then { pr with fail := some 0x23 }
  else match acceptDesc s c 0 h p.desc with
    | .error _ => { pr with fail := some 0x10 }
    | .ok x =>
      if fingerprint p.desc x ≠ p.fp then { pr with fail := some 0x10 }
      else if !pathOk s 0 h p.desc true then { pr with fail := some 0x12 }
      else
        let r := solveRun s c 0 h p.desc x
        { pr with status := BitVec.ofNat 32 r.status, sol := r.sol, warm := r.warm, record := problemRecord s pr r 0 }

/-- PLANT_SLOT: the half starts the stream's problem, with execution only. A period with INPUT_MISSING leaves it idle. -/
def execPlantSlot (n : PlantNo) (s : State) : Out :=
  .next (
    let p := getP s n.val
    let q := plantQ (psHalf s n.val)
    if 2 ≤ psState s n.val ∧ p.serving = true ∧ p.stopping = false ∧ p.missing = false ∧ (getQ s q).running = none then
      let s' := setQ s q ⟨some (.execute, slotProblem s n.val p), []⟩
      setHalves (setP { s' with freeIdx := s.freeIdx + 1 } n.val { p with run := .running }) 0 (psHalf s n.val) 1
    else s)

/-- The base moved on by one period (R200). -/
def shiftBase (u h : Nat) (xs : List (BitVec 64)) : List (BitVec 64) := xs.drop u ++ xs.drop (u * (h - 1))

/-- Kind, reason, shift and trajectory of the period's datagram, with the stream as it then stands and its state
(Table 8.2). -/
def plantChoice (s : State) (n : Nat) (p : Plant) : Nat × Nat × Nat × List (BitVec 64) × Plant × Nat :=
  let st := psState s n
  let why := if p.missing then 3 else match p.run with
    | .done _ => 1
    | _ => 2
  let solved := match p.run with
    | .done w => decide (w.toNat % 65536 = 0)
    | _ => false
  if p.stopping then (2, 5, p.shift, [], p, 0)
  else if st = 3 then (2, if p.enter = 0 then 6 else p.enter, p.shift, [], { p with enter := 0 }, 3)
  else if rd s 0xC00100 = 2 then (2, 4, p.shift, [], p, 3)
  else if solved then
    let t := trajectory s n p.desc
    (0, 0, 0, t, { p with base := t, shift := 0, fallbacks := 0 }, 2)
  else if p.fallbacks < rd s (0xC01B00 + n) then
    let t := shiftBase (psU s n) (psH s n) p.base
    (1, why, min 255 (p.shift + 1), t, { p with base := t, shift := min 255 (p.shift + 1), fallbacks := p.fallbacks + 1 }, 2)
  else (2, why, p.shift, [], p, 3)

/-- STATUS of a period's datagram. -/
def plantWord (p : Plant) : Nat := match p.run with
  | .done w => w.toNat
  | _ => 0

/-- The payload of Table 8.3. -/
def answerBytes (s : State) (n : Nat) (p : Plant) (kind reason shift : Nat) (traj : List (BitVec 64)) : List Byte :=
  natLe 8 p.period ++ natLe 8 (psEpoch s n + p.period * psPeriod s n + psDeadline s n) ++ natLe 1 kind ++ natLe 1 reason
    ++ natLe 1 shift ++ natLe 1 (bit (decide (rd s 0xC00100 = 1))) ++ natLe 4 (plantWord p) ++ natLe 1 (psU s n)
    ++ natLe 1 (psH s n) ++ natLe 6 0 ++ wordBytes traj

/-- A plant datagram enters the plant queue, sealed with the stream's next sequence number. -/
def sendPlant (s : State) (n : Nat) (bs : List Byte) : State :=
  let id := plantStream n
  let e := getStream s false id
  let s := setStream s false id { e with txNext := (e.txNext + 1) % 2 ^ 32 }
  setP { s with eth := { s.eth with tx := s.eth.tx ++ [⟨1, false, e.ctx, id, e.txNext, e.gen, sealKey s false e.ctx id, 0x8200, bs, none⟩] } } n
    { getP s n with queued := some e.txNext, lastPayload := bs }

/-- PLANT_DEADLINE: the one datagram of the period is built and queued; in a replay it enters the digest alone (R199,
R315). A stopped stream goes OFF with it. -/
def execPlantDeadline (n : PlantNo) (s : State) : Out :=
  .next (
    let p := getP s n.val
    if 2 ≤ psState s n.val ∧ p.serving = true then
      let id := psCtx s n.val
      let r := plantChoice s n.val p
      let bs := answerBytes s n.val p r.1 r.2.1 r.2.2.1 r.2.2.2.1
      let s := setP s n.val r.2.2.2.2.1
      let s := if replaying s id then setP s n.val { getP s n.val with lastPayload := bs } else sendPlant s n.val bs
      let s := modC s id (fun c => { c with outDigest := c.outDigest ++ [(n.val, p.period, bs)] })
      let s := if r.1 = 0 then incr s (0xC02000 + n.val) 1 else if r.1 = 1 then incr s (0xC02100 + n.val) 1 else s
      if r.2.2.2.2.2 = 0 then psOff s n.val else wr s (0xC01E00 + n.val) r.2.2.2.2.2
    else s)

/-- PS_TX_LATE (R199): the datagram that is still in the queue at DEADLINE + 5 us is discarded and counted; one
that the Ethernet port has begun to send is no longer in the queue, and nothing is counted. -/
def execPsTxLate (n : PlantNo) (s : State) : Out :=
  .next (
    match (getP s n.val).queued with
    | none => s
    | some seq =>
      let s := setP s n.val { getP s n.val with queued := none }
      let late := fun (d : TxDg) => decide (d.queue = 1 ∧ d.stream = plantStream n.val ∧ d.seq = seq)
      if s.eth.tx.any late then
        incr { s with eth := { s.eth with tx := s.eth.tx.filter (fun d => !late d) } } (0xC02500 + n.val) 1
      else s)

/-! ### Measurements (R197) -/

/-- Outcome of a measurement: 0 accepted, 1 late, 2 stale, 3 bad; with the period that its TS names. -/
def measOutcome (s : State) (n : Nat) (h : DgHdr) (ts count : Nat) (entries : List (Nat × BitVec 64)) (resv : Bool) : Nat × Nat :=
  let p := getP s n
  let rel := ts - psEpoch s n
  let k := rel / max 1 (psPeriod s n)
  let inWin := decide (psEpoch s n ≤ ts ∧ psWinOpen s n ≤ rel - k * psPeriod s n ∧ rel - k * psPeriod s n < psWinClose s n)
  let close := psEpoch s n + k * psPeriod s n + psWinClose s n
  if resv = true ∨ count = 0 ∨ 96 < count ∨ entries.length ≠ count ∨ h.length ≠ 16 + 12 * count
      ∨ entries.any (fun e => decide (psChannels s n ≤ e.1 ∨ 65536 ≤ e.1)) then (3, k)
  else if inWin = true ∧ p.serving = true ∧ k = p.period ∧ p.stopping = false then
    (if p.window = true ∧ h.ts < close then 0 else 1, k)
  else (2, k)

/-- A measurement that has passed checks 1 to 6 reaches its stream, and the replay log takes it with its outcome. -/
def measure (s : State) (n : Nat) (h : DgHdr) (ts count : Nat) (entries : List (Nat × BitVec 64)) (resv : Bool) : State :=
  let id := psCtx s n
  if replaying s id then s
  else
    let o := measOutcome s n h ts count entries resv
    let bytes := hdrBytes h 0x0200 ++ natLe 8 ts ++ natLe 2 count ++ natLe 6 (bit resv)
      ++ entries.flatMap (fun e => natLe 4 e.1 ++ natLe 8 e.2.toNat)
    let s := logInput s id 0x03 (getC s id).step (o.1 * 2 ^ 56 + n * 2 ^ 48 + o.2 % 2 ^ 48) h.ts bytes
    match o.1 with
    | 0 => setP s n { getP s n with samples := entries.foldl (fun xs e => putSample xs ts h.seq e.1 e.2) (getP s n).samples }
    | 1 => incr s (0xC02200 + n) 1
    | 2 => incr s (0xC02300 + n) 1
    | _ => incr s (0xC02400 + n) 1

/-- A PLANT_MEAS datagram to a plant stream's entry, after checks 1 to 5. -/
def plantArrive (s : State) (h : DgHdr) (ts count : Nat) (entries : List (Nat × BitVec 64)) (resv : Bool) : State :=
  match plantSeq (getStream s false h.stream) h.seq with
  | none => incr s 0x102205 1
  | some e => measure (setStream s false h.stream e) (h.stream % 256) h ts count entries (resv || decide (h.flagsRes ≠ 0))

/-! ### PTP (R203, R299) -/

/-- LOST: every RUN stream enters HOLD with REASON TIME_LOST. -/
def ptpLost (s : State) : State :=
  (List.range 256).foldl (fun s n =>
    if psState s n = 2 then wr (setP s n { getP s n with enter := 4 }) (0xC01E00 + n) 3 else s) (wr s 0xC00100 2)

/-- PTP_MESSAGE: the clock takes the message's time; an offset within ±50 ns is LOCKED, one beyond begins HOLDOVER. -/
def execPtpMessage (time : Nat) (offset : BitVec 32) (s : State) : Out :=
  .next (
    let s := { s with ptpNs := time, wen := { s.wen with bootNs := s.wen.bootNs + ((time : Int) - (s.ptpNs : Int)) } }
    let s := wr s 0xC00101 offset.toNat
    if offset.toInt.natAbs ≤ 50 then wr s 0xC00100 0 else if rd s 0xC00100 = 0 then wr s 0xC00100 1 else s)

/-- PTP_SYNC_MISSED: HOLDOVER begins with the first missed sync. -/
def execPtpSyncMissed (s : State) : Out := .next (if rd s 0xC00100 = 0 then wr s 0xC00100 1 else s)

/-- PTP_HOLDOVER_EXPIRY: holdover has lasted PS_HOLDOVER_MS. -/
def execPtpHoldoverExpiry (s : State) : Out := .next (if rd s 0xC00100 = 1 then ptpLost s else s)

end Sys2Proof.Machine
end

