-- ==== Sys2Proof/Machine/Celale.lean ====
section
/-! DEFINITION. The Celale ports (R207 to R233): transit, retry, probes and the cabling rule, congestion samples, drain and
training, laser inputs, the ring by-pass, the effects of the fabric entries' writes, and REMOTE_DEAD_NOTICE. -/

namespace Sys2Proof.Machine

open Sys2Proof

/-! ### Records and ports -/

/-- A unit raises an event whose record's CODE no table names: it is free. -/
def raiseFree (s : State) (die cls unit ctx step : Nat) (ev : Option UnitEvent) (jobEnding : Bool) : State :=
  raiseEvent (drawNat s).2 die (mkRec 0 cls unit ((drawNat s).1 % 65536) ctx step 0) ev jobEnding

/-- Sets PORT_STATE. -/
def setPort (s : State) (p v : Nat) : State := wr s (0x401000 + p) v

/-- A port's LINK event (class 0x07), raised by its optical die. -/
def linkEvent (s : State) (p : Nat) : State := raiseFree s (30 + p / 4) 0x07 (p % 4) 0xFFFF 0 none false

/-- A port's congestion samples are cleared: it sends static (R219). -/
def clearSamples (s : State) (p : Nat) : State := wr (setLink s p { getLink s p with samples := [] }) (0x401400 + p) 0xFFFF

/-- Flits that wait at a port which no longer carries them make a new choice; a probe or a drain notice of the port itself is dropped. -/
def reroute (s : State) (p : Nat) (stays : TxFlit → Bool) : State :=
  let l := getLink s p
  (l.queue.filter (fun f => !stays f)).foldl (fun s f =>
    if f.kind = 0x1F ∨ f.ctl = some .drainNotice then s else routeFlit s f) (setLink s p { l with queue := l.queue.filter stays })

/-- A port goes DOWN (R226): the flits of its replay buffer are discarded, and a control event is raised. What the discarded packets
end, their requesters' time limits end (R259, R283). Flits that it has not sent make a new choice. -/
def portDown (s : State) (p : Nat) : State :=
  if portState s p ≤ 1 then s
  else
    let s := setLink s p { getLink s p with replay := [], nakked := none, replays := 0, drain := false, sent := [], owed := [] }
    reroute (linkEvent (clearSamples (setPort s p 1) p) p) p (fun _ => false)

/-- PORT_LOSS_OF_LOCK. -/
def execPortLossOfLock (p : Port) (s : State) : Out := .next (portDown s p.val)

/-- Whether the laser input of a port's die is LOW (R207). -/
def laserLow (s : State) (p : Nat) : Bool := decide (rd s (0x405000 + p / 4) = 1)

/-- A port trains (R226), unless it is DARK (R212) or its laser input is LOW (R207). -/
def portTrain (s : State) (p : Nat) : State :=
  if portState s p = 0 ∨ laserLow s p = true then s else clearSamples (setPort s p 2) p

/-- PORT_TRAINED: the port becomes UP and sends static until it has its samples. Link sequence numbers and credits start again. -/
def execPortTrained (p : Port) (s : State) : Out :=
  .next (
    let l := getLink s p.val
    if portState s p.val = 2 ∧ laserLow s p.val = false then
      setPort (setLink s p.val { PortLink.initial with queue := l.queue, darkSeen := l.darkSeen }) p.val 3
    else s)

/-! ### Transit and retry (R217, R218, R224, R225, R232) -/

/-- KIND values that Tables 10.3 and 11.5 reserve. -/
def kindReserved (k : Nat) : Bool := decide (k = 0 ∨ k = 7 ∨ (13 ≤ k ∧ k ≤ 15) ∨ (21 ≤ k ∧ k ≤ 28))

/-- A flit that a port has received, as it goes on: one link more, its payload unchanged, in its place of the receive buffer. -/
def onward (f : Flit) (payload : BitVec 2048) : TxFlit :=
  { flitOf f.vc f.kind f.dest f.src f.epoch (f.hops + 1) f.flow with raw := some payload, hold := some f.port.val }

/-- A flit that has arrived in order is delivered, routed on, or discarded. -/
def transit (s : State) (f : Flit) (payload : BitVec 2048) : State :=
  let t := onward f payload
  let out := freeBuffer s t
  if f.dest = ownId s ∨ f.vc = 7 then
    if kindReserved f.kind ∧ f.vc ≠ 0 ∧ f.vc ≠ 7 ∧ s.pkg.scrubbing = false then incr out 0x407401 1 else out
  else if s.pkg.scrubbing = true ∧ f.vc ≠ 0 then incr out 0x406003 1
  else if 9 ≤ f.hops then raiseFree (incr out 0x406001 1) (30 + f.port.val / 4) 0x07 (f.port.val % 4) 0xFFFF 0 (some .hopLimit) false
  else if f.vc ≠ 0 ∧ rd s 0x400200 = 0 then incr out 0x406002 1
  else if f.vc = 0 then transitVc0 s t f.port.val
  else routeFlit s t

/-- A flit that fails: it and every later one is discarded until the replay arrives, and a NAK names the first missing number. A number that
does not lie past the last one discarded belongs to the replay, and has failed there: a new NAK goes out (R225). -/
def discardFlit (s : State) (p seq : Nat) : State :=
  let l := getLink s p
  let d := (seq + 4096 - l.rxSeq) % 4096
  let s := setLink s p { l with nakked := some d }
  match l.nakked with
  | some m => if m < d then s else emit s p (trailed s p (flitOf 0 0x1D l.rxSeq (ownId s) 0 0 0) 0)
  | none => emit s p (trailed s p (flitOf 0 0x1D l.rxSeq (ownId s) 0 0 0) 0)

/-- FLIT_FORWARD: a flit arrives on a link. Idle flits carry their trailer alone. A flit that has come before is discarded without more. -/
def execFlitForward (f : Flit) (x : Trailer) (crcOk : Bool) (s : State) : Out :=
  .next (
    let p := f.port.val
    let l := getLink s p
    if f.kind = 0x1E then
      if portState s p < 3 ∨ crcOk = false then s
      else if f.resv ∨ x.seq ≠ 0 then incr s 0x407402 1
      else setLink s p (takeTrailer l x.ack x.cvc x.ccount)
    else if !portCarries s p f.vc f.kind || !bufferRoom s p f.vc f.hops then s
    else if !crcOk then discardFlit s p x.seq
    else if x.seq ≠ l.rxSeq then (if 2048 ≤ (x.seq + 4096 - l.rxSeq) % 4096 then s else discardFlit s p x.seq)
    else
      let s := setLink s p { takeTrailer l x.ack x.cvc x.ccount with nakked := none, rxSeq := (x.seq + 1) % 4096 }
      if f.resv then incr (freeBuffer s (onward f x.payload)) 0x407402 1 else transit s f x.payload)

/-- NAK: the flits before the one it names are acknowledged, and the sender replays from that flit in order. A flit that has
been replayed 8 times without acknowledgement takes the port DOWN. -/
def execNak (p : Port) (n : Nak) (s : State) : Out :=
  .next (
    let l := getLink s p.val
    let rest := l.replay.dropWhile (fun x => decide (x.1 ≠ n.seq))
    if n.resv then incr s 0x407402 1
    else if rest = [] ∨ portState s p.val ≤ 2 then s
    else
      let again := decide (rest.length = l.replay.length)
      if again = true ∧ 8 ≤ l.replays then portDown s p.val
      else
        let s := setLink s p.val { l with replay := rest, replays := if again then l.replays + 1 else 1 }
        let s := { s with fab := { s.fab with tx := s.fab.tx ++ rest.map (fun x => { x.2 with ack := ackSeq s p.val }) } }
        countEvent (incr s (0x401200 + p.val) 1) (fun c => { c with evRetries := c.evRetries + 1 }))

/-! ### The cabling rule (R208 to R210, R212) -/

/-- A device ID by its parts. -/
def mkId (g r q : Nat) : Nat := g * 256 + r * 8 + q

/-- Peer of a ring port, `skip` positions further along its lane (R208, R228): west ports reach east ports and back. -/
def ringPeer (own p skip : Nat) : Nat × Nat :=
  let step := if p < 2 then 1 else 3
  let n := step * (1 + skip)
  let q := if p % 2 = 1 then (idPos own + n) % 8 else (idPos own + 64 - n) % 8
  (mkId (idGroup own) (idRing own) q, p + 1 - 2 * (p % 2))

/-- Peer of a group port in a group of `R` rings (R209). -/
def groupPeer (own R p : Nat) : Option (Nat × Nat) :=
  let s := 8 * (p - 4) + idPos own
  let L := 96 / (R - 1)
  if R < 2 ∨ L * (R - 1) ≤ s then none
  else
    let d := s / L + 1
    let t := L * (R - 1 - d) + s % L
    some (mkId (idGroup own) ((idRing own + d) % R) (t % 8), 4 + t / 8)

/-- c_d of R210. -/
def globalLinks (G d : Nat) : Nat :=
  let L := 4096 / (G - 1)
  let e := 4096 - L * (G - 1)
  L + bit (decide (d ≤ e / 2 ∨ G - e / 2 ≤ d ∨ (e % 2 = 1 ∧ 2 * d = G)))

/-- O_d of R210. -/
def globalBase (G d : Nat) : Nat := (List.range (d - 1)).foldl (fun n i => n + globalLinks G (i + 1)) 0

/-- Peer of a global port in a system of `G` groups (R210). -/
def globalPeer (own G p : Nat) : Option (Nat × Nat) :=
  if G < 2 then none
  else
    let s := 256 * (p - 16) + 8 * idRing own + idPos own
    match (List.range (G - 1)).find? (fun i => decide (globalBase G (i + 1) ≤ s ∧ s < globalBase G (i + 1) + globalLinks G (i + 1))) with
    | none => none
    | some i =>
      let d := i + 1
      let t := globalBase G (G - d) + (s - globalBase G d)
      some (mkId ((idGroup own + d) % G) (t / 8 % 32) (t % 8), 16 + t / 256)

/-- Peers that a port may have, as device and port; none when it should stay dark. A ring port may also reach a device past
one or two closed by-passes (R228, R230). -/
def expectedPeers (s : State) (p : Nat) : List (Nat × Nat) :=
  let own := ownId s
  let shape := rd s 0x400300
  if p < 4 then [ringPeer own p 0, ringPeer own p 1, ringPeer own p 2]
  else if p < 16 then (groupPeer own (shape / 256 % 256) p).toList
  else (globalPeer own (shape / 65536) p).toList

/-- Whether DEVICE_ID and SYSTEM_SHAPE have both been written. -/
def placed (s : State) : Bool := decide (rd s 0x400100 ≠ 0xFFFF ∧ rd s 0x400300 ≠ 0)

/-- A port against the cabling rule: DARK where no peer should exist, MISCABLED where the last probe named another peer. -/
def checkCabling (s : State) (p : Nat) : State :=
  let peers := expectedPeers s p
  let peer := rd s (0x401100 + p)
  if !placed s then s
  else if peers = [] then (if portState s p = 0 then s else reroute (clearSamples (setPort s p 0) p) p (fun _ => false))
  else if portState s p = 0 then setPort s p 1
  else if 2 ≤ portState s p ∧ portState s p ≠ 6 ∧ 2 ^ 88 ≤ peer ∧ (peer / 2 ^ 64 % 65536, peer / 2 ^ 80 % 256) ∉ peers then
    reroute (linkEvent (clearSamples (setPort s p 6) p) p) p (fun f => decide (f.kind = 0x1F))
  else s

/-- PROBE: PORT_PEER takes the probe, and the port is checked. The first probe on a DARK port writes a LINK record. -/
def execProbe (p : Port) (serial : BitVec 64) (device : BitVec 16) (port : BitVec 8) (s : State) : Out :=
  .next (
    let l := getLink s p.val
    let s := wr s (0x401100 + p.val) (serial.toNat + device.toNat * 2 ^ 64 + port.toNat * 2 ^ 80 + 2 ^ 88)
    let s := checkCabling s p.val
    if portState s p.val = 0 ∧ l.darkSeen = false then
      linkEvent (setLink s p.val { getLink s p.val with darkSeen := true }) p.val
    else s)

/-- PROBE_TIMER: each port that is UP, TRAINING or MISCABLED sends a probe. -/
def execProbeTimer (s : State) : Out :=
  .next ((List.range 32).foldl (fun s p =>
    if portState s p = 3 ∨ portState s p = 2 ∨ portState s p = 6 then sendPort s p 0x1F (.probe (rd s 0x700100) (ownId s) p)
    else s) s)

/-- CONGESTION_SAMPLE: the metric is the mean of the last ten samples; a port with fewer is static (R219). -/
def execCongestionSample (p : Port) (use : Fin 257) (s : State) : Out :=
  .next (
    if portState s p.val = 3 then
      let xs := (getLink s p.val).samples ++ [use.val]
      let xs := xs.drop (xs.length - 10)
      wr (setLink s p.val { getLink s p.val with samples := xs }) (0x401400 + p.val)
        (if xs.length < 10 then 0xFFFF else xs.foldl (· + ·) 0 / 10)
    else s)

/-! ### Drain, recalibration, test (R231) -/

/-- Keys of the route table's entries. -/
def routeKeys : List Nat :=
  (List.range 8).map (0x402000 + ·) ++ (List.range 32).map (0x402100 + ·) ++ (List.range 256).map (0x402200 + ·)

/-- Whether an entry in force has the port as its only valid UP candidate. -/
def solePath (s : State) (p : Nat) : Bool :=
  routeKeys.any (fun k => let ps := (candidates (rd s k)).filter (portUsable s); decide (ps ≠ []) && ps.all (fun q => decide (q = p)))

/-- A drain starts: the port leaves every choice, and its peer is told. -/
def startDrain (s : State) (p : Nat) : State :=
  if portState s p = 3 ∧ (getLink s p).drain = false then
    sendPort (setLink s p { getLink s p with drain := true }) p Config.ctlKind .drainNotice
  else s

/-- DRAIN_NOTICE: the peer's notice starts the same sequence. -/
def execDrainNotice (p : Port) (s : State) : Out := .next (startDrain s p.val)

/-- Whether a port has drained: its replay buffer is empty, nothing but VC0 waits there, and no flow has it as its choice. A flow that has sent
nothing for 2 µs has none (R220). -/
def portDrained (s : State) (p : Nat) : Bool :=
  let l := getLink s p
  l.replay.isEmpty && l.queue.all (fun f => decide (f.vc = 0))
    && s.fab.flows.all (fun f => decide (f.port ≠ p ∨ f.last + 2000 ≤ s.ptpNs))

/-- PORT_DRAINED: the port carries only VC0 (R231 step 3). -/
def execPortDrained (p : Port) (s : State) : Out :=
  .next (
    if portState s p.val = 3 ∧ (getLink s p.val).drain = true ∧ portDrained s p.val = true then
      let s := setPort (setLink s p.val { getLink s p.val with drain := false, replays := 0 }) p.val 4
      { s with fab := { s.fab with flows := s.fab.flows.filter (fun f => decide (f.port ≠ p.val)) } }
    else s)

/-- RECAL_DONE: a drained port trains. -/
def execRecalDone (p : Port) (s : State) : Out := .next (if portState s p.val = 4 then portTrain s p.val else s)

/-- PORT_CTRL: 1 DRAIN, 2 FORCE_DRAIN, 3 RECAL, 4 RETURN, 5 TEST. A recalibration drains its port first. RETURN trains a port
that is DOWN, DRAINED, in test or MISCABLED. -/
def portCtrlWrite (s : State) (p v : Nat) : Except Nat State :=
  let st := portState s p
  let ok := fun (s : State) => (.ok (bumpSnap s (0x401300 + p)) : Except Nat State)
  match v with
  | 1 => if st = 3 ∧ solePath s p = true then .error 0x0D04 else ok (startDrain s p)
  | 2 => ok (startDrain s p)
  | 3 => if st = 3 ∧ solePath s p = true then .error 0x0D04 else ok (startDrain s p)
  | 4 => if st = 1 ∨ st = 4 ∨ st = 5 ∨ st = 6 then ok (portTrain s p) else ok s
  | 5 => if st = 0 then ok s else ok (reroute (clearSamples (setPort s p 5) p) p (fun f => decide (f.vc = 0)))
  | _ => .error 1

/-! ### Lasers and the by-pass (R207, R228, R229) -/

/-- Lanes whose switch stands closed: bit 0 lane A, bit 1 lane B. -/
def bypassState (s : State) : Nat := rd s 0x404000

/-- BYPASS_OK (R439): the contact is open, and the board's pull-up holds the pin high, only while both lanes are CLOSED and no switch is
in transit; it needs no package power. -/
def bypassOk (s : State) : Bool := decide (bypassState s = 3) && s.fab.moving.isEmpty

/-- A lane's switch starts to move to `closed`; its links carry no light. -/
def moveSwitch (s : State) (lane closed : Nat) : State :=
  if bypassState s / 2 ^ lane % 2 = closed ∧ s.fab.moving.all (fun x => decide (x % 2 ≠ lane)) = true then s
  else
    let s := portDown (portDown s (2 * lane)) (2 * lane + 1)
    { s with fab := { s.fab with moving := (s.fab.moving.filter (fun x => decide (x % 2 ≠ lane))) ++ [lane + 2 * closed] } }

/-- Both switches close. -/
def bypassClose (s : State) : State := moveSwitch (moveSwitch s 0 1) 1 1

/-- BYPASS_SWITCH_SETTLED. -/
def execBypassSwitchSettled (lane : Fin 2) (s : State) : Out :=
  .next (
    match s.fab.moving.find? (fun x => decide (x % 2 = lane.val)) with
    | none => s
    | some x =>
      let s := { s with fab := { s.fab with moving := s.fab.moving.filter (fun y => decide (y % 2 ≠ lane.val)) } }
      wr s 0x404000 (bypassState s - (bypassState s / 2 ^ lane.val % 2) * 2 ^ lane.val + (x / 2) * 2 ^ lane.val))

/-- BYPASS_CTRL. -/
def bypassWrite (s : State) (v : Nat) : Except Nat State :=
  match v with
  | 1 => .ok (bumpSnap (bypassClose s) 0x404001)
  | 2 =>
    if rd s 0x10101F = 2 ∧ rd s 0x405000 = 0 then .ok (bumpSnap (moveSwitch (moveSwitch s 0 0) 1 0) 0x404001)
    else .error 0x0D05
  | _ => .error 1

/-- LASER_CHECK: an input below its minimum is LOW, and its die's four ports go DOWN; with OD0's input LOW Wened closes both
by-passes. A port returns only through training. -/
def execLaserCheck (low : BitVec 8) (s : State) : Out :=
  .next ((List.range 8).foldl (fun s k =>
    if low.getLsbD k then
      let s := if rd s (0x405000 + k) = 1 then s else raiseFree (wr s (0x405000 + k) 1) (30 + k) 0x07 4 0xFFFF 0 none false
      let s := (List.range 4).foldl (fun s i => portDown s (4 * k + i)) s
      if k = 0 then bypassClose s else s
    else wr s (0x405000 + k) 0) s)

/-! ### Other entries (R213 to R215, R233, R259) -/

/-- Whether an entry's candidates are of the kinds that its part allows, with candidate 0 valid where it names a place that
can be reached: one with any valid candidate (R214). -/
def routeEntryOk (k v : Nat) : Bool :=
  let ps := candidates v
  let top := if k < 0x402100 then 4 else if k < 0x402200 then 16 else 32
  ps.all (fun p => decide (p < top)) && (decide (ps = []) || decide (v / 128 % 2 = 1))

/-- A write of a route entry goes to the shadow copy. Reserved bits are bits [6:5] of each candidate. -/
def routeWrite (s : State) (k v : Nat) : Except Nat State :=
  if (List.range 4).any (fun c => decide (v / 2 ^ (8 * c + 5) % 4 ≠ 0)) then .error 2
  else .ok (bumpSnap { s with fab := { s.fab with shadow := tset 0 s.fab.shadow k v } } k)

/-- ROUTE_COMMIT: the shadow table and E wait for a quiesce fence. -/
def routeCommitWrite (s : State) (e : Nat) : Except Nat State :=
  if e ≤ rd s 0x400200 then .error 0x0D02
  else if !(routeKeys.all (fun k => routeEntryOk k (tget 0 s.fab.shadow k))) then .error 0x0D03
  else .ok (bumpSnap (addFence s (.routeCommit e s.fab.shadow)) 0x400201)

/-- The table and the epoch take effect. -/
def applyRoutes (s : State) (e : Nat) (table : Tbl Nat) : State :=
  wr (routeKeys.foldl (fun s k => wr s k (tget 0 table k)) s) 0x400200 e

/-- Every port against the cabling rule. -/
def checkAllPorts (s : State) : State := (List.range 32).foldl checkCabling s

/-- DEVICE_ID. -/
def deviceIdWrite (s : State) (v : Nat) : Except Nat State :=
  if rd s 0x400200 ≠ 0 then .error 0x0D01 else .ok (checkAllPorts (wrHost s 0x400100 v))

/-- SYSTEM_SHAPE. -/
def systemShapeWrite (s : State) (v : Nat) : Except Nat State :=
  if rd s 0x400200 ≠ 0 then .error 0x0D01
  else if v % 256 ≠ 0 then .error 2
  else if v / 65536 = 0 ∨ 256 < v / 65536 ∨ v / 256 % 256 = 0 ∨ 32 < v / 256 % 256 then .error 1
  else .ok (checkAllPorts (wrHost s 0x400300 v))

/-- VC_ARB_SET: taken up at the next frame and the next window (`newFrame`, `newWindow`). -/
def vcArbWrite (s : State) (v : Nat) : Except Nat State :=
  let b := fun i => v / 2 ^ (8 * i) % 256
  let ws := [b 1, b 2, b 3, b 4, b 6]
  if ws.all (fun w => decide (1 ≤ w ∧ w ≤ 96)) && decide (ws.foldl (· + ·) 0 = 100)
      && decide (1 ≤ b 0 ∧ b 0 ≤ 20 ∧ 1 ≤ b 5 ∧ b 5 ≤ 250 ∧ b 7 = 0) then
    .ok (wrHost s 0x403008 v)
  else .error 1

/-- REMOTE_DEAD_NOTICE: every request and every collective to the device ends (R259, R283). -/
def deadNoticeWrite (s : State) (device : Nat) : Except Nat State :=
  .ok (bumpSnap (deadCollectives (deadRequests s device) device) 0x407001)

end Sys2Proof.Machine
end

