-- ==== Sys2Proof/Machine/Package.lean ====
section
/-! DEFINITION. The package's control path (01, 17): steward events, failed dies, cluster sparing, page remaps, the
management ring, access table updates, stack temperature and retraining. -/

namespace Sys2Proof.Machine

open Sys2Proof

/-! ### Die and device states -/

/-- Sets DIE_STATE. -/
def setDie (s : State) (d v : Nat) : State := wr s (0x101001 + d) v

/-- DEVICE_STATE. -/
def deviceState (s : State) : Nat := rd s 0x100300

/-- The device becomes DEGRADED (R397). -/
def degradeDevice (s : State) : State := if deviceState s = 2 then wr s 0x100300 3 else s

/-- A die has lost a spare resource that it cannot replace (R397). One in a partition reads DEGRADED once it is back
(`returnState`). -/
def degradeDie (s : State) (d : Nat) : State :=
  degradeDevice (logFault (if dieState s d = 2 then setDie s d 4 else s) d 0x0B 0x200 0x0A03 0xFFFF 0 0)

/-- Wened holds a die in reset through its reset line (R22). -/
def holdReset (s : State) (d : Nat) : State := { s with wen := { s.wen with resetHeld := addOnce s.wen.resetHeld d } }

/-- The reset lines of every die but MD that is not FAILED are released; a FAILED die stays held (R22). -/
def releaseDies (s : State) : State :=
  { s with wen := { s.wen with resetHeld := (List.range 39).filter (fun d => decide (dieState s d = 5)) } }

/-- Every die but MD is held in reset. -/
def holdLines (s : State) : State := { s with wen := { s.wen with resetHeld := List.range 39 } }

/-- The power-enable lines, by die (R22). -/
def setPower (s : State) (ds : List Nat) : State := { s with wen := { s.wen with powerEn := ds } }

/-- Class and dependents of a FAILED die (Table 17.2, R397). -/
def dieLost (s : State) (d : Nat) : State :=
  let roll := fun (s : State) => match runningId s with
    | some id => haltCtx s id 0x0106 none
    | none => s
  if d < 24 then degradeDevice { roll s with ckpt := { (roll s).ckpt with buddy := BuddySlot.empty } }
  else if d < 28 then roll s
  else if d < 30 then faultHalf (faultHalf s (2 * (d - 28)) 0x21) (2 * (d - 28) + 1) 0x21
  else if d < 38 then
    let s := (List.range 4).foldl (fun s i => portDown s (4 * (d - 30) + i)) s
    if d = 30 then bypassClose s else s
  else degradeDevice s

/-- Wened marks a die FAILED and holds it in reset; a record of class 0x0C, whose CODE no table names, tells of it. -/
def dieFail (s : State) (d : Nat) : State :=
  if dieState s d = 5 then s
  else
    let s := holdReset (setDie s d 5) d
    dieLost (logFault (drawNat s).2 d 0x0C 0x200 ((drawNat s).1 % 65536) 0xFFFF 0 0) d

/-! ### Cluster sparing (R395, R396) -/

/-- Fuse banks of compute die `d`. -/
def getFuses (s : State) (d : Nat) : Fuses := tget Fuses.factory s.pkg.fuses d

/-- Replaces the fuse banks of a compute die. -/
def setFuses (s : State) (d : Nat) (f : Fuses) : State :=
  { s with pkg := { s.pkg with fuses := tset Fuses.factory s.pkg.fuses d f } }

/-- Physical cluster of a unit. -/
def physOf (s : State) (d u : Nat) : Nat := tget u (getFuses s d).map u

/-- Unit that a physical cluster serves. -/
def unitOf (s : State) (d p : Nat) : Option Nat := findBelow 500 (fun u => decide (physOf s d u = p))

/-- A physical cluster is FAILED: it is no spare any more. -/
def markFailed (s : State) (d p : Nat) : State :=
  let f := getFuses s d
  setFuses s d { f with failed := addOnce f.failed p, tested := f.tested.filter (fun x => decide (x ≠ p)) }

/-- The lowest-numbered tested spare. -/
def lowestSpare (s : State) (d : Nat) : Option Nat := findBelow 512 (fun p => decide (p ∈ (getFuses s d).tested))

/-- The physical cluster behind a logical one has failed: FAILED in the fuse bank, and a swap behind a fence, or DEGRADED. -/
def failCluster (s : State) (cl : Nat) : State :=
  let d := dieOf cl
  let s := markFailed s d (physOf s d (cl % 500))
  match lowestSpare s d with
  | some _ => addFence s (.spareSwap cl)
  | none => degradeDie s d

/-- The swap takes effect: the spare is zero-filled and serves the logical cluster. The worker of the running context has
lost its state, which a restore or a module start brings back. -/
def applySwap (s : State) (cl : Nat) : State :=
  let d := dieOf cl
  match lowestSpare s d with
  | none => degradeDie s d
  | some p =>
    let f := getFuses s d
    let s := setFuses s d { f with tested := f.tested.filter (fun x => decide (x ≠ p)), map := tset (cl % 500) f.map (cl % 500) p }
    let s := match runningId s with
      | some id => modC s id (fun c => setW c cl { Worker.initial with run := (getW c cl).run })
      | none => s
    logFault s d 0x0B (cl % 500) 0x0A02 0xFFFF 0 0

/-! ### Stack pages (R153, R399) -/

/-- Spare pages of a stack. -/
def sparePages : Nat := 1920

/-- PAGES_REMAPPED. -/
def remapped (s : State) (stack : Nat) : Nat := rd s (0xA00801 + stack)

/-- Whether a die has lost a spare resource that it cannot replace (R397). -/
def dieDegraded (s : State) (d : Nat) : Bool :=
  if d < 8 then (List.range 500).any (fun u => decide (physOf s d u ∈ (getFuses s d).failed))
    || (getFuses s d).ways.any (fun w => decide (3 ≤ ((getFuses s d).ways.filter (fun x => decide (x.1 = w.1))).length))
  else if d < 24 then decide (sparePages ≤ remapped s (d - 8))
  else false

/-- State of a die that serves again: DEGRADED when it has lost a spare resource (Table 1.10). -/
def returnState (s : State) (d : Nat) : Nat := if dieDegraded s d then 4 else 2

/-- A failing granule's page is remapped behind a fence while the stack has a spare page. -/
def failGranule (s : State) (stack : Fin 16) (ctx g : Nat) : State :=
  if remapped s stack.val < sparePages then addFence s (.pageRemap stack ctx (g * 32 / pageBytes)) else degradeDie s (8 + stack.val)

/-- The spare takes the page's place: zero-filled, DIRTY, and writes that waited are taken. -/
def applyRemap (s : State) (stack : Fin 16) (ctx p : Nat) : State :=
  let s := if !(getC s ctx).live then s else modC s ctx (fun c =>
    let c := { c with vmem := zeroRange c.vmem (p * pageBytes) pageBytes,
                      gBad := c.gBad.filter (fun g => decide (g * 32 / pageBytes ≠ p)) }
    { c with pages := tset pageFresh c.pages p (pageFlags c p ||| 0x4000) })
  let s := logFault (incr s (0xA00801 + stack.val) 1) (8 + stack.val) 0x0B 0x200 0x0A05 ctx 0 0
  releaseHeld (if remapped s stack.val < sparePages then s else degradeDie s (8 + stack.val)) ctx p

/-! ### Steward events (R25, R393, R394) -/

/-- A Taster request waits on a die; one for a unit already queued merges into it (R404). -/
def queueTaster (s : State) (d : Nat) (r : TasterReq) : State :=
  let t := tget Taster.initial s.pkg.tasters d
  let reqs := if t.reqs.any (fun q => decide (q.kind = r.kind ∧ q.unit = r.unit)) then
      t.reqs.map (fun q => if q.kind = r.kind ∧ q.unit = r.unit then { q with raise := q.raise || r.raise } else q)
    else t.reqs ++ [r]
  { s with pkg := { s.pkg with tasters := tset Taster.initial s.pkg.tasters d { t with reqs := reqs } } }

/-- Context of a unit's work: the running one. -/
def eventCtx (s : State) : Nat := (runningId s).getD 0xFFFF

/-- A unit raises an event (Table 1.6, R394): its record, and the rollback where the work of a job is lost. -/
def raiseUnit (s : State) (d unit : Nat) : UnitEvent → State
  | .clusterFault cl word =>
    let s := match runningId s, word with
      | some id, some w => modC s id (fun c => setW c cl.val { getW c cl.val with l0Bad := addOnce (getW c cl.val).l0Bad w })
      | _, _ => s
    unitFault s d unit (eventCtx s) (some (.clusterFault cl word)) 0
  | .pantryLine slice true => unitFault s d unit (eventCtx s) (some (.pantryLine slice true)) 0
  | .pantryLine slice false =>
    raiseEvent s d (mkRec 0 0x01 unit 0x0A0A (eventCtx s) 0 0) (some (.pantryLine slice false)) false
  | .stackGranule stack ctx g =>
    unitFault (if (getC s ctx).live then modC s ctx (fun c => { c with gBad := addOnce c.gBad g }) else s) d unit ctx (some (.stackGranule stack ctx g)) 0
  | .dieFailed x => raiseFree s d 0x0C unit 0xFFFF 0 (some (.dieFailed x)) true
  | .stackCorrected stack => incr s (0x300501 + stack.val) 1
  | .spadCorrected => incr s 0x300511 1
  | .sramCorrected x => incr s (0x605001 + x.val) 1
  | .hopLimit => raiseFree s d 0x07 unit 0xFFFF 0 (some .hopLimit) false
  | .other cls code job => raiseEvent s d (mkRec 0 cls unit code (eventCtx s) 0 0) (some (.other cls code job)) job

/-- What Wened does about an event, beside its record. -/
def actOn (s : State) (d : Nat) : UnitEvent → State
  | .clusterFault cl _ => failCluster s cl.val
  | .pantryLine slice _ => queueTaster s d ⟨2, slice.val, false⟩
  | .stackGranule stack ctx g => failGranule s stack ctx g
  | .dieFailed x => dieFail s x.val
  | .stackCorrected _ => s
  | .spadCorrected => s
  | .sramCorrected _ => s
  | .hopLimit => s
  | .other _ _ _ => s

/-- The steward of die `d` forwards the oldest event of its queue: Wened writes and reports its record, and acts. -/
def forwardEvent (s : State) (d : Nat) : State :=
  match tget [] s.pkg.stew d with
  | [] => s
  | e :: rest =>
    let lost := e.lost || decide (d ∈ s.pkg.lostBit)
    let s := { s with pkg := { s.pkg with stew := tset [] s.pkg.stew d rest,
                                          lostBit := s.pkg.lostBit.filter (fun x => decide (x ≠ d)) } }
    let s := logRec s e.frec lost
    match e.ev with
    | none => s
    | some ev => actOn s d ev

/-- STEWARD_EVENT. -/
def execStewardEvent (d : Die) (unit : Nat) (ev : Option UnitEvent) (s : State) : Out :=
  .next (
    let s := match ev with
      | none => s
      | some e => raiseUnit s d.val unit e
    forwardEvent s d.val)

/-! ### The management ring (R22) -/

/-- Whether Wened reaches die `d` on lane 0, whose stops follow Wened's in ascending order of die index, or on lane 1, in
descending order. -/
def reachable (breaks : List (Nat × Nat)) (d : Nat) : Bool :=
  !(breaks.any (fun b => decide (b.2 = 0 ∧ b.1 ≤ d))) || !(breaks.any (fun b => decide (b.2 = 1 ∧ d ≤ b.1 ∧ b.1 < 39)))

/-- Dies that neither lane reaches. -/
def cutOff (s : State) : List Nat := (List.range 39).filter (fun x => !reachable s.pkg.breaks x)

/-- MGMT_RING_STATE as the breaks make it. -/
def senseRing (s : State) : State := wr s 0x101100 (if s.pkg.breaks = [] then 0 else if cutOff s = [] then 1 else 2)

/-- MGMT_RING_BREAK: dies that neither lane reaches become FAILED. Table 1.9 names one break and a split; several breaks that leave
every die reachable read 1 (DESIGN CHOICE, log entry 81). -/
def execMgmtRingBreak (d : Die) (lane : Fin 2) (s : State) : Out :=
  .next (
    let b := (d.val, lane.val)
    let s := { s with pkg := { s.pkg with breaks := if b ∈ s.pkg.breaks then s.pkg.breaks else s.pkg.breaks ++ [b] } }
    (cutOff s).foldl dieFail (senseRing s))

/-! ### Access tables (R24) -/

/-- An access table write waits for its update. -/
def putAccess (s : State) (master : Option Nat) (e : BitVec 32) : State :=
  { s with pkg := { s.pkg with accPend := s.pkg.accPend ++ [⟨master, e⟩] } }

/-- Master IDs of the logical clusters (R16). -/
def clusterMasters : List Nat := (List.range 4000).map (fun cl => masterId (dieOf cl) (cl % 500))

/-- Master IDs whose entry an update replaces. -/
def accMasters (u : AccUpdate) : List Nat :=
  match u.master with
  | some m => [m]
  | none => clusterMasters

/-- Partition of a master: its own, or its die's (R358). -/
def masterPart (s : State) (m : Nat) : Nat := max (tget 0 s.pkg.parts m) (tget 0 s.pkg.parts (masterId (m / 1024) 0x200))

/-- An entry as it stands for a master: PARTITION is the master's own (Table 15.5). -/
def withPart (s : State) (m : Nat) (e : BitVec 32) : BitVec 32 :=
  if e = 0 then 0 else e &&& 0xF0FFFFFF#32 ||| BitVec.ofNat 32 (masterPart s m * 2 ^ 24)

/-- The entries of a unit's masters follow it to its partition; a whole die takes all of its masters along. -/
def repart (s : State) (m : Nat) : State :=
  (s.pkg.access.filter (fun p => decide (p.1 = m ∨ (m % 1024 = 0x200 ∧ p.1 / 1024 = m / 1024)))).foldl
    (fun s p => putAccess s (some p.1) p.2) s

/-- Whether an update takes no right that its first master holds away: rights W and R, and VALID (Table 15.5). -/
def accKeeps (s : State) (u : AccUpdate) : Bool :=
  (accMasters u).all (fun m => decide (tget 0 s.pkg.access m &&& ~~~withPart s m u.entry &&& 0xC0000007#32 = 0))
    && (accMasters u).all (fun m => decide (tget 0 s.pkg.access m &&& 0x2FFFF000#32 = withPart s m u.entry &&& 0x2FFFF000#32 ∨ tget 0 s.pkg.access m = 0))

/-- Whether a target has still to complete a request of a Celale port that it admitted: a write held at its page, or a store at a
Sieve that is owed an acknowledgement. -/
def portAdmitted (s : State) : Bool :=
  !s.fab.held.isEmpty || s.fab.sieves.any (fun p => p.2.queue.any (fun q => q.ack.isSome))

/-- Whether a target has still to complete a request of a cluster: an op it has issued, or a store in a Sieve's queue. -/
def clusterAdmitted (s : State) : Bool :=
  s.fab.sieves.any (fun p => p.2.queue.any (fun q => q.ack.isNone))
    || s.ctxs.any (fun p => p.2.live && !p.2.workers.all (fun w => opsDone w.2))

/-- Whether a request admitted under a right that the update removes has not completed (R24). -/
def accWaits (s : State) (u : AccUpdate) : Bool :=
  !accKeeps s u && (match u.master with
    | none => clusterAdmitted s
    | some m => if 30 ≤ m / 1024 ∧ m / 1024 < 38 then portAdmitted s else clusterAdmitted s)

/-- ACCESS_TABLE_UPDATE_DONE: the oldest update takes effect, whole, once no request that was admitted under a right it removes is
still to complete at a target; before that the row changes nothing. -/
def execAccessTableUpdateDone (s : State) : Out :=
  .next (
    match s.pkg.accPend with
    | [] => s
    | u :: rest =>
      if accWaits s u then s
      else { s with pkg := { s.pkg with accPend := rest,
                                        access := (accMasters u).foldl (fun t m => tset 0 t m (withPart s m u.entry)) s.pkg.access } })

/-! ### Stacks (R155, R156, R407) -/

/-- Refresh multiplier of a reading on its own (Table 6.5). -/
def bandMult (t : Int) : Nat := if t < 850 then 1 else if t < 950 then 2 else 4

/-- Multiplier after a reading, from the one in force: a rise at once, a fall past a band's lower edge only 3 °C below it. A fall from the 4 × band
to a reading between 82 and 85 °C stops at 2 × (DESIGN CHOICE, log entry 52). -/
def nextMult (cur : Nat) (t : Int) : Nat :=
  max (bandMult t) (if t ≤ 820 then 1 else if t ≤ 920 then min cur 2 else cur)

/-- STACK_TEMP_READING. A stack's first reading after a cold start sets its multiplier. -/
def execStackTempReading (stack : Fin 16) (t : BitVec 16) (s : State) : Out :=
  .next (
    let k := stack.val
    let v := toSigned 16 t.toNat
    let m := if k ∈ s.pkg.stackRead then nextMult (rd s (0x300301 + k)) v else bandMult v
    let s := wr (wr s (0x300201 + k) t.toNat) (0x300301 + k) m
    let s := { s with pkg := { s.pkg with stackRead := addOnce s.pkg.stackRead k } }
    let s := countEvent s (fun c => { c with evRefresh := max c.evRefresh m })
    if 1050 < v then
      let s := countEvent s (fun c => { c with evHot := addOnce c.evHot k })
      if rd s (0x300401 + k) = 1 then s else raiseFree (wr s (0x300401 + k) 1) (k / 2) 0x08 (0x210 + k % 2) 0xFFFF 0 none false
    else if v < 1000 then wr s (0x300401 + k) 0
    else s)

/-- STACK_RETRAIN: the next channel in rotation; a channel under a region slice is passed over. -/
def execStackRetrain (stack : Fin 16) (s : State) : Out :=
  .next (
    let k := stack.val
    let s' := { s with pkg := { s.pkg with retrain := tset 0 s.pkg.retrain k ((tget 0 s.pkg.retrain k + 1) % 16) } }
    if (tget Taster.initial s.pkg.tasters (8 + k)).slice.isSome then s'
    else countEvent s' (fun c => { c with evRetrain := c.evRetrain + 1 }))

/-! ### Firmware slots (R345, R346, R387) -/

/-- A firmware slot. -/
def getSlot (s : State) (type slot : Nat) : FwSlot := tget FwSlot.empty s.wen.slots (2 * type + slot)

/-- Replaces a firmware slot. -/
def setSlot (s : State) (type slot : Nat) (x : FwSlot) : State :=
  bumpSnap { s with wen := { s.wen with slots := tset FwSlot.empty s.wen.slots (2 * type + slot) x } } (0x103100 + 2 * type + slot)

/-- The slot of a type that booted last; slot 0 before any has. -/
def bootedSlot (s : State) (type : Nat) : Nat := tget 0 s.wen.booted type - 1

/-- Image types that a die runs, beside the stewards' (Table 15.1). -/
def dieTypes (d : Nat) : List Nat :=
  if d < 8 then [1, 4] else if d < 24 then [1, 7] else if d < 28 then [1, 2, 3] else if d < 30 then [1, 4]
  else if d < 38 then [1, 5] else if d = 38 then [1, 6] else [0]

/-- The anti-rollback counters of a die's types advance to the SVN that booted, once the die is IN_SERVICE (R346). -/
def advanceCounters (s : State) (d : Nat) : State :=
  (dieTypes d).foldl (fun s t => wr s (0x700200 + t) (max (rd s (0x700200 + t)) (min 63 (getSlot s t (bootedSlot s t)).svn))) s

end Sys2Proof.Machine
end

