-- ==== Sys2Proof/Machine/Ctx.lean ====
section
/-! DEFINITION. Contexts (R354 to R365): what each context command does, teardown, the device scrub, partitions, and the
end of a context switch and of a bundle's decryption. How the commands travel and complete stands in `Eth`. -/

namespace Sys2Proof.Machine

open Sys2Proof

/-- Outcome of a command: it is done, with DETAIL; it fails with a status and DETAIL and changes nothing; or it goes on
and completes later. -/
inductive CmdRes where
  | done (s : State) (detail : Nat)
  | fail (status detail : Nat)
  | long (s : State)

/-! ### Measurement registers (R347) -/

/-- MR := SHA-512(MR ‖ SHA-512(item)). -/
def extendMr (mr : Nat) (item : List Byte) : Nat := sha512 (natLe 64 mr ++ sha512Bytes item)

/-! ### Access tables of the page targets (R357, R359) -/

/-- Entry of a unit that serves every context: VALID, ANY_CTX, W, R. -/
def accessAny : BitVec 32 := 0xC0000003

/-- Entry of a cluster that serves context `id`: VALID, X, W, R. That it may submit solver problems is DEDUCED (log entry 104). -/
def accessCtx (id : Nat) : BitVec 32 := BitVec.ofNat 32 (0x80000007 + id % 4096 * 4096)

/-- Masters with ANY_CTX: Celale ports, the Ethernet engines, the Ladles. -/
def anyMasters : List Nat :=
  (List.range 32).map (fun p => masterId (30 + p / 4) (p % 4)) ++ [masterId 38 0, masterId 38 1]
    ++ (List.range 8).map (fun d => masterId d 0x201)

/-- The tables as they stand at the end of bring-up, when no request has reached a target yet. -/
def accessReset : Tbl (BitVec 32) := anyMasters.foldl (fun t m => tset 0 t m accessAny) []

/-- The cluster entries of every table are to take a context, or to be removed: an update that R24 completes. Until then no worker
issues (`issueStopped`). -/
def clusterAccess (s : State) (id : Option Nat) : State :=
  putAccess s none (match id with | some i => accessCtx i | none => 0)

/-! ### CREATE, SESSION_KEY, MEMBERS -/

/-- CREATE: the context, with a memory key of 512 fresh bits (R154) and the next serial number. -/
def ctxCreate (s : State) (id : Nat) : CmdRes :=
  if s.pkg.scrubbing then .fail 0x070D 0
  else if s.wen.debug then .fail 0x070E 0
  else if deviceState s = 3 then .fail 0x0A06 0
  else if (getC s id).live then .fail 0x0701 0
  else if 4096 ≤ (liveIds s).length then .fail 0x0703 0
  else
    let r := drawNat s
    let s := { r.2 with pkg := { r.2.pkg with serials := s.pkg.serials + 1 } }
    .done (incr (setC s id { Context.dead with live := true, serial := s.pkg.serials, memKey := some (r.1 % 2 ^ 512) }) 0x703000 1) 0

/-- Entries of the stream table that belong to a context have their GEN restarted (R356). -/
def restartGens (s : State) (id : Nat) : State :=
  let s := s.eth.streams.foldl (fun s p => if p.2.ctx = id then setStream s false p.1 { p.2 with gen := 0 } else s) s
  (List.range 256).foldl (fun s n => if psCtx s n = id then wr s (0xC01F00 + n) (getStream s false (plantStream n)).gen else s) s

/-- SESSION_KEY: `key` is what IDK-E unwraps. -/
def ctxSessionKey (s : State) (id : Nat) (key : Option Nat) : CmdRes :=
  let used := s.eth.streams.any (fun p => decide (p.2.state ≠ 0 ∧ p.2.ctx = id))
  if (getC s id).sessKey.isSome && used then .fail 0x0704 0
  else match key with
    | none => .fail 0x0705 0
    | some k =>
      let old := (getC s id).sessKey.isSome
      let s := modC s id (fun c => { c with sessKey := some k })
      .done (if old then restartGens s id else s) 0

/-- Whether the context's module runs or stands between two steps of a run. -/
def moduleRuns (c : Context) : Bool :=
  decide (c.modState = .running ∨ c.modState = .paused ∨ c.modState = .halting)

/-- MEMBERS. -/
def ctxMembers (s : State) (id n rank : Nat) (ids : List Nat) : CmdRes :=
  if moduleRuns (getC s id) then .fail 0x0704 0
  else if n = 0 ∨ 65536 < n ∨ n ≤ rank then .fail 0x0511 1
  else .done (modC s id (fun c => { c with n := n, rank := rank, ids := ids })) 0

/-! ### BIND and UNBIND (R168) -/

/-- Halves that some binding of a live context holds. -/
def boundHalves (s : State) : List Nat := (liveIds s).flatMap (fun id => (getC s id).binds.flatMap bindHalves)

/-- BIND, its checks in the order of R168. A half named with a die or the pair, and a die named with the pair, is a non-zero reserved field
(DESIGN CHOICE, log entry 101). -/
def ctxBind (s : State) (id num kind die half : Nat) : CmdRes :=
  let b : Binding := ⟨num, kind, die, half⟩
  let joined := fun (d : Nat) => decide (rd s (0x601001 + d) = 1)
  if 8 ≤ num ∨ 3 ≤ kind ∨ (kind ≠ 2 ∧ 2 ≤ die) ∨ (kind = 0 ∧ 2 ≤ half) then .fail 0x0511 1
  else if (kind = 2 ∧ die ≠ 0) ∨ (kind ≠ 0 ∧ half ≠ 0) then .fail 0x0501 0
  else if !(if kind = 0 then !joined die else if kind = 1 then joined die else joined 0 && joined 1) then .fail 0x0603 0
  else if (getC s id).binds.any (fun x => decide (x.num = num)) then .fail 0x0601 0
  else if (bindHalves b).any (fun h => decide (h ∈ boundHalves s)) then .fail 0x0601 0
  else if targetOffline s kind (bindFirst b) then .fail 0x0023 0
  else .done (modC s id (fun c => { c with binds := c.binds ++ [b] })) 0

/-- UNBIND: the binding is free and the target's resident area is zero-filled. -/
def ctxUnbind (s : State) (id num : Nat) : CmdRes :=
  if 8 ≤ num then .fail 0x0511 1
  else match (getC s id).binds.find? (fun b => decide (b.num = num)) with
    | none => .done s 0
    | some b =>
      let first := bindFirst b
      if (bindHalves b).any (halfBusy s) then .fail 0x0602 0
      else if (bindHalves b).any (plantOn s) then .fail 0x0601 0
      else .done (clearResident (modC s id (fun c => { c with binds := c.binds.filter (fun x => decide (x.num ≠ num)) })) b.kind first) 0

/-! ### SCHEDULE (R357) -/

/-- SCHEDULE: at the running module's next step point, or at once. -/
def ctxSchedule (s : State) (id : Nat) : CmdRes :=
  if s.pkg.scrubbing then .fail 0x070D 0
  else if deviceState s = 3 then .fail 0x0A06 0
  else if s.pkg.switchTo.isSome then .fail 0x0704 0
  else if runningId s = some id then .done s 0
  else
    let waits := match runningId s with
      | some r => isRunning (getC s r)
      | none => false
    .long { s with pkg := { s.pkg with switchTo := some (id, if waits then 0 else 1) } }

/-- The switch takes effect: the incoming context runs, and its entries stand in every access table. The worker state of the
outgoing context stays with it. -/
def applySwitch (s : State) (id : Nat) : State :=
  let s := wr { s with pkg := { s.pkg with switchTo := none } } 0x703001 id
  let s := clusterAccess s (some id)
  if (getC s id).modState = .paused then
    modC s id (fun c => { c with modState := .running, stepStartNs := s.ptpNs })
  else s

/-! ### TEARDOWN (R364) -/

/-- Sieve entries and held stores of a context are dropped without write-back. -/
def dropSieves (s : State) (id : Nat) : State :=
  let f := fun (v : Sieve) => { v with entries := v.entries.filter (fun e => decide (e.ctx ≠ id)),
                                       queue := v.queue.filter (fun e => decide (e.ctx ≠ id)) }
  { s with fab := { s.fab with
      sieves := (s.fab.sieves.map (fun p => (p.1, f p.2))).filter (fun p => decide (p.2 ≠ Sieve.empty)),
      held := s.fab.held.filter (fun h => decide (h.ctx ≠ id)) } }

/-- The Ladle's copy of a context is abandoned (R328). -/
def dropLadle (s : State) (id : Nat) : State :=
  { s with ckpt := { s.ckpt with
      spool := (s.ckpt.spool.map (fun p => (p.1, p.2.filter (fun x => decide (x.ctx ≠ id))))).filter (fun p => decide (p.2 ≠ [])),
      heldPages := s.ckpt.heldPages.filter (fun p => decide (p.1 ≠ id)) } }

/-- Fences of a context's halt or page remap need no end any more. -/
def dropFences (s : State) (id : Nat) : State :=
  { s with pkg := { s.pkg with fences := s.pkg.fences.filter (fun f => match f with
      | .haltCtx c _ _ => decide (c ≠ id)
      | .pageRemap _ c _ => decide (c ≠ id)
      | _ => true) } }

/-- The stream entries of a context become FREE. -/
def freeStreams (s : State) (id : Nat) : State :=
  (ctxStreams s id).foldl (fun s i => setStream s false i { getStream s false i with state := 0 }) s

/-- The translation cache takes a content; XLATE_CACHE_BYTES follows (R67, R90). -/
def setXcache (s : State) (xs : List (Nat × Nat × Nat)) : State :=
  wr { s with pkg := { s.pkg with xcache := xs } } 0x501001 (xs.foldl (fun n x => n + x.2.2) 0)

/-- The pages that a context holds. -/
def heldPages (c : Context) : List Nat := c.place.flatMap (fun r => (List.range r.count).map (fun i => r.vpage + i))

/-- Remote-line cache lines of a context are dropped (R246, R364). -/
def dropRemote (s : State) (id : Nat) : State :=
  { s with fab := { s.fab with rlc := s.fab.rlc.filter (fun l => decide (l.ctx ≠ id)) } }

/-- Recording or replay of a context ends with it. -/
def dropReplayOf (s : State) (id : Nat) : State :=
  if replayCtx s = id then { s with ckpt := { s.ckpt with rrec := false, rplay := false, rin := [], rinEnd := false } } else s

/-- Teardown: streams HALTED and the module halted with `code`, then everything of the context is gone. -/
def teardownCtx (s : State) (id code : Nat) : State :=
  let binds := (getC s id).binds
  let s := plantTeardown (abortProblems (haltStreams s id code none) id) id
  let s := dropReplayOf (dropFences (dropLadle (dropSieves s id) id) id) id
  let s := binds.foldl (fun s b => clearResident s b.kind (bindFirst b)) s
  let s := dropRemote (dropPages s (getC s id) (heldPages (getC s id))) id
  let s := freeStreams (setXcache s (s.pkg.xcache.filter (fun x => decide (x.1 ≠ (getC s id).serial)))) id
  let s := if runningId s = some id then clusterAccess (wr s 0x703001 0xFFFF) none else s
  let s := wr s 0x703000 (rd s 0x703000 - 1)
  let s := if s.pkg.switchTo.isSome && decide (s.pkg.switchTo.map (fun p => p.1) ≠ some id) then
      { s with pkg := { s.pkg with switchTo := s.pkg.switchTo.map (fun p => (p.1, 1)) } }
    else s
  settleOp (setC s id Context.dead)

/-- Whether a slice tests a unit of a context: a cluster that serves its module, or a column of a half that it has bound. -/
def sliceHoldsCtx (s : State) (id : Nat) : Bool :=
  s.pkg.tasters.any (fun p => match p.2.slice with
    | some (1, _, b) => decide (b % 2 = 1 ∧ runningId s = some id)
    | some (4, u, _) => decide (2 * (p.1 - 28) + u / 16 ∈ (getC s id).binds.flatMap bindHalves)
    | _ => false)

/-- TEARDOWN; it waits for the release of a slice on a unit of the context (R404). The halt code that its streams report is not named:
free. -/
def ctxTeardown (s : State) (id : Nat) : CmdRes :=
  if sliceHoldsCtx s id then .long s
  else .done (teardownCtx (drawNat s).2 id ((drawNat s).1 % 65536)) 0

/-! ### SCRUB (R365) -/

/-- What a scrub leaves of a context: its place in the table, its members and its bindings. -/
def scrubbedCtx (c : Context) : Context :=
  { Context.dead with live := c.live, serial := c.serial, n := c.n, rank := c.rank, ids := c.ids, binds := c.binds, mr4 := c.mr4, quote := c.quote,
                      ent := c.ent, snap := c.snap }

/-- Tenant telemetry as it stands (R366). -/
def freezeView (s : State) : Frozen :=
  ⟨s.ent, s.snap, s.ptpNs, s.wen.mrs, s.wen.window, s.wen.ownerEn, s.wen.sealOk,
    (liveIds s).map (fun id => let c := getC s id; (id, ⟨c.ent, c.snap, c.mr4, c.quote, c.binds⟩))⟩

/-- Steps 1 and 2 of Table 15.6: freeze, then every key. -/
def scrubStart (s : State) : State :=
  let s := wr { s with pkg := { s.pkg with frozen := some (freezeView s) } } 0x704000 2
  let s := (liveIds s).foldl (fun s id => modC s id (fun c => { c with memKey := none, sessKey := none })) s
  wr { s with pkg := { s.pkg with scrubbing := true, loanKey := none, bundle := none },
              wen := { s.wen with ckptKey := 0 } } 0x800102 0

/-- A port's buffers keep management traffic alone. -/
def scrubbedLink (l : PortLink) : PortLink :=
  { l with queue := l.queue.filter (fun f => decide (f.vc = 0)), replay := l.replay.map (fun x => (x.1,
      if x.2.vc = 0 then x.2 else { x.2 with rp := none, cp := none, raw := some 0 })) }

/-- Step 3 of Table 15.6: every SRAM is zero. Contexts keep no worker, line or problem. -/
def scrubSram (s : State) : State :=
  let s := (liveIds s).foldl (fun s id =>
    dropReplayOf (dropFences (plantTeardown (abortProblems s id) id) id) id) s
  let s := (liveIds s).foldl (fun s id => modC s id (fun c => { c with workers := [] })) s
  { s with
    solv := { s.solv with resident := [] },
    eth := { s.eth with cache := [] },
    fab := { s.fab with sieves := [], held := [], rlc := [], links := s.fab.links.map (fun l => (l.1, scrubbedLink l.2)) },
    pkg := { s.pkg with pantry := [] } }

/-- Step 4: every page, slot, buffer and table in the stacks is zero. -/
def scrubStacks (s : State) : State :=
  let s := (liveIds s).foldl (fun s id => modC s id scrubbedCtx) s
  let s := { s with
    eth := { s.eth with streams := [], held := s.eth.held.filter (fun h => h.mgmt),
                        busy := s.eth.busy.filter (fun b => b.mgmt), log := s.eth.log.filter (fun l => l.mgmt) },
    fab := { s.fab with loanMem := [] },
    pkg := { s.pkg with regions := [], sysPages := [], lent := [] },
    ckpt := { s.ckpt with spool := [], heldPages := [], buddy := BuddySlot.empty, rbuf := [], rout := [] } }
  (List.range 256).foldl (fun s n => wr s (0xC01F00 + n) 0) (setXcache s [])

/-- Steps 3 and 4. -/
def scrubMemory (s : State) : State := scrubStacks (scrubSram s)

/-- A scrub goes on to its next step while no command waits; SCRUB_STATE tells which one runs (DESIGN CHOICE, log entry 5). -/
def scrubTick (s : State) : State :=
  if !s.pkg.scrubbing then s
  else if rd s 0x704000 = 2 then scrubSram (wr s 0x704000 3)
  else if rd s 0x704000 = 3 then scrubStacks (wr s 0x704000 4)
  else s

/-- SCRUB: only while no module runs. -/
def ctxScrub (s : State) : CmdRes :=
  if s.pkg.scrubbing then .fail 0x070D 0
  else if (liveIds s).any (fun id => moduleRuns (getC s id)) then .fail 0x0704 0
  else .long (scrubStart s)

/-- The scrub ends: step 5, and after a reclaim the contexts are removed (R340). -/
def scrubEnd (s : State) (us : Nat) : State :=
  let s := scrubMemory s
  let s := wr (wr { s with pkg := { s.pkg with scrubbing := false, frozen := none } } 0x704000 5) 0x704001 us
  if s.ckpt.reclaimCut then
    let s := (liveIds s).foldl (fun s id => teardownCtx s id 0x080B) s
    wr { s with ckpt := { s.ckpt with reclaimCut := false } } 0x802001 (if s.ckpt.reclaimPartial then 5 else 4)
  else s

/-- RECLAIM_CUTOFF: the running module halts, and the scrub begins. -/
def execReclaimCutoff (s : State) : Out :=
  .next (reclaimCut s (fun s => scrubStart ((liveIds s).foldl (fun s id =>
    modC (haltStreams s id 0x080B none) id (fun c => { c with modState := if moduleRuns c then .halted 0x080B else c.modState })) s)))

/-! ### PARTITION (R358, R408, R409) -/

/-- Units that R16 issues. -/
def unitExists (m : Nat) : Bool :=
  let d := m / 1024
  let u := m % 1024
  decide (d < 40) && (decide (u = 0x200) || (decide (d < 8) && decide (u < 500 ∨ u = 0x201 ∨ u = 0x210 ∨ u = 0x211))
    || (decide (24 ≤ d ∧ d < 28) && decide (u < 32)) || (decide (28 ≤ d ∧ d < 30) && decide (u < 3))
    || (decide (30 ≤ d ∧ d < 38) && decide (u < 4)) || (decide (d = 38) && decide (u < 2)))

/-- Whether the condition of Table 17.6 for taking a die out of service fails. -/
def dieBusy (s : State) (d : Nat) : Bool :=
  if d < 24 then decide (liveIds s ≠ []) || decide (s.ckpt.buddy ≠ BuddySlot.empty)
  else if d < 28 then (List.range 4).any (fun i => decide (24 + i ≠ d ∧ dieState s (24 + i) ≠ 2))
  else if d < 30 then (boundHalves s).any (fun h => decide (h / 2 = d - 28))
  else if d < 38 then (List.range 4).any (fun i => decide (portState s (4 * (d - 30) + i) ∉ [0, 1, 4]))
  else if d = 38 then s.eth.streams.any (fun p => decide (p.2.state ≠ 0))
  else true

/-- Whether a listed unit may not move: bound to a context, running, or serving a plant stream. Only units of partition 0 can be. -/
def unitBusy (s : State) (m : Nat) : Bool :=
  let d := m / 1024
  let u := m % 1024
  if masterPart s m ≠ 0 then false
  else if u = 0x200 then dieBusy s d
  else if d < 8 then (match runningId s with | some id => moduleRuns (getC s id) | none => false)
  else if 28 ≤ d ∧ d < 30 then
    let hs := if u = 2 then [2 * (d - 28), 2 * (d - 28) + 1] else [2 * (d - 28) + u]
    hs.any (fun h => decide (h ∈ boundHalves s) || plantOn s h)
  else false

/-- A solver half leaves for a partition, or comes back IDLE with its resident area zero; an OFFLINE half stays OFFLINE. -/
def moveHalf (s : State) (p h : Nat) : State :=
  clearResident (if halfState s h = 2 then s else wr s (0x601201 + h) (if p = 0 then 0 else 3)) 0 h

/-- Halves that a unit of a solver die stands for: one, or with the whole die both. -/
def unitHalves (m : Nat) : List Nat :=
  let d := m / 1024
  if d < 28 ∨ 30 ≤ d then []
  else if m % 1024 < 2 then [2 * (d - 28) + m % 1024] else [2 * (d - 28), 2 * (d - 28) + 1]

/-- A stack has been reset: its next reading sets the refresh multiplier, which is 4 until then (R155). -/
def resetStack (s : State) (k : Nat) : State :=
  wr { s with pkg := { s.pkg with stackRead := s.pkg.stackRead.filter (fun x => decide (x ≠ k)) } } (0x300301 + k) 4

/-- The Pantry slices of a compute die are zero-filled, with their Sieves (R358). -/
def clearPantry (s : State) (d : Nat) : State :=
  { s with pkg := { s.pkg with pantry := s.pkg.pantry.filter (fun p => decide (p.1 / 1024 / 32 ≠ d)) },
           fab := { s.fab with sieves := s.fab.sieves.filter (fun p => decide (p.1 / 32 ≠ d)) } }

/-- A unit goes to a partition. A whole die leaves service, held in reset, or comes back: its SRAM is zero-filled, its ports
train. OD0 closes its by-passes as it leaves. A FAILED die stays FAILED, held in reset (R22). A unit that is there already does not move. -/
def moveUnit (s : State) (p m : Nat) : State :=
  let d := m / 1024
  if tget 0 s.pkg.parts m = p then s
  else
  let s := repart { s with pkg := { s.pkg with parts := tset 0 s.pkg.parts m p } } m
  let s := (unitHalves m).foldl (fun s h => moveHalf s p h) s
  if m % 1024 ≠ 0x200 then s
  else if p ≠ 0 then
    let s := if dieState s d = 5 then holdReset s d else setDie (holdReset s d) d 3
    if d = 30 then bypassClose s else s
  else if dieState s d = 5 then s
  else
    let s := clearPantry s d
    let s := setDie { s with wen := { s.wen with resetHeld := s.wen.resetHeld.filter (fun x => decide (x ≠ d)) } } d
      (if dieState s d = 3 then returnState s d else dieState s d)
    let s := if 8 ≤ d ∧ d < 24 then resetStack (advanceCounters s d) (d - 8) else advanceCounters s d
    if 30 ≤ d ∧ d < 38 then (List.range 4).foldl (fun s i => portTrain s (4 * (d - 30) + i)) s
    else s

/-- PARTITION. -/
def ctxPartition (s : State) (p : Nat) (units : List Nat) : CmdRes :=
  if 16 ≤ p ∨ units.any (fun m => !unitExists m) = true then .fail 0x0511 1
  else if units.any (unitBusy s) = true then .fail 0x070C 0
  else .done (units.foldl (fun s m => moveUnit s p m) s) 0

/-! ### BUNDLE_OPEN (R362, R363) -/

/-- LENGTH in a bundle's header. -/
def bundleLength (hdr : List Byte) : Nat := field hdr 0x18 8

/-- BUNDLE_OPEN: the header is read, and Wened looks for its own entry. -/
def ctxBundleOpen (s : State) (id src dst off : Nat) : CmdRes :=
  let c := getC s id
  match tensorOf c src, tensorOf c dst with
  | some a, some b =>
    let hdr := tensorRead c 0 src off 128
    if a.level ≠ 2 ∨ b.level ≠ 2 ∨ tensorBytes a < off + 128 then .fail 0x0511 1
    else if field hdr 0 4 ≠ 0x444E4257 ∨ field hdr 4 2 ≠ 1 ∨ field hdr 0x10 4 = 0 ∨ 65536 < field hdr 0x10 4
        ∨ tensorBytes a < off + 128 + 520 * field hdr 0x10 4 + bundleLength hdr + 16 ∨ tensorBytes b < bundleLength hdr then
      .fail 0x0511 1
    else if s.pkg.bundle.isSome then .fail 0x0704 0
    else .long { s with pkg := { s.pkg with bundle := some (id, src, dst, off) } }
  | _, _ => .fail 0x0511 1

/-- Bytes that the end of a bundle stores: the plaintext, or the whole target cleared where the tag is wrong. -/
def bundleBytes (c : Context) (src dst off : Nat) (tagOk : Bool) (plain : List Byte) : List Byte :=
  if tagOk then padTo (bundleLength (tensorRead c 0 src off 128)) plain
  else List.replicate (((tensorOf c dst).map tensorBytes).getD 0) 0

/-- Whether the end of a bundle meets a page whose writes wait (R151, R153): address and length. -/
def bundleWaits (c : Context) (src dst off : Nat) (go tagOk : Bool) (plain : List Byte) : Option (Nat × Nat) :=
  let a := tensorBase c 0 dst
  let n := (bundleBytes c src dst off tagOk plain).length
  if go && rangeHeld c a n then some (a, n) else none

/-- What a bundle's end does, with the status of its command. -/
def bundleEnd (s : State) (id src dst off : Nat) (member unwrapOk tagOk : Bool) (plain : List Byte) : State × Nat :=
  let s := { s with pkg := { s.pkg with bundle := none } }
  let c := getC s id
  let hdr := tensorRead c 0 src off 128
  let bs := bundleBytes c src dst off tagOk plain
  if !member then (s, 0x0706)
  else if !unwrapOk then (s, 0x0705)
  else
    let s := storeRange s id (tensorBase c 0 dst) bs
    if !tagOk then (s, 0x0707)
    else (modC s id (fun c => { c with mr4 := extendMr c.mr4 ((hdr.drop 8).take 8 ++ sha512Bytes hdr) }), 0)

end Sys2Proof.Machine
end

