-- ==== Sys2Proof/Machine/Keys.lean ====
section
/-! DEFINITION. Keys, presence and attestation (R343 to R353): quotes, enrolment, the destruction of keys, the presence
window and the seal. -/

namespace Sys2Proof.Machine

open Sys2Proof

/-! ### The determinism class string (R4) -/

/-- Decimal digits of a number of at most `f` digits. -/
def decBytes : Nat → Nat → List Byte
  | 0, _ => []
  | f + 1, n => (if n < 10 then [] else decBytes f (n / 10)) ++ [BitVec.ofNat 8 (48 + n % 10)]

/-- The class string of a stepping, a translator family and a numeric microcode level, in 12 bytes. -/
def dcString (stepping family level : Nat) : List Byte :=
  padTo 12 ([0x44, 0x43, 0x2D] ++ decBytes 3 stepping ++ [BitVec.ofNat 8 family]
    ++ (if level = 0 then [] else 0x2D :: decBytes 5 level))

/-! ### Quotes (R348) -/

/-- FLAGS of Table 15.2. -/
def quoteFlags (s : State) : Nat :=
  bit (decide (rd s 0x702001 = 1)) + 2 * bit s.wen.debug + 4 * bit s.wen.rbOverridden + 8 * bit (decide (rd s 0xC00100 ≠ 0))

/-- The quote of Table 15.2 for a context or, with `none`, for authority O. A tenant's TIME is rounded (R361). -/
def quoteBytes (s : State) (who : Option Nat) (nonce : Nat) (sig : List Byte) : List Byte :=
  natLe 4 0x544F5551 ++ natLe 2 1 ++ natLe 2 (quoteFlags s) ++ natLe 8 (rd s 0x700100) ++ natLe 8 (s.wen.quotesSigned + 1)
    ++ natLe 8 (if who.isSome then s.ptpNs / 1000 * 1000 else s.ptpNs) ++ natLe 12 (rd s 0x100200)
    ++ natLe 2 (who.getD 0xFFFF) ++ natLe 2 0 ++ natLe 64 nonce
    ++ (List.range 4).flatMap (fun i => natLe 64 (s.wen.mrs.getD i 0))
    ++ natLe 64 (match who with | some id => (getC s id).mr4 | none => 0)
    ++ (List.range 8).flatMap (fun i => natLe 1 (rd s (0x700200 + i))) ++ natLe 8 0 ++ natLe 64 0 ++ padTo 512 sig

/-- A quote is signed by IDK-S and stored as the latest of its class. The salt makes the signature's bytes free. Without
IDK-S there is none (R353). -/
def signQuote (s : State) (who : Option Nat) (nonce : Nat) : State :=
  if !s.wen.idKeys then s
  else
    let r := drawBytes s 512
    let q := leNat (quoteBytes r.2 who nonce r.1)
    let s := { r.2 with wen := { r.2.wen with quotesSigned := r.2.wen.quotesSigned + 1 } }
    match who with
    | none => bumpSnap { s with wen := { s.wen with quoteO := q } } 0x700401
    | some id =>
      if (getC s id).live then modC s id (fun c => { c with quote := q, snap := tmod 0 c.snap 0x700401 (fun n => (n + 1) % 2 ^ 32) })
      else s

/-- QUOTE_NONCE: a quote of the caller's class is asked for. -/
def quoteNonceWrite (s : State) (who : Option Nat) (nonce : Nat) : Except Nat State :=
  .ok (bumpSnap { s with wen := { s.wen with quotePending := s.wen.quotePending ++ [(who, nonce)] } } 0x700400)

/-- QUOTE_READY: the oldest quote asked for is ready. -/
def execQuoteReady (s : State) : Out :=
  .next (
    match s.wen.quotePending with
    | [] => s
    | (who, nonce) :: rest => signQuote { s with wen := { s.wen with quotePending := rest } } who nonce)

/-! ### Enrolment (R349, R350) -/

/-- OWNER_KEY and FM_KEY: the key is held. -/
def keyWrite (s : State) (k v : Nat) : Except Nat State := .ok (wrHost s k v)

/-- MGMT_KEY_ENROL: the management key, where the wrapping opens under IDK-E. -/
def mgmtEnrolWrite (s : State) (key : Option Nat) : Except Nat State :=
  match key with
  | none => .error 0x0705
  | some v => .ok (bumpSnap { s with wen := { s.wen with mgmtKey := some v } } 0x701200)

/-- MGMT_KEY_NEXT: `key` is what unwraps under IDK-E where the FM_KEY signature verifies. Each management stream takes it at
its next STREAM_OPEN. -/
def mgmtNextWrite (s : State) (key : Option Nat) : Except Nat State :=
  match key with
  | none => .error 0x0705
  | some v =>
    if rd s 0x701100 = 0 then .error 0x0705 else .ok (bumpSnap { s with wen := { s.wen with mgmtKey := some v } } 0x701201)

/-! ### Destruction of keys (R353, R390) -/

/-- Every module that runs stops with DETAIL `code`, and its streams are HALTED. -/
def stopModules (s : State) (code : Nat) : State :=
  (liveIds s).foldl (fun s id =>
    if moduleRuns (getC s id) then modC (haltStreams s id code none) id (fun c => { c with modState := .halted code }) else s) s

/-- Memory, session, management, checkpoint and bundle keys, the owner and fabric manager keys, and the brown-out store are
destroyed. -/
def destroyKeys (s : State) : State :=
  let s := (liveIds s).foldl (fun s id => modC s id (fun c => { c with memKey := none, sessKey := none })) s
  let s := { s with wen := { s.wen with mgmtKey := none, mgmtGenKey := [], ckptKey := 0, brown := [] },
                    pkg := { s.pkg with loanKey := none, sysKeys := none, bundle := none } }
  wr (wr (wr s 0x701000 0) 0x701100 0) 0x800102 0

/-- The identity keys are destroyed, for good. -/
def destroyIdentity (s : State) : State := wr { s with wen := { s.wen with idKeys := false } } 0x100300 6

/-- ZEROISE and DECOMMISSION: the marker, the power of the eight compute dies, the keys; the scrub waits for power. A record
that is being written is not written (R390). -/
def zeroiseNow (s : State) (decom : Bool) : State :=
  let s := { s with wen := { s.wen with marker := some (decom || s.wen.marker.getD false), saving := none, scrubDue := true } }
  let s := stopModules s 0x0106
  let s := setPower s (s.wen.powerEn.filter (fun d => decide (8 ≤ d)))
  let s := destroyKeys ((List.range 8).foldl (fun s d => if dieState s d = 5 then s else setDie s d 0) s)
  if decom then destroyIdentity s else s

/-- ZEROISE. -/
def zeroiseWrite (s : State) (v : Nat) : Except Nat State :=
  if v = 0x5A then .ok (bumpSnap (zeroiseNow s false) 0x702200) else .error 1

/-- DECOMMISSION. -/
def decommissionWrite (s : State) (v : Nat) : Except Nat State :=
  if v = 0xA5 then .ok (bumpSnap (zeroiseNow s true) 0x702201) else .error 1

/-- DEBUG_UNLOCK: ZEROISE's key destruction and device scrub, then the debug ports open until the next cold start. -/
def debugWrite (s : State) (v : Nat) : Except Nat State :=
  if v = 1 then
    let s := destroyKeys (stopModules s 0x0106)
    .ok (bumpSnap { scrubStart s with wen := { (scrubStart s).wen with debug := true } } 0x702100)
  else .error 1

/-- TAMPER_CLEAR: TAMPERED is cleared while the loop is closed. -/
def tamperClearWrite (s : State) (v : Nat) : Except Nat State :=
  if v ≠ 1 then .error 1 else if !s.wen.sealOk then .error 0x0708 else .ok (bumpSnap (wr s 0x702001 0) 0x702002)

/-- ROLLBACK_OVERRIDE names one image type. -/
def rollbackWrite (s : State) (v : Nat) : Except Nat State :=
  if 8 ≤ v then .error 1 else .ok (bumpSnap { s with wen := { s.wen with rbOverride := some v } } 0x700210)

/-! ### Presence (R351, R352, R437, R438) -/

/-- The presence window closes. -/
def closeWindow (s : State) : State := { s with wen := { s.wen with window := false } }

/-- PRES_N_RELEASE: a low period of 100 ms to 5 s, with OWNER_EN asserted and the seal closed throughout, opens a window. -/
def execPresNRelease (lowMs : Nat) (held : Bool) (s : State) : Out :=
  .next (
    if 100 ≤ lowMs ∧ lowMs ≤ 5000 ∧ held = true then
      if s.wen.sealOk then { s with wen := { s.wen with window := true, ownerEn := true } } else s
    else s)

/-- OWNER_EN_RELEASE. -/
def execOwnerEnRelease (s : State) : Out := .next (closeWindow { s with wen := { s.wen with ownerEn := false } })

/-- PRESENCE_WINDOW_EXPIRY: 300 s have passed. -/
def execPresenceWindowExpiry (s : State) : Out := .next (closeWindow s)

/-- SEAL_READING: 100 Ω or less is CLOSED; an OPEN reading latches TAMPERED and closes the window. -/
def execSealReading (ohms : Option Nat) (s : State) : Out :=
  .next (
    match ohms with
    | none => wr (wr (closeWindow { s with wen := { s.wen with sealOk := false } }) 0x20092A 0xFFFFFFFF) 0x702001 1
    | some r =>
      if r ≤ 100 then wr { s with wen := { s.wen with sealOk := true } } 0x20092A r
      else wr (wr (closeWindow { s with wen := { s.wen with sealOk := false } }) 0x20092A 0xFFFFFFFF) 0x702001 1)

end Sys2Proof.Machine
end

