-- ==== Sys2Proof/Machine/Firmware.lean ====
section
/-! DEFINITION. Firmware images (R345, R346, R387, R409, R410): verification, boot, staging, activation, recovery. -/

namespace Sys2Proof.Machine

open Sys2Proof

/-! ### Verification -/

/-- Why an image fails verification for a slot of `type`: FW_SIGNATURE, or FW_ROLLBACK where its SVN is below the type's
counter and no override admits it. -/
def imageBad (s : State) (type : Nat) (img : FwImage) : Option Nat :=
  if !(img.digestOk && img.sigOk) || decide (img.type ≠ type) then some 0x070A
  else if img.svn < rd s (0x700200 + type) ∧ s.wen.rbOverride ≠ some type then some 0x070B
  else none

/-- A verification failure's record (class 0x0D). -/
def firmwareRecord (s : State) (die code : Nat) : State := logFault s die 0x0D 0x200 code 0xFFFF 0 0

/-- What FW_SLOT reports of an image. -/
def slotOf (img : FwImage) (valid : Bool) : FwSlot :=
  ⟨valid, img.svn, img.numUcode, img.version, img.family, img.digest⟩

/-- An image's header as MR0, MR1 and MR2 take it: LENGTH and SIGNATURE are bytes the command does not name. -/
def headerBytes (img : FwImage) (extra : List Byte) : List Byte :=
  natLe 4 0x57464E4A ++ natLe 1 img.type ++ natLe 1 img.svn ++ natLe 2 img.numUcode ++ natLe 4 img.version
    ++ natLe 1 img.family ++ natLe 3 0 ++ extra.take 8 ++ natLe 40 0 ++ natLe 64 img.digest ++ natLe 384 0 ++ extra.drop 8

/-- MR `i` is extended with an item. -/
def extendMrs (s : State) (i : Nat) (item : List Byte) : State :=
  bumpSnap { s with wen := { s.wen with mrs := setAt s.wen.mrs i (extendMr (s.wen.mrs.getD i 0) item) } } (0x700300 + i)

/-- MR `i` is extended with an image's header. -/
def measureImage (s : State) (i : Nat) (img : FwImage) : State :=
  let r := drawBytes s 520
  extendMrs r.2 i (headerBytes img r.1)

/-! ### Boot -/

/-- The slot that a type boots from first: the preferred one, else the one that booted last. -/
def firstSlot (s : State) (type : Nat) : Nat :=
  match tget 0 s.wen.preferred type with
  | 0 => bootedSlot s type
  | n + 1 => n

/-- An image has booted from a slot: the slot is the booted one, and an override that it needed is used up (R346). -/
def bootedFrom (s : State) (type slot : Nat) (img : FwImage) : State :=
  let used := decide (img.svn < rd s (0x700200 + type))
  let s := setSlot s type slot (slotOf img true)
  { s with wen := { s.wen with
      booted := tset 0 s.wen.booted type (slot + 1),
      stagedOk := if bootedSlot s type = slot then s.wen.stagedOk else s.wen.stagedOk.filter (fun t => decide (t ≠ type)),
      rbOverride := if used then none else s.wen.rbOverride, rbOverridden := s.wen.rbOverridden || used } }

/-- Boots a type for die `die`: its slots are tried in order, each by the image read from it (`images`, by 2 × TYPE + slot);
one that fails is skipped. -/
def bootType (s : State) (die type : Nat) (images : List FwImage) : State × Option FwImage :=
  let a := firstSlot s type
  [a, 1 - a].foldl (fun r slot =>
    match r.2, images[2 * type + slot]? with
    | some x, _ => (r.1, some x)
    | none, none => r
    | none, some img =>
      if !(getSlot r.1 type slot).valid then r
      else match imageBad r.1 type img with
        | some code => (firmwareRecord r.1 die code, none)
        | none => (bootedFrom r.1 type slot img, some img)) (s, none)

/-- The first die that runs a type, which its records name. -/
def typeDie (type : Nat) : Nat := ((List.range 40).find? (fun d => decide (type ∈ dieTypes d))).getD 39

/-- Types 1 to 7 boot, each once; the images that booted. -/
def bootTypes (s : State) (images : List FwImage) : State × List FwImage :=
  (List.range 7).foldl (fun r i =>
    let b := bootType r.1 (typeDie (i + 1)) (i + 1) images
    (b.1, r.2 ++ b.2.toList)) (s, [])

/-- Stage 3: in index order every die but MD takes its images, which are measured. One of whose types both slots have failed
is FAILED. -/
def bootDies (s : State) (images : List FwImage) : State :=
  let r := bootTypes s images
  (List.range 39).foldl (fun s d =>
    let imgs := r.2.filter (fun g => decide (g.type ∈ dieTypes d))
    let s := imgs.foldl (fun s g => measureImage s 1 g) s
    if imgs.length = (dieTypes d).length then s else dieFail s d) r.1

/-- The class that the booted images give, with MR2 (R4, R347). -/
def setClass (s : State) : State :=
  let tr := getSlot s 3 (bootedSlot s 3)
  let nu := getSlot s 4 (bootedSlot s 4)
  let s := wr (wr (wr s 0x100202 nu.numUcode) 0x100203 tr.family) 0x501000 tr.version
  let dc := dcString (rd s 0x100201) tr.family nu.numUcode
  let r := drawBytes (wr s 0x100200 (leNat dc)) 520
  extendMrs r.2 2 (headerBytes ⟨3, tr.svn, 0, tr.version, tr.family, tr.digest, true, true, false⟩ r.1 ++ dc)

/-! ### Staging and activation -/

/-- FW_STAGE_STATE. -/
def stageState (s : State) (st type code : Nat) : State := wr s 0x103001 (st + type % 256 * 256 + code * 65536)

/-- FW_STAGE_SRC: the pull of an image of `type` into the slot that did not boot last. -/
def stageWrite (s : State) (v type : Nat) : Except Nat State :=
  let len := v / 2 ^ 128
  if len < 1024 ∨ 67108864 < len then .error 1
  else if s.wen.staged.isSome then .error 0x0E01
  else
    let slot := 1 - bootedSlot s type
    let s := if type < 8 then setSlot s type slot { getSlot s type slot with valid := false } else s
    let s := { s with wen := { s.wen with staged := some (type, slot), stagedOk := s.wen.stagedOk.filter (fun t => decide (t ≠ type)),
                                          preferred := if tget 0 s.wen.preferred type = slot + 1 then tset 0 s.wen.preferred type 0
                                            else s.wen.preferred } }
    .ok (bumpSnap (stageState s 1 type 0) 0x103000)

/-- FW_STAGE_VERIFIED: the pull and the verification end. -/
def execFwStageVerified (img : FwImage) (s : State) : Out :=
  .next (
    match s.wen.staged with
    | none => s
    | some (type, slot) =>
      let s := { s with wen := { s.wen with staged := none } }
      match (if type < 8 then imageBad s type img else some 0x070A) with
      | some code => stageState (firmwareRecord s 39 code) 3 type code
      | none =>
        let s := setSlot s type slot (slotOf img true)
        stageState { s with wen := { s.wen with stagedOk := s.wen.stagedOk ++ [type] } } 2 type 0)

/-- FW_ACTIVATE: the verified staged slot of a type is preferred. -/
def activateWrite (s : State) (type : Nat) : Except Nat State :=
  if 8 ≤ type then .error 1
  else if (type = 3 ∨ type = 4) ∧ liveIds s ≠ [] then .error 0x0A09
  else if type ∉ s.wen.stagedOk then .error 0x0E02
  else .ok (bumpSnap { s with wen := { s.wen with preferred := tset 0 s.wen.preferred type (2 - bootedSlot s type) } } 0x103002)

/-- FW_RECOVERY: a Wened image of `length` bytes, verified when the write completes and booted at the next cold reset. One whose
header has a non-zero reserved byte is refused (R12). -/
def recoveryWrite (s : State) (img : FwImage) (length : Nat) : Except Nat State :=
  if length < 1024 ∨ 67108864 < length then .error 6
  else if img.resv then .error 2
  else
    let slot := 1 - bootedSlot s 0
    match imageBad s 0 img with
    | some code => .ok (bumpSnap (setSlot (firmwareRecord s 39 code) 0 slot (slotOf img false)) 0x103010)
    | none =>
      let s := setSlot s 0 slot (slotOf img true)
      .ok (bumpSnap { s with wen := { s.wen with preferred := tset 0 s.wen.preferred 0 (slot + 1) } } 0x103010)

/-- STAGED_IMAGE_BOOT_DONE: a PARTITION die has read its staged image. One that fails verification leaves the other slot; a
die without a slot to boot is FAILED. Images of TYPE 3 and 4 boot only at a reset of the whole device (R410). -/
def execStagedImageBootDone (d : Die) (img : FwImage) (s : State) : Out :=
  .next (
    if dieState s d.val ≠ 3 ∨ img.type = 3 ∨ img.type = 4 ∨ img.type ∉ dieTypes d.val then s
    else
      let slot := firstSlot s img.type
      if !(getSlot s img.type slot).valid then s
      else match imageBad s img.type img with
        | none => measureImage (bootedFrom s img.type slot img) 1 img
        | some code =>
          let s := setSlot (firmwareRecord s d.val code) img.type slot { getSlot s img.type slot with valid := false }
          if (getSlot s img.type (1 - slot)).valid then
            { s with wen := { s.wen with booted := tset 0 s.wen.booted img.type (2 - slot) } }
          else dieFail s d.val)

end Sys2Proof.Machine
end

