-- ==== Sys2Proof/Machine/Taster.lean ====
section
/-! DEFINITION. The Taster (R400 to R413): requests, when a slice may start, what its end does, full tests, and the
retirement of clusters, ways and pages. -/

namespace Sys2Proof.Machine

open Sys2Proof

/-- The Taster of a die. -/
def getTaster (s : State) (d : Nat) : Taster := tget Taster.initial s.pkg.tasters d

/-- Replaces the Taster of a die. -/
def setTaster (s : State) (d : Nat) (t : Taster) : State :=
  { s with pkg := { s.pkg with tasters := tset Taster.initial s.pkg.tasters d t } }

/-! ### Units and requests -/

/-- Stack regions of 8 MiB: 8,207 on grade A, 4,111 on grade C. -/
def stackRegions (s : State) : Nat := if gradeA s then 8207 else 4111

/-- Whether a request's die and unit lie in its kind (Table 17.3, Table 17.7). -/
def tasterTarget (s : State) (die kind unit : Nat) : Bool :=
  match kind with
  | 1 => decide (die < 8 ∧ unit < 512)
  | 2 => decide (die < 8 ∧ unit < 32)
  | 3 => decide (8 ≤ die ∧ die < 24 ∧ unit < stackRegions s)
  | 4 => decide (28 ≤ die ∧ die < 30 ∧ unit < 32)
  | 5 => decide (30 ≤ die ∧ die < 38 ∧ unit < 4)
  | 6 => decide (die < 40 ∧ dieState s die = 3)
  | _ => false

/-- TASTER_REQ. A request for a unit already queued merges into the first (R404); a recalibration may be refused under
R231. -/
def tasterWrite (s : State) (die kind unit : Nat) (raise : Bool) (res : Nat) : Except Nat State :=
  if res ≠ 0 then .error 2
  else if kind = 0 ∨ 6 < kind then .error 1
  else if !tasterTarget s die kind unit then .error 0x0A08
  else if kind = 5 ∧ portState s (4 * (die - 30) + unit) = 3 ∧ solePath s (4 * (die - 30) + unit) = true then .error 0x0D04
  else if 64 ≤ (getTaster s die).reqs.length
      ∧ (getTaster s die).reqs.all (fun q => !decide (q.kind = kind ∧ q.unit = unit)) = true then .error 0x0A07
  else .ok (bumpSnap (queueTaster s die ⟨kind, unit, raise⟩) 0xA00200)

/-! ### When a slice may start (R402, R403) -/

/-- Time between starts on a die, ns. -/
def tasterInterval (s : State) (t : Taster) : Nat :=
  1000 * (if t.reqs.any (fun q => q.raise) then rd s 0xA00102 else rd s 0xA00101)

/-- The first start of plant stream `n`'s slot interval at or after now. -/
def nextPlantSlot (s : State) (n : Nat) : Nat :=
  let t := psEpoch s n + psSlot s n
  if s.ptpNs ≤ t then t else t + cdiv (s.ptpNs - t) (psPeriod s n) * psPeriod s n

/-- Whether stream `n` leaves the next 250 µs free: they end before its next slot interval begins (R403), and the interval of
the period before, as check 5 of R194 bounds it, is over (R195). -/
def slotFree (s : State) (n : Nat) : Bool :=
  let next := nextPlantSlot s n
  decide (s.ptpNs + 250000 ≤ next ∧
    (next ≤ psEpoch s n + psSlot s n ∨ next + execNs (getP s n).texec (acTicks s) + 1000 ≤ s.ptpNs + psPeriod s n))

/-- Half of a solver column. -/
def columnHalf (d unit : Nat) : Nat := 2 * (d - 28) + unit / 16

/-- Whether the running module's workers use physical cluster `p` of die `d`. -/
def moduleCluster (s : State) (d p : Nat) : Bool :=
  (unitOf s d p).isSome && (match runningId s with | some id => isRunning (getC s id) | none => false)

/-- Whether the running module stands at a step point that has seen no slice of this die yet. At a capture point capture and resume are one
command, so no slice runs between them (DESIGN CHOICE, log entry 62). -/
def atOpenStep (s : State) (t : Taster) : Bool :=
  match runningId s with
  | some id => !(capturePoint s (getC s id) ((getC s id).step + 1) && captureEnabled s) && (List.range 4000).all (fun i => atStepPoint (getW (getC s id) i)) && decide (t.lastStep ≠ some (getC s id).step)
  | none => false

/-- Whether a slice may start now. -/
def mayTaste (s : State) (d : Nat) (t : Taster) (kind unit : Nat) : Bool :=
  let inService := decide (dieState s d = 2 ∨ dieState s d = 4)
  match kind with
  | 1 => inService && decide (unit ∉ (getFuses s d).failed) &&
      (if moduleCluster s d unit then atOpenStep s t else match s.pkg.switchTo with | some (_, 1) => false | _ => true)
  | 2 => inService && !s.pkg.scrubbing
  | 3 => inService && !s.pkg.scrubbing
  | 4 => inService && (runningOn s (columnHalf d unit)).isEmpty
      && (armedOn s (columnHalf d unit) 256).all (slotFree s)
  | 5 => (List.range 4).all (fun i => let p := 4 * (d - 30) + i; decide (portState s p ≠ 4) && !(getLink s p).drain)
  | 6 => decide (dieState s d = 3 ∧ d ∉ s.pkg.full)
  | _ => false

/-- Items of a die's sweep. -/
def sweepLen (s : State) (d : Nat) : Nat :=
  if d < 8 then 544 else if d < 24 then stackRegions s else if 28 ≤ d ∧ d < 30 then 32 else 0

/-- Item `i` of a die's sweep, in ascending kind and unit. -/
def sweepItem (d i : Nat) : Nat × Nat :=
  if d < 8 then (if i < 512 then (1, i) else (2, i - 512)) else if d < 24 then (3, i) else (4, i)

/-- A FAILED cluster is no item of a sweep. -/
def sweepSkips (s : State) (d i : Nat) : Bool := decide ((sweepItem d i).1 = 1 ∧ (sweepItem d i).2 ∈ (getFuses s d).failed)

/-- Sweep items `[lo, hi)`. -/
def sweepRange (s : State) (d lo hi : Nat) : List Nat := ((List.range (hi - lo)).map (lo + ·)).filter (fun i => !sweepSkips s d i)

/-- The next item of the sweep that may run: those passed over come first, in their places (R402). -/
def nextSweep (s : State) (d : Nat) (t : Taster) : Option Nat :=
  (t.passed ++ sweepRange s d t.pos (sweepLen s d)).find? (fun i => mayTaste s d t (sweepItem d i).1 (sweepItem d i).2)

/-- The sweep after item `i`: what lies before it and could not run keeps its place, and the sweep is complete when nothing is left. -/
def sweepAfter (s : State) (d : Nat) (t : Taster) (i : Nat) : Taster :=
  let left := (t.passed ++ sweepRange s d t.pos (i + 1)).filter (fun x => decide (x ≠ i) && !sweepSkips s d x)
  let pos := max t.pos (i + 1)
  if left = [] ∧ sweepLen s d ≤ pos then { t with passed := [], pos := 0, sweeps := t.sweeps + 1 }
  else { t with passed := left, pos := pos }

/-- Before its test the Sieve entries of a Pantry slice are written back (R255), and its lines are written back and dropped (Table 17.3). -/
def flushSlice (s : State) (k : Nat) : State :=
  let s := flushSieves s (fun j _ => decide (j = k))
  { s with pkg := { s.pkg with pantry := s.pkg.pantry.filter (fun p => decide (p.1 / 1024 ≠ k)) } }

/-- A slice of kinds 1 to 4 starts. -/
def startSlice (s : State) (d : Nat) (t : Taster) (kind unit : Nat) (requested : Bool) : State :=
  let m := decide (kind = 1) && moduleCluster s d unit
  let step := match runningId s with | some id => some (getC s id).step | none => none
  let t := { t with slice := some (kind, unit, bit m + 2 * bit requested), last := some s.ptpNs,
                    lastStep := if m then step else t.lastStep }
  let s := incr (setTaster s d t) 0xA00400 1
  let s := if kind = 2 then flushSlice s (32 * d + unit) else s
  countEvent s (fun c => { c with evSlices := c.evSlices + 1 })

/-- A request leaves the queue and starts. -/
def startRequest (s : State) (d : Nat) (t : Taster) (q : TasterReq) : State :=
  let t := { t with reqs := t.reqs.filter (fun x => !decide (x.kind = q.kind ∧ x.unit = q.unit)) }
  match q.kind with
  | 5 => startDrain (setTaster s d t) (4 * (d - 30) + q.unit)
  | 6 => wr { setTaster s d t with pkg := { (setTaster s d t).pkg with full := s.pkg.full ++ [d] } } 0xA00900 (d + 256)
  | _ => startSlice s d t q.kind q.unit true

/-- TASTER_SLICE_START: requests first, in arrival order, then the sweep; an item that cannot run yet is passed over. -/
def execTasterSliceStart (d : Die) (s : State) : Out :=
  .next (
    let t := getTaster s d.val
    let early := match t.last with
      | some x => decide (s.ptpNs < x + tasterInterval s t)
      | none => false
    if t.slice.isSome then s
    else match t.reqs.find? (fun q => (decide (5 ≤ q.kind) || !early) && mayTaste s d.val t q.kind q.unit) with
      | some q => startRequest s d.val t q
      | none =>
        if early = true ∨ rd s 0xA00100 = 0 then s
        else match nextSweep s d.val t with
          | none => s
          | some i =>
            startSlice s d.val (sweepAfter s d.val t i) (sweepItem d.val i).1 (sweepItem d.val i).2 false)

/-! ### Retirement (R396 to R399, R405, R406) -/

/-- A SLICE record (class 0x0A), whose SEQ TASTER_SWEEP reports. -/
def sliceRecord (s : State) (d unit : Nat) : State :=
  let t := getTaster s d
  let s := setTaster s d { t with lastFail := rd s 0x100400 }
  logFault s d 0x0A unit 0x0A01 (eventCtx s) (match runningId s with | some id => (getC s id).step | none => 0) 0

/-- A Pantry way is retired; a third failing way of one slice degrades the die. -/
def retireWay (s : State) (d slice way : Nat) : State :=
  let f := getFuses s d
  if (slice, way) ∈ f.ways then s
  else
    let n := (f.ways.filter (fun w => decide (w.1 = slice))).length
    let s := setFuses s d { f with ways := f.ways ++ [(slice, way)] }
    if 2 ≤ n then degradeDie s d else logFault s d 0x0B 0x200 0x0A04 0xFFFF 0 0

/-- A stack page is remapped with its contents; with no spare page left the die degrades. -/
def retirePage (s : State) (d : Nat) : State :=
  if remapped s (d - 8) < sparePages then
    let s := logFault (incr s (0xA00801 + (d - 8)) 1) d 0x0B 0x200 0x0A05 0xFFFF 0 0
    if remapped s (d - 8) < sparePages then s else degradeDie s d
  else degradeDie s d

/-- A physical cluster has failed while no module needs it: a mapped one is swapped. -/
def retireCluster (s : State) (d p : Nat) (fence : Bool) : State :=
  match unitOf s d p with
  | none => markFailed s d p
  | some u => if fence then failCluster s (500 * d + u) else applySwap (markFailed s d p) (500 * d + u)

/-- A solver column passes a requested slice or a full test: its half returns to IDLE once all 16 have, its resident area
zero. -/
def columnPassed (s : State) (h col : Nat) : State :=
  let cols := addOnce (tget [] s.solv.colsPassed h) (col % 16)
  let s := { s with solv := { s.solv with colsPassed := tset [] s.solv.colsPassed h cols } }
  if halfState s h = 2 ∧ cols.length = 16 then
    let s := { s with solv := { s.solv with colsPassed := tset [] s.solv.colsPassed h [] } }
    clearResident (wr s (0x601201 + h) 0) 0 h
  else s

/-- A solver column fails: its half is OFFLINE, and the tests it has passed count no more. -/
def columnFailed (s : State) (h : Nat) : State :=
  faultHalf { s with solv := { s.solv with colsPassed := tset [] s.solv.colsPassed h [] } } h 0x23

/-- The unit that a slice's record names. -/
def sliceUnit (s : State) (d kind unit : Nat) : Nat :=
  match kind with
  | 1 => (unitOf s d unit).getD 0x200
  | 4 => unit / 16
  | _ => 0x200

/-- A slice has passed. -/
def slicePassed (s : State) (d kind unit flags : Nat) : State :=
  match kind with
  | 1 =>
    let f := getFuses s d
    if (unitOf s d unit).isNone && decide (unit ∉ f.failed) then setFuses s d { f with tested := addOnce f.tested unit } else s
  | 4 => if 2 ≤ flags then columnPassed s (columnHalf d unit) unit else s
  | _ => s

/-- A slice has failed (Table 17.4); `failing` lists the ways or pages. -/
def sliceFailed (s : State) (d kind unit flags : Nat) (failing : List Nat) : State :=
  let s := sliceRecord (incr s 0xA00401 1) d (sliceUnit s d kind unit)
  match kind with
  | 1 =>
    if flags % 2 = 1 then
      let s := match runningId s with | some id => haltCtx s id 0x0106 none | none => s
      retireCluster s d unit true
    else retireCluster s d unit true
  | 2 => failing.foldl (fun s w => retireWay s d unit (w % 16)) s
  | 3 => failing.foldl (fun s _ => retirePage s d) s
  | 4 => columnFailed s (columnHalf d unit)
  | _ => s

/-- A slice ends: the unit is restored and released, or the failure is acted upon. -/
def sliceEnds (d : Die) (pass : Bool) (failing : List Nat) (s : State) : State :=
  let t := getTaster s d.val
  match t.slice with
  | none => s
  | some (kind, unit, flags) =>
    let s := startAll (setTaster s d.val { t with slice := none })
    if pass then slicePassed s d.val kind unit flags else sliceFailed s d.val kind unit flags failing

/-! ### Full tests (R406, R411, R427) -/

/-- Units that failed a die's full test are retired: kind and number, where a way is slice × 16 + way. -/
def retireUnits (s : State) (d : Nat) (failing : List (Nat × Nat)) : State :=
  let s := if failing = [] then s else sliceRecord s d 0x200
  let s := failing.foldl (fun s u => if u.1 = 1 ∧ d < 8 ∧ u.2 < 512 then markFailed s d u.2 else s) s
  failing.foldl (fun s u =>
    match u.1 with
    | 1 => if d < 8 ∧ u.2 < 512 then retireCluster s d u.2 false else s
    | 2 => if d < 8 ∧ u.2 < 512 then retireWay s d (u.2 / 16) (u.2 % 16) else s
    | 3 => if 8 ≤ d ∧ d < 24 then retirePage s d else s
    | _ => s) s

/-- A solver die's columns after a full test: each half that failed none returns to service. -/
def testColumns (s : State) (d : Nat) (failing : List Nat) : State :=
  (List.range 2).foldl (fun s i =>
    let h := 2 * (d - 28) + i
    if failing.any (fun c => decide (c / 16 = i)) then columnFailed s h
    else (List.range 16).foldl (fun s c => columnPassed s h c) s) s

/-- The spares of a compute die that a full test has not failed are tested. -/
def testSpares (s : State) (d : Nat) : State :=
  let f := getFuses s d
  setFuses s d { f with tested := (List.range 512).filter (fun p => (unitOf s d p).isNone && decide (p ∉ f.failed)) }

/-- What a full test of a die leaves. -/
def fullTested (s : State) (d : Nat) (failing : List (Nat × Nat)) : State :=
  if d < 8 then
    testSpares (retireUnits s d failing) d
  else if 28 ≤ d ∧ d < 30 then
    testColumns (retireUnits s d failing) d ((failing.filter (fun u => decide (u.1 = 4))).map (fun u => u.2))
  else retireUnits s d failing

/-- FULL_TEST_DONE. -/
def execFullTestDone (d : Die) (failing : List (Nat × Nat)) (ms : BitVec 32) (s : State) : Out :=
  .next (
    if d.val ∉ s.pkg.full then s
    else
      let s := { s with pkg := { s.pkg with full := s.pkg.full.filter (fun x => decide (x ≠ d.val)) } }
      let s := if failing = [] then s else incr s 0xA00401 1
      wr (fullTested s d.val failing) 0xA00900 (d.val + (if failing = [] then 2 else 3) * 256 + ms.toNat * 2 ^ 32))

end Sys2Proof.Machine
end

