-- ==== Sys2Proof/Machine/Power.lean ====
section
/-! DEFINITION. Power, clocks and bring-up (R388 to R390, R414 to R433, R449): the brown-out record, resets and what they
keep, Wened's guaranteed operations, the stages of a cold start, the governor, the operating point, trips. -/

namespace Sys2Proof.Machine

open Sys2Proof

/-! ### Device-wide counters (R424, R429) -/

/-- Counting entries of authority O, in index order. -/
def counterKeys : List Nat :=
  [0x100701, 0x100900, 0x100901, 0x101200] ++ (List.range 7).map (0x102200 + ·) ++ [0x102300]
    ++ (List.range 17).map (0x300501 + ·) ++ (List.range 32).map (0x401200 + ·) ++ (List.range 4).map (0x406000 + ·)
    ++ [0x407301, 0x407302, 0x407401, 0x407402, 0x408300, 0x408301, 0x501002, 0x605001, 0x605002, 0x705000, 0x900202,
        0xA00400, 0xA00401]

/-- Counters as the brown-out record takes them: those of Table 18.8 with SAG_COUNT, THERMAL_TRIPS and PAGES_REMAPPED. -/
def recordKeys : List Nat :=
  (counterKeys.filter (· < 0x200000)) ++ [0x200500, 0x200929] ++ counterKeys.filter (fun k => decide (0x200000 ≤ k))
    ++ (List.range 16).map (0xA00801 + ·)

/-- A counter's value; SIEVE_FULL_US is held in ticks. -/
def counterVal (s : State) (k : Nat) : Nat := if k = 0x407302 then ticksToUs (rd s k) else rd s k

/-- COUNTER_SNAPSHOT. -/
def execCounterSnapshot (s : State) : Out :=
  .next { s with wen := { s.wen with counters := recordKeys.map (counterVal s) } }

/-- UPTIME_S. -/
def uptime (s : State) : Nat := (((s.ptpNs : Int) - s.wen.bootNs) / 1000000000).toNat

/-! ### The brown-out record (R424, R425, Table 18.4) -/

/-- A fault record's bytes (Table 16.9). -/
def faultBytes (r : FaultRec) : List Byte :=
  natLe 8 r.time ++ natLe 4 r.seq ++ natLe 1 r.die ++ natLe 1 r.cls ++ natLe 2 r.unit ++ natLe 2 r.code ++ natLe 2 r.context
    ++ natLe 4 r.step ++ natLe 8 0 ++ natLe 32 r.detail.toNat

/-- The newest of some records that fit in `n` bytes. -/
def newestRecs (n : Nat) (rs : List ReplayRec) : List ReplayRec :=
  (rs.reverse.foldl (fun (a : Nat × Bool × List ReplayRec) r =>
    if a.2.1 && decide (a.1 + recSize r ≤ n) then (a.1 + recSize r, true, r :: a.2.2) else (a.1, false, a.2.2)) (0, true, [])).2.2

/-- The REPLAY section: the newest 4 MiB of records not yet acknowledged by the sink. -/
def replaySection (s : State) : List Byte :=
  let rs := newestRecs 4194304 (s.ckpt.rout.flatten ++ s.ckpt.rbuf)
  natLe 4 (rd s 0x900200) ++ natLe 4 ((rs.head?.map (·.seq)).getD 0) ++ natLe 4 rs.length ++ natLe 4 (recsSize rs)
    ++ rs.flatMap replayBytes

/-- The FABRIC section. -/
def fabricSection (s : State) : List Byte :=
  natLe 2 (rd s 0x400100) ++ natLe 2 0 ++ natLe 4 (rd s 0x400300) ++ natLe 4 (rd s 0x400200)
    ++ (List.range 32).map (fun p => BitVec.ofNat 8 (portState s p))
    ++ (List.range 8).map (fun k => BitVec.ofNat 8 (rd s (0x405000 + k))) ++ natLe 1 (bypassState s)

/-- The record of what Wened can read now. -/
def captureBrown (s : State) (cause : Nat) : Brownout :=
  { valid := true, cause := cause, seq := s.wen.saves + 1, time := s.ptpNs, uptime := uptime s,
    ckpt := (liveIds s).map (fun id => (id, (getC s id).rank, rd s 0x800100, erd (getC s id) 0x801001, rd s 0x800301)),
    replay := replaySection s, fabric := (fabricSection s).map (fun b => b.toNat), faults := s.pkg.faults,
    plant := ((List.range 256).filter (fun n => decide (psState s n ≠ 0))).map (fun n =>
      (n, psState s n, (getP s n).period, (getP s n).lastPayload)),
    counters := s.wen.counters }

/-- A record's bytes from 0x00_1000 on. -/
def brownBody (b : Brownout) : List Byte :=
  padTo (4096 * 128) (b.ckpt.flatMap (fun x => padTo 128 (natLe 2 x.1 ++ natLe 2 0 ++ natLe 4 x.2.1 ++ natLe 8 x.2.2.1
      ++ natLe 72 x.2.2.2.1 ++ natLe 16 x.2.2.2.2)))
    ++ padTo 0x401000 b.replay ++ padTo 4096 (b.fabric.map (BitVec.ofNat 8)) ++ padTo 65536 (b.faults.flatMap faultBytes)
    ++ (List.range 256).flatMap (fun n => padTo 2048 (match b.plant.find? (fun p => decide (p.1 = n)) with
        | some p => natLe 1 p.2.1 ++ natLe 7 0 ++ natLe 8 p.2.2.1 ++ natLe 4 p.2.2.2.length ++ natLe 4 0 ++ p.2.2.2
        | none => []))
    ++ padTo 65536 (b.counters.flatMap (natLe 8))

/-- BROWNOUT_LAST. -/
def brownBytes (b : Brownout) : List Byte :=
  padTo 0xFC0 (natLe 4 0x54524F42 ++ natLe 2 1 ++ natLe 1 b.cause ++ natLe 1 0 ++ natLe 4 b.seq ++ natLe 8 b.time
    ++ natLe 4 b.uptime) ++ sha512Bytes (brownBody b) ++ brownBody b

/-- The newest valid record. -/
def newestBrown (s : State) : Option Brownout := (s.wen.brown.filter (fun b => b.valid)).getLast?

/-- The header of a record is committed: it takes the older of the two slots. -/
def commitBrown (s : State) : State :=
  match s.wen.saving with
  | none => s
  | some b =>
    let s := { s with wen := { s.wen with saving := none, saves := s.wen.saves + 1,
                                          brown := (s.wen.brown ++ [b]).drop ((s.wen.brown.length + 1) - 2) } }
    bumpSnap (bumpSnap s 0x200501) 0x200502

/-! ### What a reset keeps (R376, R429, Table 18.8) -/

/-- Whether an entry keeps its value across a reset: the entries whose rule keeps them, what is sensed, OFFLINE halves, and,
across a warm reset, the device-wide counters, BUDDY_PARTNER, the translation cache and the strap's two entries, which only a cold start
samples (R189). -/
def keepsEntry (warm : Bool) (k v : Nat) : Bool :=
  (match entryOf k with | some e => e.kept | none => false)
    || decide (k = 0x200200 ∨ k = 0x200201 ∨ (0x200701 ≤ k ∧ k ≤ 0x200728) ∨ k = 0x200800 ∨ k = 0x20092A ∨ k = 0x404000)
    || decide (0x601201 ≤ k ∧ k ≤ 0x601204 ∧ v = 2)
    || (warm && decide (k ∈ counterKeys ∨ k = 0x800201 ∨ k = 0x501001 ∨ k = 0x602000 ∨ k = 0x602001))

/-- Every other entry returns to its default. -/
def resetEntries (s : State) (warm : Bool) : State :=
  s.ent.foldl (fun s p => if keepsEntry warm p.1 p.2 then s else wr s p.1 (entryDefault p.1)) s

/-- What the dies hold is lost: contexts, solver work, plant streams, command streams, fabric and checkpoint state. Management
streams stay (log entry 30), and so do the stewards with their queues, and the ring's breaks (R20). A warm reset keeps the buddy slot, and OFFLINE halves with the tests they have passed. -/
def loseDies (s : State) (warm : Bool) : State :=
  let s := wr (wr s 0x703000 0) 0x703001 0xFFFF
  let s := (List.range 256).foldl (fun s n => wr s (0xC01E00 + n) 0) s
  let s := (List.range 32).foldl (fun s p => if portState s p = 0 then s else setPort s p 1) (wr s 0x102001 0)
  let s := (List.range 4).foldl (fun s h => if halfState s h = 2 then s else wr s (0x601201 + h) 0) s
  { s with
    ctxs := [], plants := [],
    solv := { SolvState.reset with colsPassed := if warm then s.solv.colsPassed else [] },
    eth := { EthState.reset with mstreams := s.eth.mstreams, out := s.eth.out },
    fab := { FabState.reset with moving := s.fab.moving },
    ckpt := { CkptState.reset with buddy := if warm then s.ckpt.buddy else BuddySlot.empty },
    wen := { s.wen with quotePending := [], seg := none, staged := none, ckptKey := 0 },
    pkg := { PkgState.reset with
      stew := s.pkg.stew, lostBit := s.pkg.lostBit, breaks := s.pkg.breaks,
      faults := s.pkg.faults, reports := s.pkg.reports, notes := s.pkg.notes, fuses := s.pkg.fuses,
      tasters := if warm then s.pkg.tasters.map (fun p => (p.1, { p.2 with reqs := [], slice := none, last := none, lastStep := none }))
        else [],
      waitCool := s.pkg.waitCool, pllLost := s.pkg.pllLost, xcache := if warm then s.pkg.xcache else [],
      sysKeys := if warm then s.pkg.sysKeys else none, sysPages := if warm then s.pkg.sysPages else [], serials := s.pkg.serials } }

/-- Every die but MD that is not FAILED takes a state. -/
def setDies (s : State) (v : Nat) : State :=
  (List.range 39).foldl (fun s d => if dieState s d = 5 then s else setDie s d v) s

/-- Every die but MD is held in reset through its line. -/
def holdDies (s : State) : State := holdLines (setDies s 1)

/-- Dies that neither lane of the ring reaches are FAILED, held in reset, also after a reset (R22). -/
def keepCutOff (s : State) : State := (cutOff s).foldl (fun s d => setDie s d 5) (senseRing s)

/-! ### Starting up -/

/-- The strap is sampled (R189, R386). -/
def sampleStrap (s : State) : State :=
  wr (wr s 0x602001 (bit s.wen.compatPin)) 0x602000 (if s.wen.compatPin then 15 else 0)

/-- The memory keys of the runtime and of the buddy slot: 512 fresh bits each, at every cold start (R154). -/
def drawSysKeys (s : State) : State :=
  let a := drawNat s
  let b := drawNat a.2
  { b.2 with pkg := { b.2.pkg with sysKeys := some (a.1 % 2 ^ 512, b.1 % 2 ^ 512) } }

/-- A cold start begins at a stage: at stage 1 where the dies have to cool first (R449). The ROM finishes a ZEROISE or
DECOMMISSION whose marker is set (R390). -/
def beginCold (s : State) (stage cause : Nat) : State :=
  let s := loseDies s false
  let s := match s.wen.marker with
    | none => s
    | some d => let s := destroyKeys s; if d then destroyIdentity s else s
  let s := resetEntries s false
  let s := (List.range 40).foldl (fun s d => setDie s d (if stage = 1 then 0 else 1)) s
  let s := keepCutOff (holdLines (if stage = 1 then setPower s [] else s))
  let s := drawSysKeys s
  let s := { s with
    pkg := { s.pkg with faults := ((newestBrown s).map (fun b => b.faults)).getD [], pllLost := [] },
    wen := { s.wen with mrs := [0, 0, 0, 0], quoteO := 0, window := false, debug := false, rbOverridden := false, warm := false,
                        heldSag := false, bootNs := s.ptpNs, marker := none, counters := [], can := none,
                        canTx := [] } }
  wr (wr (sampleStrap s) 0x100301 cause) 0x200600 (if s.pkg.waitCool then 1 else stage)

/-- A warm reset begins at stage 3 (R430). -/
def beginWarm (s : State) (cause : Nat) : State :=
  let s := senseRing (resetEntries (loseDies s true) true)
  let s := setDie (holdDies s) 39 2
  let s := { s with wen := { s.wen with warm := true } }
  wr (wr (wr s 0x100301 cause) 0x100300 1) 0x200600 3

/-! ### Guaranteed operations (R388, R389) -/

/-- Rank in the order of R389. -/
def opRank : GuarOp → Nat
  | .save => 3 | .powerDown => 4 | .coldReset _ => 5 | .warmReset _ => 6 | .rst => 8

/-- Whether an operation includes a lower one: a sag's cold start follows its save, and a cold reset resets all that a warm
one does. -/
def opIncludes : GuarOp → GuarOp → Bool
  | .save, .coldReset _ => true
  | .save, .warmReset _ => true
  | .save, .save => true
  | .powerDown, .powerDown => true
  | .coldReset _, .coldReset _ => true
  | .coldReset _, .warmReset _ => true
  | .warmReset _, .warmReset _ => true
  | .rst, .rst => true
  | _, _ => false

/-- RESET_CAUSE that follows an operation, as its record names it; a power-down's is read as a cold command. -/
def opCause : GuarOp → Nat
  | .save => 4 | .powerDown => 3 | .coldReset c => c | .warmReset c => c | .rst => 1

/-- An operation starts: the dies are held, the by-passes close, and a record is captured, unless the ZEROISE marker is set or
a sag comes before stage 2 has ended (R390, R428). -/
def startOp (s : State) (op : GuarOp) (rest : List GuarOp) : State :=
  let skip := s.wen.marker.isSome || (decide (op = .save) && decide (rd s 0x200600 ≤ 2))
  let rec' := captureBrown s (opCause op)
  let warm := match op with | .warmReset _ => true | _ => false
  let s := bypassClose (loseDies (holdDies s) warm)
  { s with wen := { s.wen with guar := op :: rest, saving := if skip then none else some rec' } }

/-- What an operation leaves once its record is written. With RST_N low the dies stay held. -/
def finishOp (s : State) (op : GuarOp) : State :=
  match op with
  | .save => wr { s with wen := { s.wen with heldSag := true } } 0x100300 4
  | .powerDown => wr (setPower (holdLines (setDies s 0)) []) 0x100300 4
  | .coldReset c => if s.wen.rstLow then s else beginCold s 2 c
  | .warmReset c => if s.wen.rstLow then s else beginWarm s c
  | .rst => beginCold s 2 1

/-- The next operation that waits starts. -/
def nextOp (s : State) : State :=
  match s.wen.guar with
  | [] => s
  | .rst :: rest => beginCold { s with wen := { s.wen with guar := rest } } 2 1
  | op :: rest => startOp s op rest

/-- An operation is asked for. In HELD after a sag every one is dropped but a power-down, and after a power-down only a cold
reset acts. -/
def requestOp (s : State) (op : GuarOp) : State :=
  match s.wen.guar with
  | cur :: rest =>
    if opRank op < opRank cur then startOp s op (rest.filter (fun x => !opIncludes op x))
    else if (cur :: rest).any (fun x => opIncludes x op) then s
    else { s with wen := { s.wen with guar := cur :: rest ++ [op] } }
  | [] =>
    if !s.wen.powered || s.wen.heldSag then s
    else match op with
      | .rst => beginCold s 2 1
      | .warmReset _ => if deviceState s = 4 ∨ deviceState s = 5 then s else startOp s op []
      | .powerDown => if deviceState s = 4 then s else startOp s op []
      | op => startOp s op []

/-- BROWNOUT_SAVE_DONE: the record is written, and the operation in progress ends. -/
def execBrownoutSaveDone (s : State) : Out :=
  .next (
    match s.wen.guar with
    | [] => s
    | op :: rest =>
      let s := commitBrown s
      nextOp (finishOp { s with wen := { s.wen with guar := rest } } op))

/-- WENED_CMD and SERVICE_CMD. -/
def wenedCmd (s : State) (k v : Nat) (service : Bool) : Except Nat State :=
  match v with
  | 1 => .ok (requestOp (bumpSnap s k) (.warmReset (if service then 6 else 2)))
  | 2 => .ok (requestOp (bumpSnap s k) (.coldReset (if service then 6 else 3)))
  | 3 => .ok (requestOp (bumpSnap s k) .powerDown)
  | 4 => if service then .ok (bypassClose (bumpSnap s k)) else .error 1
  | _ => .error 1

/-! ### The input (R415, R422, R423, R449) -/

/-- V52_VALID: the input becomes valid. Without power before, a cold start begins at stage 1, with the stewards' queues empty and
both lanes whole until a break is sensed. -/
def execV52Valid (mv : BitVec 32) (s : State) : Out :=
  .next (
    let s' := wr { s with wen := { s.wen with powered := true } } 0x200200 mv.toNat
    if s.wen.powered then s'
    else beginCold { s' with pkg := { s'.pkg with stew := [], lostBit := [], breaks := [] } } 1 0)

/-- SUPPLY_SAG. -/
def execSupplySag (mv : BitVec 32) (s : State) : Out :=
  .next (
    if !s.wen.powered || s.wen.heldSag || s.wen.guar.head? = some .save then s
    else requestOp (logFault (wr s 0x200200 mv.toNat) 39 0x0E 0x200 0x0203 0xFFFF 0 0) .save)

/-- HELD_EXIT: the input has been valid for 100 ms and a cold start follows, or V52_HOLD has reached 36 V and Wened stops. -/
def execHeldExit (valid : Bool) (s : State) : Out :=
  .next (
    if !s.wen.heldSag then s
    else if valid then beginCold (incr s 0x200500 1) 1 4
    else { s with wen := { s.wen with heldSag := false, powered := false } })

/-- POWER_FAULT. -/
def execPowerFault (s : State) : Out :=
  .next (requestOp (logFault s 39 0x0E 0x200 0x0206 (eventCtx s) 0 0) .powerDown)

/-- DIE_TEMP_READING: two consecutive readings above the trip limit start the power-down; a later cold start waits until every
die reads below 85 °C. -/
def execDieTempReading (d : Die) (t : BitVec 16) (s : State) : Out :=
  .next (
    let v := toSigned 16 t.toNat
    let s := wr s (0x200701 + d.val) t.toNat
    let n := if (10 * tripLimit d.val : Int) < v then tget 0 s.pkg.tripped d.val + 1 else 0
    let s := { s with pkg := { s.pkg with tripped := tset 0 s.pkg.tripped d.val n } }
    if n = 2 then
      let s := incr (logFault s d.val 0x08 0x200 0x0207 (eventCtx s) 0 0) 0x200929 1
      requestOp { s with pkg := { s.pkg with waitCool := true } } .powerDown
    else if s.pkg.waitCool && (List.range 40).all (fun x => decide (toSigned 16 (rd s (0x200701 + x)) < 850)) then
      { s with pkg := { s.pkg with waitCool := false } }
    else s)

/-! ### Clocks and RST_N (R370, R371, R419, R440) -/

/-- PLL_LOCK with one bit cleared. -/
def clearPll (s : State) (d : Nat) : State :=
  wr s 0x200800 (rd s 0x200800 - (rd s 0x200800 / 2 ^ d % 2) * 2 ^ d)

/-- WENED_PLL_LOST: Wened runs on its internal oscillator. -/
def execWenedPllLost (s : State) : Out := .next (wr (clearPll s 39) 0x100600 1)

/-- PLL_LOCK_LOST: the job ends as by a unit fault, a DIE record and the brown-out record are written, and every die is held
until every root PLL is locked again; OD0 among them, so both by-passes close (R229). -/
def execPllLockLost (d : Die) (s : State) : Out :=
  .next (
    if d.val = 39 then wr (clearPll s 39) 0x100600 1
    else if s.wen.guar ≠ [] ∨ !s.wen.powered ∨ deviceState s = 4 then clearPll s d.val
    else
      let s := logFault (clearPll (stopModules s 0x0106) d.val) d.val 0x0C 0x200 0x0204 (eventCtx s) 0 0
      let first := s.pkg.pllLost.isEmpty && s.wen.marker.isNone
      let s := if first then commitBrown { s with wen := { s.wen with saving := some (captureBrown s 3) } } else s
      let s := { s with pkg := { s.pkg with pllLost := addOnce s.pkg.pllLost d.val } }
      bypassClose (loseDies (holdDies s) false))

/-- PLL_LOCK_STABLE: every root PLL has stayed locked for 100 ms, and the cold reset follows. -/
def execPllLockStable (s : State) : Out :=
  .next (
    if s.pkg.pllLost = [] ∨ s.wen.guar ≠ [] then s
    else beginCold { s with pkg := { s.pkg with pllLost := [] } } 2 3)

/-- WATCHDOG_EXPIRY: by-passes, reset lines, RESET_CAUSE, cold start; no brown-out record. The DIE record's CODE is free. -/
def execWatchdogExpiry (s : State) : Out :=
  .next (
    if !s.wen.powered || s.wen.heldSag then s
    else
      let s := beginCold (bypassClose { s with wen := { s.wen with guar := [], saving := none } }) 2 5
      logFault (drawNat s).2 39 0x0C 0x200 ((drawNat s).1 % 65536) 0xFFFF 0 0)

/-- RST_N_ASSERT: the dies are held and the by-passes close; a guaranteed operation in progress completes first. -/
def execRstNAssert (s : State) : Out :=
  .next (
    let s' := { s with wen := { s.wen with rstLow := true } }
    if s.wen.rstLow = true ∨ s.wen.guar ≠ [] ∨ !s.wen.powered ∨ s.wen.heldSag = true then s'
    else if deviceState s = 4 then bypassClose s'
    else bypassClose (loseDies (holdDies s') false))

/-- RST_N_RELEASE: a cold start from stage 2. A start that still stands in stage 1 goes on there. -/
def execRstNRelease (s : State) : Out :=
  .next (
    let s' := { s with wen := { s.wen with rstLow := false } }
    if !s.wen.rstLow || !s.wen.powered then s'
    else if s.wen.guar = [] ∧ rd s 0x200600 = 1 ∧ deviceState s = 0 then s'
    else requestOp s' .rst)

/-! ### Bring-up (R417, R426 to R428, R430) -/

/-- A number with `n` bytes at byte `off` replaced. -/
def putField (v off n x : Nat) : Nat :=
  v - (v / 2 ^ (8 * off) % 2 ^ (8 * n)) * 2 ^ (8 * off) + (x % 2 ^ (8 * n)) * 2 ^ (8 * off)

/-- BRINGUP_STAGE. -/
def stageNow (s : State) : Nat := rd s 0x200600

/-- Whether bring-up is under way and not held. -/
def bringing (s : State) : Bool :=
  s.wen.powered && s.wen.guar.isEmpty && !s.wen.rstLow && s.pkg.pllLost.isEmpty && decide (deviceState s ≤ 1)
    && decide (1 ≤ stageNow s ∧ stageNow s ≤ 7)

/-- Stage 1: the hold-up check. V52_HOLD reads at least 46 V, by a measured value. -/
def stagePower (s : State) (uf mohm : Nat) : State :=
  let ok := decide (2200 ≤ uf ∧ mohm ≤ 25)
  let r := drawNat (wr (wr (wr s 0x200300 uf) 0x200301 mohm) 0x200302 (bit ok))
  let s := wr r.2 0x200201 (46000 + r.1 % 10001)
  if ok then s else logFault s 39 0x0E 0x200 0x0202 0xFFFF 0 0

/-- Stage 2: the Wened image. When both slots fail, Wened enters RECOVERY. -/
def stageBoot (s : State) (images : List FwImage) : State :=
  let b := bootType s 39 0 images
  match b.2 with
  | none => wr b.1 0x100300 5
  | some img => wr (wr (advanceCounters (setDie (measureImage b.1 0 img) 39 2) 39) 0x100300 1) 0x200600 3

/-- Stage 3: the other dies are powered, boot and leave reset, and the class is set; a cold start goes on to the self-test. -/
def stageDies (s : State) (images : List FwImage) : State :=
  let s := setPower (wr (holdDies s) 0x200800 (2 ^ 40 - 1)) (List.range 40)
  let s := releaseDies (setClass (bootDies s images))
  if s.wen.warm then wr s 0x200600 5 else wr (setDies s 3) 0x200600 4

/-- Units that a die failed in the self-test, by kind and number. -/
def failedUnits (failing : List Nat) (d : Nat) : List (Nat × Nat) :=
  (failing.filter (fun m => decide (m / 1024 = d))).map (fun m =>
    let u := m % 1024
    if d < 8 then (if u < 512 then (1, u) else (2, u - 512)) else if d < 24 then (3, u) else if 28 ≤ d ∧ d < 30 then (4, u) else (0, u))

/-- Stage 4: every die's full test. A die without units to retire that fails is FAILED. -/
def stageTest (s : State) (failing : List Nat) : State :=
  let s := (List.range 39).foldl (fun s d =>
    let f := failedUnits failing d
    if dieState s d = 5 then s
    else if f.any (fun u => decide (u.1 = 0)) then dieFail s d
    else fullTested s d f) s
  wr s 0x200600 5

/-- Stage 5: memory is ready and the dies serve. -/
def stageMemory (s : State) : State :=
  let s := (List.range 39).foldl (fun s d =>
    if dieState s d = 5 then s else advanceCounters (setDie s d (returnState s d)) d) s
  let s := (List.range 32).foldl (fun s p =>
    if portState s p = 0 ∨ dieState s (30 + p / 4) = 5 then s else portTrain s p) s
  wr s 0x200600 6

/-- Stage 6: a port that has not trained is DOWN. -/
def stageLinks (s : State) : State :=
  wr ((List.range 32).foldl (fun s p => if portState s p = 2 then portDown s p else s) s) 0x200600 7

/-- DEVICE_STATE at the end of bring-up. -/
def readyState (s : State) : Nat :=
  if !s.wen.idKeys then 6
  else if (List.range 39).any (fun d => decide (dieState s d = 4) || decide (dieState s d = 5 ∧ (d < 24 ∨ d = 38))) then 3
  else 2

/-- Stage 7: the quote with a zero nonce, the access tables, and a scrub that waited for power. -/
def stageReady (s : State) : State :=
  let s := signQuote s none 0
  let s := wr (wr { s with pkg := { s.pkg with access := accessReset }, wen := { s.wen with warm := false } } 0x100300 (readyState s)) 0x200600 8
  if s.wen.scrubDue then scrubStart { s with wen := { s.wen with scrubDue := false } } else s

/-- BRINGUP_STAGE_COMPLETE. Stage 1 does not end while a die is hot (R449). -/
def execBringupStageComplete (ms : BitVec 32) (uf mohm : BitVec 16) (failing : List Nat) (images : List FwImage) (s : State) : Out :=
  .next (
    if !bringing s then s
    else
      let s' := wr s 0x200601 (putField (rd s 0x200601) (4 * (stageNow s - 1)) 4 ms.toNat)
      match stageNow s with
      | 1 => if s.pkg.waitCool then s else wr (stagePower s' uf.toNat mohm.toNat) 0x200600 2
      | 2 => stageBoot s' images
      | 3 => stageDies s' images
      | 4 => stageTest s' failing
      | 5 => stageMemory s'
      | 6 => stageLinks s'
      | 7 => stageReady s'
      | _ => s)

/-- BRINGUP_TIMEOUT: the die is FAILED, with its DIE record. -/
def execBringupTimeout (d : Die) (s : State) : Out :=
  .next (
    if !bringing s || decide (dieState s d.val = 5 ∨ d.val = 39) then s
    else
      let s := holdReset (setDie s d.val 5) d.val
      dieLost (logFault s d.val 0x0C 0x200 0x0205 0xFFFF 0 0) d.val)

/-! ### Operating point and governor (R420, R421) -/

/-- OP_TARGET. -/
def opTargetWrite (s : State) (v : Nat) : Except Nat State :=
  if 2 < v then .error 1
  else if s.pkg.opNext.isSome then .error 0x0201
  else if !plantsFit s (if v = 0 then 210 else if v = 1 then 240 else 280) then .error 0x0C04
  else .ok { wrHost s 0x200101 v with pkg := { s.pkg with opNext := some (v, false) } }

/-- SYNTH_LOCKED: each solver target switches, at once or between problems; then the change waits for its fence, the running module's next step point, or takes effect at once. -/
def execSynthLocked (s : State) : Out :=
  .next (
    match s.pkg.opNext with
    | some (v, false) =>
      settleOp (switchTargets { s with pkg := { s.pkg with opNext := some (v, true) } })
    | _ => s)

/-- POWER_CAP_W. -/
def powerCapWrite (s : State) (v : Nat) : Except Nat State :=
  if v < 500 ∨ opCap (rd s 0x200100) < v then .error 1 else .ok (wrHost s 0x200102 v)

/-- GOVERNOR_SAMPLE, every 10 µs: the 1 ms mean, over windows that start filled at the cap, and the mean of each whole PTP
second, to the nearest 10 W (R361). -/
def execGovernorSample (watts : Nat) (s : State) : Out :=
  .next (
    let win := s.pkg.govWin ++ [watts]
    let win := win.drop (win.length - 100)
    let mean := (win.foldl (· + ·) 0 + (100 - win.length) * rd s 0x200102) / 100
    let sec := s.ptpNs / 1000000000
    let c := s.pkg.coarse
    let s := wr s 0x200202 mean
    let s := if sec ≠ s.pkg.ptpSec ∧ c.2 ≠ 0 then wr s 0xB00100 ((2 * c.1 + 10 * c.2) / (20 * c.2) * 10) else s
    { s with pkg := { s.pkg with govWin := win, ptpSec := sec,
                                 coarse := if sec = s.pkg.ptpSec then (c.1 + watts, c.2 + 1) else (watts, 1) } })

/-- GOVERNOR_DUTY_UPDATE, every 100 µs: d of every 16 cycles. The time with d < 16 counts for the running context, in
ticks. -/
def execGovernorDutyUpdate (d : Fin 16) (s : State) : Out :=
  .next (
    let s' := if rd s 0x200401 < 16 then
        match runningId s with
        | some id => modC s id (fun c => eincr c 0x200400 (100000 * ticksPerNs))
        | none => s
      else s
    wr s' 0x200401 (d.val + 1))

/-! ### Quiesce fences (R23) -/

/-- A module has stopped: its workers halt where they stand, and a HALT that asked for it completes (R297). -/
def applyHalt (s : State) (id code : Nat) (stream : Option Nat) : State :=
  let stop := fun (k : Worker) =>
    { k with run := if k.run = .ended then .ended else .halted code, wait := none, gq := [], gf := [], wf := [], stopped := none }
  let s := modC s id (fun c => { accountRun s c with
    workers := c.workers.map (fun p => (p.1, stop p.2)), coll := none, collIn := [], modState := .halted code })
  let s := match stream with
    | none => s
    | some st =>
      let bs := s.eth.busy.filter (fun (b : BusyCmd) => decide (b.mgmt = false ∧ b.stream = st))
      let s := { s with eth := { s.eth with busy := s.eth.busy.filter (fun (b : BusyCmd) => !decide (b.mgmt = false ∧ b.stream = st)) } }
      endBusy s bs 0 0
  let s := settleOp s
  match s.pkg.switchTo with
  | some (t, 0) => { s with pkg := { s.pkg with switchTo := some (t, 1) } }
  | _ => s

/-- Sieve entries of the pages that a fence's change affects: those of a module that halts, and those of a page that moves (R255). -/
def fenceEntry (f : FenceAct) (e : SieveEnt) : Bool :=
  match f with
  | .haltCtx id _ _ => decide (e.ctx = id)
  | .pageRemap _ ctx p => decide (e.ctx = ctx ∧ e.line / pageBytes = p)
  | _ => false

/-- The oldest fence ends once the ops issued behind it have completed: its control change is applied, issue resumes,
and the steward reports completion to Wened. Before that nothing changes. -/
def fenceEnds (s : State) : State :=
  match s.pkg.fences with
  | [] => s
  | f :: rest =>
    if !fenceClear s f then s
    else
      let s := flushSieves { s with pkg := { s.pkg with fences := rest, fenceDone := s.pkg.fenceDone ++ [f] } } (fun _ e => fenceEntry f e)
      match f with
      | .routeCommit e table => applyRoutes s e table
      | .spareSwap cl => applySwap s cl
      | .haltCtx id code stream => applyHalt s id code stream
      | .pageRemap stack ctx p => applyRemap s stack ctx p

end Sys2Proof.Machine
end

