-- ==== Sys2Proof/Machine/Dict.lean ====
section
/-! DEFINITION. The object dictionary (R373 to R385): values as they are read, the checks of a request in order, reply records,
segmented writes. What a write does is a parameter; `Writes` gives it for each entry. -/

namespace Sys2Proof.Machine

open Sys2Proof

/-! ### Values -/

/-- Entries that hold a time in ticks of 1/168 ns and report whole microseconds. -/
def tickKeys : List Nat :=
  [0x502003, 0x502004, 0x503003, 0x302000, 0x302005, 0x302008, 0x604002, 0x407101, 0x407302,
   0x801100, 0x200400, 0x408202, 0x408203, 0x408206, 0x408207]

/-- PRESENCE (Table 15.3). PRES_N reads high: a press is one event. -/
def presenceBits (s : State) : Nat := bit s.wen.window + 4 * bit s.wen.ownerEn + 8 * bit s.wen.sealOk

/-- TARGET_BIND of target `num`. -/
def targetBind (c : Context) (num : Nat) : Nat :=
  match c.binds.find? (fun b => decide (b.num = num)) with
  | some b => 0x8000 + b.kind * 0x2000 + b.die * 0x1000 + b.half * 0x800
  | none => 0

/-- BUDDY_STATE. -/
def buddyState (s : State) : List Byte :=
  let b := s.ckpt.buddy
  natLe 4 b.base ++ natLe 4 (b.journal.map (·.gen)).eraseDups.length ++ natLe 8 (b.journal.length * recordBytes)

/-- BROWNOUT_STATE. -/
def brownState (s : State) : List Byte :=
  match newestBrown s with
  | some b => natLe 1 1 ++ natLe 1 b.cause ++ natLe 2 0 ++ natLe 4 b.seq ++ natLe 8 b.time
  | none => natLe 16 0

/-- TASTER_SWEEP of die `d`. -/
def sweepBytes (s : State) (d : Nat) : List Byte :=
  let t := getTaster s d
  natLe 4 (t.passed.head?.getD t.pos) ++ natLe 4 t.sweeps ++ natLe 4 t.lastFail ++ natLe 4 0

/-- WAYS_RETIRED of compute die `d`. -/
def waysBytes (s : State) (d : Nat) : List Byte :=
  (List.range 32).map (fun x => BitVec.ofNat 8 (min 2 ((getFuses s d).ways.filter (fun w => decide (w.1 = x))).length))

/-- FW_SLOT. -/
def slotBytes (x : FwSlot) : List Byte :=
  natLe 1 (bit x.valid) ++ natLe 1 x.svn ++ natLe 2 x.numUcode ++ natLe 4 x.version ++ natLe 64 x.digest

/-- Value of an entry of context `id`, as a number where it is no byte string of its own making. L0_BANK_WAIT_US is a mean of
the workers. L1_BUSY_US counts lines, of which the 256 slices move 409,600 in a microsecond, and L2_BUSY_US bytes, of which the
sixteen stacks move 13,107,200 (R164). -/
def entryNat (s : State) (id k : Nat) : Nat :=
  let c := getC s id
  let perCtx := match entryOf k with | some e => e.perCtx | none => false
  let raw := if perCtx then erd c k else rd s k
  if k ∈ tickKeys then ticksToUs raw
  else if k = 0x801101 ∨ k = 0x302001 then ticksToUs raw / 4000
  else if k = 0x302004 then raw / 409600
  else if k = 0x302007 then raw / 13107200
  else if k = 0x100302 then uptime s
  else if k = 0x702000 then presenceBits s
  else if 0x700300 ≤ k ∧ k ≤ 0x700303 then s.wen.mrs.getD (k - 0x700300) 0
  else if k = 0x700304 then c.mr4
  else if 0x601101 ≤ k ∧ k ≤ 0x601108 then targetBind c (k - 0x601101)
  else if 0xA00201 ≤ k ∧ k ≤ 0xA00228 then (getTaster s (k - 0xA00201)).reqs.length
  else if 0xA00501 ≤ k ∧ k ≤ 0xA00508 then (getFuses s (k - 0xA00501)).tested.length
  else raw

/-- The state that a caller's reads tell of: for a tenant, while a scrub runs, the one at its start (R366). -/
def seenBy (s : State) (tenant : Bool) : State :=
  match tenant, s.pkg.frozen with
  | true, some f =>
    { s with ent := f.ent, snap := f.snap, ptpNs := f.ptpNs,
             wen := { s.wen with mrs := f.mrs, window := f.window, ownerEn := f.ownerEn, sealOk := f.sealOk },
             ctxs := s.ctxs.map (fun (p : Nat × Context) => match f.ctxs.find? (fun x => decide (x.1 = p.1)) with
               | some x => (p.1, { p.2 with ent := x.2.ent, snap := x.2.snap, mr4 := x.2.mr4, quote := x.2.quote, binds := x.2.binds })
               | none => p) }
  | _, _ => s

/-- The bytes of an entry, for a caller of class T (`tenant`) or O. -/
def entryBytes (s : State) (tenant : Bool) (id k size : Nat) : List Byte :=
  let s := seenBy s tenant
  if k = 0x100401 then padTo 65536 (s.pkg.faults.flatMap faultBytes)
  else if 0x103100 ≤ k ∧ k ≤ 0x10310F then slotBytes (getSlot s ((k - 0x103100) / 2) ((k - 0x103100) % 2))
  else if k = 0x200501 then brownState s
  else if k = 0x200502 then padTo 5386240 (match newestBrown s with | some b => brownBytes b | none => [])
  else if k = 0x700401 then natLe 1024 (if tenant then (getC s id).quote else s.wen.quoteO)
  else if k = 0x800202 then buddyState s
  else if k = 0x800402 then padTo 32 (s.ckpt.pending.flatMap (natLe 4))
  else if 0xA00301 ≤ k ∧ k ≤ 0xA00328 then sweepBytes s (k - 0xA00301)
  else if 0xA00601 ≤ k ∧ k ≤ 0xA00608 then (List.range 500).flatMap (fun u => natLe 2 (physOf s (k - 0xA00601) u))
  else if 0xA00701 ≤ k ∧ k ≤ 0xA00708 then waysBytes s (k - 0xA00701)
  else natLe size (entryNat s id k)

/-- A time field of `n` bytes at `off`, in ns, rounded down to whole microseconds. -/
def roundField (bs : List Byte) (off n : Nat) : List Byte :=
  bs.take off ++ natLe n (field bs off n / 1000 * 1000) ++ bs.drop (off + n)

/-- What a tenant reads of an entry (R361). -/
def tenantView (k : Nat) (bs : List Byte) : List Byte :=
  if 0x408100 ≤ k ∧ k ≤ 0x408110 then
    roundField (roundField (roundField (roundField (roundField bs 0x10 8) 0x18 8) 0x28 4) 0x2C 4) 0x30 8
  else if k = 0x900500 then roundField bs 8 8
  else bs

/-- SNAP of an entry (R377). -/
def snapOf (s : State) (tenant : Bool) (id k : Nat) : Nat :=
  let s := seenBy s tenant
  let perCtx := match entryOf k with | some e => e.perCtx | none => false
  if perCtx || (decide (k = 0x700401) && tenant) then tget 0 (getC s id).snap k
  else if k = 0x100302 then (tget 0 s.snap k + uptime s) % 2 ^ 32
  else tget 0 s.snap k

/-! ### Replies (Table 16.3) -/

/-- A reply record. -/
structure Reply where
  result : Nat
  type   : Nat
  total  : Nat
  offset : Nat
  snap   : Nat
  data   : List Byte
  deriving DecidableEq, Repr

/-- The bytes of a reply record. -/
def replyBytes (r : Reply) : List Byte :=
  natLe 2 r.result ++ natLe 1 r.type ++ natLe 1 0 ++ natLe 4 r.total ++ natLe 4 r.offset ++ natLe 4 r.data.length
    ++ natLe 4 r.snap ++ natLe 4 0 ++ r.data

/-- The 16 bytes of DESCRIBE (R380). Entries of authority W and P are kept across a cold start (R376). -/
def describeBytes (e : EDesc) : List Byte :=
  natLe 1 (typeCode e.type) ++ natLe 1 (accessCode e.access) ++ natLe 1 (bit e.expert) ++ natLe 1 (authRank e.auth)
    ++ natLe 4 (typeSize e.type) ++ natLe 1 (bit e.perCtx + 2 * bit (e.kept || decide (2 ≤ authRank e.auth))) ++ natLe 7 0

/-! ### The requester -/

/-- Context of a tenant. -/
def pathCtx (p : Path) : Option Nat := match p with | .tenant id => some id | _ => none

/-- SEL of a record. -/
def recSel (r : DRec) : Bool := decide (r.ctx / 32768 % 2 = 1)

/-- Context ID of a record. -/
def recCtx (r : DRec) : Nat := r.ctx % 4096

/-- FLAGS bit `n` of a record. -/
def recFlag (r : DRec) (n : Nat) : Bool := decide (r.flags / 2 ^ n % 2 = 1)

/-- Key of the entry a record names. -/
def recKey (r : DRec) : Nat := r.index * 256 + r.sub

/-- Length of the record that its own fields call for (R378). -/
def recLen (r : DRec) : Nat := 16 + (if r.op = 2 then (r.length + 7) / 8 * 8 else 0) + (if recFlag r 0 then 520 else 0)

/-- An owner key is enrolled. -/
def ownerEnrolled (s : State) : Bool := decide (rd s 0x701000 ≠ 0)

/-- Whether the authorisation of a record verifies (R349, R379). -/
def authGood (s : State) (r : DRec) : Bool :=
  match r.auth with
  | some a => recFlag r 0 && ownerEnrolled s && a.sigOk && decide (s.wen.ownerSeq < a.seq)
  | none => false

/-- Rank of the authority that a request carries: T 0, O 1, W 2, P 3. -/
def rankOfReq (s : State) (p : Path) (r : DRec) : Nat :=
  match p with
  | .tenant _ => 0
  | .can => 1
  | _ => if authGood s r then (if s.wen.window then 3 else 2) else 1

/-- A P write: presence only without an owner key, else an authorisation and presence (R349, R351). -/
def checkP (s : State) (r : DRec) : Option Nat :=
  if ownerEnrolled s && !recFlag r 0 then some 3
  else if recFlag r 0 && !authGood s r && ownerEnrolled s then some 0x0709
  else if !s.wen.window then some 0x0708
  else none

/-- Whether authority admits a request to an entry (R374, R384). A segment before the last carries no authorisation. -/
def checkAuth (s : State) (p : Path) (r : DRec) (e : EDesc) : Option Nat :=
  let need := authRank e.auth
  let early := recFlag r 1 && !recFlag r 2
  match p with
  | .tenant id =>
    if need ≠ 0 then some 3
    else if 0xC01E00 ≤ recKey r ∧ recKey r ≤ 0xC025FF ∧ psCtx s (recKey r % 256) ≠ id then some 3
    else none
  | .can =>
    if r.op = 2 then (if need ≠ 3 then none else if early then none else checkP s r)
    else if 1 < need then some 3 else none
  | _ =>
    if need = 3 ∧ r.op = 2 then (if early then none else checkP s r)
    else if need ≤ 1 ∧ (r.op ≠ 2 ∨ recFlag r 0 = false) then none
    else if recFlag r 0 = false then some 3
    else if !authGood s r then some 0x0709
    else if rankOfReq s p r < need then some 3
    else none

/-- Access code, CAN FD write rule and expert lock (R374, R376, R384). -/
def checkAccess (s : State) (p : Path) (r : DRec) (e : EDesc) : Option Nat :=
  if r.op = 1 then (if e.access = .wo then some 4 else none)
  else if r.op = 2 then
    if e.access = .const ∨ e.access = .ro then some 4
    else if p = .can ∧ e.auth ≠ .p then some 4
    else if e.expert = true ∧ authRank e.auth ≤ 1 ∧ rd s 0x100800 ≠ 1 then some 4
    else none
  else none

/-- The context selection of R375, in its order. -/
def checkCtx (s : State) (p : Path) (r : DRec) (e : EDesc) : Option Nat :=
  match p with
  | .tenant _ => if recCtx r ≠ 0 then some 1 else none
  | _ =>
    if e.perCtx = true ∧ recSel r = false then some 1
    else if e.perCtx = true ∧ (getC s (recCtx r)).live = false then some 0x0702
    else if e.perCtx = false ∧ recSel r = true then some 1
    else if recSel r = false ∧ recCtx r ≠ 0 then some 1
    else none

/-- Most bytes of a segment (R378). -/
def segmentMax (p : Path) (r : DRec) : Nat :=
  (match p with | .relay _ => 8120 | _ => 8144) - (if recFlag r 0 then 520 else 0)

/-- OFFSET and LENGTH (Table 16.2). -/
def checkRange (r : DRec) (e : EDesc) : Option Nat :=
  let total := typeSize e.type
  if r.op = 1 then (if r.length = 0 ∨ 8144 < r.length ∨ total ≤ r.offset then some 6 else none)
  else if r.op = 2 ∧ recFlag r 1 = false then
    if r.offset ≠ 0 ∨ (recKey r ≠ 0x103010 ∧ r.length ≠ total) ∨ total < r.length then some 6 else none
  else none

/-- Reserved padding, and the values that a type refuses (Table 16.1). -/
def checkValue (r : DRec) (e : EDesc) : Option Nat :=
  if r.op ≠ 2 then none
  else if !r.padOk then some 2
  else match e.type with
    | .bool => if 1 < leNat r.value then some 1 else none
    | .f64 => if 0x7FF0000000000000 < leNat r.value % 2 ^ 63 then some 1 else none
    | _ => none

/-- The checks before an entry is looked up: OP, reserved bits, a tenant's authorisation, the FLAGS combinations of R378, a
tenant's SEL. -/
def checkHead (p : Path) (r : DRec) : Option Nat :=
  if r.op = 0 ∨ 4 < r.op then some 1
  else if 8 ≤ r.flags ∨ r.res ≠ 0 ∨ r.ctx / 4096 % 8 ≠ 0 then some 2
  else if (pathCtx p).isSome ∧ recFlag r 0 = true then some 3
  else if recFlag r 1 = true ∧ (r.op ≠ 2 ∨ recKey r ≠ 0x103010) then some 1
  else if recFlag r 2 = true ∧ recFlag r 1 = false then some 1
  else if recFlag r 0 = true ∧ recFlag r 1 = true ∧ recFlag r 2 = false then some 1
  else if (pathCtx p).isSome ∧ recSel r = true then some 3
  else none

/-- Whether RECOVERY serves a request: reads of the guaranteed rows, the last quote, and P writes (R345, R376, R388). -/
def recoveryServes (r : DRec) : Bool :=
  (decide (r.op = 1) && (decide ((0x1001 ≤ r.index ∧ r.index ≤ 0x1004) ∨ (0x1010 ≤ r.index ∧ r.index ≤ 0x1012)) || decide (recKey r = 0x700401)))
    || (decide (r.op = 2) && (match entryOf (recKey r) with | some e => decide (e.auth = .p) | none => false))

/-- The first check of an existing entry that fails, in order. -/
def checkEntry (s : State) (p : Path) (r : DRec) (e : EDesc) : Option Nat :=
  [checkAuth s p r e, checkAccess s p r e, checkCtx s p r e, checkRange r e, checkValue r e].findSome? id

/-! ### NEXT (R380) -/

/-- Whether a request may reach an entry at all. -/
def mayReach (s : State) (p : Path) (rank k : Nat) (e : EDesc) : Bool :=
  decide (authRank e.auth ≤ rank)
    && (match p with
        | .tenant id => decide (¬ (0xC01E00 ≤ k ∧ k ≤ 0xC025FF ∧ psCtx s (k % 256) ≠ id))
        | _ => true)

/-- The next existing entry after key `k`. -/
def nextEntry (s : State) (p : Path) (rank k : Nat) : Option (Nat × EDesc) :=
  entries.findSome? (fun e =>
    let lo := max e.lo (k + 1)
    ((List.range (e.hi + 1 - lo)).find? (fun i => mayReach s p rank (lo + i) e)).map (fun i => (lo + i, e)))

/-! ### Writes -/

/-- What an accepted write leaves beside its effect: OWNER_SEQ, the presence window of a P write, MR3 (R347, R349, R351). -/
def afterWrite (s : State) (r : DRec) (e : EDesc) (value : List Byte) : State :=
  let s := if recFlag r 0 && ownerEnrolled s then
      { s with wen := { s.wen with ownerSeq := (r.auth.map (·.seq)).getD s.wen.ownerSeq } } else s
  let s := if e.auth = .p then closeWindow s else s
  if e.auth = .p ∨ e.auth = .w ∨ recKey r = 0x602000 then
    extendMrs s 3 (natLe 2 r.index ++ natLe 1 r.sub ++ sha512Bytes value)
  else s

/-- A segment: it extends the write in progress of its requester, or abandons it (R378). The bytes collected, or an error. -/
def takeSegment (s : State) (p : Path) (r : DRec) : State × Option (List Byte) :=
  let clear : State := { s with wen := { s.wen with seg := none } }
  let sofar : Option (List Byte) := match s.wen.seg with
    | none => if r.offset = 0 then some [] else none
    | some g => if g.path = p ∧ g.index = r.index ∧ g.sub = r.sub ∧ r.offset = g.bytes.length then some g.bytes else none
  match sofar with
  | none => (clear, none)
  | some bs =>
    if r.length = 0 ∨ segmentMax p r < r.length ∨ 67108864 < r.offset + r.length then (clear, none)
    else
      let bs := bs ++ padTo r.length r.value
      (if recFlag r 2 then clear else { s with wen := { s.wen with seg := some ⟨p, r.index, r.sub, bs⟩ } }, some bs)

/-- The context that an entry's access concerns. -/
def targetCtx (p : Path) (r : DRec) : Nat := (pathCtx p).getD (recCtx r)

/-- Performs a request on an existing entry whose checks have passed. `eff` is what a write of a whole value does. -/
def perform (s : State) (p : Path) (r : DRec) (e : EDesc) (eff : State → List Byte → Except Nat State) :
    State × Except Nat (List Byte) :=
  let k := recKey r
  let id := targetCtx p r
  let tenant := (pathCtx p).isSome
  if r.op = 1 then
    let v := entryBytes s tenant id k (typeSize e.type)
    (s, .ok (((if tenant then tenantView k v else v).drop r.offset).take r.length))
  else if r.op = 3 then (s, .ok (describeBytes e))
  else if recFlag r 1 then
    match takeSegment s p r with
    | (s, none) => (s, .error 6)
    | (s, some bs) =>
      if recFlag r 2 then
        match eff s bs with
        | .ok s' => (afterWrite s' r e bs, .ok [])
        | .error c => (s, .error c)
      else (s, .ok [])
  else
    match eff s (padTo r.length r.value) with
    | .ok s' => (afterWrite s' r e (padTo r.length r.value), .ok [])
    | .error c => (s, .error c)

/-- A refused request's reply. TOTAL and SNAP are those of the entry named; where none exists no rule gives them. -/
def refuse (s : State) (p : Path) (r : DRec) (code : Nat) : State × Reply :=
  match entryOf (recKey r) with
  | some e => (s, ⟨code, 0, typeSize e.type, r.offset, snapOf s (pathCtx p).isSome (targetCtx p r) (recKey r), []⟩)
  | none =>
    let a := drawNat s
    let b := drawNat a.2
    (b.2, ⟨code, 0, a.1 % 2 ^ 32, r.offset, b.1 % 2 ^ 32, []⟩)

/-- Serves one request: the checks in order, then its effect. -/
def answerReq (s : State) (p : Path) (r : DRec) (eff : State → List Byte → Except Nat State) : State × Reply :=
  match checkHead p r with
  | some code => refuse s p r code
  | none =>
    if deviceState s = 5 && !recoveryServes r then
      refuse (drawNat s).2 p r ((drawNat s).1 % 0xFFFF + 1)
    else if r.op = 4 then
      match nextEntry s p (rankOfReq s p r) (recKey r) with
      | none => refuse s p r 5
      | some (k, e) =>
        (s, ⟨0, typeCode e.type, typeSize e.type, r.offset, snapOf s (pathCtx p).isSome (targetCtx p r) k,
          natLe 2 (k / 256) ++ natLe 1 (k % 256) ++ natLe 1 0 ++ describeBytes e⟩)
    else match entryOf (recKey r) with
      | none => refuse s p r 5
      | some e =>
        match checkEntry s p r e with
        | some code => refuse s p r code
        | none =>
          match perform s p r e eff with
          | (s, .error code) => refuse s p r code
          | (s, .ok bs) =>
            (s, ⟨0, typeCode e.type, typeSize e.type, r.offset, snapOf s (pathCtx p).isSome (targetCtx p r) (recKey r), bs⟩)

/-- Serves one request and counts it. -/
def dictServe (s : State) (p : Path) (r : DRec) (eff : State → List Byte → Except Nat State) : State × Reply :=
  let x := answerReq s p r eff
  let s := incr x.1 0x100900 1
  (if x.2.result = 0 then s else incr s 0x100901 1, x.2)

/-! ### The CAN FD frames of a record (R384) -/

/-- Frames of a record: 63 bytes each behind byte 0, the last padded. `i` is the segment counter. -/
def canFrames (fuel i : Nat) (first : Bool) (bs : List Byte) : List (List Byte) :=
  match fuel with
  | 0 => []
  | fuel + 1 =>
    let last := decide (bs.length ≤ 63)
    (BitVec.ofNat 8 (128 * bit first + 64 * bit last + i % 64) :: padTo 63 bs)
      :: (if last then [] else canFrames fuel (i + 1) false (bs.drop 63))

/-- The reply leaves on its path. -/
def sendReply (s : State) (p : Path) (bs : List Byte) : State :=
  let s := { s with wen := { s.wen with replies := s.wen.replies ++ [(p, bs)] } }
  if p = .can then { s with wen := { s.wen with canTx := s.wen.canTx ++ canFrames bs.length 0 true bs } } else s

/-- A request that reaches Wened: served and answered. A record of a wrong length is not served on the Ethernet paths, and is
refused on CAN FD (R378). -/
def dictRequest (s : State) (p : Path) (r : DRec) (eff : State → List Byte → Except Nat State) : State :=
  if r.size ≠ recLen r then
    if p = .can then
      let x := refuse s p r 6
      sendReply (incr (incr x.1 0x100900 1) 0x100901 1) p (replyBytes x.2)
    else s
  else
    let x := dictServe s p r eff
    sendReply x.1 p (replyBytes x.2)

end Sys2Proof.Machine
end

