-- ==== Sys2Proof/Machine/Writes.lean ====
section
/-! DEFINITION. What a write does, entry by entry; the dictionary commands; the rows of the table that are writes of one entry;
the CAN FD service port and relays (R302, R317, R163, R368, R383, R384, R391). -/

namespace Sys2Proof.Machine

open Sys2Proof

/-! ### Entries whose writes have a rule of their own and stand in no other file -/

/-- A free byte string as a free boolean and a free number. -/
def drawKey (s : State) : State × Option Nat :=
  let a := drawNat s
  let b := drawNat a.2
  (b.2, if a.1 % 2 = 1 then some b.1 else none)

/-- XLATE_CACHE_FLUSH (R67). -/
def flushWrite (s : State) (v : Nat) : Except Nat State :=
  if v ≠ 1 then .error 1
  else .ok (bumpSnap (wr { s with pkg := { s.pkg with xcache := [] } } 0x501001 0) 0x501003)

/-- ARB_WEIGHT_SET: in force from the next frame (`newWeights`; R163). -/
def arbWrite (s : State) (v : Nat) : Except Nat State :=
  let w := fun i => v / 2 ^ (8 * i) % 256
  if (List.range 4).all (fun i => decide (1 ≤ w i ∧ w i ≤ 13)) && decide (w 0 + w 1 + w 2 + w 3 = 16) then
    .ok (wrHost s 0x301004 v)
  else .error 1

/-- Whether a context has memory at a ring peer: a tensor that has spilled there (R159). -/
def usesLoan (c : Context) : Bool := c.lower.any (fun p => decide (p.2 = 3))

/-- A loan that ends: contexts with memory at the lender reach it no longer, and a job among them that runs ends as on a dead target
(R159). -/
def loanLost (s : State) : State :=
  (liveIds s).foldl (fun s id =>
    if usesLoan (getC s id) then
      let runs := moduleRuns (getC s id)
      let s := modC s id (fun c => { c with peerLost := true })
      if runs then endJob s id 0x04 0x0302 else s
    else s) s

/-- A write of one of the four loan entries (R159): a borrower whose loan changes while its job runs loses the job; a lender's
lines and key go when the loan ends or changes hands. -/
def loanWrite (s : State) (sub v : Nat) : Except Nat State :=
  let same := decide (rd s (0x303000 + sub) = v)
  let borrowed := decide (rd s 0x303000 ≠ 0xFFFF ∧ rd s 0x303001 ≠ 0)
  if sub = 3 ∧ areaCap s < areaUse s - rd s 0x303003 * 2 ^ 30 + v * 2 ^ 30 then .error 1
  else
    let s' := wrHost s (0x303000 + sub) v
    if same then .ok s'
    else if sub ≤ 1 then .ok (if borrowed then loanLost s' else s')
    else
      let on := decide (rd s' 0x303002 ≠ 0xFFFF ∧ rd s' 0x303003 ≠ 0)
      let keep := on && decide (sub = 3) && s.pkg.loanKey.isSome
      let k := drawNat s'
      let s := { k.2 with
        pkg := { k.2.pkg with loanKey := if keep then s.pkg.loanKey else if on then some (k.1 % 2 ^ 512) else none },
        fab := { k.2.fab with loanMem := if keep then k.2.fab.loanMem else [] } }
      .ok (lendPages s (if on then rd s 0x303003 else 0))

/-- Address, port, VLAN and domain: only while no stream is OPEN (R302). -/
def portEntryWrite (s : State) (k v : Nat) : Except Nat State :=
  if k = 0x102103 ∧ 4096 ≤ v then .error 2
  else if s.eth.streams.any (fun p => decide (p.2.state = 1)) then .error 0x050D
  else .ok (wrHost s k v)

/-- Entries 0x9001: not while the context named in REPLAY_CTX runs a module (R317). -/
def replayWrite (s : State) (k v : Nat) : Except Nat State :=
  if moduleRuns (getC s (replayCtx s)) then .error 0x0901
  else if k = 0x900101 ∧ 4096 ≤ v then .error 2
  else if (k = 0x900100 ∧ 2 < v) ∨ (k = 0x900102 ∧ 1 < v)
      ∨ (k = 0x900103 ∧ (v < 64 ∨ (if gradeA s then 4096 else 1024) < v)) then .error 1
  else .ok (wrHost s k v)

/-- An accepted write of a context-scoped entry. -/
def ctxWrite (s : State) (id k v : Nat) : Except Nat State :=
  .ok (modC s id (fun c => { c with ent := tset (entryDefault k) c.ent k v, snap := tmod 0 c.snap k (fun n => (n + 1) % 2 ^ 32) }))

/-- RELAY_TX: the datagram leaves on VC0 for the target's Wened (R383). -/
def relayWrite (s : State) (target tag res length : Nat) (bytes : List Byte) : Except Nat State :=
  if res ≠ 0 then .error 2
  else if 8 ≤ tag ∨ 8136 < length then .error 1
  else .ok (sendCtl (bumpSnap s 0x106000) target (.relay (ownId s) tag bytes))

/-- RESTORE_CMD (R338). -/
def restoreWrite (s : State) (target next : Nat) (cands : List Nat) (held : List (Nat × Nat × Nat × Nat)) : Except Nat State :=
  .ok (bumpSnap (restoreStart s target next cands held) 0x801200)

/-- The image that a FW_RECOVERY value spells, by its header (Table 15.1); whether its signature verifies is given. -/
def imageOf (bs : List Byte) (sigOk : Bool) : FwImage :=
  { type := field bs 4 1, svn := field bs 5 1, numUcode := field bs 6 2, version := field bs 8 4, family := field bs 0xC 1,
    digest := field bs 0x40 64, digestOk := decide (sha512 (bs.drop 1024) = field bs 0x40 64), sigOk := sigOk,
    resv := decide (field bs 0xD 3 ≠ 0 ∨ field bs 0x18 40 ≠ 0 ∨ field bs 0x80 384 ≠ 0) }

/-- Entries with a plain range: lowest and highest value. -/
def plainRange (s : State) (k : Nat) : Option (Nat × Nat) :=
  match k with
  | 0x100700 => some (0, 63)
  | 0x102104 => some (0, 7)
  | 0x102106 => some (10, 90)
  | 0x407000 => some (100, 100000)
  | 0x408000 => some (1, 60000)
  | 0x408001 => some (10, 60000)
  | 0x800302 => some (1, 1024)
  | 0x800401 => some (100, 600000)
  | 0x800502 => some (2, 64)
  | 0x800505 => some (1, 20)
  | 0x800506 => some (1, 3600)
  | 0x802002 => some (0, 5000)
  | 0xC00200 => some (1, 60000)
  | 0xA00101 => some (2500, 60000000)
  | 0xA00102 => some (2500, rd s 0xA00101)
  | _ => none

/-- Any other entry takes its value, where it lies in its range. -/
def plainWrite (s : State) (k v : Nat) : Except Nat State :=
  match plainRange s k with
  | some (lo, hi) => if v < lo ∨ hi < v then .error 1 else .ok (wrHost s k v)
  | none => .ok (wrHost s k v)

/-! ### The effect of a write, by key -/

/-- Entries of areas 0x1000 to 0x3000. -/
def writeLow (s : State) (k v : Nat) (bs : List Byte) : Except Nat State :=
  match k with
  | 0x100500 => wenedCmd s k v false
  | 0x100501 => wenedCmd s k v true
  | 0x103000 => stageWrite (drawNat s).2 v ((drawNat s).1 % 256)
  | 0x103002 => activateWrite s v
  | 0x103010 => recoveryWrite (drawNat s).2 (imageOf bs (decide ((drawNat s).1 % 2 = 1))) bs.length
  | 0x106000 => relayWrite s (field bs 0 2) (field bs 2 1) (field bs 3 5) (beNat ((bs.drop 20).take 2))
      ((bs.drop 8).take (32 + beNat ((bs.drop 20).take 2)))
  | 0x200101 => opTargetWrite s v
  | 0x200102 => powerCapWrite s v
  | 0x301004 => arbWrite s v
  | _ =>
    if (0x102100 ≤ k ∧ k ≤ 0x102103) ∨ k = 0x102105 then portEntryWrite s k v
    else if 0x303000 ≤ k ∧ k ≤ 0x303003 then loanWrite s (k - 0x303000) v
    else plainWrite s k v

/-- Entries of areas 0x4000 to 0x6000. -/
def writeMid (s : State) (k v : Nat) : Except Nat State :=
  match k with
  | 0x400100 => deviceIdWrite s v
  | 0x400201 => routeCommitWrite s v
  | 0x400300 => systemShapeWrite s v
  | 0x403008 => vcArbWrite s v
  | 0x404001 => bypassWrite s v
  | 0x407001 => deadNoticeWrite s v
  | 0x501003 => flushWrite s v
  | 0x601001 => sdModeWrite s 0 v
  | 0x601002 => sdModeWrite s 1 v
  | 0x602000 => compatWrite s v
  | _ =>
    if 0x401300 ≤ k ∧ k ≤ 0x40131F then portCtrlWrite s (k - 0x401300) v
    else if 0x402000 ≤ k ∧ k ≤ 0x4022FF then routeWrite s k v
    else plainWrite s k v

/-- Entries of areas 0x7000 and 0x8000. What a plain write cannot show (the outcome of an unwrapping, the partner's report)
is free. -/
def writeHigh (s : State) (k v : Nat) (who : Option Nat) : Except Nat State :=
  match k with
  | 0x700210 => rollbackWrite s v
  | 0x700400 => quoteNonceWrite s who v
  | 0x701000 => keyWrite s k v
  | 0x701100 => keyWrite s k v
  | 0x701200 => mgmtEnrolWrite (drawKey s).1 (drawKey s).2
  | 0x701201 => mgmtNextWrite (drawKey s).1 (drawKey s).2
  | 0x702002 => tamperClearWrite s v
  | 0x702100 => debugWrite s v
  | 0x702200 => zeroiseWrite s v
  | 0x702201 => decommissionWrite s v
  | 0x800100 => jobIdWrite s v
  | 0x800102 => ckptKeyWrite s v
  | 0x800200 => buddyDeviceWrite s v
  | 0x800201 =>
    let a := drawNat s
    let b := drawNat a.2
    let c := drawNat b.2
    buddyPartnerWrite c.2 v (decide (a.1 % 2 = 1)) (b.1 % 2 ^ 64) (c.1 % 65536)
  | 0x800400 => ckptRequestWrite s v
  | 0x801200 => restoreWrite (drawNat s).2 (v % 2 ^ 32) (v / 2 ^ 32) (Config.restoreFacts s.freeIdx).1 (Config.restoreFacts s.freeIdx).2
  | 0x802000 => reclaimWrite s v
  | _ => plainWrite s k v

/-- Entries of areas 0x9000 to 0xC000. -/
def writeTop (s : State) (k v id : Nat) (bs : List Byte) : Except Nat State :=
  if 0x900100 ≤ k ∧ k ≤ 0x900106 then replayWrite s k v
  else if (0x900300 ≤ k ∧ k ≤ 0x900308) ∨ k = 0x901000 then ctxWrite s id k v
  else if k = 0xA00200 then
    tasterWrite s (field bs 0 1) (field bs 1 1) (field bs 2 2) (decide (field bs 4 1 % 2 = 1)) (field bs 4 1 / 2 + field bs 5 3)
  else if 0xC01000 ≤ k ∧ k ≤ 0xC01CFF then psEntryWrite s k v
  else if 0xC01D00 ≤ k ∧ k ≤ 0xC01DFF then psCtrlWrite s (k % 256) v
  else plainWrite s k v

/-- The effect of a write of value `bs` to entry `k` of context `id`, asked for by `who` (a tenant's context or none). -/
def writeEntry (k id : Nat) (who : Option Nat) (s : State) (bs : List Byte) : Except Nat State :=
  let v := leNat bs
  if k < 0x400000 then writeLow s k v bs
  else if k < 0x700000 then writeMid s k v
  else if k < 0x900000 then writeHigh s k v who
  else writeTop s k v id bs

/-- The effect of the write that a record asks for. -/
def recEffect (p : Path) (r : DRec) : State → List Byte → Except Nat State := writeEntry (recKey r) (targetCtx p r) (pathCtx p)

/-! ### The dictionary commands -/

/-- DICT_READ. -/
def execDictRead (p : Path) (rec : DRec) (s : State) : Out := .next (dictRequest s p rec (recEffect p rec))

/-- DICT_WRITE. -/
def execDictWrite (p : Path) (rec : DRec) (s : State) : Out := .next (dictRequest s p rec (recEffect p rec))

/-- DICT_WRITE_SEGMENT. -/
def execDictWriteSegment (p : Path) (rec : DRec) (s : State) : Out := .next (dictRequest s p rec (recEffect p rec))

/-- DICT_DESCRIBE. -/
def execDictDescribe (p : Path) (rec : DRec) (s : State) : Out := .next (dictRequest s p rec (recEffect p rec))

/-- DICT_NEXT. -/
def execDictNext (p : Path) (rec : DRec) (s : State) : Out := .next (dictRequest s p rec (recEffect p rec))

/-- SEGMENT_TIMEOUT: a segmented write without LAST is abandoned. -/
def execSegmentTimeout (s : State) : Out := .next { s with wen := { s.wen with seg := none } }

/-! ### Rows that write one entry -/

/-- The record of a write of `len` bytes to entry `k`. -/
def reqRec (r : Req) (k : Nat) (bs : List Byte) : DRec :=
  { op := 2, flags := bit r.auth.isSome, index := k / 256, sub := k % 256, res := 0, ctx := bit r.sel * 32768 + r.ctx % 4096,
    offset := 0, length := bs.length, value := bs, padOk := true, auth := r.auth,
    size := 16 + (bs.length + 7) / 8 * 8 + (if r.auth.isSome then 520 else 0) }

/-- A write of one entry, through every check of the dictionary, with its effect. -/
def rowWrite (s : State) (r : Req) (k : Nat) (bs : List Byte) (eff : State → Except Nat State) : State :=
  dictRequest s r.path (reqRec r k bs) (fun s _ => eff s)

/-- REMOTE_DEAD_NOTICE. -/
def execRemoteDeadNotice (r : Req) (v : BitVec 16) (s : State) : Out :=
  .next (rowWrite s r 0x407001 (natLe 2 v.toNat) (fun s => deadNoticeWrite s v.toNat))

/-- ROUTE_COMMIT. -/
def execRouteCommit (r : Req) (e : BitVec 32) (s : State) : Out :=
  .next (rowWrite s r 0x400201 (natLe 4 e.toNat) (fun s => routeCommitWrite s e.toNat))

/-- DEVICE_ID. -/
def execDeviceId (r : Req) (v : BitVec 16) (s : State) : Out :=
  .next (rowWrite s r 0x400100 (natLe 2 v.toNat) (fun s => deviceIdWrite s v.toNat))

/-- SYSTEM_SHAPE. -/
def execSystemShape (r : Req) (v : BitVec 32) (s : State) : Out :=
  .next (rowWrite s r 0x400300 (natLe 4 v.toNat) (fun s => systemShapeWrite s v.toNat))

/-- VC_ARB_SET. -/
def execVcArbSet (r : Req) (v : BitVec 64) (s : State) : Out :=
  .next (rowWrite s r 0x403008 (natLe 8 v.toNat) (fun s => vcArbWrite s v.toNat))

/-- PORT_DRAIN. -/
def execPortDrain (r : Req) (p : Port) (s : State) : Out :=
  .next (rowWrite s r (0x401300 + p.val) (natLe 1 1) (fun s => portCtrlWrite s p.val 1))

/-- PORT_FORCE_DRAIN. -/
def execPortForceDrain (r : Req) (p : Port) (s : State) : Out :=
  .next (rowWrite s r (0x401300 + p.val) (natLe 1 2) (fun s => portCtrlWrite s p.val 2))

/-- PORT_RECAL. -/
def execPortRecal (r : Req) (p : Port) (s : State) : Out :=
  .next (rowWrite s r (0x401300 + p.val) (natLe 1 3) (fun s => portCtrlWrite s p.val 3))

/-- PORT_RETURN. -/
def execPortReturn (r : Req) (p : Port) (s : State) : Out :=
  .next (rowWrite s r (0x401300 + p.val) (natLe 1 4) (fun s => portCtrlWrite s p.val 4))

/-- PORT_TEST. -/
def execPortTest (r : Req) (p : Port) (s : State) : Out :=
  .next (rowWrite s r (0x401300 + p.val) (natLe 1 5) (fun s => portCtrlWrite s p.val 5))

/-- BYPASS_CLOSE. -/
def execBypassClose (r : Req) (s : State) : Out := .next (rowWrite s r 0x404001 (natLe 1 1) (fun s => bypassWrite s 1))

/-- BYPASS_OPEN. -/
def execBypassOpen (r : Req) (s : State) : Out := .next (rowWrite s r 0x404001 (natLe 1 2) (fun s => bypassWrite s 2))

/-- PS_ARM. -/
def execPsArm (r : Req) (n : PlantNo) (s : State) : Out :=
  .next (rowWrite s r (0xC01D00 + n.val) (natLe 1 1) (fun s => psCtrlWrite s n.val 1))

/-- PS_RESUME. -/
def execPsResume (r : Req) (n : PlantNo) (s : State) : Out :=
  .next (rowWrite s r (0xC01D00 + n.val) (natLe 1 2) (fun s => psCtrlWrite s n.val 2))

/-- PS_STOP. -/
def execPsStop (r : Req) (n : PlantNo) (s : State) : Out :=
  .next (rowWrite s r (0xC01D00 + n.val) (natLe 1 3) (fun s => psCtrlWrite s n.val 3))

/-- XLATE_CACHE_FLUSH. -/
def execXlateCacheFlush (r : Req) (v : BitVec 8) (s : State) : Out :=
  .next (rowWrite s r 0x501003 (natLe 1 v.toNat) (fun s => flushWrite s v.toNat))

/-- ARB_WEIGHT_SET. -/
def execArbWeightSet (r : Req) (v : BitVec 32) (s : State) : Out :=
  .next (rowWrite s r 0x301004 (natLe 4 v.toNat) (fun s => arbWrite s v.toNat))

/-- SR_SEED. -/
def execSrSeed (r : Req) (v : BitVec 64) (s : State) : Out :=
  .next (rowWrite s r 0x901000 (natLe 8 v.toNat) (fun s => ctxWrite s ((pathCtx r.path).getD (r.ctx % 4096)) 0x901000 v.toNat))

/-- SD_MODE. -/
def execSdMode (r : Req) (die : Fin 2) (v : BitVec 8) (s : State) : Out :=
  .next (rowWrite s r (0x601001 + die.val) (natLe 1 v.toNat) (fun s => sdModeWrite s die.val v.toNat))

/-- COMPAT_JSN16. -/
def execCompatJsn16 (r : Req) (v : BitVec 8) (s : State) : Out :=
  .next (rowWrite s r 0x602000 (natLe 1 v.toNat) (fun s => compatWrite s v.toNat))

/-- JOB_ID. -/
def execJobId (r : Req) (v : BitVec 64) (s : State) : Out :=
  .next (rowWrite s r 0x800100 (natLe 8 v.toNat) (fun s => jobIdWrite s v.toNat))

/-- BUDDY_DEVICE. -/
def execBuddyDevice (r : Req) (v : BitVec 16) (s : State) : Out :=
  .next (rowWrite s r 0x800200 (natLe 2 v.toNat) (fun s => buddyDeviceWrite s v.toNat))

/-- BUDDY_PARTNER. -/
def execBuddyPartner (r : Req) (v : BitVec 16) (gradeA : Bool) (job : Nat) (rank : Nat) (s : State) : Out :=
  .next (rowWrite s r 0x800201 (natLe 2 v.toNat) (fun s => buddyPartnerWrite s v.toNat gradeA job rank))

/-- CKPT_REQUEST. -/
def execCkptRequest (r : Req) (v : BitVec 32) (s : State) : Out :=
  .next (rowWrite s r 0x800400 (natLe 4 v.toNat) (fun s => ckptRequestWrite s v.toNat))

/-- RESTORE_CMD. -/
def execRestoreCmd (r : Req) (target next : BitVec 32) (cands : List Nat) (held : List (Nat × Nat × Nat × Nat)) (s : State) : Out :=
  .next (rowWrite s r 0x801200 (natLe 4 target.toNat ++ natLe 4 next.toNat)
    (fun s => restoreWrite s target.toNat next.toNat cands held))

/-- RECLAIM_START. -/
def execReclaimStart (r : Req) (v : BitVec 8) (s : State) : Out :=
  .next (rowWrite s r 0x802000 (natLe 1 v.toNat) (fun s => reclaimWrite s v.toNat))

/-- LOAN_REVOKE. -/
def execLoanRevoke (r : Req) (sub : Fin 4) (v : BitVec 16) (s : State) : Out :=
  .next (rowWrite s r (0x303000 + sub.val) (natLe 2 v.toNat) (fun s => loanWrite s sub.val v.toNat))

/-- QUOTE_NONCE. -/
def execQuoteNonce (r : Req) (nonce : BitVec 512) (s : State) : Out :=
  .next (rowWrite s r 0x700400 (natLe 64 nonce.toNat) (fun s => quoteNonceWrite s (pathCtx r.path) nonce.toNat))

/-- OWNER_KEY. -/
def execOwnerKey (r : Req) (key : Nat) (s : State) : Out :=
  .next (rowWrite s r 0x701000 (natLe 516 key) (fun s => keyWrite s 0x701000 key))

/-- FM_KEY. -/
def execFmKey (r : Req) (key : Nat) (s : State) : Out :=
  .next (rowWrite s r 0x701100 (natLe 516 key) (fun s => keyWrite s 0x701100 key))

/-- MGMT_KEY_ENROL: the bytes of the wrapping are not given: free. -/
def execMgmtKeyEnrol (r : Req) (key : Option Nat) (s : State) : Out :=
  .next (rowWrite (drawBytes s 512).2 r 0x701200 (drawBytes s 512).1 (fun s => mgmtEnrolWrite s key))

/-- MGMT_KEY_NEXT: the bytes of the wrapping and its signature are free. -/
def execMgmtKeyNext (r : Req) (key : Option Nat) (s : State) : Out :=
  .next (rowWrite (drawBytes s 1024).2 r 0x701201 (drawBytes s 1024).1 (fun s => mgmtNextWrite s key))

/-- TAMPER_CLEAR. -/
def execTamperClear (r : Req) (v : BitVec 8) (s : State) : Out :=
  .next (rowWrite s r 0x702002 (natLe 1 v.toNat) (fun s => tamperClearWrite s v.toNat))

/-- DEBUG_UNLOCK. -/
def execDebugUnlock (r : Req) (v : BitVec 8) (s : State) : Out :=
  .next (rowWrite s r 0x702100 (natLe 1 v.toNat) (fun s => debugWrite s v.toNat))

/-- ZEROISE. -/
def execZeroise (r : Req) (v : BitVec 8) (s : State) : Out :=
  .next (rowWrite s r 0x702200 (natLe 1 v.toNat) (fun s => zeroiseWrite s v.toNat))

/-- DECOMMISSION. -/
def execDecommission (r : Req) (v : BitVec 8) (s : State) : Out :=
  .next (rowWrite s r 0x702201 (natLe 1 v.toNat) (fun s => decommissionWrite s v.toNat))

/-- ROLLBACK_OVERRIDE. -/
def execRollbackOverride (r : Req) (v : BitVec 8) (s : State) : Out :=
  .next (rowWrite s r 0x700210 (natLe 1 v.toNat) (fun s => rollbackWrite s v.toNat))

/-- FW_STAGE_SRC. -/
def execFwStageSrc (r : Req) (v : BitVec 192) (type : BitVec 8) (s : State) : Out :=
  .next (rowWrite s r 0x103000 (natLe 24 v.toNat) (fun s => stageWrite s v.toNat type.toNat))

/-- FW_ACTIVATE. -/
def execFwActivate (r : Req) (type : BitVec 8) (s : State) : Out :=
  .next (rowWrite s r 0x103002 (natLe 1 type.toNat) (fun s => activateWrite s type.toNat))

/-- FW_RECOVERY of an image of `length` bytes; the bytes themselves are free. -/
def execFwRecovery (r : Req) (img : FwImage) (length : Nat) (s : State) : Out :=
  .next (rowWrite (drawBytes s length).2 r 0x103010 (drawBytes s length).1 (fun s => recoveryWrite s img length))

/-- WENED_CMD or SERVICE_CMD, by the entry. -/
def cmdWrite (s : State) (r : Req) (service : Bool) (v : Nat) : State :=
  let k := if service then 0x100501 else 0x100500
  rowWrite s r k (natLe 1 v) (fun s => wenedCmd s k v service)

/-- WARM_RESET. -/
def execWarmReset (r : Req) (service : Bool) (s : State) : Out := .next (cmdWrite s r service 1)

/-- COLD_RESET. -/
def execColdReset (r : Req) (service : Bool) (s : State) : Out := .next (cmdWrite s r service 2)

/-- POWER_DOWN. -/
def execPowerDown (r : Req) (service : Bool) (s : State) : Out := .next (cmdWrite s r service 3)

/-- SERVICE_BYPASS_CLOSE. -/
def execServiceBypassClose (r : Req) (s : State) : Out := .next (cmdWrite s r true 4)

/-- TASTER_REQ of one kind. -/
def tasterRow (s : State) (r : Req) (die kind unit : Nat) (raise : Bool) (res : Nat) : State :=
  rowWrite s r 0xA00200 (natLe 1 die ++ natLe 1 kind ++ natLe 2 unit ++ natLe 4 (bit raise + 2 * res))
    (fun s => tasterWrite s die kind unit raise res)

/-- TASTER_REQ_CLUSTER. -/
def execTasterReqCluster (r : Req) (die unit : Nat) (raise : Bool) (res : Nat) (s : State) : Out :=
  .next (tasterRow s r die 1 unit raise res)

/-- TASTER_REQ_PANTRY. -/
def execTasterReqPantry (r : Req) (die unit : Nat) (raise : Bool) (res : Nat) (s : State) : Out :=
  .next (tasterRow s r die 2 unit raise res)

/-- TASTER_REQ_STACK. -/
def execTasterReqStack (r : Req) (die unit : Nat) (raise : Bool) (res : Nat) (s : State) : Out :=
  .next (tasterRow s r die 3 unit raise res)

/-- TASTER_REQ_SOLVER. -/
def execTasterReqSolver (r : Req) (die unit : Nat) (raise : Bool) (res : Nat) (s : State) : Out :=
  .next (tasterRow s r die 4 unit raise res)

/-- TASTER_REQ_RECAL. -/
def execTasterReqRecal (r : Req) (die unit : Nat) (raise : Bool) (res : Nat) (s : State) : Out :=
  .next (tasterRow s r die 5 unit raise res)

/-- TASTER_REQ_FULL_TEST. -/
def execTasterReqFullTest (r : Req) (die unit : Nat) (raise : Bool) (res : Nat) (s : State) : Out :=
  .next (tasterRow s r die 6 unit raise res)

/-- OP_TARGET. -/
def execOpTarget (r : Req) (v : BitVec 8) (s : State) : Out :=
  .next (rowWrite s r 0x200101 (natLe 1 v.toNat) (fun s => opTargetWrite s v.toNat))

/-- RELAY_TX. -/
def execRelayTx (r : Req) (target tag res : Nat) (length : Nat) (bytes : List Byte) (s : State) : Out :=
  .next (rowWrite s r 0x106000 (padTo 8176 (natLe 2 target ++ natLe 1 tag ++ natLe 5 res ++ bytes))
    (fun s => relayWrite s target tag res length bytes))

/-- RELAY_REPLY: the reply of a tag, in place of any earlier one (R383). -/
def execRelayReply (src : BitVec 16) (tag : Fin 8) (bytes : List Byte) (s : State) : Out :=
  .next (wrHost s (0x106001 + tag.val)
    (leNat (padTo 8232 (natLe 2 src.toNat ++ natLe 2 0 ++ natLe 4 bytes.length ++ bytes))))

/-! ### The CAN FD service port (R384) -/

/-- The record that the bytes of `n` frames spell. Its length is the one its own fields call for, where that many frames carry
it; `sigOk` is the outcome of its signature. -/
def parseRec (bs : List Byte) (n : Nat) (sigOk : Bool) : DRec :=
  let op := field bs 0 1
  let flags := field bs 1 1
  let len := field bs 12 4
  let pad := if op = 2 then (len + 7) / 8 * 8 else 0
  let size := 16 + pad + (if flags % 2 = 1 then 520 else 0)
  { op := op, flags := flags, index := field bs 2 2, sub := field bs 4 1, res := field bs 5 1, ctx := field bs 6 2,
    offset := field bs 8 4, length := len, value := if op = 2 then (bs.drop 16).take len else [],
    padOk := decide (op ≠ 2 ∨ field bs (16 + len) (pad - len) = 0),
    auth := if flags % 2 = 1 then some ⟨field bs (16 + pad) 8, sigOk⟩ else none,
    size := if (size + 62) / 63 = n then size else size + 1 }

/-- A whole request has come. -/
def canServe (s : State) (bs : List Byte) : State :=
  let a := drawNat s
  let r := parseRec bs (bs.length / 63) (decide (a.1 % 2 = 1))
  dictRequest { a.2 with wen := { a.2.wen with can := none } } .can r (recEffect .can r)

/-- The bytes of one frame, in order: the request goes on or is served. -/
def canTake (s : State) (n : Nat) (bs : List Byte) (last : Bool) : State :=
  if last then canServe s bs else { s with wen := { s.wen with can := some ((n + 1) % 64, bs) } }

/-- CAN_FRAME. A frame out of order is discarded; a new FIRST discards the request in progress and starts its own. -/
def execCanFrame (ident : Nat) (first last : Bool) (counter : Fin 64) (bytes : List Byte) (s : State) : Out :=
  .next (
    if ident ≠ 0x640 + rd s 0x100700 then s
    else if first then
      if counter.val ≠ 0 then incr s 0x100701 1
      else canTake (if s.wen.can.isSome then incr s 0x100701 1 else s) 0 (padTo 63 bytes) last
    else match s.wen.can with
      | none => incr s 0x100701 1
      | some (n, bs) =>
        if counter.val ≠ n then incr s 0x100701 1 else canTake s n (bs ++ padTo 63 bytes) last)

/-- CAN_GAP_TIMEOUT: the request in progress is discarded. -/
def execCanGapTimeout (s : State) : Out :=
  .next (if s.wen.can.isSome then incr { s with wen := { s.wen with can := none } } 0x100701 1 else s)

end Sys2Proof.Machine
end

