-- ==== Sys2Proof/Machine/Loader.lean ====
section
/-! DEFINITION. The module loader (R65, R66, R70 to R79, R88, R452): the container's bytes parsed, the eleven checks of
Table 3.14 in order, the summary of R77. -/

namespace Sys2Proof.Machine

open Sys2Proof

/-! ### The op table (Table 3.13) -/

/-- What a 12-bit operand field names: a scalar register, a view, a tile, a mask register, a tensor, a stream declaration, a
plain number of some bits; none: reserved. -/
inductive FKind where
  | s | v | t | m | tensor | decl | num (bits : Nat) | none
  deriving DecidableEq, Repr

/-- One op: opcode, extension words, operand form (0 A, 1 B, 2 Z), fields D, A, B, the assigned bits of C, whether it has a
format, the assigned FL bits, its mark (0 D, 1 T, 2 V). -/
structure OpSpec where
  code : Nat
  ext  : Nat
  form : Nat
  d    : FKind
  a    : FKind
  b    : FKind
  c    : Nat
  fmt  : Bool
  fl   : Nat
  mark : Nat
  deriving DecidableEq, Repr

/-- Control, scalar and move ops. -/
def opTable1 : List OpSpec := [
  ⟨0x000, 0, 2, .none, .none, .none, 0, false, 0, 0⟩, ⟨0x001, 0, 2, .none, .none, .none, 0, false, 0, 0⟩,
  ⟨0x002, 0, 1, .s, .none, .none, 0, false, 0, 0⟩, ⟨0x003, 0, 1, .s, .none, .none, 0, false, 0, 0⟩,
  ⟨0x004, 0, 0, .s, .s, .s, 0xF, false, 0, 0⟩, ⟨0x005, 0, 0, .s, .s, .num 12, 0, false, 0, 0⟩,
  ⟨0x006, 0, 1, .s, .none, .none, 0, false, 0, 0⟩, ⟨0x007, 0, 0, .s, .none, .none, 0xFFF, false, 0, 0⟩,
  ⟨0x008, 0, 0, .s, .none, .none, 0xFFF, false, 0, 0⟩, ⟨0x009, 0, 0, .none, .s, .none, 0xFFF, false, 0, 0⟩,
  ⟨0x00A, 3, 0, .v, .tensor, .none, 0x3F, false, 0, 0⟩, ⟨0x00B, 0, 0, .s, .none, .none, 0, false, 0, 2⟩,
  ⟨0x040, 0, 0, .v, .v, .none, 0, true, 2, 0⟩, ⟨0x041, 0, 0, .v, .v, .v, 0, true, 2, 0⟩,
  ⟨0x042, 0, 0, .v, .v, .v, 0, true, 2, 0⟩, ⟨0x043, 0, 0, .v, .s, .none, 0, true, 0, 0⟩,
  ⟨0x044, 0, 0, .none, .v, .none, 3, false, 2, 1⟩]

/-- Griddle and Whisk ops. -/
def opTable2 : List OpSpec := [
  ⟨0x080, 0, 0, .t, .none, .none, 0, true, 2, 0⟩, ⟨0x081, 1, 0, .t, .v, .v, 0xFF, true, 2, 0⟩,
  ⟨0x082, 0, 0, .t, .v, .none, 0, false, 2, 0⟩,
  ⟨0x0C0, 0, 0, .s, .s, .none, 0, false, 2, 0⟩, ⟨0x0C1, 0, 0, .v, .v, .v, 0xF, true, 2, 0⟩,
  ⟨0x0C2, 0, 0, .v, .v, .v, 0, true, 2, 0⟩, ⟨0x0C3, 0, 0, .v, .v, .none, 0xF, true, 2, 0⟩,
  ⟨0x0C4, 0, 0, .v, .v, .none, 0xF, true, 2, 0⟩, ⟨0x0C5, 0, 0, .v, .v, .none, 0, true, 2, 0⟩,
  ⟨0x0C6, 0, 0, .m, .v, .v, 0xF, true, 2, 0⟩, ⟨0x0C7, 0, 0, .v, .v, .v, 0x1C0, true, 2, 0⟩,
  ⟨0x0C8, 1, 0, .v, .t, .none, 0xF, true, 2, 0⟩, ⟨0x0C9, 0, 0, .v, .v, .none, 0xF, true, 2, 0⟩,
  ⟨0x0CA, 0, 0, .v, .v, .v, 0, true, 2, 0⟩, ⟨0x0CB, 0, 0, .v, .v, .v, 0, true, 2, 0⟩]

/-- Remote ops, collectives, solver ops, flags, streams, step points. -/
def opTable3 : List OpSpec := [
  ⟨0x100, 0, 0, .v, .v, .s, 0, false, 0, 0⟩, ⟨0x101, 0, 0, .v, .v, .s, 0, false, 0, 0⟩,
  ⟨0x102, 1, 0, .v, .v, .s, 0, false, 0, 0⟩, ⟨0x103, 0, 0, .v, .v, .s, 0, false, 0, 2⟩,
  ⟨0x104, 0, 0, .none, .v, .s, 0, false, 0, 0⟩, ⟨0x105, 0, 0, .none, .tensor, .none, 0xF, false, 0, 0⟩,
  ⟨0x140, 1, 0, .v, .v, .none, 0xF, true, 0, 0⟩, ⟨0x141, 1, 0, .v, .v, .none, 0xF, true, 0, 0⟩,
  ⟨0x142, 1, 0, .v, .v, .none, 0, true, 0, 0⟩, ⟨0x143, 1, 0, .v, .v, .s, 0, true, 0, 0⟩,
  ⟨0x144, 1, 0, .v, .v, .none, 0, true, 0, 0⟩,
  ⟨0x180, 0, 0, .s, .v, .none, 7, false, 0, 0⟩, ⟨0x181, 0, 0, .s, .s, .none, 0, false, 0, 0⟩,
  ⟨0x1C0, 0, 0, .none, .s, .num 8, 0x3F, false, 0, 0⟩, ⟨0x1C1, 0, 0, .none, .s, .none, 0x3F, false, 0, 0⟩,
  ⟨0x1C2, 0, 0, .s, .none, .none, 0x3F, false, 0, 0⟩, ⟨0x1C3, 0, 0, .none, .none, .none, 3, false, 0, 0⟩,
  ⟨0x1C4, 0, 0, .v, .decl, .none, 0, false, 0, 1⟩, ⟨0x1C5, 0, 0, .decl, .v, .none, 0, false, 0, 0⟩,
  ⟨0x200, 0, 2, .none, .none, .none, 0, false, 0, 0⟩, ⟨0x201, 0, 2, .none, .none, .none, 0, false, 0, 0⟩]

/-- The op of an opcode. -/
def opSpec (code : Nat) : Option OpSpec := (opTable1 ++ opTable2 ++ opTable3).find? (fun o => decide (o.code = code))

/-- Bits `[lo + n - 1 : lo]` of a code word. -/
def wbits (w : CodeWord) (lo n : Nat) : Nat := w.toNat / 2 ^ lo % 2 ^ n

/-- OPCODE. -/
def wOp (w : CodeWord) : Nat := wbits w 54 10
/-- FMT. -/
def wFmt (w : CodeWord) : Nat := wbits w 50 4
/-- FL. -/
def wFl (w : CodeWord) : Nat := wbits w 48 2
/-- Field D. -/
def wD (w : CodeWord) : Nat := wbits w 36 12
/-- Field A. -/
def wA (w : CodeWord) : Nat := wbits w 24 12
/-- Field B. -/
def wB (w : CodeWord) : Nat := wbits w 12 12
/-- Field C. -/
def wC (w : CodeWord) : Nat := wbits w 0 12

/-- The ops of a code section in order: index, op word, extension words, as far as they lie in the section. A word of an
unassigned opcode takes no extension word. -/
def opsOf (fuel i : Nat) (ws : List CodeWord) : List (Nat × CodeWord × List CodeWord) :=
  match fuel, ws with
  | 0, _ => []
  | _, [] => []
  | fuel + 1, w :: ws =>
    let n := ((opSpec (wOp w)).map (·.ext)).getD 0
    (i, w, ws.take n) :: opsOf fuel (i + 1 + n) (ws.drop n)

/-! ### The container (R73 to R76) -/

/-- A section table entry (Table 3.7). -/
structure SecEntry where
  type   : Nat
  sflags : Nat
  count  : Nat
  offset : Nat
  length : Nat
  res    : Nat
  deriving DecidableEq, Repr

/-- A module's bytes in their parts. -/
structure Container where
  bytes : List Byte
  secs  : List SecEntry
  deriving DecidableEq, Repr

/-- The section table: the SECTION_COUNT entries, as far as they lie in the module. -/
def parseContainer (bs : List Byte) : Container :=
  ⟨bs, (List.range (min ((bs.length - 0x80) / 32) (field bs 0x18 4))).map (fun i =>
    let o := 0x80 + 32 * i
    ⟨field bs o 2, field bs (o + 2) 2, field bs (o + 4) 4, field bs (o + 8) 8, field bs (o + 16) 8, field bs (o + 24) 8⟩)⟩

/-- Bytes of the section of a type; none where it is absent. -/
def secBytes (m : Container) (type : Nat) : List Byte :=
  match m.secs.find? (fun e => decide (e.type = type)) with
  | some e => (m.bytes.drop e.offset).take e.length
  | none => []

/-- The records of a section of fixed record size. -/
def recordsOf (m : Container) (type size : Nat) : List (List Byte) :=
  let bs := secBytes m type
  (List.range (bs.length / size)).map (fun i => (bs.drop (i * size)).take size)

/-- Tensor records. -/
def tensorRecs (m : Container) : List (List Byte) := recordsOf m 1 32

/-- Stream records. -/
def streamRecs (m : Container) : List (List Byte) := recordsOf m 2 16

/-- Code words. -/
def codeOf (m : Container) : List CodeWord := (recordsOf m 4 8).map (fun b => BitVec.ofNat 64 (leNat b))

/-- Dimensions of a tensor record. -/
def recDims (r : List Byte) : List Nat := (List.range 4).map (fun i => field r (8 + 4 * i) 4)

/-- A tensor declaration from its record. -/
def tensorOfRec (r : List Byte) : Tensor :=
  { fmt := (fmtOf (field r 0 1)).getD .fp64, rank := field r 1 1, level := field r 2 1, hint := field r 3 1,
    ckpt := decide (field r 4 4 % 2 = 1), spill := decide (field r 4 4 / 2 % 2 = 1), init := decide (field r 4 4 / 4 % 2 = 1),
    dims := recDims r, initOff := field r 0x18 4 }

/-- A stream declaration from its record. -/
def streamOfRec (r : List Byte) : StreamDecl := ⟨field r 0 1, field r 2 2, field r 4 4 % 2 ^ 20⟩

/-- The module that a container holds. -/
def moduleOf (m : Container) : Module :=
  { digest := field m.bytes 0x40 64, features := field m.bytes 8 8, minDev := field m.bytes 0x1C 4, maxDev := field m.bytes 0x20 4,
    tensors := (tensorRecs m).map tensorOfRec, streams := (streamRecs m).map streamOfRec, consts := secBytes m 3,
    code := codeOf m, sflags := field (secBytes m 5) 12 4 }

/-! ### Steps 4 and 6: features and reserved bits -/

/-- Format codes that a word names: its FMT, and BFMT of a GMMA whose extension word lies in the section. -/
def wordFmts (o : Nat × CodeWord × List CodeWord) : List Nat :=
  match opSpec (wOp o.2.1) with
  | none => []
  | some p => (if p.fmt then [wFmt o.2.1] else []) ++ (if p.code = 0x081 then (o.2.2.take 1).map (fun e => wbits e 60 4) else [])

/-- Feature bits that a module uses (R452). -/
def usedFeatures (m : Container) : List Nat :=
  let ops := opsOf (codeOf m).length 0 (codeOf m)
  let named := ops.flatMap wordFmts ++ (tensorRecs m).map (fun r => field r 0 1)
  let has := fun (p : Nat × CodeWord × List CodeWord → Bool) => ops.any p
  let red := fun (mode : Nat) => has (fun o => decide (wOp o.2.1 ∈ [0x0C9, 0x140, 0x141] ∧ wC o.2.1 % 4 = mode))
  (if has (fun o => decide (wOp o.2.1 = 0x081) && decide (0 ∈ wordFmts o)) then [0] else [])
    ++ (if named.any (fun f => decide (3 ≤ f ∧ f ≤ 5)) then [1] else []) ++ (if named.any (fun f => decide (f = 7)) then [2] else [])
    ++ (if red 1 then [4] else []) ++ (if red 2 then [5] else [])
    ++ (if has (fun o => decide (wOp o.2.1 ∈ [0x180, 0x181])) then [6] else [])
    ++ (if (streamRecs m).any (fun r => decide (field r 0 1 ∈ [3, 4])) then [7] else [])
    ++ (if has (fun o => decide (wOp o.2.1 = 0x105)) then [8] else [])

/-- Whether a field of a kind holds reserved bits. R79 gives a scalar register six bits and a tile three, the rest reserved; a mask
number out of its range is an operand error of step 9. A field that the op's row does not name is taken as reserved (DESIGN CHOICE,
log entry 86). -/
def fieldRes (k : FKind) (x : Nat) : Bool :=
  match k with
  | .s => decide (64 ≤ x)
  | .t => decide (8 ≤ x)
  | .num n => decide (2 ^ n ≤ x)
  | .none => decide (x ≠ 0)
  | _ => false

/-- Whether extension words hold reserved bits. -/
def extRes (code : Nat) (es : List CodeWord) : Bool :=
  let e := es.headD 0
  match code with
  | 0x081 => decide (wbits e 0 60 ≠ 0)
  | 0x0C8 => decide (wbits e 32 32 ≠ 0)
  | 0x102 => decide (wbits e 36 28 ≠ 0 ∨ wbits e 8 10 ≠ 0)
  | _ => decide (0x140 ≤ code ∧ code ≤ 0x144 ∧ wbits e 32 32 ≠ 0)

/-- Whether a field names a mask register that does not exist (R79). -/
def fieldRange (k : FKind) (x : Nat) : Bool := decide (k = .m ∧ 8 ≤ x)

/-- Whether an op word or its extension words hold reserved bits (R79, R80). With MK = 1 every Whisk op names a mask in C[11:9]. -/
def wordRes (o : Nat × CodeWord × List CodeWord) : Bool :=
  let w := o.2.1
  match opSpec (wOp w) with
  | none => false
  | some p =>
    let cMask := p.c ||| (if 0x0C0 ≤ p.code ∧ p.code ≤ 0x0CB ∧ wFl w / 2 = 1 then 0xE00 else 0)
    (!p.fmt && decide (wFmt w ≠ 0)) || decide (wFl w &&& (3 - p.fl) ≠ 0) || extRes p.code o.2.2
      || (match p.form with
          | 0 => fieldRes p.d (wD w) || fieldRes p.a (wA w) || fieldRes p.b (wB w) || decide (wC w &&& (0xFFF - cMask) ≠ 0)
          | 1 => fieldRes p.d (wD w) || decide (wbits w 32 4 ≠ 0)
          | _ => decide (wbits w 0 48 ≠ 0))

/-- Step 6: reserved bits in the header, section entries, records and op words. SFLAGS [31:2] of the determinism section are
reserved bits of a record, so they are refused here and not as a summary that differs (DESIGN CHOICE, log entry 86). -/
def reservedBits (m : Container) : Bool :=
  decide (field m.bytes 0x24 28 ≠ 0) || m.secs.any (fun e => decide (2 ≤ e.sflags ∨ e.res ≠ 0))
    || (tensorRecs m).any (fun r => decide (8 ≤ field r 4 4 ∨ field r 0x1C 4 ≠ 0))
    || (streamRecs m).any (fun r => decide (field r 1 1 ≠ 0 ∨ 2 ^ 20 ≤ field r 4 4 ∨ field r 8 8 ≠ 0))
    || decide (4 ≤ field (secBytes m 5) 12 4) || (opsOf (codeOf m).length 0 (codeOf m)).any wordRes

/-! ### Step 7: sections (R71, R74 to R76) -/

/-- Record size of a section whose records are fixed. -/
def recordSize (type : Nat) : Nat := if type = 1 then 32 else if type = 2 then 16 else if type = 4 then 8 else 1

/-- Most records of a section. -/
def recordMax (type : Nat) : Nat :=
  if type = 1 ∨ type = 2 then 4096 else if type = 3 then 2 ^ 32 else if type = 4 then 1048576 else 2 ^ 64

/-- One section entry on its own. -/
def sectionBad (m : Container) (e : SecEntry) : Bool :=
  let opt := decide (e.sflags % 2 = 1)
  let tableEnd := 0x80 + 32 * m.secs.length
  decide (e.offset % (if e.type = 3 then 128 else 8) ≠ 0) || decide (e.offset < tableEnd)
    || decide (m.bytes.length < e.offset + e.length)
    || (if 1 ≤ e.type ∧ e.type ≤ 6 then
          (opt && decide (e.type ≠ 6))
            || (if e.type = 5 then decide (e.count ≠ 1 ∨ e.length < 16)
                else decide (e.length ≠ e.count * recordSize e.type ∨ recordMax e.type < e.count))
        else !opt)

/-- Whether two sections overlap. -/
def overlapping (a b : SecEntry) : Bool := decide (a.offset < b.offset + b.length ∧ b.offset < a.offset + a.length)

/-- A tensor record outside R71. -/
def tensorBad (m : Container) (r : List Byte) : Bool :=
  let t := tensorOfRec r
  decide (8 < field r 0 1 ∨ t.rank < 1 ∨ 4 < t.rank ∨ 2 < t.level ∨ 2 < t.hint) || decide (0 ∈ t.dims)
    || (t.dims.drop t.rank).any (fun d => decide (d ≠ 1)) || (!t.init && decide (t.initOff ≠ 0))
    || (t.init && decide ((secBytes m 3).length < t.initOff + tensorBytes t))

/-- A stream record outside R76. -/
def streamBad (ts : List Tensor) (r : List Byte) : Bool :=
  let d := streamOfRec r
  decide (d.kind < 1 ∨ 4 < d.kind)
    || (match ts[d.tensor]? with
        | none => true
        | some t => decide (t.level ≠ 2) || decide (3 ≤ d.kind ∧ t.fmt ≠ .fp64))
    || (if d.kind ≤ 2 then decide (0xFFEFF < d.id) else decide (255 < d.id))

/-- Step 7. -/
def sectionsBad (m : Container) : Bool :=
  let n := field m.bytes 0x18 4
  let ts := (tensorRecs m).map tensorOfRec
  decide (n < 3 ∨ 7 < n) || m.secs.any (sectionBad m)
    || (List.range m.secs.length).any (fun i => (List.range i).any (fun j =>
        match m.secs[i]?, m.secs[j]? with
        | some a, some b => overlapping a b || decide (a.type = b.type)
        | _, _ => false))
    || [1, 4, 5].any (fun t => m.secs.all (fun e => decide (e.type ≠ t)))
    || (tensorRecs m).any (tensorBad m) || (streamRecs m).any (streamBad ts)

/-! ### Step 9: operands (R79, R82, R86, R93, R120, R126) -/

/-- Binary subcodes in order. -/
def binOps : List BinOp := [.add, .sub, .mul, .div, .max, .min, .copysign]

/-- Whether C and FMT of a word name a reduction of Table 5.3. -/
def redWord (f : Fmt) (c : Nat) : Bool :=
  match ([RedMode.plain, .exact, .repro] : List RedMode)[c % 4]?, ([RedOp.sum, .max, .min] : List RedOp)[c / 4 % 4]? with
  | some mode, some op => redAccepts mode op f
  | _, _ => false

/-- Whether subcode and format of an op are ones its table lists. -/
def subcodeOk (code : Nat) (f : Fmt) (c : Nat) : Bool :=
  match code with
  | 0x004 => decide (c % 16 ≤ 13)
  | 0x007 => decide (c ≤ 4)
  | 0x008 | 0x009 => decide (c ≤ 1)
  | 0x044 => decide (c % 4 ≤ 2)
  | 0x080 => (tileTypeOf f).isSome
  | 0x081 => decide (f ≠ .int32)
  | 0x0C1 => (binOps[c % 16]?).any (fun o => binAccepts o f)
  | 0x0C2 => isLong f
  | 0x0C3 => (([UnOp.neg, .abs, .sqrt] : List UnOp)[c % 16]?).any (fun o => unAccepts o f)
  | 0x0C4 => decide (c % 16 ≤ 5) && actAccepts f
  | 0x0C6 => decide (c % 16 ≤ 3)
  | 0x0C8 => decide (c % 16 ≤ 5 ∨ c % 16 = 15)
  | 0x0C9 | 0x140 | 0x141 => redWord f c
  | 0x105 => decide (1 ≤ c % 16 ∧ c % 16 ≤ 8)
  | 0x1C3 => decide (c % 4 ≤ 2)
  | _ => true

/-- Whether the extension words are of values that the op defines. -/
def extOk (code : Nat) (es : List CodeWord) : Bool :=
  let e := es.headD 0
  match code with
  | 0x081 => decide (wbits e 60 4 ≤ 7)
  | 0x102 => decide (wbits e 0 8 ≠ 0)
  | _ =>
    if 0x140 ≤ code ∧ code ≤ 0x144 then decide (wbits e 0 32 % 4096 = 0 ∧ wbits e 0 32 ≤ 262144) else true

/-- Whether the numbers of an op name what the module declares. -/
def namesOk (m : Module) (w : CodeWord) : Bool :=
  let kindIn := fun (i : Nat) (ks : List Nat) => (m.streams[i]?).any (fun d => decide (d.kind ∈ ks))
  match wOp w with
  | 0x00A => decide (wA w < m.tensors.length)
  | 0x105 => (m.tensors[wA w]?).any (fun t => decide (t.level = 2))
  | 0x1C0 => decide (wB w % 256 ≠ 0)
  | 0x1C4 => kindIn (wA w) [1, 3]
  | 0x1C5 => kindIn (wD w) [2, 4]
  | _ => true

/-- Loop bodies of a code section: first word and end. -/
def bodiesOf (ops : List (Nat × CodeWord × List CodeWord)) : List (Nat × Nat) :=
  (ops.filter (fun o => decide (wOp o.2.1 = 0x005))).map (fun o => (o.1 + 1, o.1 + 2 + wB o.2.1))

/-- The bodies that hold a word. -/
def bodiesAt (bodies : List (Nat × Nat)) (i : Nat) : List (Nat × Nat) := bodies.filter (fun b => decide (b.1 ≤ i ∧ i < b.2))

/-- Loops and branches: bodies end at an op, lie in one another and at most eight deep; a branch stays in its body. -/
def flowOk (ops : List (Nat × CodeWord × List CodeWord)) : Bool :=
  let bodies := bodiesOf ops
  let starts := ops.map (fun o => o.1)
  bodies.all (fun b => decide (b.2 ∈ starts) && (bodiesAt bodies (b.1 - 1)).all (fun x => decide (b.2 ≤ x.2))
      && decide ((bodiesAt bodies (b.1 - 1)).length < 8))
    && (ops.filter (fun o => decide (wOp o.2.1 = 0x006))).all (fun o =>
      let to' := (o.1 : Int) + 1 + toSigned 32 (wbits o.2.1 0 32)
      decide (0 ≤ to') && decide (to'.toNat ∈ starts) && decide (bodiesAt bodies to'.toNat = bodiesAt bodies o.1))

/-- Step 9. -/
def operandsBad (m : Module) : Bool :=
  let ops := opsOf m.code.length 0 m.code
  ops.any (fun o =>
    match opSpec (wOp o.2.1) with
    | none => true
    | some p =>
      decide (o.2.2.length ≠ p.ext) || fieldRange p.d (wD o.2.1)
        || (p.fmt && (match fmtOf (wFmt o.2.1) with | none => true | some f => !subcodeOk p.code f (wC o.2.1)))
        || (!p.fmt && !subcodeOk p.code .fp64 (wC o.2.1)) || !extOk p.code o.2.2 || !namesOk m o.2.1)
    || !flowOk ops
    || (match ops.getLast? with
        | some o => decide (wOp o.2.1 ≠ 0x001) || decide (bodiesAt (bodiesOf ops) o.1 ≠ [])
        | none => true)

/-! ### Step 10: capacity (R70, R138, R142, R158) -/

/-- A tensor declaration with its number. -/
abbrev Numbered := Nat × Tensor

/-- What an instance takes, in whole pages. -/
def paged (t : Tensor) : Nat := roundUp (tensorBytes t) pageBytes

/-- Bytes of all instances of a tensor in the stacks: 4,000 of an L0 tensor, eight of an L1 tensor, one of an L2 tensor. -/
def pagedAll (t : Tensor) : Nat := (if t.level = 0 then 4000 else if t.level = 1 then 8 else 1) * paged t

/-- Bytes of a die's Pantry level that a tensor's instances there take: one, or one for each of the die's 500 workers. -/
def dieBytes (t : Tensor) : Nat := (if t.level = 0 then 500 else 1) * tensorBytes t

/-- Places the tensors that are candidates for a level, in declaration order: with an amount already taken, `put` says whether a
tensor fits and what is then taken. The amount at the end and the tensors that go to the level below; none where one that may not
spill does not fit (R158). -/
def placeAll {α : Type} (put : α → Tensor → Option α) : α → List Numbered → Option (α × List Numbered)
  | n, [] => some (n, [])
  | n, t :: ts =>
    match put n t.2 with
    | some m => placeAll put m ts
    | none => if t.2.spill then (placeAll put n ts).map (fun r => (r.1, t :: r.2)) else none

/-- Declared tensors of a level. -/
def ofLevel (m : Module) (l : Nat) : List Numbered := (m.tensors.zipIdx.map (fun x => (x.2, x.1))).filter (fun t => decide (t.2.level = l))

/-- Candidates of a level in declaration order: those declared there and those that have come down. That the two are taken in one
declaration order is DEDUCED (log entry 87). -/
def candidatesAt (m : Module) (l : Nat) (down : List Numbered) : List Numbered :=
  (ofLevel m l ++ down).mergeSort (fun a b => decide (a.1 ≤ b.1))

/-- L0 of one worker: 896 KiB, each tensor at a multiple of 256. -/
def putL0 (n : Nat) (t : Tensor) : Option Nat := if n + tensorBytes t ≤ 917504 then some (n + roundUp (tensorBytes t) 256) else none

/-- L1: bytes of a die, keep-hinted bytes of a die, bytes of the context area (R70). -/
def putL1 (free : Nat) (n : Nat × Nat × Nat) (t : Tensor) : Option (Nat × Nat × Nat) :=
  let keep := n.2.1 + (if t.hint = 1 then dieBytes t else 0)
  if n.1 + dieBytes t ≤ 67108864 ∧ keep ≤ 33554432 ∧ n.2.2 + pagedAll t ≤ free then
    some (n.1 + dieBytes t, keep, n.2.2 + pagedAll t)
  else none

/-- L2: bytes of the context area. -/
def putL2 (free n : Nat) (t : Tensor) : Option Nat := if n + pagedAll t ≤ free then some (n + pagedAll t) else none

/-- Bytes that a ring peer lends to a module that may use them (R159). -/
def peerBytes (s : State) (m : Module) : Nat :=
  if m.features / 2 ^ 9 % 2 = 1 ∧ rd s 0x303000 ≠ 0xFFFF ∧ rd s 0x303000 / 8 = rd s 0x400100 / 8
      ∧ Config.loanMatched (rd s 0x303000) (rd s 0x303001) = true then rd s 0x303001 * 2 ^ 30 else 0

/-- Step 10: the context area that the module takes, and the tensors that are not at their own level, with the level each has gone to (3: the
ring peer). L1 instances come first, then shadow copies, then L2 (R142). None where the module does not fit. -/
def placeTensors (s : State) (m : Module) (free : Nat) : Option (Nat × List (Nat × Nat)) :=
  match placeAll putL0 0 (ofLevel m 0) with
  | none => none
  | some (_, d0) =>
    match placeAll (putL1 free) (0, 0, 0) (candidatesAt m 1 d0) with
    | none => none
    | some (n1, d1) =>
      let shadow := (m.streams.filter (fun d => decide (d.kind = 1))).foldl (fun n d =>
        n + 2 * (((m.tensors[d.tensor]?).map paged).getD 0)) 0
      if free < n1.2.2 + shadow then none
      else match placeAll (putL2 free) (n1.2.2 + shadow) (candidatesAt m 2 d1) with
        | none => none
        | some (n2, d2) =>
          if d2.foldl (fun n t => n + pagedAll t.2) 0 ≤ peerBytes s m then
            some (n2, (d0.filter (fun t => t ∉ d1)).map (fun t => (t.1, 1)) ++ (d1.filter (fun t => t ∉ d2)).map (fun t => (t.1, 2))
              ++ d2.map (fun t => (t.1, 3)))
          else none

/-- Step 10. -/
def capacityOk (s : State) (m : Module) (free : Nat) : Bool := (placeTensors s m free).isSome

/-! ### Step 11: the summary (R77) -/

/-- Mark of an op. -/
def markOf (o : Nat × CodeWord × List CodeWord) : Nat := ((opSpec (wOp o.2.1)).map (·.mark)).getD 0

/-- The determinism summary computed from a code section. -/
def summaryOf (code : List CodeWord) : List Byte :=
  let ops := opsOf code.length 0 code
  let count := fun (k : Nat) => (ops.filter (fun o => decide (markOf o = k))).length
  let plain := ops.any (fun o => decide (wOp o.2.1 ∈ [0x0C9, 0x140, 0x141] ∧ wC o.2.1 % 16 = 0 ∧ (wFmt o.2.1 ≤ 5 ∨ wFmt o.2.1 = 8)))
  let short := ops.any (fun o => decide (wOp o.2.1 = 0x0C5 ∧ 3 ≤ wFmt o.2.1 ∧ wFmt o.2.1 ≤ 5))
  natLe 4 (count 0) ++ natLe 4 (count 2) ++ natLe 4 (count 1) ++ natLe 4 (bit plain + 2 * bit short)
    ++ (ops.filter (fun o => decide (markOf o ≠ 0))).flatMap (fun o => natLe 4 o.1)

/-! ### The checks in order -/

/-- The digest of a container: its own field taken as zero. -/
def containerDigest (bs : List Byte) : Nat := sha512 (bs.take 0x40 ++ List.replicate 64 0 ++ bs.drop 0x80)

/-- The first check of Table 3.14 that fails, as its step. `n` is the job's device count, `free` the free context area. -/
def loadCheck (s : State) (bs : List Byte) (n free : Nat) : Option Nat :=
  let m := parseContainer bs
  let minD := field bs 0x1C 4
  let maxD := field bs 0x20 4
  let feats := field bs 8 8
  if field bs 0 4 ≠ 0x4E454F4E ∨ field bs 4 2 ≠ 1 ∨ field bs 0x10 8 ≠ bs.length then some 1
  else if containerDigest bs ≠ field bs 0x40 64 then some 2
  else if field bs 6 1 ≠ 1 ∨ field bs 7 1 ≠ 0 then some 3
  else if 2 ^ 11 ≤ feats ∨ (usedFeatures m).any (fun b => decide (feats / 2 ^ b % 2 = 0)) = true then some 4
  else if minD = 0 ∨ 65536 < minD ∨ maxD < minD ∨ 65536 < maxD ∨ n < minD ∨ maxD < n then some 5
  else if reservedBits m then some 6
  else if sectionsBad m then some 7
  else if (opsOf (codeOf m).length 0 (codeOf m)).any (fun o => (opSpec (wOp o.2.1)).isNone) then some 8
  else if operandsBad (moduleOf m) then some 9
  else if !capacityOk s (moduleOf m) free then some 10
  else if summaryOf (codeOf m) ≠ secBytes m 5 then some 11
  else none

end Sys2Proof.Machine
end

