-- ==== Sys2Proof/Machine/Load.lean ====
section
/-! DEFINITION. What the commands of a context's streams do once they are performed (Table 12.5): LOAD, RUN, HALT, INPUT,
OUTPUT_RESEND, REG_MEM, DEREG_MEM, BULK, the entry commands; and STREAM_OPEN, STREAM_CLOSE. How a datagram gets there, and how
its COMPLETION leaves, stands in `Eth`. -/

namespace Sys2Proof.Machine

open Sys2Proof

/-- How a command ends: status, DETAIL and the data after the completion payload; none while it goes on. -/
abbrev CmdEnd := Option (Nat × Nat × List Byte)

/-- OK with a DETAIL. -/
def endOk (detail : Nat) : CmdEnd := some (0, detail, [])

/-- Another status. -/
def endWith (status detail : Nat) : CmdEnd := some (status, detail, [])

/-! ### LOAD (R88 to R90) -/

/-- The translation key of a module (R89). -/
def translationKey (s : State) (digest : Nat) : Nat := digest + 2 ^ 512 * rd s 0x501000 + 2 ^ 544 * rd s 0x100200

/-- The least recently used entries give way until the cache fits. -/
def fitCache : Nat → List (Nat × Nat × Nat) → List (Nat × Nat × Nat)
  | _, [] => []
  | cap, x :: xs => if x.2.2 ≤ cap then x :: fitCache (cap - x.2.2) xs else []

/-- A load looks for its key among the entries of its own context, by its serial number (R90). A miss stores an entry, whose size in
bytes is the translator's and free. -/
def useCache (s : State) (id key : Nat) : State :=
  let id := (getC s id).serial
  let mine := fun (x : Nat × Nat × Nat) => decide (x.1 = id ∧ x.2.1 = key)
  match s.pkg.xcache.find? mine with
  | some x => incr (setXcache s (x :: s.pkg.xcache.filter (fun y => !mine y))) 0x501002 1
  | none =>
    let d := drawNat s
    setXcache d.2 (fitCache (if gradeA s then 2 ^ 31 else 2 ^ 30) ((id, key, d.1) :: s.pkg.xcache))

/-- Context pages that are assigned anew are zero; what belonged to the module before is gone (R142, R147). `lower` names the tensors that
spill and the level each goes to (R158), `lender` the ring peer that LOAN_PEER names. -/
def placeModule (c : Context) (m : Module) (lower : List (Nat × Nat)) (lender : Nat) : Context :=
  { c with
    lower := lower.foldl (fun t x => tset 0 t x.1 x.2) [], lender := lender, peerLost := false, noCommit := false,
    mod := some m, modState := .translating, haltStream := none, workers := [], step := 0, seed := 0, vmem := [], gBad := [], pages := [],
    shadows := [], inputs := [], outs := [], regs := [], replDecl := [], replicas := [], replLines := [], coll := none,
    collSeq := 0, collIn := [], checks := [], capture := c.capture.map (fun g => { g with todo := [] }), outDigest := [], souts := [],
    bulkIn := [], mr4 := extendMr c.mr4 (natLe 64 m.digest) }

/-- LOAD. `a.bytes` is what the pull from the named range returns. -/
def loadCmd (s : State) (id : Nat) (a : LoadArgs) : State × CmdEnd :=
  let c := getC s id
  if moduleRuns c ∨ c.modState = .translating then (s, endWith 0x0511 1)
  else match a.bytes with
    | none => (s, endWith 0x0511 3)
    | some bs =>
      let free := areaCap s - (areaUse s - contextUse c)
      match loadCheck s bs (max 1 c.n) free with
      | some step => (s, endWith 0x0509 step)
      | none =>
        let m := moduleOf (parseContainer bs)
        let lower := ((placeTensors s m free).map (fun x => x.2)).getD []
        let s := dropRemote (dropFences (dropLadle (dropSieves (dropPages s c (heldPages c)) id) id) id) id
        let s := mapContext (setC s id (placeModule (getC s id) m lower (rd s 0x303000))) id
        (useCache s id (translationKey s m.digest), none)

/-! ### RUN (R69, R86, R312, R314, R315) -/

/-- Bytes that an INIT tensor takes from the constants (Table 3.5). -/
def initBytes (m : Module) (t : Tensor) : List Byte := (m.consts.drop t.initOff).take (tensorBytes t)

/-- INIT tensors of one level, with their numbers. -/
def initTensors (m : Module) (level : Nat) : List (Nat × Tensor) :=
  (List.range m.tensors.length).filterMap (fun i =>
    (m.tensors[i]?).bind (fun t => if t.init = true ∧ t.level = level then some (i, t) else none))

/-- A worker at module start (Table 3.3): its scratchpad keeps what no INIT tensor fills. -/
def startWorker (c : Context) (k : Worker) : Worker :=
  ((initTensors (modOf c) 0).filter (fun t => decide (lowerOf c t.1 = 0))).foldl (fun w t =>
    l0Fill w (l0Base c t.1) (initBytes (modOf c) t.2)) { Worker.initial with run := .running, l0Bad := k.l0Bad, l0 := k.l0 }

/-- What a module start stores in the context's memory, by address: every instance of an INIT tensor of L1 or L2, and of an L0 tensor that has
spilled. -/
def startRanges (c : Context) : List (Nat × List Byte) :=
  let m := modOf c
  ((initTensors m 0).filter (fun t => decide (lowerOf c t.1 ≠ 0))).flatMap (fun t =>
      (List.range 4000).map (fun i => (tensorBase c i t.1, initBytes m t.2)))
    ++ (initTensors m 1).flatMap (fun t => (List.range 8).map (fun d => (tensorBase c (500 * d) t.1, initBytes m t.2)))
    ++ (initTensors m 2).map (fun t => (tensorBase c 0 t.1, initBytes m t.2))

/-- The context as its module starts afresh. Inputs sent ahead of the first RUN of a loaded module stay. -/
def freshRun (c : Context) : Context :=
  { c with
    workers := (List.range 4000).map (fun i => (i, startWorker c (getW c i))), step := 0, seed := erd c 0x901000,
    shadows := if c.modState = .loaded then c.shadows else [], inputs := [], outs := [], replDecl := [], replicas := [], replLines := [],
    coll := none, collSeq := 0, collIn := [], checks := [], corruptSinceCommit := false, noCommit := false, outDigest := [], souts := [],
    bulkIn := [] }

/-- A module starts afresh: its workers, then its INIT tensors (R69). -/
def freshStart (s : State) (id : Nat) : State :=
  let c := getC s id
  (startRanges c).foldl (fun s r => storeRange s id r.1 r.2) (setC s id (freshRun c))

/-- Whether the RUN resumes what a restore has set (R339). -/
def resumes (s : State) (id : Nat) : Bool := s.ckpt.resumeGen.isSome && decide (jobCtx s = some id)

/-- DATA of EPOCH_START (Table 13.5). -/
def epochStart (s : State) (c : Context) : List Byte :=
  natLe 12 (rd s 0x100200) ++ natLe 4 0 ++ natLe 4 (rd s 0x501000) ++ natLe 4 (max 1 c.n) ++ natLe 4 c.rank ++ natLe 4 0
    ++ natLe 8 c.seed ++ natLe 64 (modOf c).digest

/-- The GAP after a brown-out: the SEQ after the last one recovered; how many were lost is not known (R314). -/
def brownGap (s : State) (id : Nat) : State :=
  match newestBrown s with
  | none => s
  | some b =>
    if field b.replay 8 4 = 0 then s
    else
      let d := drawNat s
      incr (putReplay d.2 id 0x0B 0 0 0 (natLe 4 (field b.replay 4 4 + field b.replay 8 4) ++ natLe 4 d.1)) 0x900202 1

/-- A RUN of the recorded context begins a log epoch (R312). Any other RUN of it ends recording. -/
def beginEpoch (s : State) (id : Nat) : State :=
  if replayCtx s ≠ id then s
  else if rd s 0x900100 ≠ 1 then { s with ckpt := { s.ckpt with rrec := false } }
  else
    let first := decide (rd s 0x900200 = 0)
    let s := wr (incr { s with ckpt := { s.ckpt with rrec := true, rplay := false } } 0x900200 1) 0x900201 0
    let s := putReplay s id 0x01 (getC s id).step 0 0 (epochStart s (getC s id))
    if first then brownGap s id else s

/-- Every worker starts, on the cycle-counted part of the run: afresh, or from a restored generation. The workers of a context
that is not the running one start at its next SCHEDULE. -/
def startRun (s : State) (id stream : Nat) : State :=
  let s := if resumes s id then modC { s with ckpt := { s.ckpt with resumeGen := none } } id resumeAll else freshStart s id
  let now : ModState := if runningId s = some id then .running else .paused
  let s := modC s id (fun c => startStepClock s { c with modState := now, runStream := stream, haltStream := none })
  fetchInputs (beginEpoch s id) id

/-- The first INIT range of a fresh start that meets a page whose writes wait: address and length (R151, R153). -/
def runWaits (s : State) (id : Nat) : Option (Nat × Nat) :=
  if resumes s id then none
  else ((startRanges (getC s id)).find? (fun r => rangeHeld (getC s id) r.1 r.2.length)).map (fun r => (r.1, r.2.length))

/-- RUN starts the module; it completes at once in the running context, else with the switch that makes it so. Where a page that it fills is
protected, the RUN waits for the Ladle's copy. -/
def launch (s : State) (id stream : Nat) : State × CmdEnd :=
  match runWaits s id with
  | some r => (holdRange s id r.1 r.2, none)
  | none =>
    let s := startRun s id stream
    (s, if (getC s id).modState = .paused then none else endOk 0)

/-- States of a module from which a RUN starts it. -/
def startable (c : Context) : Bool :=
  match c.modState with
  | .loaded => true
  | .ended => true
  | .halted _ => true
  | _ => false

/-- RUN. -/
def runCmd (s : State) (id stream : Nat) : State × CmdEnd :=
  let c := getC s id
  if !startable c then (s, endWith 0x0511 1)
  else if deviceState s = 3 then (s, endWith 0x0A06 0)
  else if replayCtx s = id ∧ rd s 0x900100 = 2 then
    if rd s 0x900106 ≠ 0 ∧ (resumes s id = false ∨ s.ckpt.resumeGen ≠ some (rd s 0x900106)) then (s, endWith 0x0511 1)
    else ({ s with ckpt := { s.ckpt with rrec := false, rplay := false, rin := [], rinEnd := false } }, none)
  else launch { s with ckpt := { s.ckpt with rplay := s.ckpt.rplay && decide (replayCtx s ≠ id) } } id stream

/-! ### The replay log as it is read (R315) -/

/-- Log records as read. -/
def logRecords (n : Nat) (rs : List (Nat × Nat × Nat × Nat × List Byte)) : List ReplayRec :=
  (List.range rs.length).filterMap (fun i => (rs[i]?).map (fun r => ⟨r.1, n + i, r.2.1, r.2.2.1, r.2.2.2.1, r.2.2.2.2⟩))

/-- Step 1: translation key, N and rank of the log's run are the run's own. -/
def epochMatches (s : State) (c : Context) (r : ReplayRec) : Bool :=
  let x := epochStart s c
  decide (r.type = 0x01 ∧ r.data.take 32 = x.take 32 ∧ (r.data.drop 40).take 64 = x.drop 40)

/-- The log from the CKPT_MARK of a generation on, and the seed in effect at its step. The mark was written at the commit, so records before it
whose logical point is not before its step belong to what the run replays (DEDUCED, log entry 50). -/
def seekMark (gen seed : Nat) (rs : List ReplayRec) : Option (Nat × List ReplayRec) :=
  match rs.findIdx? (fun r => decide (r.type = 0x0A ∧ r.key = gen)) with
  | none => none
  | some i =>
    let step := ((rs[i]?).map (·.step)).getD 0
    some ((rs.take i).foldl (fun n r => if r.type = 0x08 ∧ r.step ≤ step then field r.data 0 8 else n) seed,
      (rs.take i).filter (fun r => decide (step ≤ r.step)) ++ rs.drop i)

/-- The seed of a replay, from its log. -/
def replaySeed (s : State) (id seed : Nat) : State :=
  modC s id (fun c => { ewr c 0x901000 seed with seed := seed })

/-- A RUN that waits for its log: refused, still waiting, or started. `stream` is the RUN's. -/
def tryReplay (s : State) (id stream : Nat) : State × CmdEnd :=
  match s.ckpt.rin with
  | [] => if s.ckpt.rinEnd then (s, endWith 0x0905 0) else (s, none)
  | r :: rs =>
    if !epochMatches s (getC s id) r then ({ s with ckpt := { s.ckpt with rin := [] } }, endWith 0x0903 0)
    else
      let gen := rd s 0x900106
      let start := if gen = 0 then some (field r.data 32 8, rs) else seekMark gen (field r.data 32 8) rs
      match start with
      | none => if s.ckpt.rinEnd then ({ s with ckpt := { s.ckpt with rin := [] } }, endWith 0x0905 0) else (s, none)
      | some (seed, rest) => launch (replaySeed { s with ckpt := { s.ckpt with rin := rest, rplay := true } } id seed) id stream

/-! ### HALT (R297) -/

/-- HALT: at the next step point, or at once behind a fence. -/
def haltCmd (s : State) (id stream mode : Nat) : State × CmdEnd :=
  let c := getC s id
  if 1 < mode then (s, endWith 0x0511 1)
  else if !moduleRuns c then (s, endOk 0)
  else if mode = 0 ∧ c.modState = .running then (modC s id (fun c => { c with haltStream := some stream }), none)
  else (haltCtx (drawNat s).2 id ((drawNat s).1 % 2 ^ 32) (some stream), none)

/-! ### INPUT and OUTPUT_RESEND (R296) -/

/-- INPUT. -/
def inputCmd (s : State) (id : Nat) (a : InputArgs) : State × CmdEnd :=
  let c := getC s id
  match declOf c a.decl [1] with
  | none => (s, endWith 0x0511 1)
  | some d =>
    let mine := fun (x : ShadowCopy) => decide (x.decl = a.decl ∧ x.step = a.step)
    if ((tensorOf c d.tensor).map tensorBytes).getD 0 < a.offset + a.data.length then (s, endWith 0x0503 0)
    else if a.step < c.step ∨ (a.step = c.step ∧ (a.decl, a.step) ∈ c.inputs) then (s, endWith 0x0507 0)
    else if (c.shadows.find? mine).isNone ∧ 2 ≤ (c.shadows.filter (fun x => decide (x.decl = a.decl))).length then (s, endWith 0x0510 0)
    else
      let x := (c.shadows.find? mine).getD ⟨a.decl, a.step, false, []⟩
      let x := { x with last := x.last || a.last, data := wrBytes x.data a.offset a.data }
      let s := setC s id { c with shadows := c.shadows.filter (fun y => !mine y) ++ [x] }
      (if moduleRuns c = true ∧ a.step = c.step then fetchInput s id a.decl else s, endOk 0)

/-- OUTPUT_RESEND: the latest OUTPUT of the declaration. -/
def resendCmd (s : State) (id decl step : Nat) : State × CmdEnd :=
  let c := getC s id
  match declOf c decl [2] with
  | none => (s, endWith 0x0511 1)
  | some d =>
    match c.outs.find? (fun o => decide (o.decl = decl ∧ o.step = step)) with
    | none => (s, endWith 0x0508 0)
    | some o =>
      let e := getStream s false d.id
      (if e.state ≠ 0 ∧ e.ctx = id then sendOutput s d.id decl step o.bytes else s, endOk 0)

/-! ### Registrations and bulk transfers (R298, R303) -/

/-- R_Keys in use on the device. -/
def usedKeys (s : State) : List Nat := s.ctxs.flatMap (fun p => p.2.regs.map (fun r => r.rKey))

/-- An R_Key not in use, from a free number on. -/
def newKey (s : State) : State × Nat :=
  let d := drawNat s
  let used := usedKeys s
  (d.2, ((List.range (used.length + 1)).map (fun i => (d.1 + i) % 2 ^ 32)).find? (fun k => decide (k ∉ used)) |>.getD 0)

/-- An L2 tensor of the context, by its number. -/
def l2Tensor (c : Context) (t : Nat) : Option Tensor := (tensorOf c t).filter (fun x => decide (x.level = 2))

/-- REG_MEM. -/
def regCmd (s : State) (id : Nat) (a : RegMemArgs) : State × CmdEnd :=
  let c := getC s id
  match l2Tensor c a.tensor with
  | none => (s, endWith 0x0511 1)
  | some t =>
    if tensorBytes t < a.offset + a.length then (s, endWith 0x0503 0)
    else if 4096 ≤ c.regs.length then (s, endWith 0x0511 2)
    else
      let k := newKey s
      (modC k.1 id (fun c => { c with regs := c.regs ++ [⟨k.2, a.tensor, a.rights, a.offset, a.length, false⟩] }), endOk k.2)

/-- DEREG_MEM. -/
def deregCmd (s : State) (id key : Nat) : State × CmdEnd :=
  match (getC s id).regs.find? (fun r => decide (r.rKey = key)) with
  | none => (s, endWith 0x0511 3)
  | some r =>
    if r.busy then (s, endWith 0x0511 4)
    else (modC s id (fun c => { c with regs := c.regs.filter (fun r => decide (r.rKey ≠ key)) }), endOk 0)

/-- Whether the access tables let the RoCE engine reach a context's pages with a right (R298, R360). -/
def engineAdmits (s : State) (id right : Nat) : Bool := pageAdmits s (masterId 38 1) id right

/-- BULK: a write's bytes leave; both end at BULK_DONE. No byte leaves of a range that holds an uncorrectable error (R153). -/
def bulkCmd (s : State) (id : Nat) (a : BulkArgs) : State × CmdEnd :=
  let c := getC s id
  match l2Tensor c a.tensor with
  | none => (s, endWith 0x0511 1)
  | some t =>
    if 1 < a.op then (s, endWith 0x0511 1)
    else if tensorBytes t < a.local' + a.length then (s, endWith 0x0503 0)
    else if a.op = 1 then (s, none)
    else if !engineAdmits s id 0 then (localDenied s 38 1 id, none)
    else if rangeBad c (tensorBase c 0 a.tensor + a.local') a.length then (stackFault s id (tensorBase c 0 a.tensor + a.local'), none)
    else (sendRoce s id (tensorRead c 0 a.tensor a.local' a.length), none)

/-- The bytes of a bulk read arrive: at once, or with the next step point while a module runs (Table 13.5). -/
def bulkTake (s : State) (id : Nat) (b : BusyCmd) (a : BulkArgs) (data : List Byte) : State :=
  let c := getC s id
  let bs := padTo a.length data
  if moduleRuns c then
    logInput (modC s id (fun c => { c with bulkIn := c.bulkIn ++ [(a.tensor, a.local', bs)] })) id 0x06 c.step
      (b.stream * 2 ^ 32 + b.hdr.seq) 0 bs
  else storeRange s id (tensorBase c 0 a.tensor + a.local') bs

/-! ### Entry commands (R382) -/

/-- A dictionary request that arrives as a command: the reply follows the completion payload. -/
def entryCmd (s : State) (p : Path) (r : DRec) : State × CmdEnd :=
  let x := dictServe s p r (recEffect p r)
  (x.1, some (if x.2.result = 0 then 0 else 0x050C, x.2.result, replyBytes x.2))

/-- The path of a management datagram. -/
def mgmtPath (h : DgHdr) : Path := match h.relay with | some (d, _) => .relay d | none => .mgmt

/-! ### STREAM_OPEN and STREAM_CLOSE (R291, R303) -/

/-- Entries of a table that a command may name: most of them, and the last ID. -/
def idLimit (table : Nat) : Nat := if table = 0 then 0xFFF00 else 64

/-- STREAM_OPEN, all entries or none. -/
def openCmd (s : State) (a : OpenArgs) : State × CmdEnd :=
  let mg := decide (a.table = 1)
  let ids := (List.range a.count).map (fun i => a.firstId + i)
  if 1 < a.table ∨ a.credit = 0 ∨ 64 < a.credit ∨ a.count = 0 ∨ idLimit a.table < a.firstId + a.count then (s, endWith 0x0511 1)
  else if a.table = 0 ∧ (getC s a.ctx).live = false then (s, endWith 0x0702 0)
  else if ids.any (fun i => decide ((getStream s mg i).state ≠ 0)) then (s, endWith 0x050E 0)
  else if ids.any (fun i => decide (0xFFFF ≤ (getStream s mg i).gen)) then (s, endWith 0x050F 0)
  else
    let s := ids.foldl (fun s i =>
      setStream s mg i ⟨1, 1, a.ctx, (getStream s mg i).gen + 1, a.credit, 0, 0, a.peer, a.peerPort, []⟩) s
    let s := { s with
      eth := { s.eth with log := s.eth.log.filter (fun l => !(decide (l.mgmt = mg) && decide (l.stream ∈ ids))) },
      wen := { s.wen with mgmtGenKey := if mg then ids.foldl (fun t i => tset 0 t i (s.wen.mgmtKey.getD 0)) s.wen.mgmtGenKey
                                        else s.wen.mgmtGenKey } }
    (s, endOk (getStream s mg a.firstId).gen)

/-- STREAM_CLOSE: commands of the named streams complete with STREAM_CLOSED, and the entries become FREE. -/
def closeCmd (s : State) (a : CloseArgs) : State × CmdEnd :=
  let mg := decide (a.table = 1)
  if 1 < a.table ∨ a.count = 0 ∨ idLimit a.table < a.firstId + a.count then (s, endWith 0x0511 1)
  else
    (((List.range a.count).map (fun i => a.firstId + i)).foldl (fun s i =>
      if (getStream s mg i).state = 0 then s
      else
        let s := flushStream s mg i 0x050B 0 false
        setStream s mg i { getStream s mg i with state := 0 }) s, endOk 0)

end Sys2Proof.Machine
end

