-- ==== Sys2Proof/Machine/Eth.lean ====
section
/-! DEFINITION. The Ethernet port: how a datagram is checked, sequenced, performed and completed (R290 to R296), the datagram
commands themselves, the ends of long commands, relayed datagrams (R383), RoCEv2 and address resolution (R287, R298), and the
replay log's transfers (R313, R315). -/

namespace Sys2Proof.Machine

open Sys2Proof

/-! ### Steps 7 and 8 of Table 12.3 -/

/-- Step 7 for a payload: a reserved field is not zero. -/
def payloadRes : TCmd → Bool
  | .nop => false
  | .load a => decide (a.res ≠ 0)
  | .run => false
  | .halt _ res => decide (res ≠ 0)
  | .input a => decide (a.res ≠ 0)
  | .outputResend _ res _ => decide (res ≠ 0)
  | .regMem a => decide (a.res ≠ 0 ∨ 4 ≤ a.rights)
  | .deregMem _ res => decide (res ≠ 0)
  | .bulk a => decide (a.res ≠ 0)
  | .entryRead _ => false
  | .entryWrite _ => false
  | .mgmtRead _ => false
  | .mgmtWrite _ => false
  | .streamOpen a => decide (a.res ≠ 0 ∨ 4096 ≤ a.ctx ∨ (a.table = 1 ∧ a.ctx ≠ 0) ∨ 2 ^ 20 ≤ a.firstId)
  | .streamClose a => decide (a.res ≠ 0)
  | .context ctx res _ => decide (res ≠ 0 ∨ 4096 ≤ ctx)
  | .unassigned _ => false

/-- Step 7: reserved bits of the header and the payload. -/
def reservedBad (h : DgHdr) (c : TCmd) : Bool := decide (h.flagsRes ≠ 0 ∨ (h.mgmt = true ∧ h.ctx ≠ 0)) || payloadRes c

/-- Whether an opcode travels with MGMT = 1; none for an opcode that Table 12.5 does not assign. -/
def cmdMgmt : TCmd → Option Bool
  | .mgmtRead _ => some true
  | .mgmtWrite _ => some true
  | .streamOpen _ => some true
  | .streamClose _ => some true
  | .context _ _ (.other _) => none
  | .context _ _ _ => some true
  | .unassigned _ => none
  | _ => some false

/-- Payload bytes of a context command (Table 15.4). -/
def ctxLength : CtxCmd → Nat
  | .create => 4
  | .sessionKey _ => 516
  | .members n _ _ => 12 + 2 * n
  | .bind _ _ _ _ => 8
  | .schedule => 4
  | .bundleOpen _ _ _ => 16
  | .teardown => 4
  | .scrub => 4
  | .partition _ us => 5 + 2 * us.length
  | .unbind _ => 8
  | .other _ => 0

/-- Step 8: the LENGTH that an opcode calls for. -/
def cmdLength : TCmd → Nat
  | .nop => 0
  | .load _ => 24
  | .run => 0
  | .halt _ _ => 8
  | .input a => 16 + a.data.length
  | .outputResend _ _ _ => 8
  | .regMem _ => 24
  | .deregMem _ _ => 8
  | .bulk _ => 48
  | .entryRead r => recLen r
  | .entryWrite r => recLen r
  | .mgmtRead r => recLen r
  | .mgmtWrite r => recLen r
  | .streamOpen _ => 32
  | .streamClose _ => 16
  | .context _ _ c => ctxLength c
  | .unassigned _ => 0

/-- What a stream of a replaying context accepts (R315). -/
def replayAccepts : TCmd → Bool
  | .nop => true
  | .halt _ _ => true
  | .entryRead _ => true
  | _ => false

/-! ### Step 9 -/

/-- A context command that names a context acts on a live one (Table 15.9). -/
def needsLive : CtxCmd → Bool
  | .create => false
  | .scrub => false
  | .partition _ _ => false
  | _ => true

/-- CONTEXT_CMD (Table 15.4). -/
def ctxCommand (s : State) (id : Nat) (c : CtxCmd) : CmdRes :=
  if needsLive c && !(getC s id).live then .fail 0x0702 0
  else match c with
    | .create => ctxCreate s id
    | .sessionKey k => ctxSessionKey s id k
    | .members n rank ids => ctxMembers s id n rank ids
    | .bind num kind die half => ctxBind s id num kind die half
    | .schedule => ctxSchedule s id
    | .bundleOpen src dst off => ctxBundleOpen s id src dst off
    | .teardown => ctxTeardown s id
    | .scrub => ctxScrub s
    | .partition p us => ctxPartition s p us
    | .unbind num => ctxUnbind s id num
    | .other _ => .fail 0x0502 0

/-- Outcome of a context command as the end of its command. -/
def ofCmdRes (s : State) : CmdRes → State × CmdEnd
  | .done s d => (s, endOk d)
  | .fail st d => (s, endWith st d)
  | .long s => (s, none)

/-- Step 9: the command of a datagram is performed. -/
def performCmd (s : State) (h : DgHdr) (c : TCmd) : State × CmdEnd :=
  match c with
  | .nop => (s, endOk 0)
  | .load a => loadCmd s h.ctx a
  | .run => runCmd s h.ctx h.stream
  | .halt mode _ => haltCmd s h.ctx h.stream mode
  | .input a => inputCmd s h.ctx a
  | .outputResend decl _ step => resendCmd s h.ctx decl step
  | .regMem a => regCmd s h.ctx a
  | .deregMem k _ => deregCmd s h.ctx k
  | .bulk a => bulkCmd s h.ctx a
  | .entryRead r => entryCmd s (.tenant h.ctx) r
  | .entryWrite r => entryCmd s (.tenant h.ctx) r
  | .mgmtRead r => entryCmd s (mgmtPath h) r
  | .mgmtWrite r => entryCmd s (mgmtPath h) r
  | .streamOpen a => openCmd s a
  | .streamClose a => closeCmd s a
  | .context id _ cc => ofCmdRes s (ctxCommand s id cc)
  | .unassigned _ => (s, endWith 0x0502 0)

/-- Steps 7 to 9: the first check that fails, or the command. A stream of a replaying context takes few commands. -/
def runSteps (s : State) (h : DgHdr) (c : TCmd) : State × CmdEnd :=
  if reservedBad h c then (s, endWith 0x0501 0)
  else if cmdMgmt c ≠ some h.mgmt then (s, endWith 0x0502 0)
  else if h.length ≠ cmdLength c then (s, endWith 0x0503 0)
  else if !h.mgmt && replaying s h.ctx && !replayAccepts c then (s, endWith 0x0906 0)
  else performCmd s h c

/-! ### Completion and order (R293 to R295) -/

/-- The COMMAND record of a completed command (Table 13.5). -/
def logCommand (s : State) (h : DgHdr) (c : TCmd) (status : Nat) : State :=
  if !h.mgmt && recording s h.ctx then
    logInput { s with freeIdx := s.freeIdx + 1 } h.ctx 0x02 (cmdStep (getC s h.ctx) c) (h.stream * 2 ^ 32 + h.seq) h.ts
      (commandData s h c status)
  else s

/-- A command ends: its COMPLETION leaves, and a recording device logs it. -/
def finishCmd (s : State) (h : DgHdr) (c : TCmd) (e : Nat × Nat × List Byte) : State :=
  logCommand (complete s h.mgmt h.stream h e.1 e.2.1 e.2.2) h c e.1

/-- RX_NEXT moves over the command of a stream that starts. -/
def takeSeq (s : State) (h : DgHdr) : State :=
  let e := getStream s h.mgmt h.stream
  setStream s h.mgmt h.stream { e with rxNext := e.rxNext + 1 }

/-- A command starts: it ends at once, or goes on and holds its stream (R294). SEQ_EXHAUSTED and STREAM_HALTED come before
step 7. -/
def startCmd (s : State) (h : DgHdr) (c : TCmd) : State :=
  let s := takeSeq s h
  if 0xFFFFFF00 ≤ h.seq then complete s h.mgmt h.stream h 0x0504 0 []
  else if (getStream s h.mgmt h.stream).state = 2 then complete s h.mgmt h.stream h 0x0505 0 []
  else match runSteps s h c with
    | (s, some e) => finishCmd s h c e
    | (s, none) => { s with eth := { s.eth with busy := s.eth.busy ++ [⟨h.mgmt, h.stream, h, c⟩] } }

/-- Whether a long command holds a stream. -/
def streamBusy (s : State) (mgmt : Bool) (id : Nat) : Bool := s.eth.busy.any (fun b => decide (b.mgmt = mgmt ∧ b.stream = id))

/-- Commands held for a stream follow in order, as long as each is present and none holds the stream. -/
def drainStream : Nat → State → Bool → Nat → State
  | 0, s, _, _ => s
  | fuel + 1, s, mgmt, id =>
    if streamBusy s mgmt id then s
    else
      match s.eth.held.find? (fun x => decide (x.mgmt = mgmt ∧ x.stream = id ∧ x.hdr.seq = (getStream s mgmt id).rxNext)) with
      | none => s
      | some x => drainStream fuel (startCmd { s with eth := { s.eth with held := s.eth.held.erase x } } x.hdr x.cmd) mgmt id

/-- Slots of the reorder pool (R292). -/
def poolSlots : Nat := 32768

/-- A command waits: in a pool slot, or in its turn behind the command in progress. -/
def holdCmd (s : State) (h : DgHdr) (c : TCmd) (pool : Bool) : State :=
  { s with eth := { s.eth with held := s.eth.held ++ [⟨h.mgmt, h.stream, h, c, pool⟩] } }

/-- The stored completion of a duplicate is resent byte for byte. -/
def resendStored (s : State) (h : DgHdr) : State :=
  match s.eth.log.find? (fun l => decide (l.mgmt = h.mgmt ∧ l.stream = h.stream ∧ l.seq = h.seq)) with
  | some l => { s with eth := { s.eth with tx := s.eth.tx ++ [{ l.dg with relay := h.relay }] } }
  | none => s

/-- R293 for a datagram of a command or management stream. -/
def sequenceCmd (s : State) (h : DgHdr) (c : TCmd) : State :=
  let e := getStream s h.mgmt h.stream
  let held := s.eth.held.any (fun x => decide (x.mgmt = h.mgmt ∧ x.stream = h.stream ∧ x.hdr.seq = h.seq))
  if h.seq = e.rxNext then
    if streamBusy s h.mgmt h.stream then (if held then incr s 0x102203 1 else holdCmd s h c false)
    else drainStream (s.eth.held.length + 1) (startCmd s h c) h.mgmt h.stream
  else if e.rxNext < h.seq then
    if e.rxNext + e.credit ≤ h.seq then incr s 0x102204 1
    else if held || decide (poolSlots ≤ (s.eth.held.filter (fun x => x.pool)).length) then incr s 0x102203 1
    else holdCmd s h c true
  else if h.seq + 64 < e.rxNext then incr s 0x102205 1
  else resendStored s h

/-! ### Relayed replies (R383) -/

/-- Datagrams that go back by relay leave on VC0, sealed. -/
def flushRelay (s : State) : State :=
  (s.eth.tx.filter (fun d => d.relay.isSome)).foldl (fun s d =>
    match d.relay with
    | some (dev, tag) =>
      sendCtl s dev (.relayReply (ownId s) tag (wireBytes d))
    | none => s) { s with eth := { s.eth with tx := s.eth.tx.filter (fun d => d.relay.isNone) } }

/-! ### Arrival -/

/-- The first management stream: while none is open, a STREAM_OPEN under the enrolled management key is taken without one (log
entry 31). -/
def bootOpen (s : State) (h : DgHdr) (c : TCmd) : Bool :=
  h.mgmt && s.eth.mstreams.all (fun p => decide (p.2.state ≠ 1)) && h.tagOk && s.wen.mgmtKey.isSome
    && decide (h.version = 1 ∧ h.udpLen = 32 + h.length ∧ h.fromDev = false)
    && (match c with | .streamOpen _ => true | _ => false)

/-- A first STREAM_OPEN is answered on its stream where that is then open. -/
def bootCmd (s : State) (h : DgHdr) (c : TCmd) : State :=
  match runSteps s h c with
  | (s, some e) => if (getStream s true h.stream).state = 1 then finishCmd s h c e else s
  | (s, none) => s

/-- A datagram arrives. One that carries a command on a plant-timed stream is discarded. -/
def dgram (s : State) (h : DgHdr) (c : TCmd) : State :=
  if h.relay.isNone && !edUp s then s
  else if bootOpen s h c then flushRelay (bootCmd s h c)
  else
    let x := arrive s h
    if !x.2 then x.1
    else if (getStream x.1 h.mgmt h.stream).kind = 2 then x.1
    else flushRelay (sequenceCmd x.1 h c)

/-! ### The datagram commands -/

/-- NOP completes OK. -/
def execCmdNop (h : DgHdr) (s : State) : Out := .next (dgram s h .nop)

/-- LOAD (R88). -/
def execLoad (h : DgHdr) (a : LoadArgs) (s : State) : Out := .next (dgram s h (.load a))

/-- RUN. -/
def execRun (h : DgHdr) (s : State) : Out := .next (dgram s h .run)

/-- HALT with MODE 0. -/
def execHaltAtStepPoint (h : DgHdr) (res : Nat) (s : State) : Out := .next (dgram s h (.halt 0 res))

/-- HALT with MODE 1. -/
def execHaltAtOnce (h : DgHdr) (res : Nat) (s : State) : Out := .next (dgram s h (.halt 1 res))

/-- INPUT (R296). -/
def execInput (h : DgHdr) (a : InputArgs) (s : State) : Out := .next (dgram s h (.input a))

/-- OUTPUT_RESEND (R296). -/
def execOutputResend (h : DgHdr) (decl res step : Nat) (s : State) : Out := .next (dgram s h (.outputResend decl res step))

/-- REG_MEM (R303). -/
def execRegMem (h : DgHdr) (a : RegMemArgs) (s : State) : Out := .next (dgram s h (.regMem a))

/-- DEREG_MEM (R303). -/
def execDeregMem (h : DgHdr) (rKey res : Nat) (s : State) : Out := .next (dgram s h (.deregMem rKey res))

/-- BULK (R303). -/
def execBulk (h : DgHdr) (a : BulkArgs) (s : State) : Out := .next (dgram s h (.bulk a))

/-- ENTRY_READ (R382). -/
def execEntryRead (h : DgHdr) (r : DRec) (s : State) : Out := .next (dgram s h (.entryRead r))

/-- ENTRY_WRITE (R382). -/
def execEntryWrite (h : DgHdr) (r : DRec) (s : State) : Out := .next (dgram s h (.entryWrite r))

/-- MGMT_ENTRY_READ (R382). -/
def execMgmtEntryRead (h : DgHdr) (r : DRec) (s : State) : Out := .next (dgram s h (.mgmtRead r))

/-- MGMT_ENTRY_WRITE (R382). -/
def execMgmtEntryWrite (h : DgHdr) (r : DRec) (s : State) : Out := .next (dgram s h (.mgmtWrite r))

/-- STREAM_OPEN (R291). -/
def execStreamOpen (h : DgHdr) (a : OpenArgs) (s : State) : Out := .next (dgram s h (.streamOpen a))

/-- STREAM_CLOSE (R291). -/
def execStreamClose (h : DgHdr) (a : CloseArgs) (s : State) : Out := .next (dgram s h (.streamClose a))

/-- CREATE (R355). -/
def execCreate (h : DgHdr) (ctx res : Nat) (s : State) : Out := .next (dgram s h (.context ctx res .create))

/-- SESSION_KEY (R356). -/
def execSessionKey (h : DgHdr) (ctx res : Nat) (key : Option Nat) (s : State) : Out :=
  .next (dgram s h (.context ctx res (.sessionKey key)))

/-- MEMBERS (R355). -/
def execMembers (h : DgHdr) (ctx res n rank : Nat) (ids : List Nat) (s : State) : Out :=
  .next (dgram s h (.context ctx res (.members n rank ids)))

/-- BIND (R168). -/
def execBind (h : DgHdr) (ctx res num kind die half : Nat) (s : State) : Out :=
  .next (dgram s h (.context ctx res (.bind num kind die half)))

/-- UNBIND (R168). -/
def execUnbind (h : DgHdr) (ctx res num : Nat) (s : State) : Out := .next (dgram s h (.context ctx res (.unbind num)))

/-- SCHEDULE (R357). -/
def execSchedule (h : DgHdr) (ctx res : Nat) (s : State) : Out := .next (dgram s h (.context ctx res .schedule))

/-- BUNDLE_OPEN (R363). -/
def execBundleOpen (h : DgHdr) (ctx res src dst off : Nat) (s : State) : Out :=
  .next (dgram s h (.context ctx res (.bundleOpen src dst off)))

/-- TEARDOWN (R364). -/
def execTeardown (h : DgHdr) (ctx res : Nat) (s : State) : Out := .next (dgram s h (.context ctx res .teardown))

/-- SCRUB (R365). -/
def execScrub (h : DgHdr) (res : Nat) (s : State) : Out := .next (dgram s h (.context 0 res .scrub))

/-- PARTITION (R358). -/
def execPartition (h : DgHdr) (res p : Nat) (units : List Nat) (s : State) : Out :=
  .next (dgram s h (.context 0 res (.partition p units)))

/-- An opcode that Table 12.5 does not assign completes with BAD_OPCODE. -/
def execUnassignedOpcode (h : DgHdr) (opcode : Nat) (s : State) : Out := .next (dgram s h (.unassigned opcode))

/-- RELAY_DATAGRAM: a datagram that another device passed on reaches this Wened (R383). -/
def execRelayDatagram (h : DgHdr) (c : TCmd) (s : State) : Out := .next (if h.relay.isSome then dgram s h c else s)

/-- PLANT_MEAS: on a plant-timed stream a measurement; on another stream an opcode that does not belong there. -/
def execPlantMeas (h : DgHdr) (ts : BitVec 64) (count : Nat) (entries : List (Nat × BitVec 64)) (resv : Bool) (s : State) : Out :=
  .next (
    if !edUp s then s
    else
      let x := arrive s h
      if !x.2 then x.1
      else if h.mgmt = false ∧ (getStream x.1 false h.stream).kind = 2 then plantArrive x.1 h ts.toNat count entries resv
      else flushRelay (sequenceCmd x.1 h (.unassigned 0x0200)))

/-! ### The ends of long commands -/

/-- The first command in progress that a test names ends, and its stream goes on. -/
def endLong (s : State) (p : BusyCmd → Bool) (e : Nat × Nat × List Byte) : State :=
  match s.eth.busy.find? p with
  | none => s
  | some b =>
    let s := finishCmd { s with eth := { s.eth with busy := s.eth.busy.erase b } } b.hdr b.cmd e
    flushRelay (drainStream (s.eth.held.length + 1) s b.mgmt b.stream)

/-- The LOAD of a context in progress. -/
def isLoadOf (id : Nat) (b : BusyCmd) : Bool :=
  !b.mgmt && decide (b.hdr.ctx = id) && (match b.cmd with | .load _ => true | _ => false)

/-- The RUN of a context in progress. -/
def isRunOf (id : Nat) (b : BusyCmd) : Bool :=
  !b.mgmt && decide (b.hdr.ctx = id) && (match b.cmd with | .run => true | _ => false)

/-- The BULK in progress on a stream. -/
def isBulkOn (stream : Nat) (b : BusyCmd) : Bool :=
  !b.mgmt && decide (b.stream = stream) && (match b.cmd with | .bulk _ => true | _ => false)

/-- The SCHEDULE of a context in progress. -/
def isScheduleOf (id : Nat) (b : BusyCmd) : Bool :=
  match b.cmd with | .context i _ .schedule => decide (i = id) | _ => false

/-- The SCRUB in progress. -/
def isScrub (b : BusyCmd) : Bool := match b.cmd with | .context _ _ .scrub => true | _ => false

/-- The BUNDLE_OPEN in progress. -/
def isBundle (b : BusyCmd) : Bool := match b.cmd with | .context _ _ (.bundleOpen _ _ _) => true | _ => false

/-- TRANSLATION_DONE: native code is ready, and LOAD completes (R90). -/
def execTranslationDone (ctx : Fin 4096) (s : State) : Out :=
  .next (
    if (getC s ctx).modState = .translating then
      endLong (modC s ctx (fun c => { c with modState := .loaded })) (isLoadOf ctx) (0, 0, [])
    else s)

/-- BULK_DONE: the transfer on a stream ends. A read whose pages are protected waits for the Ladle's copy. -/
def execBulkDone (stream : Nat) (syndrome : Nat) (data : List Byte) (s : State) : Out :=
  .next (
    match s.eth.busy.find? (isBulkOn stream) with
    | none => s
    | some b =>
      match b.cmd with
      | .bulk a =>
        let c := getC s b.hdr.ctx
        let base := tensorBase c 0 a.tensor + a.local'
        if syndrome ≠ 0 then endLong s (isBulkOn stream) (0x050A, syndrome, [])
        else if a.op = 0 then endLong s (isBulkOn stream) (0, 0, [])
        else if !engineAdmits s b.hdr.ctx 1 then endLong (localDenied s 38 1 b.hdr.ctx) (isBulkOn stream) (0x050A, syndrome, [])
        else if !moduleRuns c && rangeHeld c base a.length then holdRange s b.hdr.ctx base a.length
        else endLong (bulkTake s b.hdr.ctx b a data) (isBulkOn stream) (0, 0, [])
      | _ => s)

/-- A RUN that waited for the Ladle's copy of a page, or for its remap, starts its module once it may (R151, R153). -/
def retryRun (s : State) : State :=
  match s.eth.busy.find? (fun b => isRunOf b.hdr.ctx b && startable (getC s b.hdr.ctx)
      && !(decide (replayCtx s = b.hdr.ctx ∧ rd s 0x900100 = 2) && !s.ckpt.rplay)) with
  | none => s
  | some b =>
    match launch s b.hdr.ctx b.stream with
    | (s, some e) => endLong s (isRunOf b.hdr.ctx) e
    | (s, none) => s

/-- LADLE_LOCAL_COPY: a page is copied, and what waited for it goes on. -/
def execLadleLocalCopy (die : Fin 8) (fault : Bool) (s : State) : Out := .next (retryRun (ladleCopy die fault s))

/-- QUIESCE_FENCE_DONE: the oldest fence ends, and what waited for it goes on. -/
def execQuiesceFenceDone (s : State) : Out := .next (retryRun (fenceEnds s))

/-- The TEARDOWN in progress, of a context whose units no slice holds any more. -/
def isFreeTeardown (s : State) (b : BusyCmd) : Bool :=
  match b.cmd with | .context i _ .teardown => !sliceHoldsCtx s i | _ => false

/-- A TEARDOWN that waited for the release of a slice goes on (R404). -/
def retryTeardown (s : State) : State :=
  match s.eth.busy.find? (isFreeTeardown s) with
  | some ⟨_, _, _, .context i _ _⟩ =>
    if (getC s i).live then endLong (teardownCtx (drawNat s).2 i ((drawNat s).1 % 65536)) (isFreeTeardown s) (0, 0, [])
    else endLong s (isFreeTeardown s) (0x0702, 0, [])
  | _ => s

/-- SLICE_BIST_DONE: the unit is restored and released, or the failure is acted upon; a teardown that waited goes on. -/
def execSliceBistDone (d : Die) (pass : Bool) (failing : List Nat) (s : State) : Out := .next (retryTeardown (sliceEnds d pass failing s))

/-- CONTEXT_SWITCH_DONE: the switch of R357 ends; SCHEDULE completes, and so does a RUN that waited for it. -/
def execContextSwitchDone (s : State) : Out :=
  .next (
    match s.pkg.switchTo with
    | some (id, 1) =>
      if (getC s id).live then
        let waits := decide ((getC s id).modState = .paused)
        let s := endLong (applySwitch s id) (isScheduleOf id) (0, 0, [])
        if waits then endLong s (isRunOf id) (0, 0, []) else s
      else endLong { s with pkg := { s.pkg with switchTo := none } } (isScheduleOf id) (0x0702, 0, [])
    | _ => s)

/-- BUNDLE_DECRYPT_DONE: Wened has looked for its entry, unwrapped, decrypted and checked the tag (R363). Where a page of the target is protected
the bundle waits for the Ladle's copy, and ends when its end is next presented. One whose content key has been destroyed meanwhile cannot go on
(log entry 53). -/
def execBundleDecryptDone (member unwrapOk tagOk : Bool) (plain : List Byte) (s : State) : Out :=
  .next (
    match s.pkg.bundle with
    | none => endLong s isBundle (0x0705, 0, [])
    | some (id, src, dst, off) =>
      if (getC s id).live then
        match bundleWaits (getC s id) src dst off (member && unwrapOk) tagOk plain with
        | some w => holdRange s id w.1 w.2
        | none =>
          let r := bundleEnd s id src dst off member unwrapOk tagOk plain
          endLong r.1 isBundle (r.2, 0, [])
      else endLong { s with pkg := { s.pkg with bundle := none } } isBundle (0x0702, 0, []))

/-- SCRUB_COMPLETE (R365). -/
def execScrubComplete (us : BitVec 32) (s : State) : Out :=
  .next (if s.pkg.scrubbing then endLong (scrubEnd s us.toNat) isScrub (0, 0, []) else s)

/-! ### RoCEv2 requests from the network (R298) -/

/-- The registration of an R_Key, with its context. -/
def findReg (s : State) (key : Nat) : Option (Nat × Registration) :=
  s.ctxs.findSome? (fun p => (p.2.regs.find? (fun r => decide (r.rKey = key))).map (fun r => (p.1, r)))

/-- An answer of the port: 1 ARP reply, 2 neighbour advertisement, 3 echo reply, 4 RoCEv2 NAK, 5 RoCEv2 acknowledgement. -/
def portAnswer (s : State) (kind v : Nat) : State := { s with eth := { s.eth with answers := s.eth.answers ++ [(kind, v)] } }

/-- A frame that a scrub lets through arrives only outside one (R301). -/
def portFrame (s : State) (f : State → State) : State :=
  if !edUp s then s else if s.pkg.scrubbing then incr s 0x102206 1 else f s

/-- The registration serves a transfer, or has ended one. -/
def setRegBusy (s : State) (id key : Nat) (b : Bool) : State :=
  modC s id (fun c => { c with regs := c.regs.map (fun r => if r.rKey = key then { r with busy := b } else r) })

/-- A write into a registered range: it waits on PROTECT (R151). -/
def roceWrite (s : State) (id : Nat) (r : Registration) (offset : Nat) (data : List Byte) : State :=
  let c := getC s id
  let a := tensorBase c 0 r.tensor + r.offset + offset
  if !engineAdmits s id 1 then portAnswer (localDenied s 38 1 id) 4 0x62
  else if rangeHeld c a data.length then setRegBusy (holdRange s id a data.length) id r.rKey true
  else portAnswer (setRegBusy (storeRange s id a data) id r.rKey false) 5 r.rKey

/-- A read of a registered range: its bytes leave in queue 4. A read that meets an uncorrectable error is refused. -/
def roceRead (s : State) (id : Nat) (r : Registration) (offset length : Nat) : State :=
  let c := getC s id
  let a := tensorBase c 0 r.tensor + r.offset + offset
  if !engineAdmits s id 0 then portAnswer (localDenied s 38 1 id) 4 0x62
  else if rangeBad c a length then portAnswer (stackFault s id a) 4 0x63
  else sendRoce s id (tensorRead c 0 r.tensor (r.offset + offset) length)

/-- ROCE_REQUEST: only registered ranges are reached, and written only while no module of the context runs. -/
def execRoceRequest (rKey : Nat) (write : Bool) (offset length : Nat) (data : List Byte) (s : State) : Out :=
  .next (portFrame s (fun s =>
    match findReg s rKey with
    | none => portAnswer s 4 0x62
    | some (id, r) =>
      if r.length < offset + (if write then data.length else length) then portAnswer s 4 0x62
      else if write then
        if r.rights / 2 % 2 = 0 || moduleRuns (getC s id) then portAnswer s 4 0x62 else roceWrite s id r offset data
      else if r.rights % 2 = 0 then portAnswer s 4 0x62
      else roceRead s id r offset length))

/-- ROCE_ATOMIC: an invalid-request NAK. -/
def execRoceAtomic (_qp : Nat) (s : State) : Out := .next (portFrame s (fun s => portAnswer s 4 0x61))

/-- ROCE_CNP: the rate of the queue pair falls, to a value that no rule states. -/
def execRoceCnp (qp : Nat) (s : State) : Out :=
  .next (portFrame s (fun s =>
    let d := drawNat s
    let cur := tget (2 ^ 32) s.eth.qpRate qp
    { d.2 with eth := { d.2.eth with qpRate := tset (2 ^ 32) d.2.eth.qpRate qp (d.1 % cur) } }))

/-! ### The port (R286, R287) -/

/-- The IPv4 address, first octet most significant. -/
def ownIp4 (s : State) : Nat := beNat ((natLe 5 (rd s 0x102100)).take 4)

/-- The IPv6 address. -/
def ownIp6 (s : State) : Nat := beNat ((natLe 17 (rd s 0x102101)).take 16)

/-- The link-local address: the modified EUI-64 of MAC_ADDR under FE80::/64 (log entry 32). -/
def linkLocal (s : State) : Nat :=
  let m := natLe 6 (rd s 0x102000)
  0xFE80 * 2 ^ 112 + beNat ([m.getD 0 0 ^^^ 2] ++ (m.drop 1).take 2 ++ [0xFF, 0xFE] ++ m.drop 3)

/-- Whether an address of either version is the port's. -/
def isOwnIp (s : State) (v6 : Bool) (a : Nat) : Bool :=
  if v6 then (decide (ownIp6 s ≠ 0 ∧ a = ownIp6 s) || decide (a = linkLocal s)) else decide (ownIp4 s ≠ 0 ∧ a = ownIp4 s)

/-- ARP_REQUEST. -/
def execArpRequest (addr : BitVec 32) (s : State) : Out :=
  .next (portFrame s (fun s => if isOwnIp s false addr.toNat then portAnswer s 1 addr.toNat else s))

/-- NEIGHBOUR_SOLICIT. -/
def execNeighbourSolicit (addr : BitVec 128) (s : State) : Out :=
  .next (portFrame s (fun s => if isOwnIp s true addr.toNat then portAnswer s 2 addr.toNat else s))

/-- ICMP_ECHO. -/
def execIcmpEcho (v6 : Bool) (addr : BitVec 128) (ident : Nat) (s : State) : Out :=
  .next (portFrame s (fun s => if isOwnIp s v6 addr.toNat then portAnswer s 3 ident else s))

/-- ETH_FRAME_DISCARD: a frame that R287 discards is not answered. -/
def execEthFrameDiscard (s : State) : Out := .next (portFrame s (fun s => s))

/-- ETH_LINK_CHANGE: LINK_STATE. -/
def execEthLinkChange (up : Bool) (s : State) : Out := .next (wr s 0x102001 (bit up))

/-- PFC_PAUSE: only PFC_PRIO is ever paused (R286), for `quanta` times 512 bits of the line. -/
def execPfcPause (prio : Fin 8) (quanta : BitVec 16) (s : State) : Out :=
  .next (if edUp s ∧ prio.val = rd s 0x102104 then { s with eth := { s.eth with pfcPaused := decide (quanta ≠ 0), pfcUntil := s.ptpNs + cdiv (quanta.toNat * 32) 100 } } else s)

/-! ### The replay log's transfers (R313, R315) -/

/-- REPLAY_SEGMENT_ACK: the oldest segment has reached the sink. Once the buffer has drained to half, a GAP record names what
was lost and logging goes on. -/
def execReplaySegmentAck (s : State) : Out :=
  .next (
    let s := { s with ckpt := { s.ckpt with rout := s.ckpt.rout.drop 1 } }
    match s.ckpt.rgapFrom with
    | none => s
    | some f =>
      if bufferCap s < 2 * bufferSize s then s
      else
        let id := replayCtx s
        let lost := rd s 0x900201 - f
        incr (putReplay { s with ckpt := { s.ckpt with rgapFrom := none } } id 0x0B (getC s id).step 0 0 (natLe 4 f ++ natLe 4 lost))
          0x900202 1)

/-- REPLAY_LOG_READ_DONE: records of the log to replay arrive. The RUN that waits for them starts, or is refused; a module that
runs finds its inputs. -/
def execReplayLogReadDone (records : List (Nat × Nat × Nat × Nat × List Byte)) (last : Bool) (s : State) : Out :=
  .next (
    let id := replayCtx s
    let s' := { s with ckpt := { s.ckpt with
      rin := s.ckpt.rin ++ logRecords s.ckpt.rin.length records, rinEnd := s.ckpt.rinEnd || last } }
    if s.ckpt.rplay then fetchInputs s' id
    else
      match s.eth.busy.find? (isRunOf id) with
      | none => s
      | some b =>
        if (getC s id).modState = .paused then s
        else
          match tryReplay s' id b.stream with
          | (s, none) => s
          | (s, some e) => endLong s (isRunOf id) e)

end Sys2Proof.Machine
end

