-- ==== Sys2Proof/Machine/Dispatch.lean ====
section
/-! DEFINITION. One arm per command: a direct call of its meaning. -/

namespace Sys2Proof.Machine

open Sys2Proof

def exec (i : Instr) (s : State) : Host.Outcome State Fault Refusal :=
  match i with
  | .nop x1 => Sys2Proof.Machine.execNop x1 s
  | .endOp x1 => Sys2Proof.Machine.execEndOp x1 s
  | .sli x1 x2 x3 => Sys2Proof.Machine.execSli x1 x2 x3 s
  | .slih x1 x2 x3 => Sys2Proof.Machine.execSlih x1 x2 x3 s
  | .salu x1 x2 x3 x4 x5 => Sys2Proof.Machine.execSalu x1 x2 x3 x4 x5 s
  | .loop x1 x2 x3 x4 => Sys2Proof.Machine.execLoop x1 x2 x3 x4 s
  | .brnz x1 x2 x3 => Sys2Proof.Machine.execBrnz x1 x2 x3 s
  | .wid x1 x2 x3 => Sys2Proof.Machine.execWid x1 x2 x3 s
  | .rdcw x1 x2 x3 => Sys2Proof.Machine.execRdcw x1 x2 x3 s
  | .wrcw x1 x2 x3 => Sys2Proof.Machine.execWrcw x1 x2 x3 s
  | .vdef x1 x2 x3 x4 x5 x6 x7 x8 x9 => Sys2Proof.Machine.execVdef x1 x2 x3 x4 x5 x6 x7 x8 x9 s
  | .rdtime x1 x2 => Sys2Proof.Machine.execRdtime x1 x2 s
  | .movs x1 x2 x3 x4 x5 => Sys2Proof.Machine.execMovs x1 x2 x3 x4 x5 s
  | .movg x1 x2 x3 x4 x5 x6 => Sys2Proof.Machine.execMovg x1 x2 x3 x4 x5 x6 s
  | .movsc x1 x2 x3 x4 x5 x6 => Sys2Proof.Machine.execMovsc x1 x2 x3 x4 x5 x6 s
  | .fill x1 x2 x3 x4 => Sys2Proof.Machine.execFill x1 x2 x3 x4 s
  | .pref x1 x2 x3 x4 => Sys2Proof.Machine.execPref x1 x2 x3 x4 s
  | .gzero x1 x2 x3 => Sys2Proof.Machine.execGzero x1 x2 x3 s
  | .gmma x1 x2 x3 x4 x5 x6 x7 x8 => Sys2Proof.Machine.execGmma x1 x2 x3 x4 x5 x6 x7 x8 s
  | .gld x1 x2 x3 => Sys2Proof.Machine.execGld x1 x2 x3 s
  | .griddleIssue x1 x2 x3 x4 => Sys2Proof.Machine.execGriddleIssue x1 x2 x3 x4 s
  | .griddleComplete x1 x2 => Sys2Proof.Machine.execGriddleComplete x1 x2 s
  | .wvl x1 x2 x3 => Sys2Proof.Machine.execWvl x1 x2 x3 s
  | .wbin x1 x2 x3 x4 x5 x6 x7 => Sys2Proof.Machine.execWbin x1 x2 x3 x4 x5 x6 x7 s
  | .wfma x1 x2 x3 x4 x5 x6 => Sys2Proof.Machine.execWfma x1 x2 x3 x4 x5 x6 s
  | .wun x1 x2 x3 x4 x5 x6 => Sys2Proof.Machine.execWun x1 x2 x3 x4 x5 x6 s
  | .wact x1 x2 x3 x4 x5 x6 => Sys2Proof.Machine.execWact x1 x2 x3 x4 x5 x6 s
  | .wcvt x1 x2 x3 x4 x5 => Sys2Proof.Machine.execWcvt x1 x2 x3 x4 x5 s
  | .wcmp x1 x2 x3 x4 x5 x6 x7 => Sys2Proof.Machine.execWcmp x1 x2 x3 x4 x5 x6 x7 s
  | .wsel x1 x2 x3 x4 x5 x6 x7 => Sys2Proof.Machine.execWsel x1 x2 x3 x4 x5 x6 x7 s
  | .wacc x1 x2 x3 x4 x5 x6 x7 => Sys2Proof.Machine.execWacc x1 x2 x3 x4 x5 x6 x7 s
  | .wred x1 x2 x3 x4 x5 x6 x7 => Sys2Proof.Machine.execWred x1 x2 x3 x4 x5 x6 x7 s
  | .wgth x1 x2 x3 x4 x5 x6 => Sys2Proof.Machine.execWgth x1 x2 x3 x4 x5 x6 s
  | .wsct x1 x2 x3 x4 x5 x6 => Sys2Proof.Machine.execWsct x1 x2 x3 x4 x5 x6 s
  | .elemResume x1 x2 => Sys2Proof.Machine.execElemResume x1 x2 s
  | .whiskComplete x1 => Sys2Proof.Machine.execWhiskComplete x1 s
  | .rread x1 x2 x3 x4 => Sys2Proof.Machine.execRread x1 x2 x3 x4 s
  | .rwrite x1 x2 x3 x4 => Sys2Proof.Machine.execRwrite x1 x2 x3 x4 s
  | .rwritef x1 x2 x3 x4 x5 x6 x7 => Sys2Proof.Machine.execRwritef x1 x2 x3 x4 x5 x6 x7 s
  | .rwritec x1 x2 x3 x4 => Sys2Proof.Machine.execRwritec x1 x2 x3 x4 s
  | .rinv x1 x2 x3 => Sys2Proof.Machine.execRinv x1 x2 x3 s
  | .rrepl x1 x2 x3 => Sys2Proof.Machine.execRrepl x1 x2 x3 s
  | .callred x1 x2 x3 x4 x5 x6 x7 => Sys2Proof.Machine.execCallred x1 x2 x3 x4 x5 x6 x7 s
  | .crscat x1 x2 x3 x4 x5 x6 x7 => Sys2Proof.Machine.execCrscat x1 x2 x3 x4 x5 x6 x7 s
  | .cagth x1 x2 x3 x4 x5 => Sys2Proof.Machine.execCagth x1 x2 x3 x4 x5 s
  | .cbcst x1 x2 x3 x4 x5 x6 => Sys2Proof.Machine.execCbcst x1 x2 x3 x4 x5 x6 s
  | .ca2a x1 x2 x3 x4 x5 => Sys2Proof.Machine.execCa2a x1 x2 x3 x4 x5 s
  | .collDeviceEntry => Sys2Proof.Machine.execCollDeviceEntry s
  | .solve x1 x2 x3 x4 => Sys2Proof.Machine.execSolve x1 x2 x3 x4 s
  | .swait x1 x2 x3 => Sys2Proof.Machine.execSwait x1 x2 x3 s
  | .fset x1 x2 x3 x4 => Sys2Proof.Machine.execFset x1 x2 x3 x4 s
  | .fwait x1 x2 x3 => Sys2Proof.Machine.execFwait x1 x2 x3 s
  | .frd x1 x2 x3 => Sys2Proof.Machine.execFrd x1 x2 x3 s
  | .bar x1 x2 => Sys2Proof.Machine.execBar x1 x2 s
  | .sin x1 x2 x3 => Sys2Proof.Machine.execSin x1 x2 x3 s
  | .sout x1 x2 x3 => Sys2Proof.Machine.execSout x1 x2 x3 s
  | .stepOp x1 => Sys2Proof.Machine.execStepOp x1 s
  | .ckptOp x1 => Sys2Proof.Machine.execCkptOp x1 s
  | .stepPointRelease x1 x2 => Sys2Proof.Machine.execStepPointRelease x1 x2 s
  | .readReq x1 x2 => Sys2Proof.Machine.execReadReq x1 x2 s
  | .writeReq x1 x2 => Sys2Proof.Machine.execWriteReq x1 x2 s
  | .writecReq x1 x2 => Sys2Proof.Machine.execWritecReq x1 x2 s
  | .flagInc x1 x2 => Sys2Proof.Machine.execFlagInc x1 x2 s
  | .replInv x1 x2 => Sys2Proof.Machine.execReplInv x1 x2 s
  | .replFill x1 x2 => Sys2Proof.Machine.execReplFill x1 x2 s
  | .readResp x1 x2 => Sys2Proof.Machine.execReadResp x1 x2 s
  | .writeAck x1 x2 => Sys2Proof.Machine.execWriteAck x1 x2 s
  | .flagAck x1 x2 => Sys2Proof.Machine.execFlagAck x1 x2 s
  | .invAck x1 x2 => Sys2Proof.Machine.execInvAck x1 x2 s
  | .refusal x1 x2 => Sys2Proof.Machine.execRefusal x1 x2 s
  | .remoteTimeout x1 x2 => Sys2Proof.Machine.execRemoteTimeout x1 x2 s
  | .remoteDeadNotice x1 x2 => Sys2Proof.Machine.execRemoteDeadNotice x1 x2 s
  | .sieveMerge x1 x2 => Sys2Proof.Machine.execSieveMerge x1 x2 s
  | .sieveWriteback x1 x2 x3 => Sys2Proof.Machine.execSieveWriteback x1 x2 x3 s
  | .sieveRetire x1 x2 x3 => Sys2Proof.Machine.execSieveRetire x1 x2 x3 s
  | .collOpenUp x1 x2 => Sys2Proof.Machine.execCollOpenUp x1 x2 s
  | .collOpenDown x1 x2 => Sys2Proof.Machine.execCollOpenDown x1 x2 s
  | .collUp x1 x2 => Sys2Proof.Machine.execCollUp x1 x2 s
  | .collDown x1 x2 => Sys2Proof.Machine.execCollDown x1 x2 s
  | .collA2a x1 x2 => Sys2Proof.Machine.execCollA2a x1 x2 s
  | .residueCheckDone => Sys2Proof.Machine.execResidueCheckDone s
  | .collectiveTimeout => Sys2Proof.Machine.execCollectiveTimeout s
  | .lateWindowEnd => Sys2Proof.Machine.execLateWindowEnd s
  | .flitForward x1 x2 x3 => Sys2Proof.Machine.execFlitForward x1 x2 x3 s
  | .nak x1 x2 => Sys2Proof.Machine.execNak x1 x2 s
  | .portLossOfLock x1 => Sys2Proof.Machine.execPortLossOfLock x1 s
  | .probe x1 x2 x3 x4 => Sys2Proof.Machine.execProbe x1 x2 x3 x4 s
  | .probeTimer => Sys2Proof.Machine.execProbeTimer s
  | .congestionSample x1 x2 => Sys2Proof.Machine.execCongestionSample x1 x2 s
  | .drainNotice x1 => Sys2Proof.Machine.execDrainNotice x1 s
  | .portDrained x1 => Sys2Proof.Machine.execPortDrained x1 s
  | .recalDone x1 => Sys2Proof.Machine.execRecalDone x1 s
  | .portTrained x1 => Sys2Proof.Machine.execPortTrained x1 s
  | .laserCheck x1 => Sys2Proof.Machine.execLaserCheck x1 s
  | .routeCommit x1 x2 => Sys2Proof.Machine.execRouteCommit x1 x2 s
  | .deviceId x1 x2 => Sys2Proof.Machine.execDeviceId x1 x2 s
  | .systemShape x1 x2 => Sys2Proof.Machine.execSystemShape x1 x2 s
  | .vcArbSet x1 x2 => Sys2Proof.Machine.execVcArbSet x1 x2 s
  | .portDrain x1 x2 => Sys2Proof.Machine.execPortDrain x1 x2 s
  | .portForceDrain x1 x2 => Sys2Proof.Machine.execPortForceDrain x1 x2 s
  | .portRecal x1 x2 => Sys2Proof.Machine.execPortRecal x1 x2 s
  | .portReturn x1 x2 => Sys2Proof.Machine.execPortReturn x1 x2 s
  | .portTest x1 x2 => Sys2Proof.Machine.execPortTest x1 x2 s
  | .bypassClose x1 => Sys2Proof.Machine.execBypassClose x1 s
  | .bypassOpen x1 => Sys2Proof.Machine.execBypassOpen x1 s
  | .bypassSwitchSettled x1 => Sys2Proof.Machine.execBypassSwitchSettled x1 s
  | .mgmtRingBreak x1 x2 => Sys2Proof.Machine.execMgmtRingBreak x1 x2 s
  | .stewardEvent x1 x2 x3 => Sys2Proof.Machine.execStewardEvent x1 x2 x3 s
  | .quiesceFenceDone => Sys2Proof.Machine.execQuiesceFenceDone s
  | .accessTableUpdateDone => Sys2Proof.Machine.execAccessTableUpdateDone s
  | .stackTempReading x1 x2 => Sys2Proof.Machine.execStackTempReading x1 x2 s
  | .stackRetrain x1 => Sys2Proof.Machine.execStackRetrain x1 s
  | .dieTempReading x1 x2 => Sys2Proof.Machine.execDieTempReading x1 x2 s
  | .predRateSample => Sys2Proof.Machine.execPredRateSample s
  | .solverStageInDone x1 x2 x3 => Sys2Proof.Machine.execSolverStageInDone x1 x2 x3 s
  | .solverExecEnd x1 => Sys2Proof.Machine.execSolverExecEnd x1 s
  | .solverWritebackDone x1 x2 => Sys2Proof.Machine.execSolverWritebackDone x1 x2 s
  | .solverFault x1 x2 => Sys2Proof.Machine.execSolverFault x1 x2 s
  | .psArm x1 x2 => Sys2Proof.Machine.execPsArm x1 x2 s
  | .psResume x1 x2 => Sys2Proof.Machine.execPsResume x1 x2 s
  | .psStop x1 x2 => Sys2Proof.Machine.execPsStop x1 x2 s
  | .plantPeriodStart x1 => Sys2Proof.Machine.execPlantPeriodStart x1 s
  | .plantWinClose x1 => Sys2Proof.Machine.execPlantWinClose x1 s
  | .plantSlot x1 => Sys2Proof.Machine.execPlantSlot x1 s
  | .plantDeadline x1 => Sys2Proof.Machine.execPlantDeadline x1 s
  | .psTxLate x1 => Sys2Proof.Machine.execPsTxLate x1 s
  | .plantMeas x1 x2 x3 x4 x5 => Sys2Proof.Machine.execPlantMeas x1 x2 x3 x4 x5 s
  | .ptpMessage x1 x2 => Sys2Proof.Machine.execPtpMessage x1 x2 s
  | .ptpHoldoverExpiry => Sys2Proof.Machine.execPtpHoldoverExpiry s
  | .cmdNop x1 => Sys2Proof.Machine.execCmdNop x1 s
  | .load x1 x2 => Sys2Proof.Machine.execLoad x1 x2 s
  | .translationDone x1 => Sys2Proof.Machine.execTranslationDone x1 s
  | .run x1 => Sys2Proof.Machine.execRun x1 s
  | .haltAtStepPoint x1 x2 => Sys2Proof.Machine.execHaltAtStepPoint x1 x2 s
  | .haltAtOnce x1 x2 => Sys2Proof.Machine.execHaltAtOnce x1 x2 s
  | .input x1 x2 => Sys2Proof.Machine.execInput x1 x2 s
  | .outputResend x1 x2 x3 x4 => Sys2Proof.Machine.execOutputResend x1 x2 x3 x4 s
  | .regMem x1 x2 => Sys2Proof.Machine.execRegMem x1 x2 s
  | .deregMem x1 x2 x3 => Sys2Proof.Machine.execDeregMem x1 x2 x3 s
  | .bulk x1 x2 => Sys2Proof.Machine.execBulk x1 x2 s
  | .bulkDone x1 x2 x3 => Sys2Proof.Machine.execBulkDone x1 x2 x3 s
  | .entryRead x1 x2 => Sys2Proof.Machine.execEntryRead x1 x2 s
  | .entryWrite x1 x2 => Sys2Proof.Machine.execEntryWrite x1 x2 s
  | .mgmtEntryRead x1 x2 => Sys2Proof.Machine.execMgmtEntryRead x1 x2 s
  | .mgmtEntryWrite x1 x2 => Sys2Proof.Machine.execMgmtEntryWrite x1 x2 s
  | .streamOpen x1 x2 => Sys2Proof.Machine.execStreamOpen x1 x2 s
  | .streamClose x1 x2 => Sys2Proof.Machine.execStreamClose x1 x2 s
  | .create x1 x2 x3 => Sys2Proof.Machine.execCreate x1 x2 x3 s
  | .sessionKey x1 x2 x3 x4 => Sys2Proof.Machine.execSessionKey x1 x2 x3 x4 s
  | .members x1 x2 x3 x4 x5 x6 => Sys2Proof.Machine.execMembers x1 x2 x3 x4 x5 x6 s
  | .bind x1 x2 x3 x4 x5 x6 x7 => Sys2Proof.Machine.execBind x1 x2 x3 x4 x5 x6 x7 s
  | .unbind x1 x2 x3 x4 => Sys2Proof.Machine.execUnbind x1 x2 x3 x4 s
  | .schedule x1 x2 x3 => Sys2Proof.Machine.execSchedule x1 x2 x3 s
  | .contextSwitchDone => Sys2Proof.Machine.execContextSwitchDone s
  | .bundleOpen x1 x2 x3 x4 x5 x6 => Sys2Proof.Machine.execBundleOpen x1 x2 x3 x4 x5 x6 s
  | .bundleDecryptDone x1 x2 x3 x4 => Sys2Proof.Machine.execBundleDecryptDone x1 x2 x3 x4 s
  | .teardown x1 x2 x3 => Sys2Proof.Machine.execTeardown x1 x2 x3 s
  | .scrub x1 x2 => Sys2Proof.Machine.execScrub x1 x2 s
  | .scrubComplete x1 => Sys2Proof.Machine.execScrubComplete x1 s
  | .partition x1 x2 x3 x4 => Sys2Proof.Machine.execPartition x1 x2 x3 x4 s
  | .roceRequest x1 x2 x3 x4 x5 => Sys2Proof.Machine.execRoceRequest x1 x2 x3 x4 x5 s
  | .roceAtomic x1 => Sys2Proof.Machine.execRoceAtomic x1 s
  | .arpRequest x1 => Sys2Proof.Machine.execArpRequest x1 s
  | .neighbourSolicit x1 => Sys2Proof.Machine.execNeighbourSolicit x1 s
  | .icmpEcho x1 x2 x3 => Sys2Proof.Machine.execIcmpEcho x1 x2 x3 s
  | .ethFrameDiscard => Sys2Proof.Machine.execEthFrameDiscard s
  | .dictRead x1 x2 => Sys2Proof.Machine.execDictRead x1 x2 s
  | .dictWrite x1 x2 => Sys2Proof.Machine.execDictWrite x1 x2 s
  | .dictWriteSegment x1 x2 => Sys2Proof.Machine.execDictWriteSegment x1 x2 s
  | .segmentTimeout => Sys2Proof.Machine.execSegmentTimeout s
  | .dictDescribe x1 x2 => Sys2Proof.Machine.execDictDescribe x1 x2 s
  | .dictNext x1 x2 => Sys2Proof.Machine.execDictNext x1 x2 s
  | .canFrame x1 x2 x3 x4 x5 => Sys2Proof.Machine.execCanFrame x1 x2 x3 x4 x5 s
  | .canGapTimeout => Sys2Proof.Machine.execCanGapTimeout s
  | .relayTx x1 x2 x3 x4 x5 x6 => Sys2Proof.Machine.execRelayTx x1 x2 x3 x4 x5 x6 s
  | .relayDatagram x1 x2 => Sys2Proof.Machine.execRelayDatagram x1 x2 s
  | .relayReply x1 x2 x3 => Sys2Proof.Machine.execRelayReply x1 x2 x3 s
  | .xlateCacheFlush x1 x2 => Sys2Proof.Machine.execXlateCacheFlush x1 x2 s
  | .arbWeightSet x1 x2 => Sys2Proof.Machine.execArbWeightSet x1 x2 s
  | .srSeed x1 x2 => Sys2Proof.Machine.execSrSeed x1 x2 s
  | .sdMode x1 x2 x3 => Sys2Proof.Machine.execSdMode x1 x2 x3 s
  | .compatJsn16 x1 x2 => Sys2Proof.Machine.execCompatJsn16 x1 x2 s
  | .jobId x1 x2 => Sys2Proof.Machine.execJobId x1 x2 s
  | .buddyDevice x1 x2 => Sys2Proof.Machine.execBuddyDevice x1 x2 s
  | .buddyPartner x1 x2 x3 x4 x5 => Sys2Proof.Machine.execBuddyPartner x1 x2 x3 x4 x5 s
  | .ckptRequest x1 x2 => Sys2Proof.Machine.execCkptRequest x1 x2 s
  | .voteCast => Sys2Proof.Machine.execVoteCast s
  | .ckptVote x1 x2 => Sys2Proof.Machine.execCkptVote x1 x2 s
  | .ckptVoteTimeout x1 => Sys2Proof.Machine.execCkptVoteTimeout x1 s
  | .commit x1 x2 => Sys2Proof.Machine.execCommit x1 x2 s
  | .commitAck x1 x2 => Sys2Proof.Machine.execCommitAck x1 x2 s
  | .commitDone x1 x2 => Sys2Proof.Machine.execCommitDone x1 x2 s
  | .abort x1 x2 => Sys2Proof.Machine.execAbort x1 x2 s
  | .ladleLocalCopy x1 x2 => Sys2Proof.Machine.execLadleLocalCopy x1 x2 s
  | .ladleSlotTimeout x1 => Sys2Proof.Machine.execLadleSlotTimeout x1 s
  | .restoreCmd x1 x2 x3 x4 x5 => Sys2Proof.Machine.execRestoreCmd x1 x2 x3 x4 x5 s
  | .restorePullDone x1 x2 => Sys2Proof.Machine.execRestorePullDone x1 x2 s
  | .reclaimStart x1 x2 => Sys2Proof.Machine.execReclaimStart x1 x2 s
  | .reclaimStepWaitExpiry => Sys2Proof.Machine.execReclaimStepWaitExpiry s
  | .reclaimCutoff => Sys2Proof.Machine.execReclaimCutoff s
  | .replaySegmentAck => Sys2Proof.Machine.execReplaySegmentAck s
  | .quoteNonce x1 x2 => Sys2Proof.Machine.execQuoteNonce x1 x2 s
  | .quoteReady => Sys2Proof.Machine.execQuoteReady s
  | .ownerKey x1 x2 => Sys2Proof.Machine.execOwnerKey x1 x2 s
  | .fmKey x1 x2 => Sys2Proof.Machine.execFmKey x1 x2 s
  | .mgmtKeyEnrol x1 x2 => Sys2Proof.Machine.execMgmtKeyEnrol x1 x2 s
  | .mgmtKeyNext x1 x2 => Sys2Proof.Machine.execMgmtKeyNext x1 x2 s
  | .tamperClear x1 x2 => Sys2Proof.Machine.execTamperClear x1 x2 s
  | .debugUnlock x1 x2 => Sys2Proof.Machine.execDebugUnlock x1 x2 s
  | .zeroise x1 x2 => Sys2Proof.Machine.execZeroise x1 x2 s
  | .decommission x1 x2 => Sys2Proof.Machine.execDecommission x1 x2 s
  | .rollbackOverride x1 x2 => Sys2Proof.Machine.execRollbackOverride x1 x2 s
  | .fwStageSrc x1 x2 x3 => Sys2Proof.Machine.execFwStageSrc x1 x2 x3 s
  | .fwStageVerified x1 => Sys2Proof.Machine.execFwStageVerified x1 s
  | .fwActivate x1 x2 => Sys2Proof.Machine.execFwActivate x1 x2 s
  | .fwRecovery x1 x2 x3 => Sys2Proof.Machine.execFwRecovery x1 x2 x3 s
  | .warmReset x1 x2 => Sys2Proof.Machine.execWarmReset x1 x2 s
  | .coldReset x1 x2 => Sys2Proof.Machine.execColdReset x1 x2 s
  | .powerDown x1 x2 => Sys2Proof.Machine.execPowerDown x1 x2 s
  | .serviceBypassClose x1 => Sys2Proof.Machine.execServiceBypassClose x1 s
  | .tasterReqCluster x1 x2 x3 x4 x5 => Sys2Proof.Machine.execTasterReqCluster x1 x2 x3 x4 x5 s
  | .tasterReqPantry x1 x2 x3 x4 x5 => Sys2Proof.Machine.execTasterReqPantry x1 x2 x3 x4 x5 s
  | .tasterReqStack x1 x2 x3 x4 x5 => Sys2Proof.Machine.execTasterReqStack x1 x2 x3 x4 x5 s
  | .tasterReqSolver x1 x2 x3 x4 x5 => Sys2Proof.Machine.execTasterReqSolver x1 x2 x3 x4 x5 s
  | .tasterReqRecal x1 x2 x3 x4 x5 => Sys2Proof.Machine.execTasterReqRecal x1 x2 x3 x4 x5 s
  | .tasterReqFullTest x1 x2 x3 x4 x5 => Sys2Proof.Machine.execTasterReqFullTest x1 x2 x3 x4 x5 s
  | .tasterSliceStart x1 => Sys2Proof.Machine.execTasterSliceStart x1 s
  | .sliceBistDone x1 x2 x3 => Sys2Proof.Machine.execSliceBistDone x1 x2 x3 s
  | .fullTestDone x1 x2 x3 => Sys2Proof.Machine.execFullTestDone x1 x2 x3 s
  | .opTarget x1 x2 => Sys2Proof.Machine.execOpTarget x1 x2 s
  | .synthLocked => Sys2Proof.Machine.execSynthLocked s
  | .governorSample x1 => Sys2Proof.Machine.execGovernorSample x1 s
  | .governorDutyUpdate x1 => Sys2Proof.Machine.execGovernorDutyUpdate x1 s
  | .powerFault => Sys2Proof.Machine.execPowerFault s
  | .v52Valid x1 => Sys2Proof.Machine.execV52Valid x1 s
  | .supplySag x1 => Sys2Proof.Machine.execSupplySag x1 s
  | .brownoutSaveDone => Sys2Proof.Machine.execBrownoutSaveDone s
  | .heldExit x1 => Sys2Proof.Machine.execHeldExit x1 s
  | .pllLockLost x1 => Sys2Proof.Machine.execPllLockLost x1 s
  | .wenedPllLost => Sys2Proof.Machine.execWenedPllLost s
  | .watchdogExpiry => Sys2Proof.Machine.execWatchdogExpiry s
  | .rstNAssert => Sys2Proof.Machine.execRstNAssert s
  | .rstNRelease => Sys2Proof.Machine.execRstNRelease s
  | .bringupStageComplete x1 x2 x3 x4 x5 => Sys2Proof.Machine.execBringupStageComplete x1 x2 x3 x4 x5 s
  | .bringupTimeout x1 => Sys2Proof.Machine.execBringupTimeout x1 s
  | .presNRelease x1 x2 => Sys2Proof.Machine.execPresNRelease x1 x2 s
  | .ownerEnRelease => Sys2Proof.Machine.execOwnerEnRelease s
  | .presenceWindowExpiry => Sys2Proof.Machine.execPresenceWindowExpiry s
  | .sealReading x1 => Sys2Proof.Machine.execSealReading x1 s
  | .ethLinkChange x1 => Sys2Proof.Machine.execEthLinkChange x1 s
  | .ptpSyncMissed => Sys2Proof.Machine.execPtpSyncMissed s
  | .pfcPause x1 x2 => Sys2Proof.Machine.execPfcPause x1 x2 s
  | .roceCnp x1 => Sys2Proof.Machine.execRoceCnp x1 s
  | .pllLockStable => Sys2Proof.Machine.execPllLockStable s
  | .counterSnapshot => Sys2Proof.Machine.execCounterSnapshot s
  | .loanRevoke x1 x2 x3 => Sys2Proof.Machine.execLoanRevoke x1 x2 x3 s
  | .unassignedOpcode x1 x2 => Sys2Proof.Machine.execUnassignedOpcode x1 x2 s
  | .ckptStorageAck x1 x2 => Sys2Proof.Machine.execCkptStorageAck x1 x2 s
  | .replayLogReadDone x1 x2 => Sys2Proof.Machine.execReplayLogReadDone x1 x2 s
  | .stagedImageBootDone x1 x2 => Sys2Proof.Machine.execStagedImageBootDone x1 x2 s

end Sys2Proof.Machine
end

