-- ==== Sys2Proof/Machine/Tick.lean ====
section
/-! DEFINITION. What passes when no command waits. -/

namespace Sys2Proof.Machine

open Sys2Proof

/-- A frame of the memory arbiters begins with the weights last set (R163). -/
def newWeights (s : State) : State :=
  (List.range 4).foldl (fun s i => wr s (0x301000 + i) (rd s 0x301004 / 2 ^ (8 * i) % 256)) s

/-- One nanosecond of device time passes: the ports send, and the memory arbiters begin a frame (DESIGN CHOICE, log entry 5). -/
def idleTick (s : State) : State := scrubTick (newWeights (portTick (fabricTick { s with ptpNs := s.ptpNs + 1 })))

end Sys2Proof.Machine
end

