-- ==== Sys2Proof/WellFormed.lean ====
section
/-! DEFINITION. Well-formed commands: every operand that `Instr` holds as a natural number lies in its field, every byte string
has the length its record gives, and a Noeno op is one that load lets pass. -/

namespace Sys2Proof

/-- A field of `n` bits. -/
def fits (n v : Nat) : Bool := decide (v < 2 ^ n)

/-- A datagram header: the widths of Table 12.2, and DEVICE ID and TAG of a relay (R383). -/
def DgHdr.wf (h : DgHdr) : Bool :=
  fits 8 h.version && fits 6 h.flagsRes && fits 12 h.ctx && fits 20 h.stream && fits 32 h.seq && fits 16 h.length && fits 16 h.udpLen
    && fits 16 h.gen && fits 128 h.src && fits 16 h.port && fits 64 h.ts
    && (match h.relay with | some (d, t) => fits 16 d && decide (t < 8) | none => true)

/-- A dictionary record: the widths of Table 16.2; the value of a WRITE is as long as LENGTH says. -/
def DRec.wf (r : DRec) : Bool :=
  fits 8 r.op && fits 8 r.flags && fits 16 r.index && fits 8 r.sub && fits 8 r.res && fits 16 r.ctx && fits 32 r.offset && fits 32 r.length
    && (decide (r.op ≠ 2) || decide (r.value.length = r.length)) && (match r.auth with | some a => fits 64 a.seq | none => true)

/-- A requester. -/
def Req.wf (r : Req) : Bool :=
  fits 12 r.ctx && (match r.path with | .tenant id => fits 12 id | .relay d => fits 16 d | _ => true)
    && (match r.auth with | some a => fits 64 a.seq | none => true)

/-- A flit header: the widths of Table 9.3. -/
def Flit.wf (f : Flit) : Bool :=
  fits 3 f.vc && fits 5 f.kind && fits 16 f.dest && fits 16 f.src && fits 16 f.epoch && fits 4 f.hops && fits 4 f.flow

/-- A flit's trailer: the widths of Table 9.3. -/
def Trailer.wf (x : Trailer) : Bool := fits 12 x.seq && fits 12 x.ack && fits 3 x.cvc && fits 5 x.ccount

/-- A remote packet: the widths of Table 10.4. -/
def RPkt.wf (p : RPkt) : Bool := fits 16 p.ctx && fits 16 p.master && fits 16 p.tag && fits 8 p.status && fits 8 p.inc

/-- A collective packet: the widths of Table 11.6. -/
def CPkt.wf (p : CPkt) : Bool :=
  fits 32 p.step && fits 32 p.chunk && fits 16 p.seq && fits 16 p.flit && fits 16 p.origin && fits 8 p.form && fits 8 p.tier && fits 16 p.res
    && fits 32 p.count

/-- CHUNK of a collective op: a multiple of 4,096 up to 262,144 (Table 3.13). -/
def chunkOk (n : Nat) : Bool := decide (n % 4096 = 0 ∧ n ≤ 262144)

/-- What load step 9 asks of a Noeno op's format, subcode and chunk. -/
def opForm : Instr → Bool
  | .gzero _ f _ => (Machine.tileTypeOf f).isSome
  | .gmma _ f g _ _ _ _ _ => decide (f ≠ .int32 ∧ g ≠ .int32)
  | .wbin _ f op _ _ _ _ => Machine.binAccepts op f
  | .wfma _ f _ _ _ _ => Machine.isLong f
  | .wun _ f op _ _ _ => Machine.unAccepts op f
  | .wact _ f _ _ _ _ => Machine.actAccepts f
  | .wred _ f mode op _ _ _ => Machine.redAccepts mode op f
  | .pref _ _ _ level => decide (level.val ≠ 3)
  | .rrepl _ _ n => decide (1 ≤ n.val ∧ n.val ≤ 8)
  | .callred _ f mode op n _ _ => Machine.redAccepts mode op f && chunkOk n
  | .crscat _ f mode op n _ _ => Machine.redAccepts mode op f && chunkOk n
  | .cagth _ _ n _ _ => chunkOk n
  | .cbcst _ _ n _ _ _ => chunkOk n
  | .ca2a _ _ n _ _ => chunkOk n
  | .rwritef _ _ _ _ t _ inc => decide (t.val < 4000 ∧ inc.val ≠ 0)
  | _ => true

/-- What a datagram carries: the fields of a payload that have their own records. -/
def TCmd.wf : TCmd → Bool
  | .load a => fits 32 a.rKey && fits 64 a.offset && fits 64 a.length
  | .halt mode _ => fits 8 mode
  | .input a => fits 16 a.decl && fits 32 a.step && fits 64 a.offset
  | .outputResend decl _ step => fits 16 decl && fits 32 step
  | .regMem a => fits 16 a.tensor && fits 8 a.rights && fits 64 a.offset && fits 64 a.length
  | .deregMem k _ => fits 32 k
  | .bulk a => fits 8 a.op && fits 16 a.tensor && fits 64 a.local' && fits 64 a.length
  | .entryRead r => r.wf
  | .entryWrite r => r.wf
  | .mgmtRead r => r.wf
  | .mgmtWrite r => r.wf
  | .streamOpen a => fits 8 a.table && fits 8 a.credit && fits 16 a.ctx && fits 32 a.firstId && fits 32 a.count && fits 128 a.peer
  | .streamClose a => fits 8 a.table && fits 32 a.firstId && fits 32 a.count
  | .context ctx _ c => fits 16 ctx && (match c with | .members n _ ids => decide (ids.length = n) | _ => true)
  | .unassigned op => fits 16 op
  | _ => true

/-- Flit, packet, header and record operands of a command. -/
def operandsOk : Instr → Bool
  | .readReq f p => f.wf && p.wf
  | .writeReq f p => f.wf && p.wf
  | .writecReq f p => f.wf && p.wf
  | .flagInc f p => f.wf && p.wf
  | .replInv f p => f.wf && p.wf
  | .replFill f p => f.wf && p.wf
  | .readResp f p => f.wf && p.wf
  | .writeAck f p => f.wf && p.wf
  | .flagAck f p => f.wf && p.wf
  | .invAck f p => f.wf && p.wf
  | .refusal f p => f.wf && p.wf
  | .collOpenUp f p => f.wf && p.wf
  | .collOpenDown f p => f.wf && p.wf
  | .collUp f p => f.wf && p.wf
  | .collDown f p => f.wf && p.wf
  | .collA2a f p => f.wf && p.wf
  | .flitForward f x _ => f.wf && x.wf
  | .nak _ n => fits 12 n.seq
  | .stewardEvent _ unit _ => fits 10 unit
  | .cmdNop h => h.wf
  | .load h a => h.wf && (TCmd.load a).wf
  | .run h => h.wf
  | .haltAtStepPoint h _ => h.wf
  | .haltAtOnce h _ => h.wf
  | .input h a => h.wf && (TCmd.input a).wf
  | .outputResend h d r n => h.wf && (TCmd.outputResend d r n).wf
  | .regMem h a => h.wf && (TCmd.regMem a).wf
  | .deregMem h k r => h.wf && (TCmd.deregMem k r).wf
  | .bulk h a => h.wf && (TCmd.bulk a).wf
  | .entryRead h r => h.wf && r.wf
  | .entryWrite h r => h.wf && r.wf
  | .mgmtEntryRead h r => h.wf && r.wf
  | .mgmtEntryWrite h r => h.wf && r.wf
  | .streamOpen h a => h.wf && (TCmd.streamOpen a).wf
  | .streamClose h a => h.wf && (TCmd.streamClose a).wf
  | .members h ctx r n rank ids => h.wf && (TCmd.context ctx r (.members n rank ids)).wf
  | .unassignedOpcode h op => h.wf && fits 16 op
  | .relayDatagram h c => h.wf && c.wf && h.relay.isSome
  | .plantMeas h _ n _ _ => h.wf && fits 16 n
  | .dictRead _ r => r.wf && decide (r.op = 1)
  | .dictWrite _ r => r.wf && decide (r.op = 2)
  | .dictWriteSegment _ r => r.wf && decide (r.op = 2)
  | .dictDescribe _ r => r.wf && decide (r.op = 3)
  | .dictNext _ r => r.wf && decide (r.op = 4)
  | .canFrame id _ _ _ bs => fits 11 id && decide (bs.length = 63)
  | .relayTx r target tag _ length bs => r.wf && fits 16 target && fits 8 tag && fits 16 length && decide (bs.length = 32 + length)
  | _ => true

/-- A well-formed command. -/
def Instr.wf (i : Instr) : Bool := opForm i && operandsOk i

end Sys2Proof
end

