-- ==== Sys2Proof/Safety.lean ====
section
/-! DEFINITION. The terms in which statements are made: when a worker may issue, what an op leaves, which bytes a form
stores to, and the invariant of the dictionary's values. -/

namespace Sys2Proof.Machine

open Sys2Proof

/-! ### Worker ops -/

/-- Context `id` runs, its worker on cluster `w` may issue its next op, and no fence stops it (R23). -/
def Ready (s : State) (id : Nat) (w : Cluster) : Prop :=
  runningId s = some id ∧ mayIssue (getC s id) (getW (getC s id) w.val) = true ∧ issueStopped s w.val = false

/-- The context that an op presented to cluster `w` acts on. -/
def ctxAt (s : State) (id : Nat) (w : Cluster) : Context := endWait s (getC s id) (getW (getC s id) w.val)

/-- The worker that an op presented to cluster `w` acts on: it waits for nothing. -/
def workAt (s : State) (id : Nat) (w : Cluster) : Worker := { getW (getC s id) w.val with wait := none, since := s.ptpNs }

/-- The state after an op of `ext` extension words that left context `c` and worker `k`. -/
def ran (s : State) (id : Nat) (w : Cluster) (ext : Nat) (c : Context) (k : Worker) : State :=
  setC s id (setW c w.val (advance k ext))

/-- The state after an op that left context `c` and worker `k` and set the next code word itself. -/
def jumped (s : State) (id : Nat) (w : Cluster) (c : Context) (k : Worker) : State := setC s id (setW c w.val k)

/-- The state after an op was turned away, to be presented again. -/
def turned (s : State) (id : Nat) (w : Cluster) (c : Context) (k : Worker) (why : WaitWhy) : State :=
  setC s id (setW c w.val { k with wait := some why })

/-- Index value `i` of an INT32 view. -/
def indexAt (c : Context) (w : Cluster) (k : Worker) (v : View) (i : Nat) : Int := intVal .int32 (readElem c w.val k v i)

/-- Nothing holds a move back: no engine still uses its bytes, and no page of its destination (or, with LU, of the tensor whose life
ends) is protected or waits for a remap. -/
def moveFree (c : Context) (w : Cluster) (k : Worker) (lu : Bool) (srcs : List View) (vd : View) (t : Nat) : Prop :=
  viewClash c k srcs [vd] = none ∧ destHeld c w.val vd (viewCount vd) = false ∧ (lu = true → lifeHeld c w.val t = false)

/-- The state after a move that accessed `ts` wrote elements `ws` (index in v[D], bits) in order, and ended the life of tensor `t` for
LU. Where it wrote an element of a replica region of its own, the worker's replica-written bit is set (R252). -/
def moved (s : State) (id : Nat) (w : Cluster) (c : Context) (k : Worker) (fmt : Fmt) (ts : List Touched) (lu : Bool) (vd : View) (t : Nat)
    (ws : List (Nat × Nat)) : State :=
  let sc := moveAccess s c w.val fmt ts
  let ck := ws.foldl (fun ck x => writeElem ck.1 w.val ck.2 vd x.1 x.2) (sc.2, k)
  let k' := if ws = [] then ck.2 else markReplica ck.1 ck.2 vd.tensor
  if lu then ran (dropPages sc.1 ck.1 (tensorPages ck.1 w.val t)) id w 0 (endLife ck.1 w.val k' t).1 (endLife ck.1 w.val k' t).2
  else ran sc.1 id w 0 ck.1 k'

/-- Element `i` of source operand `o` in view `v` can be read: a register group holds the operand (R119), or its place has no
uncorrectable error and no dead lender. -/
def srcFine (c : Context) (cl : Nat) (k : Worker) (op : WOp) (v : View) (i o : Nat) : Prop :=
  (heldGroup c k op o).isSome = true ∨ (placeDead c (viewPlace c cl v i) = false ∧ placeBad c k (viewPlace c cl v i) = false)

/-- A destination element can be written: its lender lives, it keeps no part of a bad word, and its page is not protected. -/
def destOpen (c : Context) (k : Worker) (p : Place) : Prop :=
  placeDead c p = false ∧ writeBad c k p = false ∧ placeProtected c p = false

/-- A compare of the Whisk. -/
def WKind.isCmp : WKind → Bool
  | .cmp _ => true
  | _ => false

/-- The walk of a Whisk op from its first element. -/
def whiskWalk (s : State) (id : Nat) (w : Cluster) (op : WOp) : WRun :=
  let k := workAt s id w
  whiskLoop w.val op (List.range' k.elemStart (whiskCount k op - k.elemStart)) ⟨ctxAt s id w, loadGroups (ctxAt s id w) w.val k op, 0, 0, none⟩

/-- Nothing holds an element-wise op back: it has elements, no engine still uses its bytes, its operands pass R122, and every
unmasked element can be read and written. -/
def whiskFree (s : State) (id : Nat) (w : Cluster) (op : WOp) : Prop :=
  whiskEmpty (workAt s id w) op = false ∧ whiskWait (ctxAt s id w) w.val (workAt s id w) op = none ∧
  whiskBad (ctxAt s id w) (workAt s id w) op = false ∧ (whiskWalk s id w op).stop = none

/-- The state after an element-wise op walked to its end: what the walk wrote, its beats and elements counted, its accesses made, its
flags merged. -/
def whiskRan (s : State) (id : Nat) (w : Cluster) (op : WOp) : State :=
  let r := whiskWalk s id w op
  let e := (workAt s id w).elemStart
  let n := whiskCount (workAt s id w) op
  let k := loadGroups (ctxAt s id w) w.val (workAt s id w) op
  let sc := whiskAccess s (eincr (countBeats s r.c w.val k op e n none) 0x503001 r.done) w.val k op (unmasked k op e n)
  ran sc.1 id w op.ext sc.2 (whiskFinish sc.2 (whiskMark r.c (mergeAsw r.k r.fl) op r.done) op)

/-- The state after SOLVE submitted the descriptor at v[A] to binding `b`. -/
def solved (s : State) (id : Nat) (w : Cluster) (d : SReg) (a : VReg) (b : Binding) : State :=
  let k := workAt s id w
  let sc := moveAccess s (ctxAt s id w) w.val .int32 [(getV k a, List.range 64, false, false)]
  let desc : Desc := BitVec.ofNat 2048 ((List.range 64).foldl (fun n i => n + readElem sc.2 w.val k (getV k a) i * 2 ^ (32 * i)) 0)
  let r := submit sc.1 id w.val sc.2 k b desc
  ran r.1 id w 0 r.2.1 (setS r.2.2 d (BitVec.ofNat 64 (Config.ticketBase + (r.2.2.nextTicket - 1))))

/-- A worker's request in a collective (R268). -/
def collRequest (c : Context) (k : Worker) (w : Cluster) (kind : CollKind) (fmt : Fmt) (mode : RedMode) (op : RedOp) (cfield chunk : Nat)
    (d a : VReg) (root : Nat) : CollReq :=
  ⟨w.val, kind, fmt, mode, op, chunk, root, rmCode (rmOf k.acw), getV k d, getV k a, (viewFmt c (getV k d)).getD fmt,
    collSig c (collOpcode kind) cfield chunk root (rmCode (rmOf k.acw)) (getV k d) (getV k a)⟩

/-- Nothing holds a collective op back, and it passes R265 and R266. -/
def collFree (c : Context) (k : Worker) (w : Cluster) (d a : VReg) (q : CollReq) : Prop :=
  viewClash c k [getV k a] [getV k d] = none ∧ destHeld c w.val (getV k d) (viewCount (getV k d)) = false ∧
  collBad c q (getV k d) (getV k a) = none

/-- The context with a worker's request in its collective. -/
def joined (c : Context) (q : CollReq) : Context := { c with coll := some (putReq (c.coll.getD Coll.fresh) q) }

/-- Byte address `a` lies in an element's place. -/
def inPlace (p : Place) (a : Nat) : Prop := p.addr ≤ a ∧ a < p.addr + placeBytes p

/-! ### Entry writes -/

/-- The record of a row that writes entry `k` passes every check of the dictionary that comes before the entry's own rule
(R376, R378, R379, R384). -/
def Admits (s : State) (r : Req) (k : Nat) (bs : List Byte) : Prop :=
  checkHead r.path (reqRec r k bs) = none ∧ (deviceState s ≠ 5 ∨ recoveryServes (reqRec r k bs) = true) ∧
  ∃ e, entryOf k = some e ∧ checkEntry s r.path (reqRec r k bs) e = none

/-- The state after an admitted write whose own effect left `t`: what every write leaves beside it, the count, the reply. -/
def accepted (t : State) (r : Req) (k : Nat) (bs : List Byte) : State :=
  match entryOf k with
  | none => t
  | some e =>
    let t := afterWrite t (reqRec r k bs) e (padTo bs.length bs)
    sendReply (incr t 0x100900 1) r.path (replyBytes ⟨0, typeCode e.type, typeSize e.type, 0,
      snapOf t (pathCtx r.path).isSome (targetCtx r.path (reqRec r k bs)) k, []⟩)

/-- The state after an admitted write that the entry's own rule refuses with `code`: two counts and the reply. -/
def rejected (s : State) (r : Req) (k : Nat) (bs : List Byte) (code : Nat) : State :=
  match entryOf k with
  | none => s
  | some e => sendReply (incr (incr s 0x100900 1) 0x100901 1) r.path (replyBytes ⟨code, 0, typeSize e.type, 0,
      snapOf s (pathCtx r.path).isSome (targetCtx r.path (reqRec r k bs)) k, []⟩)

/-- A row that writes entry `k` takes effect: it completes with its own effect leaving `t`. -/
def Takes (i : Instr) (s : State) (r : Req) (k : Nat) (bs : List Byte) (t : State) : Prop :=
  Admits s r k bs → exec i s = .next (accepted t r k bs)

/-- A row that writes entry `k` is refused with `code` and has no effect. -/
def Refuses (i : Instr) (s : State) (r : Req) (k : Nat) (bs : List Byte) (code : Nat) : Prop :=
  Admits s r k bs → exec i s = .next (rejected s r k bs code)

/-! ### Command datagrams -/

/-- The state once checks 1 to 6 of a datagram are done and RX_NEXT has moved over it. -/
def taken (s : State) (h : DgHdr) : State := takeSeq (arrive s h).1 h

/-- A command datagram that passes checks 1 to 6 of Table 12.3 on an OPEN stream, is the next in sequence, and finds its stream
free. -/
def InOrder (s : State) (h : DgHdr) : Prop :=
  (h.relay.isSome = true ∨ edUp s = true) ∧ (arrive s h).2 = true ∧ (getStream s h.mgmt h.stream).state = 1 ∧
  (getStream s h.mgmt h.stream).kind = 1 ∧ h.seq = (getStream s h.mgmt h.stream).rxNext ∧ h.seq < 0xFFFFFF00 ∧
  streamBusy s h.mgmt h.stream = false ∧ s.eth.held = []

/-- It also passes steps 7 and 8: reserved bits, opcode, LENGTH, and what a replaying context accepts. -/
def Passes (s : State) (h : DgHdr) (c : TCmd) : Prop :=
  InOrder s h ∧ reservedBad h c = false ∧ cmdMgmt c = some h.mgmt ∧ h.length = cmdLength c ∧
  (h.mgmt = true ∨ replaying s h.ctx = false ∨ replayAccepts c = true)

/-- A command has ended: one COMPLETION leaves, by relay where the command came so. -/
def answered (t : State) (h : DgHdr) (status detail : Nat) (extra : List Byte) : State :=
  flushRelay (complete t h.mgmt h.stream h status detail extra)

/-- A command goes on and holds its stream (R294). -/
def begun (t : State) (h : DgHdr) (c : TCmd) : State :=
  flushRelay { t with eth := { t.eth with busy := t.eth.busy ++ [⟨h.mgmt, h.stream, h, c⟩] } }

/-- A datagram's command is performed and ends at once, its effect leaving `t`; its context is not being recorded. -/
def Performs (i : Instr) (s : State) (h : DgHdr) (c : TCmd) (t : State) (status detail : Nat) (extra : List Byte) : Prop :=
  Passes s h c → h.mgmt = true ∨ recording t h.ctx = false → exec i s = .next (answered t h status detail extra)

/-- A datagram's command is performed and goes on, its start leaving `t`. -/
def Begins (i : Instr) (s : State) (h : DgHdr) (c : TCmd) (t : State) : Prop :=
  Passes s h c → exec i s = .next (begun t h c)

/-- The state after the command in progress `b` ended with nothing held behind it. -/
def ended (t : State) (b : BusyCmd) (status detail : Nat) : State :=
  answered { t with eth := { t.eth with busy := t.eth.busy.erase b } } b.hdr status detail []

/-- The long command in progress that a test names, where nothing is held behind it and its context is not recorded. -/
def Runs (t : State) (p : BusyCmd → Bool) (b : BusyCmd) : Prop :=
  t.eth.busy.find? p = some b ∧ b.mgmt = b.hdr.mgmt ∧ b.stream = b.hdr.stream ∧ t.eth.held = [] ∧ recording t b.hdr.ctx = false

/-! ### The dictionary's values -/

/-- Every value that the device-wide table lists fits its entry's type, every change counter is a U32, both tables are canonical,
and contexts stand in order of their IDs. -/
def Sound (s : State) : Prop :=
  twf entryDefault s.ent = true ∧ (∀ p ∈ s.ent, fitEntry p.1 p.2 = p.2) ∧
  twf (fun _ => 0) s.snap = true ∧ (∀ p ∈ s.snap, p.2 < 2 ^ 32) ∧ tsorted s.ctxs = true

/-! ### Packets -/

/-- A remote request that arrives on one of its VCs and passes the checks of R216, R237 and R239. -/
def Admitted (s : State) (f : Flit) (p : RPkt) (vcs spaces : List Nat) (write mask inc : Bool) : Prop :=
  packetArrives s f vcs = true ∧ f.resv = false ∧ reqReserved p mask inc = false ∧ f.epoch = rd s 0x400200 % 65536 ∧ admitReq s f p spaces write = (s, none)

/-- An answer that arrives on its VC, passes the checks of R216 and R237 and names a worker's slot. -/
def Answers (s : State) (f : Flit) (p : RPkt) (vc : Nat) : Prop :=
  packetArrives s f [vc] = true ∧ f.resv = false ∧ p.ctx < 4096 ∧ p.tag < 64 ∧ p.inc = 0 ∧ p.mask = 0 ∧ f.epoch = rd s 0x400200 % 65536 ∧ p.master % 1024 < 500

/-- A byte of a line under a mask, or the byte that was there. -/
def maskedByte (line : Nat) (mask : BitVec 128) (data : BitVec 1024) (old : BitVec 8) (a : Nat) : BitVec 8 :=
  if line ≤ a ∧ a < line + 128 ∧ mask.getLsbD (a - line) = true then data.extractLsb' (8 * (a - line)) 8 else old

end Sys2Proof.Machine
end

