-- ==== Sys2Proof/Certificates/Slice0/Obligations.lean ====
section
/-! DEFINITION. The statements for the provers. -/

open Sys2Proof Sys2Proof.Machine

/-! ### The machine -/

/-- A step runs the command at the front of the queue on the state with the queue's rest. That time passes on an empty queue is the
model's choice (log entry 5). -/
def Obligations.StepRunsTheFrontCommand : Prop :=
  (∀ (s : State) (c : Instr) (rest : List Instr), step { s with pending := c :: rest } = exec c { s with pending := rest }) ∧
  (∀ s : State, s.pending = [] → step s = .next (idleTick s))

/-- What reset leaves, as the spec states it: RESET_CAUSE 0 (POWER_ON) and DEVICE_STATE 0, every entry at the default of its
table, no context, no stream open, nothing recorded. -/
def Obligations.ResetHoldsEveryEntryAtItsDefault : Prop :=
  (∀ k, rd State.reset k = entryDefault k) ∧
  (∀ id, (getC State.reset id).live = false) ∧ runningId State.reset = none ∧
  (∀ mgmt id, (getStream State.reset mgmt id).state = 0) ∧
  State.reset.pkg.faults = [] ∧ State.reset.pending = []

/-- Reset meets the invariant of the dictionary's values and the tables. -/
def Obligations.ResetIsSound : Prop :=
  Sound State.reset

/-- Whatever command runs, from whatever state: values that fit their entries' types before the step fit them after it, change
counters stay U32, the tables stay canonical, and contexts stay in order. -/
def Obligations.EveryStepKeepsTheMachineSound : Prop :=
  ∀ s t : State, Sound s → step s = .next t → Sound t

/-- A step takes exactly the front command off the queue: no command adds, drops or reorders a waiting one. -/
def Obligations.StepTakesOnlyTheFrontCommand : Prop :=
  ∀ s t : State, step s = .next t → t.pending = s.pending.tail

/-- A command is refused only for an encoding of the op table that is reserved, under its own mnemonic's name. -/
def Obligations.OnlyReservedEncodingsAreRefused : Prop :=
  ∀ (c : Instr) (s : State), (∃ t, exec c s = .next t) ∨
    (c.wf = false ∧ ∃ m, exec c s = .refused (.reservedEncoding m))

/-! ### Numbers -/

/-- R35: the only NaN encodings of JF8M are 0x7F and 0xFF, both quiet, and every other pattern with E = 15 is a normal value. And of
JF16, from R34: a pattern with E = 0 reads as a zero of its sign, and no conversion from another format, rounded either way, and no
maximum or minimum produces one with F not zero. -/
def Obligations.ShortFormatsHaveTheirEncodings : Prop :=
  ((∀ bits, bits < 2 ^ 16 → bits / 2 ^ 7 % 2 ^ 8 = 0 → decode .jf16 bits = .zero (decide (2 ^ 15 ≤ bits))) ∧
  (∀ src rm r a, src ≠ .jf16 → isSubnormal .jf16 (convertElem .jf16 src rm r a).1 = false) ∧
  (∀ max a b, isSubnormal .jf16 (maxMin .jf16 max a b).1 = false)) ∧
  (∀ bits, bits < 256 →
    ((decode .jf8m bits).isNaN = true ↔ bits = 0x7F ∨ bits = 0xFF) ∧ (decode .jf8m bits).isSNaN = false ∧
    (bits / 8 % 16 = 15 → bits % 8 ≠ 7 → decode .jf8m bits = .fin (decide (128 ≤ bits)) (8 + bits % 8) (15 - 8 - 3)))

/-- R121: INT32 add, subtract and multiply give the exact result, or the nearer end of the range with ACC_SAT; they never raise
INEXACT. -/
def Obligations.Int32ArithmeticSaturates : Prop :=
  ∀ (rm : RM) (a b : BitVec 32), ∀ p ∈ [(BinOp.add, a.toInt + b.toInt), (.sub, a.toInt - b.toInt), (.mul, a.toInt * b.toInt)],
    (-2 ^ 31 ≤ p.2 ∧ p.2 < 2 ^ 31 → binElem .int32 p.1 rm a.toNat b.toNat = ((BitVec.ofInt 32 p.2).toNat, 0)) ∧
    (2 ^ 31 ≤ p.2 → binElem .int32 p.1 rm a.toNat b.toNat = (0x7FFFFFFF, fAccSat)) ∧
    (p.2 < -2 ^ 31 → binElem .int32 p.1 rm a.toNat b.toNat = (0x80000000, fAccSat)) ∧
    (binElem .int32 p.1 rm a.toNat b.toNat).2 &&& fInexact = 0

/-! ### Worker ops: control and scalar -/

/-- s0 reads as zero and discards writes, and every other scalar register holds what was last written into it (Table 3.3); SALU's
fourteen ops on 64-bit values (Table 3.13), in terms of the numbers the values stand for. -/
def Obligations.ScalarRegistersAndSalu : Prop :=
  (∀ (k : Worker) (r q : SReg) (x : BitVec 64),
    getS k 0 = 0 ∧ setS k 0 x = k ∧ (r ≠ 0 → getS (setS k r x) r = x) ∧ (q ≠ r → getS (setS k r x) q = getS k q)) ∧
  (∀ a b : BitVec 64,
    (saluVal .add a b).toNat = (a.toNat + b.toNat) % 2 ^ 64 ∧
    (saluVal .sub a b).toNat = (2 ^ 64 + a.toNat - b.toNat) % 2 ^ 64 ∧
    (saluVal .mul a b).toNat = a.toNat * b.toNat % 2 ^ 64 ∧
    (∀ i, (saluVal .and a b).getLsbD i = (a.getLsbD i && b.getLsbD i)) ∧
    (∀ i, (saluVal .or a b).getLsbD i = (a.getLsbD i || b.getLsbD i)) ∧
    (∀ i, (saluVal .xor a b).getLsbD i = (a.getLsbD i != b.getLsbD i)) ∧
    (saluVal .shl a b).toNat = a.toNat * 2 ^ (b.toNat % 64) % 2 ^ 64 ∧
    (saluVal .shr a b).toNat = a.toNat / 2 ^ (b.toNat % 64) ∧
    (saluVal .sra a b).toInt = a.toInt / 2 ^ (b.toNat % 64) ∧
    (saluVal .min a b).toInt = min a.toInt b.toInt ∧
    (saluVal .max a b).toInt = max a.toInt b.toInt ∧
    saluVal .eq a b = (if a = b then 1 else 0) ∧
    saluVal .lt a b = (if a.toInt < b.toInt then 1 else 0) ∧
    saluVal .ltu a b = (if a.toNat < b.toNat then 1 else 0))

/-- NOP, SLI, SLIH, SALU, WID, RDCW and WRCW complete on any worker that may issue, with the results of their rows of
Table 3.13; nothing else of the machine changes. The forms that wait for Griddle ops (R107) complete once none is left. -/
def Obligations.ScalarOpsComplete : Prop :=
  ∀ (s : State) (id : Nat) (w : Cluster), Ready s id w →
    let c := ctxAt s id w
    let k := workAt s id w
    exec (.nop w) s = .next (ran s id w 0 c k) ∧
    (∀ d imm, exec (.sli w d imm) s = .next (ran s id w 0 c (setS k d (imm.signExtend 64)))) ∧
    (∀ d imm, exec (.slih w d imm) s = .next (ran s id w 0 c (setS k d (imm ++ (getS k d).extractLsb' 0 32)))) ∧
    (∀ op d a b, exec (.salu w op d a b) s = .next (ran s id w 0 c (setS k d (saluVal op (getS k a) (getS k b))))) ∧
    (∀ d, exec (.wid w d .worker) s = .next (ran s id w 0 c (setS k d (BitVec.ofNat 64 (4000 * c.rank + w.val))))) ∧
    (∀ d, exec (.wid w d .cluster) s = .next (ran s id w 0 c (setS k d (BitVec.ofNat 64 w.val)))) ∧
    (∀ d, exec (.wid w d .rank) s = .next (ran s id w 0 c (setS k d (BitVec.ofNat 64 c.rank)))) ∧
    (∀ d, exec (.wid w d .devices) s = .next (ran s id w 0 c (setS k d (BitVec.ofNat 64 c.n)))) ∧
    (∀ d, exec (.wid w d .step) s = .next (ran s id w 0 c (setS k d (BitVec.ofNat 64 c.step)))) ∧
    (∀ d, exec (.rdcw w d false) s = .next (ran s id w 0 c (setS k d (k.acw.setWidth 64)))) ∧
    (k.gq = [] → k.gf = [] →
      (∀ d, exec (.rdcw w d true) s = .next (ran s id w 0 c (setS k d (k.asw.setWidth 64)))) ∧
      (∀ asw a, (getS k a).toNat < (if asw then 2 ^ 8 else 2 ^ 3) →
        (asw = false → (getS k a).getLsbD 2 = true → (modOf c).features.testBit 3 = true) →
        exec (.wrcw w asw a) s = .next (ran s id w 0 c
          (if asw then { k with asw := (getS k a).setWidth 32 } else { k with acw := (getS k a).setWidth 32 }))) ∧
      (∀ asw a, (if asw then 2 ^ 8 else 2 ^ 3) ≤ (getS k a).toNat →
        exec (.wrcw w asw a) s = .next (ran s id w 0 c { k with asw := k.asw ||| fInvalid })))

/-- LOOP, BRNZ, VDEF of a window inside its tensor, WVL and RDTIME complete with the results of their rows; RDTIME reads the
device time rounded down to a microsecond (R361), and a recording device logs it. At the end of an op the next word follows, after
the op's extension words; the end of a loop body starts the next pass with its index in s[D], and leaves the loop after the last. -/
def Obligations.ControlAndViewOpsComplete : Prop :=
  (∀ (s : State) (id : Nat) (w : Cluster), Ready s id w →
    let c := ctxAt s id w
    let k := workAt s id w
    (∀ d a b, getS k a = 0 → exec (.loop w d a b) s = .next (jumped s id w c (closeLoops k (k.pc + 1 + (b.val + 1)) k.loops))) ∧
    (∀ d a b, getS k a ≠ 0 → exec (.loop w d a b) s = .next (jumped s id w c
      (setS { k with pc := k.pc + 1, loops := ⟨k.pc + 1, k.pc + 1 + (b.val + 1), d, 0, (getS k a).toNat⟩ :: k.loops } d 0))) ∧
    (∀ d off, getS k d = 0 → exec (.brnz w d off) s = .next (ran s id w 0 c k)) ∧
    (∀ d off, getS k d ≠ 0 → exec (.brnz w d off) s = .next (jumped s id w c { k with pc := ((k.pc : Int) + 1 + off.toInt).toNat })) ∧
    (∀ d tensor sc rows cols rs cs o t, tensorOf c tensor.val = some t →
      viewInside t ⟨tensor.val, rows.toNat, cols.toNat, rs.toInt, cs.toInt, (o + getS k sc).toInt⟩ = true →
      exec (.vdef w d tensor sc rows cols rs cs o) s = .next (ran s id w 3 c { k with v := (tset View.empty k.v d.val
        ⟨tensor.val, rows.toNat, cols.toNat, rs.toInt, cs.toInt, (o + getS k sc).toInt⟩) })) ∧
    (∀ d a, let n := (min (max (getS k a).toInt 1) 4096).toNat
      exec (.wvl w d a) s = .next (ran s id w 0 (eincr c 0x503000 1) (setS { k with vl := n } d (BitVec.ofNat 64 n)))) ∧
    (replaying s id = false → ∀ d, exec (.rdtime w d) s = .next (ran
      (logInput s id 0x07 c.step (rdtimeKey c w.val k) 0 (natLe 8 (s.ptpNs / 1000 * 1000))) id w 0 c
      (setS k d (BitVec.ofNat 64 (s.ptpNs / 1000 * 1000)))))) ∧
  (∀ (k : Worker) (ext : Nat),
    (k.loops = [] → advance k ext = { k with pc := k.pc + 1 + ext }) ∧
    (∀ f fs, k.loops = f :: fs → k.pc + 1 + ext ≠ f.stop → advance k ext = { k with pc := k.pc + 1 + ext }) ∧
    (∀ f fs, k.loops = f :: fs → k.pc + 1 + ext = f.stop → f.pass + 1 < f.count →
      advance k ext = setS { k with pc := f.start, loops := { f with pass := f.pass + 1 } :: fs } f.d (BitVec.ofNat 64 (f.pass + 1))) ∧
    (∀ f, k.loops = [f] → k.pc + 1 + ext = f.stop → f.count ≤ f.pass + 1 → advance k ext = { k with pc := f.stop, loops := [] }))

/-- The frame of every control and scalar op, WVL, FRD and FWAIT, whether the op runs or is turned away: other contexts, other
workers, this worker's tiles, views, masks, flags, tickets, engines and remote requests, every byte of memory, every device-wide
entry and every other unit stay. -/
def Obligations.ScalarOpsLeaveTheRest : Prop :=
  ∀ (s t : State) (w : Cluster) (i : Instr) (id : Nat), Ready s id w →
    (i = .nop w ∨ (∃ d x, i = .sli w d x) ∨ (∃ d x, i = .slih w d x) ∨ (∃ o d a b, i = .salu w o d a b) ∨ (∃ d x, i = .wid w d x) ∨
      (∃ d x, i = .rdcw w d x) ∨ (∃ x a, i = .wrcw w x a) ∨ (∃ d a b, i = .loop w d a b) ∨ (∃ d x, i = .brnz w d x) ∨
      (∃ d a, i = .wvl w d a) ∨ (∃ d f, i = .frd w d f) ∨ (∃ a f, i = .fwait w a f)) →
    exec i s = .next t →
    (∀ j, j ≠ id → getC t j = getC s j) ∧ (∀ a, rdByte (getC t id).vmem a = rdByte (getC s id).vmem a) ∧
    (∀ v, v ≠ w.val → getW (getC t id) v = getW (getC s id) v) ∧
    (let k := getW (getC s id) w.val
     let k' := getW (getC t id) w.val
     (∀ a, rdByte k'.l0 a = rdByte k.l0 a) ∧ k'.t = k.t ∧ k'.v = k.v ∧ k'.m = k.m ∧ k'.f = k.f ∧ k'.tickets = k.tickets ∧
     k'.gq = k.gq ∧ k'.gf = k.gf ∧ k'.wf = k.wf ∧ k'.rpend = k.rpend ∧ k'.slots = k.slots ∧ k'.run = k.run) ∧
    t.ent = s.ent ∧ t.eth = s.eth ∧ t.fab = s.fab ∧ t.solv = s.solv ∧ t.plants = s.plants ∧ t.wen = s.wen ∧ t.pkg = s.pkg

/-! ### Worker ops: moves -/

/-- MOVS, MOVG, MOVSC and FILL complete where their checks (R453), the engines still at work and the pages of their destination
allow: each destination element takes its source's bits, read before any is written; LU then ends the source tensor's life
(R147). -/
def Obligations.MovesComplete : Prop :=
  ∀ (s : State) (id : Nat) (w : Cluster), Ready s id w →
    let c := ctxAt s id w
    let k := workAt s id w
    (∀ fmt lu d a, let vd := getV k d; let va := getV k a
      viewCount vd ≠ 0 → moveFree c w k lu [va] vd va.tensor → viewIs c fmt va = true → viewIs c fmt vd = true → viewCount vd ≤ viewCount va →
      let ts : List Touched := [(va, List.range (viewCount vd), false, false), (vd, List.range (viewCount vd), true, false)]
      moveTrouble c w.val k ts = none →
      exec (.movs w fmt lu d a) s = .next (moved s id w c k fmt ts lu vd va.tensor
        ((List.range (viewCount vd)).map (fun i => (i, readElem c w.val k va i))))) ∧
    (∀ fmt lu d a b, let vd := getV k d; let va := getV k a; let vb := getV k b
      viewCount vd ≠ 0 → moveFree c w k lu [va, vb] vd va.tensor → viewIs c fmt va = true → viewIs c fmt vd = true →
      viewIs c .int32 vb = true → viewCount vd ≤ viewCount vb →
      (∀ i, i < viewCount vd → 0 ≤ indexAt c w k vb i ∧ indexAt c w k vb i < viewCount va) →
      let is := List.range (viewCount vd)
      let ts : List Touched := [(vb, is, false, false), (va, is.map (fun i => (indexAt c w k vb i).toNat), false, true), (vd, is, true, false)]
      moveTrouble c w.val k ts = none →
      exec (.movg w fmt lu d a b) s = .next (moved s id w c k fmt ts lu vd va.tensor
        (is.map (fun i => (i, readElem c w.val k va (indexAt c w k vb i).toNat))))) ∧
    (∀ fmt lu d a b, let vd := getV k d; let va := getV k a; let vb := getV k b
      viewCount va ≠ 0 → moveFree c w k lu [va, vb] vd va.tensor → viewIs c fmt va = true → viewIs c fmt vd = true →
      viewIs c .int32 vb = true → viewCount va ≤ viewCount vb →
      (∀ i, i < viewCount va → 0 ≤ indexAt c w k vb i ∧ indexAt c w k vb i < viewCount vd) →
      let is := List.range (viewCount va)
      let ts : List Touched := [(vb, is, false, false), (va, is, false, false), (vd, is.map (fun i => (indexAt c w k vb i).toNat), true, true)]
      moveTrouble c w.val k ts = none →
      exec (.movsc w fmt lu d a b) s = .next (moved s id w c k fmt ts lu vd va.tensor
        (is.map (fun i => ((indexAt c w k vb i).toNat, readElem c w.val k va i))))) ∧
    (∀ fmt d a, let vd := getV k d
      viewCount vd ≠ 0 → moveFree c w k false [] vd 0 → viewIs c fmt vd = true →
      let ts : List Touched := [(vd, List.range (viewCount vd), true, false)]
      moveTrouble c w.val k ts = none →
      exec (.fill w fmt d a) s = .next (moved s id w c k fmt ts false vd 0
        ((List.range (viewCount vd)).map (fun i => (i, (getS k a).toNat % 2 ^ fmtBits fmt)))))

/-- A move with no element to process has no effect but that the next op follows; PREF stages and changes no result, and with
LU ends the life of its tensor: every byte of it reads as zero. -/
def Obligations.EmptyMovesAndPrefetch : Prop :=
  ∀ (s : State) (id : Nat) (w : Cluster), Ready s id w →
    let c := ctxAt s id w
    let k := workAt s id w
    (∀ fmt lu d a, viewCount (getV k d) = 0 → exec (.movs w fmt lu d a) s = .next (ran s id w 0 c k)) ∧
    (∀ fmt lu d a b, viewCount (getV k d) = 0 → exec (.movg w fmt lu d a b) s = .next (ran s id w 0 c k)) ∧
    (∀ fmt lu d a b, viewCount (getV k a) = 0 → exec (.movsc w fmt lu d a b) s = .next (ran s id w 0 c k)) ∧
    (∀ fmt d a, viewCount (getV k d) = 0 → exec (.fill w fmt d a) s = .next (ran s id w 0 c k)) ∧
    (∀ a l, l.val ≠ 3 → exec (.pref w false a l) s = .next (ran s id w 0 c k)) ∧
    (∀ a l, l.val ≠ 3 → viewCount (getV k a) ≠ 0 → lifeHeld c w.val (getV k a).tensor = false →
      viewClash c k [] [getV k a] = none →
      exec (.pref w true a l) s = .next (ran (dropPages s c (tensorPages c w.val (getV k a).tensor)) id w 0
        (endLife c w.val k (getV k a).tensor).1 (endLife c w.val k (getV k a).tensor).2)) ∧
    (∀ t x, tensorOf c t = some x → ∀ i, i < tensorBytes x →
      (tensorLevel c t = 0 → rdByte (endLife c w.val k t).2.l0 (tensorBase c w.val t + i) = 0) ∧
      (tensorLevel c t ≠ 0 → rdByte (endLife c w.val k t).1.vmem (tensorBase c w.val t + i) = 0))

/-- What a move stores, and what its accesses leave: every byte outside the elements it writes, and outside the tensor whose life LU
ends, stays; so do every other worker and context. -/
def Obligations.MovesWriteOnlyTheirDestination : Prop :=
  ∀ (s : State) (id : Nat) (w : Cluster) (c : Context) (k : Worker) (fmt : Fmt) (ts : List Touched) (lu : Bool) (vd : View) (t : Nat)
    (ws : List (Nat × Nat)) (a : Nat),
    let r := getC (moved s id w c k fmt ts lu vd t ws) id
    let ended := fun (l0 : Bool) => lu = true ∧ ∃ x, tensorOf c t = some x ∧ decide (tensorLevel c t = 0) = l0 ∧
      tensorBase c w.val t ≤ a ∧ a < tensorBase c w.val t + tensorBytes x
    ((viewLevel c vd = 0 → ∀ p ∈ ws, ¬ inPlace (viewPlace c w.val vd p.1) a) → ¬ ended true →
      rdByte (getW r w.val).l0 a = rdByte k.l0 a) ∧
    ((viewLevel c vd ≠ 0 → ∀ p ∈ ws, ¬ inPlace (viewPlace c w.val vd p.1) a) → ¬ ended false →
      rdByte r.vmem a = rdByte c.vmem a) ∧
    (getW r w.val).t = k.t ∧ (getW r w.val).v = k.v ∧ (getW r w.val).m = k.m ∧ (getW r w.val).asw = k.asw ∧
    (∀ v, v ≠ w.val → getW r v = getW c v) ∧ (∀ j, j ≠ id → getC (moved s id w c k fmt ts lu vd t ws) j = getC s j)

/-! ### Worker ops: waiting and halting -/

/-- An op whose operands are still in use, or whose event has not come, is turned away: the worker stays at the op and nothing is
lost (R69, R72, R84, R107, R135). -/
def Obligations.OpsThatMustWaitAreTurnedAway : Prop :=
  ∀ (s : State) (id : Nat) (w : Cluster), Ready s id w →
    let c := ctxAt s id w
    let k := workAt s id w
    (∀ d, (k.gq ≠ [] ∨ k.gf ≠ []) → exec (.rdcw w d true) s = .next (turned s id w c k .griddle)) ∧
    (∀ x a, (k.gq ≠ [] ∨ k.gf ≠ []) → exec (.wrcw w x a) s = .next (turned s id w c k .griddle)) ∧
    (∀ a f, (getF k f.val).toNat < (getS k a).toNat → exec (.fwait w a f) s = .next (turned s id w c k .flag)) ∧
    (∀ a inc f, k.replBits = [] → (getS k a).toNat < 4000 → linesOut k = true →
      exec (.fset w a inc f) s = .next (turned s id w c k .remote)) ∧
    (∀ fmt lu d a y, viewCount (getV k d) ≠ 0 → viewClash c k [getV k a] [getV k d] = some y →
      exec (.movs w fmt lu d a) s = .next (turned s id w c k y)) ∧
    (∀ d a t, k.tickets.find? (fun x => decide (x.num = (getS k a).toNat)) = some t → t.status = none →
      exec (.swait w d a) s = .next (turned s id w c k .ticket)) ∧
    (∀ sc, k.replBits = [] → k.wf ≠ [] → exec (.bar w sc) s = .next (turned s id w c k .whisk)) ∧
    (k.replBits = [] → griddleBusy k = true → exec (.stepOp w) s = .next (turned s id w c k .griddle))

/-- Operands that the spec's run-time checks refuse (R83, R122, R453, Table 3.13) halt the worker with the code of R297. A halt: the
worker stops where it stands, its context's module stops issuing, the worker's steward queues the record, and a fence that halts the
context's workers waits. -/
def Obligations.OperandChecksHaltTheWorker : Prop :=
  (∀ (s : State) (id : Nat) (w : Cluster), Ready s id w →
    let c := ctxAt s id w
    let k := workAt s id w
    let halted := fun code => Host.Outcome.next (haltWorker s id w.val c k code 0x03 code 0 none)
    (∀ d tensor sc rows cols rs cs o t, tensorOf c tensor.val = some t →
      viewInside t ⟨tensor.val, rows.toNat, cols.toNat, rs.toInt, cs.toInt, (o + getS k sc).toInt⟩ = false →
      exec (.vdef w d tensor sc rows cols rs cs o) s = halted 0x0101) ∧
    (∀ a inc f, k.replBits = [] → 4000 ≤ (getS k a).toNat → exec (.fset w a inc f) s = halted 0x0101) ∧
    (∀ fmt d a, viewCount (getV k d) ≠ 0 → viewClash c k [getV k a] [getV k d] = none → destHeld c w.val (getV k d) (viewCount (getV k d)) = false →
      (viewIs c fmt (getV k a) = false ∨ viewIs c fmt (getV k d) = false ∨ viewCount (getV k a) < viewCount (getV k d)) →
      exec (.movs w fmt false d a) s = halted 0x0103) ∧
    (∀ fmt op m d a b, binAccepts op fmt = true →
      let o : WOp := ⟨.bin op, 0x0C1, fmt, m, getV k d, getV k a, getV k b, 0, 0⟩
      whiskEmpty k o = false → whiskWait c w.val k o = none → whiskBad c k o = true →
      exec (.wbin w fmt op m d a b) s = halted 0x0103) ∧
    (∀ d a b, c.n ≤ (getS k b).toNat → exec (.rread w d a b) s = .next (pump (haltWorker s id w.val c k 0x0101 0x03 0x0101 0 none) id w.val)) ∧
    (∀ d a, (∀ t ∈ k.tickets, t.num ≠ (getS k a).toNat) → exec (.swait w d a) s = halted 0x0101)) ∧
  (∀ (s : State) (id cl : Nat) (c : Context) (k : Worker) (code cls rcode : Nat) (d : BitVec 256) (ev : Option UnitEvent),
    c.modState = .running → (tget [] s.pkg.stew (dieOf cl)).length < 64 →
    let t := haltWorker s id cl c k code cls rcode d ev
    getW (getC t id) cl = { k with run := .halted code, wait := none } ∧ (getC t id).modState = .halting ∧
    (∀ a, rdByte (getC t id).vmem a = rdByte c.vmem a) ∧ t.pkg.fences = s.pkg.fences ++ [.haltCtx id code none] ∧
    (∃ e ∈ tget [] t.pkg.stew (dieOf cl), e.jobEnding = true ∧ e.frec.cls = cls ∧ e.frec.code = rcode ∧ e.frec.context = id ∧
      e.frec.step = c.step ∧ e.frec.detail = d ∧ e.frec.unit = cl % 500))

/-! ### Worker ops: the Griddle -/

/-- GZERO, GMMA and GLD join the worker's issue order with their views as they stand, and the loader stages what the latch sets can hold (R100,
R102). The op that stands first issues when the worker's Griddle may issue, its operands are staged and no error is found: its tile and flags are
computed from its latch set, the ACW and the latest result on its tile (R104, R105), and its beats, slots and products are counted. One whose
operands cannot be staged yet stays. GRIDDLE_COMPLETE of the oldest op in flight writes its tile and merges its flags (R39, R104). -/
def Obligations.GriddleOpsIssueAndCompleteInOrder : Prop :=
  (∀ (s : State) (id : Nat) (w : Cluster), Ready s id w →
    let c := ctxAt s id w
    let k := workAt s id w
    (∀ fmt d, (fmt = .fp64 ∨ fmt = .fp32 ∨ fmt = .int32) →
      let r := stage s c w.val { k with gq := k.gq ++ [⟨.zero fmt d, none⟩] }
      exec (.gzero w fmt d) s = .next (ran r.1 id w 0 r.2.1 r.2.2)) ∧
    (∀ fa fb za d a b u, fa ≠ .int32 → fb ≠ .int32 →
      let r := stage s c w.val { k with gq := k.gq ++ [⟨.mma fa fb za d (getV k a) (getV k b) (u.val + 1), none⟩] }
      exec (.gmma w fa fb za d a b u) s = .next (ran r.1 id w 1 r.2.1 r.2.2)) ∧
    (∀ d a, let r := stage s c w.val { k with gq := k.gq ++ [⟨.ld d (getV k a), none⟩] }
      exec (.gld w d a) s = .next (ran r.1 id w 0 r.2.1 r.2.2))) ∧
  (∀ (s : State) (id : Nat) (w : Cluster), runningId s = some id →
    let c := getC s id
    let k := getW c w.val
    let r := stage s c w.val k
    (∀ g rest sw tw, griddleMay s c w.val k = true → r.2.2.gq = g :: rest →
      let c' := eincr (eincr r.2.1 0x502003 (sw * acTicks s)) 0x502004 (tw * acTicks s)
      (∀ f beats slots products, griddleOp c' r.2.2 g = .flight f beats slots products → (gopStages g.op = true → g.set.isSome = true) →
        exec (.griddleIssue w sw tw false) s = .next (putStaged r.1 id w.val
          (eincr (eincr (eincr c' 0x502000 beats) 0x502001 slots) 0x502002 products) (issued r.2.2 rest (some f)))) ∧
      (griddleOp c' r.2.2 g = .operand →
        ∀ err, exec (.griddleIssue w sw tw err) s = .next (haltWorker r.1 id w.val c' r.2.2 0x0102 0x03 0x0102 0 none)) ∧
      (griddleOp c' r.2.2 g = .nothing → ∀ err, exec (.griddleIssue w sw tw err) s = .next (putStaged r.1 id w.val c' (issued r.2.2 rest none))) ∧
      (∀ f beats slots products, griddleOp c' r.2.2 g = .flight f beats slots products → gopStages g.op = true → g.set = none →
        gopTrouble c' w.val r.2.2 g.op = none → exec (.griddleIssue w sw tw false) s = .next (setC r.1 id (setW c' w.val r.2.2)))) ∧
    (∀ f rest, k.gf = f :: rest → exec (.griddleComplete w false) s = .next (putStaged s id w.val c
      { k with gf := rest, t := tset Tile.initial k.t f.d.val f.tile, asw := k.asw ||| f.flags })))

/-- What a Griddle op computes: GZERO leaves +0 of its type; GLD the staged elements of its view, zero outside it; GMMA's INT32 element is the
sum of the products of its K INT8 pairs and the old element, held to the INT32 range by each update (R47 to R50, R91 to R96). The loader puts
the operands of the first op in issue order that has none into the latch set in turn, where that set is free, and the sets take turns (R100). -/
def Obligations.GriddleTilesHoldTheirResults : Prop :=
  ∀ (c : Context) (w : Cluster) (k : Worker),
    (∀ fmt d ty set, tileTypeOf fmt = some ty → griddleOp c k ⟨.zero fmt d, set⟩ = .flight ⟨d, ⟨ty, 0⟩, 0, none⟩ 1 0 0) ∧
    (∀ d a ty i, viewCount a ≠ 0 → viewFmt c a = some (tileFmt ty) → a.rows ≤ tileRows ty → a.cols ≤ 4 →
      griddleOp c k ⟨.ld d a, some i⟩ = .flight ⟨d, tileOf ty ((tileIndices ty).map (fun p =>
        if p.1 < a.rows ∧ p.2 < a.cols then (tget default k.latches i).a.getD (p.1 * a.cols + p.2) 0 else 0)), 0, some i⟩ 1 0 0) ∧
    (∀ s g, k.gq.find? (fun g => gopStages g.op && g.set.isNone) = some g → setFree k k.nextSet = true → gopShapeBad c g.op = false →
      fillBlocked c k g.op = false → gopTrouble c w.val k g.op = none →
      let r := stageNext s c w.val k
      tget default r.2.2.latches k.nextSet = ⟨readView c w.val k ((gopViews g.op).getD 0 View.empty),
        readView c w.val k ((gopViews g.op).getD 1 View.empty)⟩ ∧ r.2.2.nextSet = 1 - k.nextSet ∧ r.2.2.gq = stageFirst k.nextSet k.gq ∧
      r.2.1.vmem = c.vmem ∧ r.2.1.workers = c.workers ∧ r.1.ctxs = s.ctxs) ∧
    (∀ A B : Nat → Nat → Nat, ∀ L m n x, L ≤ 8 →
      gmmaElem .int8 .int8 .rne A B 8 L 1 m n x =
        satInt32 (toSigned 32 x + ((List.range L).map (fun l => toSigned 8 (A m l) * toSigned 8 (B l n))).sum)) ∧
    (∀ ty xs m n, m < tileRows ty → n < 4 → xs.length = 4 * tileRows ty → (∀ x ∈ xs, x < 2 ^ fmtBits (tileFmt ty)) →
      tileGet (tileOf ty xs) m n = xs.getD (4 * m + n) 0)

/-! ### Worker ops: the Whisk -/

/-- Every element-wise Whisk op, WGTH and WSCT issue once nothing holds them back and their operands pass R122: the elements below n
that the mask selects are processed in rising order, and the flags of every one merge into the ASW. -/
def Obligations.WhiskElementOpsComplete : Prop :=
  ∀ (s : State) (id : Nat) (w : Cluster), Ready s id w →
    let k := workAt s id w
    let E := View.empty
    (∀ fmt op m d a b, binAccepts op fmt = true → whiskFree s id w ⟨.bin op, 0x0C1, fmt, m, getV k d, getV k a, getV k b, 0, 0⟩ →
      exec (.wbin w fmt op m d a b) s = .next (whiskRan s id w ⟨.bin op, 0x0C1, fmt, m, getV k d, getV k a, getV k b, 0, 0⟩)) ∧
    (∀ fmt m d a b, isLong fmt = true → whiskFree s id w ⟨.fma, 0x0C2, fmt, m, getV k d, getV k a, getV k b, 0, 0⟩ →
      exec (.wfma w fmt m d a b) s = .next (whiskRan s id w ⟨.fma, 0x0C2, fmt, m, getV k d, getV k a, getV k b, 0, 0⟩)) ∧
    (∀ fmt op m d a, unAccepts op fmt = true → whiskFree s id w ⟨.un op, 0x0C3, fmt, m, getV k d, getV k a, E, 0, 0⟩ →
      exec (.wun w fmt op m d a) s = .next (whiskRan s id w ⟨.un op, 0x0C3, fmt, m, getV k d, getV k a, E, 0, 0⟩)) ∧
    (∀ fmt f m d a, (fmt = .fp64 ∨ fmt = .fp32) → whiskFree s id w ⟨.act f, 0x0C4, fmt, m, getV k d, getV k a, E, 0, 0⟩ →
      exec (.wact w fmt f m d a) s = .next (whiskRan s id w ⟨.act f, 0x0C4, fmt, m, getV k d, getV k a, E, 0, 0⟩)) ∧
    (∀ fmt m d a, whiskFree s id w ⟨.cvt, 0x0C5, fmt, m, getV k d, getV k a, E, 0, 0⟩ →
      exec (.wcvt w fmt m d a) s = .next (whiskRan s id w ⟨.cvt, 0x0C5, fmt, m, getV k d, getV k a, E, 0, 0⟩)) ∧
    (∀ fmt op m (d : MReg) a b, whiskFree s id w ⟨.cmp op, 0x0C6, fmt, m, E, getV k a, getV k b, d, 0⟩ →
      exec (.wcmp w fmt op m d a b) s = .next (whiskRan s id w ⟨.cmp op, 0x0C6, fmt, m, E, getV k a, getV k b, d, 0⟩)) ∧
    (∀ fmt m x d a b, whiskFree s id w ⟨.sel x, 0x0C7, fmt, m, getV k d, getV k a, getV k b, 0, 0⟩ →
      exec (.wsel w fmt m x d a b) s = .next (whiskRan s id w ⟨.sel x, 0x0C7, fmt, m, getV k d, getV k a, getV k b, 0, 0⟩)) ∧
    (∀ fmt f sc m d t, whiskFree s id w ⟨.acc f sc t, 0x0C8, fmt, m, getV k d, E, E, 0, 1⟩ →
      exec (.wacc w fmt f sc m d t) s = .next (whiskRan s id w ⟨.acc f sc t, 0x0C8, fmt, m, getV k d, E, E, 0, 1⟩)) ∧
    (∀ fmt m d a b, whiskFree s id w ⟨.gth, 0x0CA, fmt, m, getV k d, getV k a, getV k b, 0, 0⟩ →
      exec (.wgth w fmt m d a b) s = .next (whiskRan s id w ⟨.gth, 0x0CA, fmt, m, getV k d, getV k a, getV k b, 0, 0⟩)) ∧
    (∀ fmt m d a b, whiskFree s id w ⟨.sct, 0x0CB, fmt, m, getV k d, getV k a, getV k b, 0, 0⟩ →
      exec (.wsct w fmt m d a b) s = .next (whiskRan s id w ⟨.sct, 0x0CB, fmt, m, getV k d, getV k a, getV k b, 0, 0⟩))

/-- What one element of each element-wise op computes and where it goes: each source read from its view's element i, one result
written at v[D]'s element i (WGTH: taken from the element that v[B] names; WSCT: put there; WCMP: bit i of the mask). -/
def Obligations.WhiskElementsComputeTheirValue : Prop :=
  ∀ (c : Context) (w : Cluster) (k : Worker) (op : WOp) (i : Nat),
    let A := readElem c w.val k op.a i
    let B := readElem c w.val k op.b i
    let D := readElem c w.val k op.d i
    let rm := rmOf k.acw
    let fine := fun (v : View) (j o : Nat) => srcFine c w.val k op v j o
    let open' := fun (j : Nat) => destOpen c k (viewPlace c w.val op.d j)
    let gives := fun (x : Nat × Flags) => elemStep c w.val k op i = .ok (.elem (viewPlace c w.val op.d i) x.1, x.2)
    (∀ o, op.kind = .bin o → fine op.a i 0 → fine op.b i 1 → open' i → gives (binElem op.fmt o rm A B)) ∧
    (op.kind = .fma → fine op.a i 0 → fine op.b i 1 → fine op.d i 2 → open' i → gives (fmaElem op.fmt rm A B D)) ∧
    (∀ o, op.kind = .un o → fine op.a i 0 → open' i → gives (unElem op.fmt o rm A)) ∧
    (∀ f, op.kind = .act f → fine op.a i 0 → open' i → gives (actElem op.fmt f rm A)) ∧
    (∀ sf, op.kind = .cvt → srOp k op = false → viewFmt c op.a = some sf → fine op.a i 0 → open' i → gives (convertElem op.fmt sf rm none A)) ∧
    (∀ sf, op.kind = .cvt → srOp k op = true → viewFmt c op.a = some sf → fine op.a i 0 → open' i →
      gives (convertElem op.fmt sf rm (some (srBits c.seed (4000 * c.rank + w.val) c.step k.srOrd i).toNat) A)) ∧
    (∀ m, op.kind = .sel m → fine op.a i 0 → fine op.b i 1 → open' i → gives (if (getM k m).getLsbD i then A else B, 0)) ∧
    (∀ f sc t, op.kind = .acc f sc t → open' i → gives (accElem f sc (getT k t) op.fmt rm (i / op.d.cols) (i % op.d.cols))) ∧
    (∀ o, op.kind = .cmp o → fine op.a i 0 → fine op.b i 1 →
      elemStep c w.val k op i = .ok (.mask (compareElem op.fmt o A B).1, (compareElem op.fmt o A B).2)) ∧
    (op.kind = .gth → fine op.b i 1 → 0 ≤ indexAt c w k op.b i → indexAt c w k op.b i < viewCount op.a →
      fine op.a (indexAt c w k op.b i).toNat 0 → open' i → gives (readElem c w.val k op.a (indexAt c w k op.b i).toNat, 0)) ∧
    (op.kind = .sct → fine op.b i 1 → 0 ≤ indexAt c w k op.b i → indexAt c w k op.b i < viewCount op.d → fine op.a i 0 →
      open' (indexAt c w k op.b i).toNat →
      elemStep c w.val k op i = .ok (.elem (viewPlace c w.val op.d (indexAt c w k op.b i).toNat) A, 0)) ∧
    ((op.kind = .gth ∨ op.kind = .sct) → fine op.b i 1 →
      (indexAt c w k op.b i < 0 ∨ ((viewCount (if op.kind = .gth then op.a else op.d) : Nat) : Int) ≤ indexAt c w k op.b i) →
      elemStep c w.val k op i = .error ⟨0x01, 1, viewLevel c op.b, indexAt c w k op.b i, 0⟩)

/-- The walk: masked elements are passed over, others are processed one at a time in rising order; it stops before the first
element that cannot be processed, and every earlier element keeps its result (R116, R117, R129, R130). -/
def Obligations.WhiskWalksInRisingOrder : Prop :=
  ∀ (w : Cluster) (op : WOp) (i : Nat) (is : List Nat) (r : WRun),
    whiskLoop w.val op [] r = r ∧
    (whiskMasked r.k op i = true → whiskLoop w.val op (i :: is) r = whiskLoop w.val op is r) ∧
    (∀ e, whiskMasked r.k op i = false → elemStep r.c w.val r.k op i = .error e →
      whiskLoop w.val op (i :: is) r = { r with stop := some (i, e) }) ∧
    (∀ p x fl, whiskMasked r.k op i = false → elemStep r.c w.val r.k op i = .ok (.elem p x, fl) →
      whiskLoop w.val op (i :: is) r =
        whiskLoop w.val op is ⟨(writePlace r.c r.k p x).1, (writePlace r.c r.k p x).2, r.fl ||| fl, r.done + 1, none⟩) ∧
    (∀ b fl, whiskMasked r.k op i = false → elemStep r.c w.val r.k op i = .ok (.mask b, fl) →
      ∃ k', whiskLoop w.val op (i :: is) r = whiskLoop w.val op is ⟨r.c, k', r.fl ||| fl, r.done + 1, none⟩ ∧
        (∀ j, j < 4096 → (getM k' op.dm).getLsbD j = if j = i then b else (getM r.k op.dm).getLsbD j) ∧
        (∀ m, m ≠ op.dm → getM k' m = getM r.k m) ∧ k' = { r.k with m := k'.m })

/-- The frame of a Whisk walk, whether or not it stops: only bytes of v[D]'s elements change, and of the worker only its scratchpad
and, for WCMP, the destination mask. -/
def Obligations.WhiskWritesOnlyItsDestination : Prop :=
  ∀ (w : Cluster) (op : WOp) (is : List Nat) (r : WRun) (a : Nat),
    let t := whiskLoop w.val op is r
    ((viewLevel r.c op.d = 0 → op.kind.isCmp = false → ∀ i, i < viewCount op.d ∨ i ∈ is → ¬ inPlace (viewPlace r.c w.val op.d i) a) →
      rdByte t.k.l0 a = rdByte r.k.l0 a) ∧
    ((viewLevel r.c op.d ≠ 0 → op.kind.isCmp = false → ∀ i, i < viewCount op.d ∨ i ∈ is → ¬ inPlace (viewPlace r.c w.val op.d i) a) →
      rdByte t.c.vmem a = rdByte r.c.vmem a) ∧
    (op.kind.isCmp = false → t.k.m = r.k.m) ∧ (∀ m, m ≠ op.dm → getM t.k m = getM r.k m) ∧
    t.c.workers = r.c.workers ∧ t.c.mod = r.c.mod ∧ t.k = { r.k with l0 := t.k.l0, l0Bad := t.k.l0Bad, m := t.k.m }

/-- WRED of a view whose elements can be read and whose destination can be written stores the reduction of the unmasked elements in
v[D]'s first element: zero elements give +0 for a plain sum; an exact sum is rounded once into v[D]'s format (R59, R126). -/
def Obligations.ReductionsWriteOneElement : Prop :=
  ∀ (s : State) (id : Nat) (w : Cluster) (fmt : Fmt) (mode : RedMode) (rop : RedOp) (m : Option MReg) (d a : VReg), Ready s id w →
    let c := ctxAt s id w
    let k := workAt s id w
    let op : WOp := ⟨.red mode rop, 0x0C9, fmt, m, getV k d, getV k a, View.empty, 0, 0⟩
    let p := viewPlace c w.val (getV k d) 0
    redAccepts mode rop fmt = true → whiskWait c w.val k op = none → whiskBad c k op = false → destOpen c k p →
    (∀ i, i < viewCount (getV k a) → whiskMasked k op i = false → srcFine c w.val k op (getV k a) i 0) →
    let n := viewCount (getV k a)
    let xs := ((List.range n).filter (fun i => !whiskMasked k op i)).map (readElem c w.val k (getV k a))
    let k' := loadGroups c w.val k op
    let sc := whiskAccess s (eincr (countBeats s c w.val k' op 0 n none) 0x503001 xs.length) w.val k' op (unmasked k op 0 n)
    (∀ x fl, redValue mode rop fmt ((viewFmt c (getV k d)).getD fmt) (rmOf k.acw) xs = .value x fl →
      exec (.wred w fmt mode rop m d a) s = .next (ran sc.1 id w 0 (writePlace sc.2 k' p x).1
        (whiskMark (writePlace sc.2 k' p x).1 (whiskFinish (writePlace sc.2 k' p x).1 (mergeAsw (writePlace sc.2 k' p x).2 fl) op) op 1))) ∧
    (mode = .plain → rop = .sum → xs = [] → redValue mode rop fmt ((viewFmt c (getV k d)).getD fmt) (rmOf k.acw) xs = .value 0 0) ∧
    (mode = .exact → ∀ e, exactSum (xs.map (decode fmt)) = some e → ∀ df, viewFmt c (getV k d) = some df →
      ∃ fl, redValue mode rop fmt df (rmOf k.acw) xs = .value (exactResult df (rmOf k.acw) e).1 fl)

/-- ELEM_RESUME: an op that stopped at a protected page goes on from its element once the page may be written (R131);
WHISK_COMPLETE: the oldest op that has issued completes, and later ops need not wait for it (R134). -/
def Obligations.StoppedWhiskOpsResume : Prop :=
  ∀ (s : State) (id : Nat) (w : Cluster), runningId s = some id →
    let c := getC s id
    let k := getW c w.val
    (∀ op ns, k.stopped = some op → stopGoesOn c k = true → resumeReady c w.val k op = true →
      exec (.elemResume w ns) s = .next (applyRes id w.val op.ext (whiskRun s
        (eincr (eincr c 0x503003 (ns * ticksPerNs)) 0x801101 (ns * ticksPerNs)) w.val { k with stopped := none } op))) ∧
    (∀ op ns, k.stopped = some op → resumeReady c w.val k op = false → exec (.elemResume w ns) s = .next s) ∧
    (∀ e es, k.wf = e :: es → exec (.whiskComplete w) s = .next (setC s id (setW c w.val { k with wf := es })))

/-! ### Worker ops: flags, barriers, tickets, streams, step points -/

/-- FSET adds to the flag of the worker it names (R69, R84); FWAIT goes on once its flag is large enough; FRD reads it; SWAIT takes a
complete ticket's status; SOLVE submits the 64 words of v[A] to its binding and leaves the ticket in s[D]. -/
def Obligations.FlagAndTicketOpsComplete : Prop :=
  ∀ (s : State) (id : Nat) (w : Cluster), Ready s id w →
    let c := ctxAt s id w
    let k := workAt s id w
    (∀ a inc f, k.replBits = [] → linesOut k = false → (getS k a).toNat = w.val →
      exec (.fset w a inc f) s = .next (ran s id w 0 c { k with f := tset 0 k.f f.val (getF k f.val + BitVec.ofNat 64 inc.val) })) ∧
    (∀ a inc f n, k.replBits = [] → linesOut k = false → (getS k a).toNat = n → n < 4000 → n ≠ w.val →
      exec (.fset w a inc f) s = .next (ran s id w 0 (setW c n
        { getW c n with f := tset 0 (getW c n).f f.val (getF (getW c n) f.val + BitVec.ofNat 64 inc.val) }) k)) ∧
    (∀ a f, (getS k a).toNat ≤ (getF k f.val).toNat → exec (.fwait w a f) s = .next (ran s id w 0 c k)) ∧
    (∀ d f, exec (.frd w d f) s = .next (ran s id w 0 c (setS k d (getF k f.val)))) ∧
    (∀ d a t st, k.tickets.find? (fun x => decide (x.num = (getS k a).toNat)) = some t → t.status = some st →
      exec (.swait w d a) s = .next (ran s id w 0 c
        (setS { k with tickets := k.tickets.filter (fun x => decide (x.num ≠ t.num)) } d (st.setWidth 64)))) ∧
    (∀ d a n b, viewIs c .int32 (getV k a) = true → unitStride (getV k a) = true → viewCount (getV k a) = 64 →
      homeLevel c (getV k a) ≠ 1 → c.binds.find? (fun x => decide (x.num = n.val)) = some b → k.tickets.length < 16 →
      (getQ s (bindFirst b)).waiting.length < 32 → viewClash c k [getV k a] [] = none →
      moveTrouble c w.val k [(getV k a, List.range 64, false, false)] = none →
      exec (.solve w d a n) s = .next (solved s id w d a b))

/-- What a submitted problem is: accepted, it joins its target's queue, or starts, and the ticket is open; with a descriptor that its checks
refuse, the ticket is complete at once with that status (R172, R174). -/
def Obligations.SolveAcceptsOrCompletesItsTicket : Prop :=
  ∀ (s : State) (id cl : Nat) (c : Context) (k : Worker) (b : Binding) (d : Desc),
    let r := submit s id cl c k b d
    let num := (Config.ticketBase + k.nextTicket) % 2 ^ 64
    (∀ x, acceptDesc s c b.kind (bindFirst b) d = .ok x →
      pathOk s b.kind (bindFirst b) d ((BitVec.ofNat 64 (modOf c).features).getLsbD 10) = true →
      r.2.2 = { k with nextTicket := k.nextTicket + 1, tickets := k.tickets ++ [⟨num, none⟩] } ∧ r.2.1 = c ∧
      r.1.ctxs = s.ctxs ∧ r.1.eth = s.eth ∧
      ∃ p, p.desc = d ∧ p.by' = .ticket id cl num ∧
        (p ∈ (getQ r.1 (bindFirst b)).waiting ∨ (getQ r.1 (bindFirst b)).running = some (.stageIn, p))) ∧
    (∀ x, acceptDesc s c b.kind (bindFirst b) d = .ok x →
      pathOk s b.kind (bindFirst b) d ((BitVec.ofNat 64 (modOf c).features).getLsbD 10) = false →
      r.2.2.tickets = k.tickets ++ [⟨num, some 0x12⟩] ∧ r.1.solv.queues = s.solv.queues) ∧
    (∀ code, acceptDesc s c b.kind (bindFirst b) d = .error code →
      r.2.2.tickets = k.tickets ++ [⟨num, some (BitVec.ofNat 32 code)⟩] ∧ r.1.solv.queues = s.solv.queues)

/-- BAR stands the worker at its barrier until every worker of its scope stands there, then all of the scope go on; STEP, CKPT and
END stand it at a step point (R84, R85, R86). With the last worker of this device there, the job's other members hear of it. -/
def Obligations.BarriersAndStepPointsHoldTheWorker : Prop :=
  ∀ (s : State) (id : Nat) (w : Cluster), Ready s id w →
    let c := ctxAt s id w
    let k := workAt s id w
    k.replBits = [] → k.wf = [] → remoteBusy k = false →
    (∀ sc, (∃ i ∈ barScope w.val sc, i ≠ w.val ∧ (getW c i).run ≠ .atBar sc) →
      exec (.bar w sc) s = .next (jumped s id w c { k with run := .atBar sc })) ∧
    (∀ sc, sc ≠ .job ∨ (c.n = 1 ∧ c.rank = 0) → (∀ i ∈ barScope w.val sc, i ≠ w.val → (getW c i).run = .atBar sc) →
      exec (.bar w sc) s = .next (leaveBar (jumped s id w c { k with run := .atBar sc }) id w.val sc)) ∧
    (k.gq = [] → k.gf = [] → (∀ p ∈ c.workers, p.2.run ≠ .ended) →
      let told := fun (r : RunState) =>
        let t := jumped s id w c { k with run := r }
        if (∀ i, i < 4000 → i ≠ w.val → atStepPoint (getW c i) = true) then tellMembers t (getC t id) (.stepReached id (c.step + 1)) else t
      exec (.stepOp w) s = .next (told (.atStep false)) ∧
      exec (.ckptOp w) s = .next (told (.atStep true)) ∧
      exec (.endOp w) s = .next (told .atEnd))

/-- SIN moves the step's input, once it has come, into v[D]; SOUT of a kind 2 declaration sends v[A]'s elements as this step's output
and keeps them in the declaration's tensor (R454). -/
def Obligations.StreamOpsMoveTheStepsData : Prop :=
  ∀ (s : State) (id : Nat) (w : Cluster), Ready s id w →
    let c := ctxAt s id w
    let k := workAt s id w
    (∀ d (i : Fin 4096) sd, (modOf c).streams[i.val]? = some sd → (sd.kind = 1 ∨ sd.kind = 3) → (i.val, c.step) ∈ c.inputs →
      let vd := getV k d
      let vt := wholeView c sd.tensor
      let n := min (viewCount vd) (viewCount vt)
      let ts : List Touched := [(vt, List.range n, false, false), (vd, List.range n, true, false)]
      viewCount vd ≠ 0 → viewFmt c vd = (tensorOf c sd.tensor).map (·.fmt) → viewClash c k [vt] [vd] = none →
      destHeld c w.val vd n = false → moveTrouble c w.val k ts = none →
      let sc := moveAccess s c w.val ((viewFmt c vd).getD .fp64) ts
      let r := writeElems sc.2 w.val k vd 0 ((List.range n).map (readElem sc.2 w.val k vt))
      exec (.sin w d i) s = .next (ran sc.1 id w 0 r.1 (markReplica r.1 r.2 vd.tensor))) ∧
    (∀ (i : Fin 4096) a sd f, (modOf c).streams[i.val]? = some sd → sd.kind = 2 →
      let va := getV k a
      let vt := wholeView c sd.tensor
      viewCount va ≠ 0 → viewFmt c va = some f → (tensorOf c sd.tensor).map (·.fmt) = some f → viewCount va ≤ viewCount vt →
      let n := viewCount va
      let ts : List Touched := [(va, List.range n, false, false), (vt, List.range n, true, false)]
      viewClash c k [va] [vt] = none → destHeld c w.val vt n = false → moveTrouble c w.val k ts = none →
      (getStream s false sd.id).state ≠ 0 → (getStream s false sd.id).ctx = id →
      let sc := moveAccess s c w.val f ts
      let xs := readView sc.2 w.val k va
      let bs := packElems f xs
      let r := writeElems sc.2 w.val k vt 0 xs
      let c' := { r.1 with outs := (r.1.outs.filter (fun o => decide (o.decl ≠ i.val))) ++ [⟨i.val, c.step, bs⟩],
                           souts := r.1.souts ++ [(i.val, bs)] }
      exec (.sout w i a) s = .next (ran (sendOutput sc.1 sd.id i.val c.step bs) id w 0 c' (markReplica c' r.2 sd.tensor)))

/-- A step point is released once every worker stands at it: the ordinal advances by one, every worker that stood at STEP or CKPT runs
on behind its op and one at END has ended, its cached remote lines drop, and the step's inputs and outputs begin anew (R85, R86, R246). Stated
for a step point with no capture, no digest, no replay, no replica declaration and no scheduled halt or switch. -/
def Obligations.StepPointsReleaseEveryWorker : Prop :=
  ∀ (s : State) (id salt ns : Nat), runningId s = some id →
    let c := getC s id
    isRunning c = true → (∀ i, i < 4000 → atStepPoint (getW c i) = true) → (∀ p ∈ c.workers, p.2.run ≠ .ended) →
    sliceHolds s = false → capturePoint s c (c.step + 1) = false → erd c 0x900300 = 0 → s.ckpt.rplay = false → s.ckpt.rrec = false →
    c.replDecl = [] → c.haltStream = none → s.pkg.switchTo = none → s.pkg.opNext = none → (modOf c).streams = [] → c.bulkIn = [] →
    (∃ i, i < 4000 ∧ (getW c i).run ≠ .atEnd) →
    ∃ t, exec (.stepPointRelease salt ns) s = .next t ∧
      (getC t id).step = c.step + 1 ∧ (getC t id).inputs = [] ∧ (∀ l ∈ t.fab.rlc, l.ctx ≠ id) ∧ (getC t id).modState = .running ∧
      (getC t id).vmem = c.vmem ∧ (getC t id).seed = erd c 0x901000 ∧
      (∀ i, i < 4000 → getW (getC t id) i = resumeWorker (getW c i)) ∧
      (∀ j, j ≠ id → getC t j = getC s j)

/-! ### Worker ops: remote -/

/-- RREAD asks for every line of the first elements of v[A] that no cache holds, RWRITE, RWRITEC and RWRITEF ask for every line of
v[D] to be written with v[A]'s elements, RWRITEF appending its flag increment; what the worker's slots and the order of its accesses
allow is then sent (R240 to R243, R246). A written or invalidated line leaves the caches, and no read on its way brings it back. -/
def Obligations.RemoteOpsQueueTheirRequests : Prop :=
  ∀ (s : State) (id : Nat) (w : Cluster), Ready s id w →
    let c := ctxAt s id w
    let k := workAt s id w
    (∀ d a b, let vd := getV k d; let va := getV k a; let rank := (getS k b).toNat; let n := min (viewCount va) (viewCount vd)
      rank < c.n → remoteL0 c va = false → n ≠ 0 → viewClash c k [] [vd] = none → destHeld c w.val vd n = false →
      (rank ≠ c.rank ∨ replicaOf c va.tensor = none) →
      let r := (viewLines c w.val va n).foldl (readLine (runCtx s) w.val (deviceOf c rank) va vd) ⟨s, c, k, []⟩
      exec (.rread w d a b) s = .next (pump (ran r.s id w 0 r.c (addReqs s r.k r.rs)) id w.val)) ∧
    (∀ d a b, let vd := getV k d; let va := getV k a; let rank := (getS k b).toNat; let n := min (viewCount va) (viewCount vd)
      let ts : List Touched := [(va, List.range n, false, false)]
      rank < c.n → remoteL0 c vd = false → viewClash c k [va] [] = none → moveTrouble c w.val k ts = none →
      let sc := moveAccess s c w.val ((viewFmt c va).getD .fp64) ts
      let device := deviceOf c rank
      let lines := viewLines sc.2 w.val vd n
      let x := dropDevice sc.1 sc.2 device lines
      let s' := { x.1 with freeIdx := sc.1.freeIdx + 1 }
      let asked := fun kind => addReqs sc.1 (forgetReads device lines k) (writeReqs sc.1 sc.2 w.val k kind device vd va n)
      exec (.rwrite w d a b) s = .next (pump (ran s' id w 0 x.2 (asked .write)) id w.val) ∧
      exec (.rwritec w d a b) s = .next (pump (ran s' id w 0 x.2 (asked .writec)) id w.val) ∧
      (∀ (t : Fin 4096) f inc, t.val < 4000 → k.replBits = [] → (k.flags.filter (fun h => !h.sent)).length < 8 →
        let k' := asked .write
        let k'' : Worker := { k' with rseq := k'.rseq + 1, flags := k'.flags ++ [⟨k'.rseq, device, t.val, f.val, inc.val, false⟩] }
        exec (.rwritef w d a b t f inc) s = .next (pump (ran s' id w 1 x.2 k'') id w.val))) ∧
    (∀ a b, getS k b ≠ BitVec.allOnes 64 → (getS k b).toNat < c.n → remoteL0 c (getV k a) = false →
      let device := deviceOf c (getS k b).toNat
      let lines := viewLines c w.val (getV k a) (viewCount (getV k a))
      let x := dropDevice s c device lines
      exec (.rinv w a b) s = .next (pump (ran x.1 id w 0 x.2 (forgetReads device lines k)) id w.val)) ∧
    (∀ (t : Fin 4096) (n : Fin 16) x, 1 ≤ n.val → n.val ≤ 8 → tensorOf c t.val = some x → x.level = 2 →
      exec (.rrepl w t n) s = .next (ran s id w 0 { c with replDecl := c.replDecl ++ [(w.val, ⟨t.val, n.val⟩)] } k))

/-! ### Worker ops: collectives -/

/-- The five collective ops pass their checks (R265, R266) and the worker waits in the collective, its request held by cluster.
COLL_DEVICE_ENTRY: once all 4,000 workers have issued it with equal signatures and no error lies in what they contribute, the device
has entered; unequal signatures end the job with COLLECTIVE_MISMATCH, and no generation of it commits any more (R268). -/
def Obligations.CollectiveOpsEnterTogether : Prop :=
  (∀ (s : State) (id : Nat) (w : Cluster), Ready s id w →
    let c := ctxAt s id w
    let k := workAt s id w
    (∀ fmt mode op n d a, redAccepts mode op fmt = true →
      let q := collRequest c k w .allred fmt mode op (redField mode op) n d a 0
      collFree c k w d a q → exec (.callred w fmt mode op n d a) s = .next (jumped s id w (joined c q) { k with run := .inColl })) ∧
    (∀ fmt mode op n d a, redAccepts mode op fmt = true →
      let q := collRequest c k w .rscat fmt mode op (redField mode op) n d a 0
      collFree c k w d a q → exec (.crscat w fmt mode op n d a) s = .next (jumped s id w (joined c q) { k with run := .inColl })) ∧
    (∀ fmt n d a, let q := collRequest c k w .agth fmt .plain .sum 0 n d a 0
      collFree c k w d a q → exec (.cagth w fmt n d a) s = .next (jumped s id w (joined c q) { k with run := .inColl })) ∧
    (∀ fmt n d a b, let q := collRequest c k w .bcst fmt .plain .sum 0 n d a (getS k b).toNat
      (getS k b).toNat < c.n → collFree c k w d a q →
      exec (.cbcst w fmt n d a b) s = .next (jumped s id w (joined c q) { k with run := .inColl })) ∧
    (∀ fmt n d a, let q := collRequest c k w .a2a fmt .plain .sum 0 n d a 0
      collFree c k w d a q → exec (.ca2a w fmt n d a) s = .next (jumped s id w (joined c q) { k with run := .inColl }))) ∧
  (∀ (s : State) (id : Nat) (x : Coll) (q : CollReq) (rest : List CollReq), runningId s = some id →
    let c := getC s id
    isRunning c = true → c.coll = some x → x.entered = false → x.reqs = q :: rest → x.reqs.length = 4000 →
    ((∃ r ∈ rest, r.sig ≠ q.sig) → exec .collDeviceEntry s = .next (collMismatch s id)) ∧
    ((∀ r ∈ rest, r.sig = q.sig) → entryTrouble c x.reqs = none →
      let sc := entryReads s c x.reqs
      let src := x.reqs.map (fun r => if readsOwn sc.2 r then readView sc.2 r.cluster (getW sc.2 r.cluster) r.a else [])
      let c' := (x.reqs.zip src).foldl (fun c r => setW c r.1.cluster (mergeAsw (getW c r.1.cluster) (contributeFlags q r.2))) sc.2
      let s' := setC sc.1 id { c' with coll := some { x with src := src, entered := true, entryNs := sc.1.ptpNs } }
      (c.n ≤ 1 → exec .collDeviceEntry s = .next (collPump (oneDevice s' id q x.reqs src) id)) ∧
      (1 < c.n → exec .collDeviceEntry s = .next (collPump (startChunks (totalChunks c' q)
        (openOwn s' id q.sig ⟨s'.ptpNs, s'.ptpNs, c'.rank⟩) id q) id))))

/-! ### Remote packets at their target and their answers -/

/-- Requests that pass their checks have their effect (R240, R241, R244, R249, R251, R253): a read is answered with its line, a write
is taken into its line and acknowledged, a combinable write joins its Sieve, a flag increment is added and acknowledged, a replica's
line is dropped or filled. A masked line write changes exactly the bytes under its mask, and marks its page written (R151, R241). -/
def Obligations.RemoteRequestsHaveTheirEffect : Prop :=
  (∀ (s : State) (f : Flit) (p : RPkt),
    let off := addrOffset p.addr
    let c := getC s p.ctx
    (Admitted s f p [1, 4] [0, 1, 3] false false false →
      (addrSpace p.addr = 1 → rangeBad c off 128 = false →
        let r := remoteAccess s c off false
        exec (.readReq f p) s = .next (respond (setC r.1 p.ctx r.2) f p 2 0x08 (lineFlow s p.ctx off) 0 (lineOf c.vmem off))) ∧
      (addrSpace p.addr = 0 → exec (.readReq f p) s = .next (respond s f p 2 0x08 0 0 (ownLine s off))) ∧
      (∀ l, addrSpace p.addr = 3 → addrDevice p.addr ≠ ownId s →
        c.replLines.find? (fun l => decide (some l.home = rankOf c (addrDevice p.addr) ∧ l.line = off)) = some l →
        exec (.readReq f p) s = .next (respond s f p 2 0x08 (lineFlow s p.ctx l.line) 0 l.data))) ∧
    (Admitted s f p [1, 4] [0, 1, 3] true true false →
      (addrSpace p.addr = 1 → sieveHolds s p.ctx off = false → pageWaits c (off / pageBytes) = false →
        exec (.writeReq f p) s = .next (ackWrite (takeRemote s p.ctx off p.mask p.data) p.ctx f.src p.master p.tag off p.addr)) ∧
      (addrSpace p.addr = 0 →
        exec (.writeReq f p) s = .next (ackWrite (physWrite s off p.mask p.data) p.ctx f.src p.master p.tag off p.addr))) ∧
    (Admitted s f p [1] [1, 3] true true false →
      exec (.writecReq f p) s = .next (sievePush s ⟨p.ctx, off, p.mask, p.data, some (f.src, p.master, p.tag), some f.port.val⟩)) ∧
    (Admitted s f p [6] [2] true false true →
      exec (.flagInc f p) s = .next (respond (setC s p.ctx (setW c (off / 64) { getW c (off / 64) with
        f := tset 0 (getW c (off / 64)).f (off % 64) (getF (getW c (off / 64)) (off % 64) + BitVec.ofNat 64 p.inc) }))
        f p 6 0x0A (off / 64 % 500 % 16) 0 0)) ∧
    (Admitted s f p [1] [3] false false false →
      exec (.replInv f p) s = .next (respond (setC s p.ctx { c with replLines := c.replLines.filter (fun l =>
        !decide (some l.home = rankOf c f.src ∧ l.line = off)) }) f p 2 0x0B (f.port.val % 4) 0 0)) ∧
    (∀ h g, Admitted s f p [4] [3] false false false → rankOf c f.src = some h → regionAt c off = some g →
      exec (.replFill f p) s = .next (setC s p.ctx { c with
        replLines := ⟨h, off, p.data⟩ :: c.replLines.filter (fun l => !decide (l.home = h ∧ l.line = off)) }))) ∧
  (∀ (s : State) (id line : Nat) (mask : BitVec 128) (data : BitVec 1024),
    (∀ a, rdByte (getC (takeRemote s id line mask data) id).vmem a = maskedByte line mask data (rdByte (getC s id).vmem a) a) ∧
    (∀ j, j ≠ id → getC (takeRemote s id line mask data) j = getC s j)) ∧
  (∀ (c : Context) (line : Nat) (mask : BitVec 128) (data : BitVec 1024),
    (∀ a, rdByte (takeLine c line mask data).vmem a = maskedByte line mask data (rdByte c.vmem a) a) ∧
    (pageFlags (takeLine c line mask data) (line / pageBytes)).getLsbD 14 = true ∧
    (pageFlags (takeLine c line mask data) (line / pageBytes)).getLsbD 12 = false ∧
    (∀ g, g ≠ line / pageBytes → pageFlags (takeLine c line mask data) g = pageFlags c g) ∧
    (takeLine c line mask data).workers = c.workers)

/-- A request that does not arrive (its port does not carry it, it comes on another VC than its kind's, no route epoch is in force, or a
scrub runs) has no effect at all; that another VC is not its own is the model's choice (log entry 103). One with reserved bits is discarded and
counted; with another epoch it is refused with ROUTE_EPOCH_MISMATCH (3) and counted;
at an address that is not mapped with BAD_ADDRESS (2); from a device that is no member with REFUSED (1). It has no other effect. -/
def Obligations.RefusedRequestsHaveNoEffect : Prop :=
  ∀ (s : State) (f : Flit) (p : RPkt),
    (packetArrives s f [1, 4] = false → exec (.writeReq f p) s = .next s ∧ exec (.readReq f p) s = .next s) ∧
    (packetArrives s f [1, 4] = true →
    (f.resv = true → exec (.writeReq f p) s = .next (incr s 0x407402 1) ∧ exec (.readReq f p) s = .next (incr s 0x407402 1)) ∧
    (f.resv = false → reqReserved p true false = false → f.epoch ≠ rd s 0x400200 % 65536 →
      exec (.writeReq f p) s = .next (respond (incr s 0x406000 1) f p 2 0x0C (f.port.val % 4) 3 0)) ∧
    (f.resv = false → reqReserved p true false = false → f.epoch = rd s 0x400200 % 65536 → addrSpace p.addr = 1 →
      layoutPages (modOf (getC s p.ctx)) * pageBytes ≤ addrOffset p.addr →
      exec (.writeReq f p) s = .next (respond s f p 2 0x09 (f.port.val % 4) 2 0)) ∧
    (f.resv = false → reqReserved p true false = false → f.epoch = rd s 0x400200 % 65536 → addrSpace p.addr = 1 →
      addrOffset p.addr < layoutPages (modOf (getC s p.ctx)) * pageBytes → addrOffset p.addr % 128 = 0 →
      ((getC s p.ctx).live = false ∨ (getC s p.ctx).memKey = none ∨ f.src ∉ (getC s p.ctx).ids) →
      exec (.writeReq f p) s = .next (respond s f p 2 0x09 (f.port.val % 4) 1 0)))

/-- Answers to a worker's requests: a line goes into the local view, an acknowledgement frees its slot and lets what it held back go;
a refusal, or no answer in time, ends the request, halts the worker and records it (R240 to R243, R251, R259, R260). -/
def Obligations.AnswersEndTheirRequests : Prop :=
  ∀ (s : State) (f : Flit) (p : RPkt) (r : RReq),
    let cl := masterCluster p.master
    let c := getC s p.ctx
    let k := getW c cl
    let k' : Worker := { k with slots := tset none k.slots p.tag none }
    (Answers s f p 2 → tget none k.slots p.tag = some r → r.kind = .read → p.status = 0 →
      let sc := viewAccess s c cl r.dst (lineElems c cl r.src r.dst r.line) true false
      let x := fillLine sc.2 cl k' r.src r.dst r.line p.data
      let t := fun s' => pump (setC s' p.ctx (setW x.1 cl (markReplica x.1 x.2 r.dst.tensor))) p.ctx cl
      (r.alloc = false → exec (.readResp f p) s = .next (t sc.1)) ∧
      (r.alloc = true → exec (.readResp f p) s = .next (t (allocLine sc.1 p.ctx (dieOf cl) r.device r.line p.data)))) ∧
    (Answers s f p 2 → tget none k.slots p.tag = some r → (r.kind = .write ∨ r.kind = .writec) → p.status = 0 →
      exec (.writeAck f p) s = .next (pump (setC s p.ctx (setW c cl k')) p.ctx cl)) ∧
    (Answers s f p 2 → tget none k.slots p.tag = some r → r.kind = .inv → p.status = 0 →
      exec (.invAck f p) s = .next (pump (setC s p.ctx (setW c cl k')) p.ctx cl)) ∧
    (∀ h hs, Answers s f p 6 → k.flags = h :: hs → h.sent = true → p.status = 0 →
      exec (.flagAck f p) s = .next (pump (setC s p.ctx (setW c cl { k with flags := hs })) p.ctx cl)) ∧
    (Answers s f p 2 → tget none k.slots p.tag = some r → p.status ≠ 0 → addrSpace p.addr ≠ 2 →
      exec (.refusal f p) s = .next (failReq s p.ctx cl c k
        (if p.status = 1 then 0x0303 else if p.status = 2 then 0x0304 else 0x0305) r.dest p.addr.toNat)) ∧
    (∀ (w : Cluster) (i : Fin 65) id q, runningId s = some id → i.val < 64 → tget none (getW (getC s id) w.val).slots i.val = some q →
      exec (.remoteTimeout w i) s = .next (failReq s id w.val (getC s id) (getW (getC s id) w.val) 0x0301 q.dest
        (rpkt q.space q.device q.line 0 0 0).addr.toNat))

/-- A failed request halts its worker with the failure's code; what was outstanding ends, and held flags are never sent (R260). -/
def Obligations.FailedRequestsHaltTheWorker : Prop :=
  ∀ (s : State) (id cl : Nat) (c : Context) (k : Worker) (code device addr : Nat), c.modState = .running →
    let t := failReq s id cl c k code device addr
    getW (getC t id) cl = { k with rpend := [], slots := [], flags := [], run := .halted code, wait := none } ∧
    (getC t id).modState = .halting ∧ (getC t id).vmem = c.vmem ∧
    erd (getC t id) 0x407002 = (failRecord code device cl addr).toNat ∧
    failRecord code device cl addr = BitVec.ofNat 256 (leNat (natLe 2 code ++ natLe 2 device ++ natLe 2 cl ++ natLe 2 0 ++ natLe 8 addr))

/-- The Sieve: the store at the head of a slice's queue merges whole into its line's entry, or a free one, and the line's bytes under
its mask change at once; a write-back leaves the entry with nothing pending; a retired entry is free (R253 to R255). -/
def Obligations.SieveMergesAndWritesBack : Prop :=
  ∀ (s : State) (die : Fin 8) (slice : Fin 32) (e : Fin 64),
    let k := die.val * 32 + slice.val
    let v := sieveOf s k
    (∀ x rest, v.queue = x :: rest →
      ((∃ y ∈ v.entries, y.ctx = x.ctx ∧ y.line = x.line) ∨ (∃ i, i < 64 ∧ ∀ y ∈ v.entries, y.idx ≠ i)) →
      ∃ t, exec (.sieveMerge die slice) s = .next t ∧ (sieveOf t k).queue = rest ∧
        (∀ a, rdByte (getC t x.ctx).vmem a = maskedByte x.line x.mask x.data (rdByte (getC s x.ctx).vmem a) a) ∧
        (∀ j, j ≠ x.ctx → getC t j = getC s j) ∧
        (∃ y ∈ (sieveOf t k).entries, y.ctx = x.ctx ∧ y.line = x.line ∧ y.fresh = true ∧ y.last = s.ptpNs ∧
          ∀ i, x.mask.getLsbD i = true → y.mask.getLsbD i = true)) ∧
    (∀ y, entryAt s k e.val = some y → y.fresh = true → pageProtected (getC s y.ctx) (y.line / pageBytes) = false →
      (∃ t, exec (.sieveWriteback die slice e) s = .next t ∧ (∀ j, j ≠ y.ctx → getC t j = getC s j) ∧
        (getC t y.ctx).vmem = (getC s y.ctx).vmem ∧ (getC t y.ctx).workers = (getC s y.ctx).workers ∧ (sieveOf t k).queue = v.queue ∧
        (∀ z ∈ (sieveOf t k).entries, z.idx = y.idx → z.fresh = false)) ∧
      (∃ t, exec (.sieveRetire die slice e) s = .next t ∧ (∀ j, j ≠ y.ctx → getC t j = getC s j) ∧
        (getC t y.ctx).vmem = (getC s y.ctx).vmem ∧ (getC t y.ctx).workers = (getC s y.ctx).workers ∧ (sieveOf t k).queue = v.queue ∧
        (sieveOf t k).entries = v.entries.filter (fun z => decide (z.idx ≠ y.idx))))

/-! ### Collective packets and events -/

/-- A collective packet of this epoch for the collective in progress or a later one joins the packets that wait, and everything
that can be dealt with then is; one with reserved bits, of another epoch, or of a collective that is over has no further effect than
its counter (R216, R237). RESIDUE_CHECK_DONE counts a destination's oldest check, and a failed one makes the context's votes dirty;
COLLECTIVE_TIMEOUT ends the collective in progress and halts its workers with COLLECTIVE_TIMEOUT; LATE_WINDOW_END moves the lateness
counters of every context to the previous set and restarts them (R277, R281, R283). -/
def Obligations.CollectivePacketsAndEventsTakeEffect : Prop :=
  (∀ (s : State) (f : Flit) (p : CPkt) (id : Nat), runningId s = some id →
    let c := getC s id
    let as := fun (kind : Nat) (t : State) => match kind with
      | 0x10 => exec (.collOpenUp f p) s = .next t
      | 0x11 => exec (.collOpenDown f p) s = .next t
      | 0x12 => exec (.collUp f p) s = .next t
      | 0x13 => exec (.collDown f p) s = .next t
      | _ => exec (.collA2a f p) s = .next t
    ∀ kind, kind ∈ [0x10, 0x11, 0x12, 0x13, 0x14] →
      (packetArrives s f [3] = false → as kind s) ∧
      (packetArrives s f [3] = true →
        (f.resv = false → collReserved kind p = false → f.epoch = rd s 0x400200 % 65536 →
          ((c.step < p.step ∨ (p.step = c.step ∧ c.collSeq ≤ p.seq)) →
            as kind (collPump (setC s id { c with collIn := c.collIn ++ [(kind, p)] }) id)) ∧
          ((p.step < c.step ∨ (p.step = c.step ∧ p.seq < c.collSeq)) → as kind s)) ∧
        (f.resv = false → collReserved kind p = false → f.epoch ≠ rd s 0x400200 % 65536 → as kind (incr s 0x406000 1)) ∧
        (f.resv = true ∨ collReserved kind p = true → as kind (incr s 0x407402 1)))) ∧
  (∀ s : State,
    (∀ id c ok st ks, s.ctxs.find? (fun p => !p.2.checks.isEmpty) = some (id, c) → c.checks = (ok, st) :: ks →
      ∃ t, exec .residueCheckDone s = .next t ∧ (getC t id).checks = ks ∧
        (getC t id).corruptSinceCommit = (c.corruptSinceCommit || !ok) ∧ (getC t id).vmem = c.vmem ∧ (getC t id).workers = c.workers) ∧
    (∀ id x, runningId s = some id → (getC s id).coll = some x → x.entered = true →
      ∃ t, exec .collectiveTimeout s = .next t ∧ (getC t id).coll = none ∧ (getC t id).vmem = (getC s id).vmem ∧
        ∀ r ∈ x.reqs, (getW (getC t id) r.cluster).run = .halted 0x0404) ∧
    (Sound s → ∃ t, exec .lateWindowEnd s = .next t ∧ ∀ id, (getC s id).live = true → ∀ i, i < 4 →
      erd (getC t id) (0x408204 + i) = erd (getC s id) (0x408200 + i) ∧ erd (getC t id) (0x408200 + i) = 0))

/-! ### Fabric -/

/-- The link rules: a flit in sequence is routed on with HOPS raised by one and its payload as it came; the first flit that fails its check or is
out of sequence is discarded and the NAK names the missing number, every later one is discarded, and one that fails in the replay has a NAK of its
own; a flit that has come before is discarded without more; a NAK has the flits from its number on sent again in order, those before it acknowledged
(R217, R225). A VC0 flit under its cap has the slot (R223); a port with nothing that may leave sends an idle flit (R221). -/
def Obligations.FlitsAreForwardedOrReplayed : Prop :=
  (∀ (s : State) (f : Flit) (x : Trailer),
    let p := f.port.val
    let l := getLink s p
    let d := (x.seq + 4096 - l.rxSeq) % 4096
    portCarries s p f.vc f.kind = true → bufferRoom s p f.vc f.hops = true → f.kind ≠ 0x1E →
    (x.seq = l.rxSeq → f.resv = false → s.pkg.scrubbing = false → f.dest ≠ ownId s → f.hops < 9 → f.vc ≤ 6 →
      let s' := setLink s p { takeTrailer l x.ack x.cvc x.ccount with nakked := none, rxSeq := (x.seq + 1) % 4096 }
      let g := { flitOf f.vc f.kind f.dest f.src f.epoch (f.hops + 1) f.flow with raw := some x.payload, hold := some p }
      (f.vc ≠ 0 → rd s 0x400200 ≠ 0 → exec (.flitForward f x true) s = .next (routeFlit s' g)) ∧
      (f.vc = 0 → exec (.flitForward f x true) s = .next (transitVc0 s' g p))) ∧
    (∀ ok, ok = false ∨ (x.seq ≠ l.rxSeq ∧ d < 2048) →
      ((∀ m, l.nakked = some m → d ≤ m) → ∃ t m, exec (.flitForward f x ok) s = .next t ∧
        t.fab.tx = s.fab.tx ++ [m] ∧ m.kind = 0x1D ∧ m.dest = l.rxSeq ∧ m.port = some p ∧ (getLink t p).nakked = some d ∧
        (getLink t p).rxSeq = l.rxSeq ∧ (getLink t p).replay = l.replay ∧ (getLink t p).queue = l.queue ∧
        t.fab.flows = s.fab.flows ∧ t.ctxs = s.ctxs ∧ t.ent = s.ent) ∧
      (∀ m, l.nakked = some m → m < d →
        exec (.flitForward f x ok) s = .next (setLink s p { l with nakked := some d }))) ∧
    (2048 ≤ d → exec (.flitForward f x true) s = .next s) ∧
    (∀ n, let rest := l.replay.dropWhile (fun x => decide (x.1 ≠ n))
      rest ≠ [] → 3 ≤ portState s p → (rest.length < l.replay.length ∨ l.replays < 8) → ∃ t, exec (.nak f.port ⟨n, false⟩) s = .next t ∧
        (getLink t p).replay = rest ∧ t.fab.tx = s.fab.tx ++ rest.map (fun x => { x.2 with ack := ackSeq s p }))) ∧
  (∀ (s : State) (p : Nat) (f : TxFlit) (rest : List TxFlit), (getLink s p).queue = f :: rest → (getLink s p).frame ≠ 0 → f.vc = 0 →
    underCap s (getLink s p) 0 = true → flitReady s p f = true → slot s p = grant s p f rest) ∧
  (∀ (s : State) (p : Nat), (getLink s p).queue = [] → portState s p ≠ 5 → slot s p = emit s p (trailed s p (idleFlit s) 0))

/-- The port events: a trained port is UP with no samples, its link numbers and credits fresh; loss of lock takes a port DOWN, discards its replay
buffer and leaves no flit waiting there; samples give the metric once there are ten; a drain runs notice, DRAINED once nothing is unacknowledged and
no flow has the port, training (R219, R226, R231). Every other port keeps its state. -/
def Obligations.PortsFollowTheirStates : Prop :=
  ∀ (s : State) (p : Port),
    let only := fun (t : State) => ∀ q, q ≠ p.val → q < 32 → portState t q = portState s q
    let others := fun (t : State) => ∀ q, q ≠ p.val → q < 32 → getLink t q = getLink s q
    (portState s p.val = 2 → laserLow s p.val = false → ∃ t, exec (.portTrained p) s = .next t ∧ portState t p.val = 3 ∧
      getLink t p.val = { PortLink.initial with queue := (getLink s p.val).queue, darkSeen := (getLink s p.val).darkSeen } ∧ only t ∧ others t) ∧
    (portState s p.val = 2 → laserLow s p.val = true → exec (.portTrained p) s = .next s) ∧
    (2 ≤ portState s p.val → ∃ t, exec (.portLossOfLock p) s = .next t ∧ portState t p.val = 1 ∧ (getLink t p.val).replay = [] ∧
      (getLink t p.val).queue = [] ∧ (getLink t p.val).samples = [] ∧ rd t (0x401400 + p.val) = 0xFFFF ∧ only t) ∧
    (portState s p.val = 3 → (getLink s p.val).drain = true → portDrained s p.val = true →
      ∃ t, exec (.portDrained p) s = .next t ∧ portState t p.val = 4 ∧ (∀ f ∈ t.fab.flows, f.port ≠ p.val) ∧ only t ∧ others t) ∧
    (portState s p.val = 3 → portDrained s p.val = false → exec (.portDrained p) s = .next s) ∧
    (portState s p.val = 4 → laserLow s p.val = false → ∃ t, exec (.recalDone p) s = .next t ∧ portState t p.val = 2 ∧ only t ∧ others t) ∧
    (portState s p.val = 3 → (getLink s p.val).drain = false → ∃ t m, exec (.drainNotice p) s = .next t ∧ (getLink t p.val).drain = true ∧
      (getLink t p.val).queue = (getLink s p.val).queue ++ [m] ∧ m.ctl = some .drainNotice ∧ m.port = some p.val ∧ m.vc = 0 ∧ only t ∧ others t) ∧
    (∀ use : Fin 257, portState s p.val = 3 → (∀ x ∈ (getLink s p.val).samples, x ≤ 256) →
      let xs := (getLink s p.val).samples ++ [use.val]
      let ys := xs.drop (xs.length - 10)
      ∃ t, exec (.congestionSample p use) s = .next t ∧ (getLink t p.val).samples = ys ∧
        rd t (0x401400 + p.val) = (if ys.length < 10 then 0xFFFF else ys.sum / 10) ∧ only t ∧ others t)

/-- Probes and light: PORT_PEER takes what a probe says, and a port that reaches another peer than the cabling rule's is MISCABLED; the
timer queues a probe on every UP, TRAINING and MISCABLED port; a laser input that is LOW has its die's four ports DOWN or DARK, and
LASER_STATE holds the check; a settled switch stands where it moved to (R207, R212, R228). -/
def Obligations.ProbesLightAndSwitches : Prop :=
  ∀ s : State,
    (∀ (p : Port) (serial : BitVec 64) (device : BitVec 16) (port : BitVec 8),
      ∃ t, exec (.probe p serial device port) s = .next t ∧
        rd t (0x401100 + p.val) = serial.toNat + device.toNat * 2 ^ 64 + port.toNat * 2 ^ 80 + 2 ^ 88 ∧
        (placed s = true → expectedPeers s p.val ≠ [] → 2 ≤ portState s p.val →
          (device.toNat, port.toNat) ∉ expectedPeers s p.val → portState t p.val = 6) ∧
        ((device.toNat, port.toNat) ∈ expectedPeers s p.val → portState s p.val ≠ 0 → portState t p.val = portState s p.val) ∧
        (placed s = true → expectedPeers s p.val = [] → portState t p.val = 0)) ∧
    (∃ t, exec .probeTimer s = .next t ∧ t.ent = s.ent ∧ t.ctxs = s.ctxs ∧ ∀ p, p < 32 →
      (getLink t p).queue = (getLink s p).queue ++ if portState s p ∈ [2, 3, 6] then
        [{ flitOf 0 0x1F (rd s (0x401100 + p) / 2 ^ 64 % 65536) (ownId s) (rd s 0x400200 % 65536) 1 0 with
          ctl := some (.probe (rd s 0x700100) (ownId s) p), port := some p }] else []) ∧
    (∀ low : BitVec 8, ∃ t, exec (.laserCheck low) s = .next t ∧ ∀ k, k < 8 →
      rd t (0x405000 + k) = (if low.getLsbD k then 1 else 0) ∧ (low.getLsbD k = true → ∀ i, i < 4 → portState t (4 * k + i) ≤ 1)) ∧
    (∀ (lane : Fin 2) (closed : Nat), closed < 2 → s.fab.moving = [lane.val + 2 * closed] → bypassState s < 4 →
      ∃ t, exec (.bypassSwitchSettled lane) s = .next t ∧ t.fab.moving = [] ∧ bypassState t < 4 ∧
        bypassState t / 2 ^ lane.val % 2 = closed ∧ bypassState t / 2 ^ (1 - lane.val) % 2 = bypassState s / 2 ^ (1 - lane.val) % 2)

/-! ### Entry writes -/

/-- The fabric's entry writes: DEVICE_ID and SYSTEM_SHAPE only while no route is committed, VC_ARB_SET within its ranges, its weights in force from
a port's next frame and its caps from the next window, ROUTE_COMMIT with a
higher epoch and a well-formed shadow table, PORT_CTRL with the sole-path check, BYPASS_CTRL, REMOTE_DEAD_NOTICE (R213 to R215, R228, R231,
R233, R259). -/
def Obligations.FabricWritesTakeEffect : Prop :=
  ∀ (s : State) (r : Req),
    (∀ v : BitVec 16, rd s 0x400200 = 0 → Takes (.deviceId r v) s r 0x400100 (natLe 2 v.toNat) (checkAllPorts (wrHost s 0x400100 v.toNat))) ∧
    (∀ v : BitVec 16, rd s 0x400200 ≠ 0 → Refuses (.deviceId r v) s r 0x400100 (natLe 2 v.toNat) 0x0D01) ∧
    (∀ (v : BitVec 32) (g q : Nat), v.toNat = g * 65536 + q * 256 → 1 ≤ g → g ≤ 256 → 1 ≤ q → q ≤ 32 → rd s 0x400200 = 0 →
      Takes (.systemShape r v) s r 0x400300 (natLe 4 v.toNat) (checkAllPorts (wrHost s 0x400300 v.toNat))) ∧
    (∀ v : BitVec 32, rd s 0x400200 ≠ 0 → Refuses (.systemShape r v) s r 0x400300 (natLe 4 v.toNat) 0x0D01) ∧
    (∀ v : BitVec 64, let b := fun i => v.toNat / 2 ^ (8 * i) % 256
      1 ≤ b 0 → b 0 ≤ 20 → (∀ i ∈ [1, 2, 3, 4, 6], 1 ≤ b i ∧ b i ≤ 96) → b 1 + b 2 + b 3 + b 4 + b 6 = 100 → 1 ≤ b 5 → b 5 ≤ 250 → b 7 = 0 →
      Takes (.vcArbSet r v) s r 0x403008 (natLe 8 v.toNat) (wrHost s 0x403008 v.toNat)) ∧
    (∀ p, (∀ i ∈ [1, 2, 3, 4, 6], rd (newFrame s p) (0x403000 + i) = rd s 0x403008 / 2 ^ (8 * i) % 256) ∧
      (∀ i ∈ [0, 5], rd (newWindow s) (0x403000 + i) = rd s 0x403008 / 2 ^ (8 * i) % 256)) ∧
    (∀ e : BitVec 32, rd s 0x400200 < e.toNat → (∀ k ∈ routeKeys, routeEntryOk k (tget 0 s.fab.shadow k) = true) →
      Takes (.routeCommit r e) s r 0x400201 (natLe 4 e.toNat) (bumpSnap (addFence s (.routeCommit e.toNat s.fab.shadow)) 0x400201)) ∧
    (∀ e : BitVec 32, e.toNat ≤ rd s 0x400200 → Refuses (.routeCommit r e) s r 0x400201 (natLe 4 e.toNat) 0x0D02) ∧
    (∀ p : Port, let k := 0x401300 + p.val
      (portState s p.val = 3 → solePath s p.val = false →
        Takes (.portDrain r p) s r k (natLe 1 1) (bumpSnap (startDrain s p.val) k) ∧
        Takes (.portRecal r p) s r k (natLe 1 3) (bumpSnap (startDrain s p.val) k)) ∧
      (portState s p.val = 3 → solePath s p.val = true →
        Refuses (.portDrain r p) s r k (natLe 1 1) 0x0D04 ∧ Refuses (.portRecal r p) s r k (natLe 1 3) 0x0D04) ∧
      Takes (.portForceDrain r p) s r k (natLe 1 2) (bumpSnap (startDrain s p.val) k) ∧
      (portState s p.val ∈ [1, 4, 5, 6] → Takes (.portReturn r p) s r k (natLe 1 4) (bumpSnap (portTrain s p.val) k)) ∧
      (portState s p.val ≠ 0 → Takes (.portTest r p) s r k (natLe 1 5)
        (bumpSnap (reroute (clearSamples (setPort s p.val 5) p.val) p.val (fun f => decide (f.vc = 0))) k))) ∧
    Takes (.bypassClose r) s r 0x404001 (natLe 1 1) (bumpSnap (moveSwitch (moveSwitch s 0 1) 1 1) 0x404001) ∧
    (rd s 0x10101F = 2 → rd s 0x405000 = 0 →
      Takes (.bypassOpen r) s r 0x404001 (natLe 1 2) (bumpSnap (moveSwitch (moveSwitch s 0 0) 1 0) 0x404001)) ∧
    (rd s 0x10101F ≠ 2 ∨ rd s 0x405000 ≠ 0 → Refuses (.bypassOpen r) s r 0x404001 (natLe 1 2) 0x0D05) ∧
    (∀ v : BitVec 16, Takes (.remoteDeadNotice r v) s r 0x407001 (natLe 2 v.toNat)
      (bumpSnap (deadCollectives (deadRequests s v.toNat) v.toNat) 0x407001))

/-- Configuration and checkpoint entries: what each write does where its entry's rule admits it, and its refusals. -/
def Obligations.ConfigurationWritesTakeEffect : Prop :=
  ∀ (s : State) (r : Req),
    Takes (.xlateCacheFlush r 1) s r 0x501003 (natLe 1 1) (bumpSnap (wr { s with pkg := { s.pkg with xcache := [] } } 0x501001 0) 0x501003) ∧
    (∀ v : BitVec 32, let w := fun i => v.toNat / 2 ^ (8 * i) % 256
      (∀ i, i < 4 → 1 ≤ w i ∧ w i ≤ 13) → w 0 + w 1 + w 2 + w 3 = 16 →
      Takes (.arbWeightSet r v) s r 0x301004 (natLe 4 v.toNat) (wrHost s 0x301004 v.toNat)) ∧
    (∀ i, i < 4 → rd (newWeights s) (0x301000 + i) = rd s 0x301004 / 2 ^ (8 * i) % 256) ∧
    (∀ v : BitVec 64, let id := (pathCtx r.path).getD (r.ctx % 4096)
      ∃ t, (∀ j, j ≠ id → getC t j = getC s j) ∧ erd (getC t id) 0x901000 = v.toNat ∧ (getC t id).seed = (getC s id).seed ∧
        Takes (.srSeed r v) s r 0x901000 (natLe 8 v.toNat) t) ∧
    (∀ (die : Fin 2) (v : BitVec 8), v.toNat ≤ 1 →
      ((∀ id ∈ liveIds s, ∀ b ∈ (getC s id).binds, ∀ h ∈ bindHalves b, h / 2 ≠ die.val) →
        Takes (.sdMode r die v) s r (0x601001 + die.val) (natLe 1 v.toNat) (wrHost s (0x601001 + die.val) v.toNat)) ∧
      ((∃ id ∈ liveIds s, ∃ b ∈ (getC s id).binds, ∃ h ∈ bindHalves b, h / 2 = die.val) →
        Refuses (.sdMode r die v) s r (0x601001 + die.val) (natLe 1 v.toNat) 0x0601)) ∧
    (∀ v : BitVec 8, v.toNat < 16 → (∀ h, h < 4 → halfBusy s h = false) →
      Takes (.compatJsn16 r v) s r 0x602000 (natLe 1 v.toNat) (wrHost s 0x602000 v.toNat)) ∧
    (∀ v : BitVec 8, v.toNat ≤ 2 → s.pkg.opNext = none → plantsFit s (if v = 0 then 210 else if v = 1 then 240 else 280) = true →
      ∃ t, t.pkg.opNext = some (v.toNat, false) ∧ rd t 0x200101 = v.toNat ∧ rd t 0x200100 = rd s 0x200100 ∧
        Takes (.opTarget r v) s r 0x200101 (natLe 1 v.toNat) t) ∧
    (∀ (sub : Fin 4) (v : BitVec 16), let k := 0x303000 + sub.val
      ((∀ id ∈ liveIds s, usesLoan (getC s id) = false) → sub.val ≤ 1 →
        Takes (.loanRevoke r sub v) s r k (natLe 2 v.toNat) (wrHost s k v.toNat)) ∧
      (sub.val ≤ 1 → rd s k ≠ v.toNat → rd s 0x303000 ≠ 0xFFFF → rd s 0x303001 ≠ 0 →
        ∃ t, (∀ id ∈ liveIds s, usesLoan (getC s id) = true → (getC t id).peerLost = true ∧ (getC t id).modState ≠ .running) ∧
          Takes (.loanRevoke r sub v) s r k (natLe 2 v.toNat) t) ∧
      (sub.val = 2 → v = 0xFFFF → rd s k ≠ 0xFFFF → ∃ t, t.pkg.loanKey = none ∧ t.pkg.lent = [] ∧ t.fab.loanMem = [] ∧ rd t k = 0xFFFF ∧
        Takes (.loanRevoke r sub v) s r k (natLe 2 v.toNat) t)) ∧
    (∀ v : BitVec 64, (genInFlight s = false → ∃ t, rd t 0x800100 = v.toNat ∧ rd t 0x800101 = 1 ∧ t.ckpt.pending = [] ∧
        (∀ id, (getC s id).live = true → (getC t id).fullNext = true) ∧ Takes (.jobId r v) s r 0x800100 (natLe 8 v.toNat) t) ∧
      (genInFlight s = true → Refuses (.jobId r v) s r 0x800100 (natLe 8 v.toNat) 0x0807)) ∧
    (∀ v : BitVec 16, (genInFlight s = false → ∃ t, rd t 0x800200 = v.toNat ∧
        (∀ id, (getC s id).live = true → (getC t id).fullNext = true) ∧ Takes (.buddyDevice r v) s r 0x800200 (natLe 2 v.toNat) t) ∧
      (genInFlight s = true → Refuses (.buddyDevice r v) s r 0x800200 (natLe 2 v.toNat) 0x0807)) ∧
    (∀ (v : BitVec 16) (a : Bool) (job rank : Nat), genInFlight s = false → v ≠ 0xFFFF →
      (a ≠ gradeA s → Refuses (.buddyPartner r v a job rank) s r 0x800201 (natLe 2 v.toNat) 0x0808) ∧
      (a = gradeA s → s.ckpt.buddy.job = job → s.ckpt.buddy.rank = rank →
        Takes (.buddyPartner r v a job rank) s r 0x800201 (natLe 2 v.toNat) (wrHost s 0x800201 v.toNat)) ∧
      (a = gradeA s → s.ckpt.buddy.job ≠ job → s.ckpt.buddy.inFlight = false →
        ∃ t, rd t 0x800201 = v.toNat ∧ t.ckpt.buddy = { BuddySlot.empty with job := job, rank := rank } ∧
          Takes (.buddyPartner r v a job rank) s r 0x800201 (natLe 2 v.toNat) t)) ∧
    (∀ v : BitVec 32, let step := match jobCtx s with | some id => (getC s id).step | none => 0
      (v.toNat ≤ step → Refuses (.ckptRequest r v) s r 0x800400 (natLe 4 v.toNat) 0x0806) ∧
      (step < v.toNat → v.toNat ∉ s.ckpt.pending → s.ckpt.pending.length = 8 →
        Refuses (.ckptRequest r v) s r 0x800400 (natLe 4 v.toNat) 0x080C) ∧
      (step < v.toNat → v.toNat ∉ s.ckpt.pending → s.ckpt.pending.length < 8 → ∃ t, (∀ x, x ∈ t.ckpt.pending ↔ x = v.toNat ∨ x ∈ s.ckpt.pending) ∧
        Takes (.ckptRequest r v) s r 0x800400 (natLe 4 v.toNat) t)) ∧
    (∀ (target next : BitVec 32) cands held, let n := match jobCtx s with | some id => (getC s id).n | none => 1
      let bs := natLe 4 target.toNat ++ natLe 4 next.toNat
      (restoreChoices n target.toNat cands held ≠ [] → ∃ t, rd t 0x801201 = 1 ∧ t.ckpt.restoreNext = next.toNat ∧
        t.ckpt.restoreCands = restoreChoices n target.toNat cands held ∧ Takes (.restoreCmd r target next cands held) s r 0x801200 bs t) ∧
      (restoreChoices n target.toNat cands held = [] → ∃ t, rd t 0x801201 = 3 ∧ t.ckpt.restoreCands = [] ∧
        Takes (.restoreCmd r target next cands held) s r 0x801200 bs t)) ∧
    (rd s 0x802001 ∉ [1, 2, 3] → ∃ t, rd t 0x802001 = 1 ∧ t.pkg.notes = s.pkg.notes ++ [.reclaimStart] ∧ t.ctxs = s.ctxs ∧
      Takes (.reclaimStart r 1) s r 0x802000 (natLe 1 1) t) ∧
    (∀ (target tag length : Nat) (bytes : List Byte), tag < 8 → length ≤ 8136 →
      Takes (.relayTx r target tag 0 length bytes) s r 0x106000 (padTo 8176 (natLe 2 target ++ natLe 1 tag ++ natLe 5 0 ++ bytes))
        (sendCtl (bumpSnap s 0x106000) target (.relay (ownId s) tag bytes)))

/-- Keys, presence and identity: what an admitted write of each security entry does, and its refusals (R345, R346, R348 to R353). -/
def Obligations.SecurityWritesTakeEffect : Prop :=
  ∀ (s : State) (r : Req),
    (∀ nonce : BitVec 512, ∃ t, t.wen.quotePending = s.wen.quotePending ++ [(pathCtx r.path, nonce.toNat)] ∧ t.ctxs = s.ctxs ∧
      Takes (.quoteNonce r nonce) s r 0x700400 (natLe 64 nonce.toNat) t) ∧
    (∀ key : Nat, Takes (.ownerKey r key) s r 0x701000 (natLe 516 key) (wrHost s 0x701000 key) ∧
      Takes (.fmKey r key) s r 0x701100 (natLe 516 key) (wrHost s 0x701100 key)) ∧
    (let d := drawBytes s 512
     (∀ key : Nat, ∃ t, t.wen.mgmtKey = some key ∧ t.ctxs = s.ctxs ∧
        (Admits d.2 r 0x701200 d.1 → exec (.mgmtKeyEnrol r (some key)) s = .next (accepted t r 0x701200 d.1))) ∧
     (Admits d.2 r 0x701200 d.1 → exec (.mgmtKeyEnrol r none) s = .next (rejected d.2 r 0x701200 d.1 0x0705))) ∧
    (let d := drawBytes s 1024
     (∀ key : Nat, rd s 0x701100 ≠ 0 → ∃ t, t.wen.mgmtKey = some key ∧ t.wen.mgmtGenKey = s.wen.mgmtGenKey ∧
        (Admits d.2 r 0x701201 d.1 → exec (.mgmtKeyNext r (some key)) s = .next (accepted t r 0x701201 d.1))) ∧
     (Admits d.2 r 0x701201 d.1 → exec (.mgmtKeyNext r none) s = .next (rejected d.2 r 0x701201 d.1 0x0705))) ∧
    ((s.wen.sealOk = true → Takes (.tamperClear r 1) s r 0x702002 (natLe 1 1) (bumpSnap (wr s 0x702001 0) 0x702002)) ∧
      (s.wen.sealOk = false → Refuses (.tamperClear r 1) s r 0x702002 (natLe 1 1) 0x0708)) ∧
    (∃ t, t.wen.debug = true ∧ t.pkg.scrubbing = true ∧ t.wen.mgmtKey = none ∧ rd t 0x701000 = 0 ∧ rd t 0x701100 = 0 ∧ t.wen.brown = [] ∧
      (∀ id, (getC s id).live = true → (getC t id).sessKey = none ∧ (getC t id).memKey = none) ∧ Takes (.debugUnlock r 1) s r 0x702100 (natLe 1 1) t) ∧
    (∃ t, t.wen.marker.isSome = true ∧ t.wen.scrubDue = true ∧ t.wen.idKeys = s.wen.idKeys ∧ t.wen.mgmtKey = none ∧ rd t 0x701000 = 0 ∧
      t.wen.brown = [] ∧ (∀ id, (getC s id).live = true → (getC t id).sessKey = none ∧ (getC t id).memKey = none) ∧ (∀ d, d < 8 → dieState t d = 0 ∨ dieState t d = 5) ∧
      Takes (.zeroise r 0x5A) s r 0x702200 (natLe 1 0x5A) t) ∧
    (∀ v : BitVec 8, v ≠ 0x5A → Refuses (.zeroise r v) s r 0x702200 (natLe 1 v.toNat) 1) ∧
    (∃ t, t.wen.marker = some true ∧ t.wen.idKeys = false ∧ rd t 0x100300 = 6 ∧ t.wen.mgmtKey = none ∧ rd t 0x701000 = 0 ∧
      (∀ id, (getC s id).live = true → (getC t id).sessKey = none ∧ (getC t id).memKey = none) ∧ Takes (.decommission r 0xA5) s r 0x702201 (natLe 1 0xA5) t) ∧
    (∀ v : BitVec 8, v ≠ 0xA5 → Refuses (.decommission r v) s r 0x702201 (natLe 1 v.toNat) 1) ∧
    (∀ v : BitVec 8, v.toNat < 8 → ∃ t, t.wen.rbOverride = some v.toNat ∧ t.ctxs = s.ctxs ∧
      Takes (.rollbackOverride r v) s r 0x700210 (natLe 1 v.toNat) t)

/-- Firmware staging, resets and Taster requests (R345, R346, R388, R389, R400, R404, R409, R412). -/
def Obligations.MaintenanceWritesTakeEffect : Prop :=
  ∀ (s : State) (r : Req),
    (∀ (v : BitVec 192) (type : BitVec 8), 1024 ≤ v.toNat / 2 ^ 128 → v.toNat / 2 ^ 128 ≤ 67108864 → type.toNat < 8 →
      (s.wen.staged = none → ∃ t, t.wen.staged = some (type.toNat, 1 - bootedSlot s type.toNat) ∧
        (getSlot t type.toNat (1 - bootedSlot s type.toNat)).valid = false ∧ rd t 0x103001 = 1 + type.toNat * 256 ∧
        Takes (.fwStageSrc r v type) s r 0x103000 (natLe 24 v.toNat) t) ∧
      (s.wen.staged.isSome = true → Refuses (.fwStageSrc r v type) s r 0x103000 (natLe 24 v.toNat) 0x0E01)) ∧
    (∀ type : BitVec 8, type.toNat < 8 → (type.toNat ∉ [3, 4] ∨ liveIds s = []) →
      (type.toNat ∈ s.wen.stagedOk → ∃ t, tget 0 t.wen.preferred type.toNat = 2 - bootedSlot s type.toNat ∧ t.ctxs = s.ctxs ∧
        Takes (.fwActivate r type) s r 0x103002 (natLe 1 type.toNat) t) ∧
      (type.toNat ∉ s.wen.stagedOk → Refuses (.fwActivate r type) s r 0x103002 (natLe 1 type.toNat) 0x0E02)) ∧
    (∀ (img : FwImage) (n : Nat), 1024 ≤ n → n ≤ 67108864 → img.resv = false → imageBad s 0 img = none → let d := drawBytes s n
      ∃ t, getSlot t 0 (1 - bootedSlot s 0) = slotOf img true ∧ tget 0 t.wen.preferred 0 = 1 - bootedSlot s 0 + 1 ∧
        (Admits d.2 r 0x103010 d.1 → exec (.fwRecovery r img n) s = .next (accepted t r 0x103010 d.1))) ∧
    (∀ service : Bool, let k := if service then 0x100501 else 0x100500
      s.wen.powered = true → s.wen.guar = [] → s.wen.heldSag = false → deviceState s ∉ [4, 5] →
      (∃ t, t.wen.guar = [.warmReset (if service then 6 else 2)] ∧ t.ctxs = [] ∧ Takes (.warmReset r service) s r k (natLe 1 1) t) ∧
      (∃ t, t.wen.guar = [.coldReset (if service then 6 else 3)] ∧ t.ctxs = [] ∧ Takes (.coldReset r service) s r k (natLe 1 2) t) ∧
      (∃ t, t.wen.guar = [.powerDown] ∧ t.ctxs = [] ∧ Takes (.powerDown r service) s r k (natLe 1 3) t)) ∧
    Takes (.serviceBypassClose r) s r 0x100501 (natLe 1 4) (bypassClose (bumpSnap s 0x100501)) ∧
    (∀ (die unit : Nat) (raise : Bool), let bs := fun kind => natLe 1 die ++ natLe 1 kind ++ natLe 2 unit ++ natLe 4 (bit raise + 2 * 0)
      let t := fun kind => bumpSnap (queueTaster s die ⟨kind, unit, raise⟩) 0xA00200
      ((getTaster s die).reqs.length < 64 →
        (die < 8 → unit < 512 → Takes (.tasterReqCluster r die unit raise 0) s r 0xA00200 (bs 1) (t 1)) ∧
        (die < 8 → unit < 32 → Takes (.tasterReqPantry r die unit raise 0) s r 0xA00200 (bs 2) (t 2)) ∧
        (8 ≤ die → die < 24 → unit < stackRegions s → Takes (.tasterReqStack r die unit raise 0) s r 0xA00200 (bs 3) (t 3)) ∧
        (28 ≤ die → die < 30 → unit < 32 → Takes (.tasterReqSolver r die unit raise 0) s r 0xA00200 (bs 4) (t 4)) ∧
        (30 ≤ die → die < 38 → unit < 4 → portState s (4 * (die - 30) + unit) ≠ 3 →
          Takes (.tasterReqRecal r die unit raise 0) s r 0xA00200 (bs 5) (t 5)) ∧
        (die < 40 → dieState s die = 3 → Takes (.tasterReqFullTest r die unit raise 0) s r 0xA00200 (bs 6) (t 6))) ∧
      ((getTaster s die).reqs.length = 64 → (∀ q ∈ (getTaster s die).reqs, q.kind ≠ 1 ∨ q.unit ≠ unit) → die < 8 → unit < 512 →
        Refuses (.tasterReqCluster r die unit raise 0) s r 0xA00200 (bs 1) 0x0A07))

/-! ### Checkpoint and restore -/

/-- Votes, decisions and the buddy's folding (R331, R333 to R336): a member votes once its records are stored; rank 0 commits when every
vote is clean and aborts at a dirty vote or at the timeout; members act on the decision. -/
def Obligations.VotesDecideGenerations : Prop :=
  ∀ s : State,
    (∀ id g, unvoted s = some (id, g) → shardStored s id g = true → (∀ x ∈ (getC s id).checks, g.step ≤ x.2.1) → (getC s id).noCommit = false →
      (getC s id).rank ≠ 0 → ∃ t, exec .voteCast s = .next t ∧ (isNewest (getC s id) g.gen = true → erd (getC t id) 0x801000 = 3) ∧
        (getC t id).vmem = (getC s id).vmem ∧
        capOf (getC t id) g.gen = some { g with voted := true, reason := (if (getC s id).corruptSinceCommit then 0x0403 else g.reason) }) ∧
    (∀ id gen e, jobCtx s = some id → (getC s id).rank = 0 → e.rank < (getC s id).n → (votesOf s gen).state = 0 →
      (∀ x ∈ (votesOf s gen).votes, x.rank ≠ e.rank) →
      ((votesOf s gen).votes.length + 1 < (getC s id).n → ∃ t, exec (.ckptVote gen e) s = .next t ∧ t.ctxs = s.ctxs ∧ t.fab = s.fab ∧
        votesOf t gen = { votesOf s gen with votes := (votesOf s gen).votes ++ [e] }) ∧
      ((votesOf s gen).votes.length + 1 = (getC s id).n → (getC s id).noCommit = false →
        ((∀ x ∈ (votesOf s gen).votes ++ [e], x.dirty = false) →
          let g := { votesOf s gen with votes := (votesOf s gen).votes ++ [e] }
          ∃ t, exec (.ckptVote gen e) s = .next t ∧ t.pkg.notes = s.pkg.notes ++ [.committed gen] ∧ t.ckpt.manifests.length ≤ 4 ∧
            t.ckpt.manifests.getLast? = some (gen, (manifestBytes (putVotes s g) (getC s id) g).1)) ∧
        (∀ x, ((votesOf s gen).votes ++ [e]).find? (fun y => y.dirty) = some x →
          ∃ t, exec (.ckptVote gen e) s = .next t ∧ t.pkg.notes = s.pkg.notes ++ [.aborted gen x.reason] ∧ (votesOf t gen).state = 2))) ∧
    (∀ gen id, capturedCtx s gen = some id → (getC s id).rank = 0 → (votesOf s gen).state = 0 → (∀ x ∈ (votesOf s gen).votes, x.dirty = false) →
      ∃ t, exec (.ckptVoteTimeout gen) s = .next t ∧ t.pkg.notes = s.pkg.notes ++ [.aborted gen 0x0805] ∧ (votesOf t gen).state = 2) ∧
    (∀ gen digest id g, capturedCtx s gen = some id → capOf (getC s id) gen = some g → g.decided = false → (getC s id).rank ≠ 0 →
      (getC s id).noCommit = false → recording s id = false →
      ∃ t, exec (.commit gen digest) s = .next t ∧ erd (getC t id) 0x801001 = gen + 2 ^ 32 * g.step + 2 ^ 64 * (digest % 2 ^ 512) ∧
        (isNewest (getC s id) gen = true → erd (getC t id) 0x801000 = 1 ∧ (getC t id).capture = some { g with decided := true }) ∧
        (∀ x, capOf (getC t id) gen = some x → x = { g with decided := true }) ∧ (getC t id).vmem = (getC s id).vmem) ∧
    (∀ gen rank id, jobCtx s = some id → (votesOf s gen).state = 1 → rank < (getC s id).n → rank ∉ (votesOf s gen).acks →
      (votesOf s gen).acks.length + 1 < (getC s id).n →
      ∃ t, exec (.commitAck gen rank) s = .next t ∧ votesOf t gen = { votesOf s gen with acks := (votesOf s gen).acks ++ [rank] } ∧ t.ctxs = s.ctxs) ∧
    (∀ gen, exec (.commitDone gen true) s = .next { s with ckpt := { s.ckpt with buddy := foldJournal s.ckpt.buddy gen } }) ∧
    (∀ gen, ∃ t, exec (.commitDone gen false) s = .next t ∧ t.ctxs = s.ctxs ∧ t.ckpt.unfolded = s.ckpt.unfolded.filter (fun p => decide (gen < p.1))) ∧
    (∀ gen, ∃ t, exec (.abort gen true) s = .next t ∧ t.ctxs = s.ctxs ∧ t.ckpt.buddy.base = s.ckpt.buddy.base ∧
      t.ckpt.buddy.journal = s.ckpt.buddy.journal.filter (fun r => decide (r.gen ≠ gen))) ∧
    (∀ gen id g, capturedCtx s gen = some id → capOf (getC s id) gen = some g → g.decided = false →
      ∃ t, exec (.abort gen false) s = .next t ∧ (∀ x, capOf (getC t id) gen = some x → x = { g with decided := true }) ∧
        (isNewest (getC s id) gen = true → erd (getC t id) 0x801000 = 1 ∧ (getC t id).capture = some { g with decided := true }) ∧
        (getC t id).fullNext = ((getC s id).fullNext || g.full) ∧ (∀ p ∈ g.pages, (pageFlags (getC t id) p).getLsbD 14 = true) ∧
        (getC t id).vmem = (getC s id).vmem)

/-- The Ladle, restore, reclaim and the replay log (R313, R315, R326 to R329, R338 to R340). -/
def Obligations.CopiesRestoresAndReclaims : Prop :=
  ∀ s : State,
    (∀ (die : Fin 8) (fault : Bool) id p held, nextPage s die.val = some (id, p, held) → (tget [] s.ckpt.spool die.val).length < 992 →
      ∃ t, exec (.ladleLocalCopy die fault) s = .next (retryRun t) ∧ (∀ g, (getC t id).capture = some g → p ∉ g.todo) ∧
        (p < 0x80000000 → pageProtected (getC t id) p = false) ∧ (id, p) ∉ t.ckpt.heldPages) ∧
    (∀ (die : Fin 8) x xs, tget [] s.ckpt.spool die.val = x :: xs →
      ∃ t, exec (.ladleSlotTimeout die) s = .next t ∧ tget [] t.ckpt.spool die.val = xs ∧
        ∀ g, (getC s x.ctx).capture = some g → g.reason = 0 → (getC t x.ctx).capture = some { g with reason := 0x0804 }) ∧
    (∀ (die : Fin 8) x xs, tget [] s.ckpt.spool die.val = x :: xs → x.store = false →
      ∃ t, exec (.ckptStorageAck die false) s = .next t ∧ t.ctxs = s.ctxs ∧
        tget [] t.ckpt.spool die.val = (if x.buddy then xs else { x with store := true } :: xs)) ∧
    (∀ pages gen src step rest id, s.ckpt.restoreCands = (gen, src, step) :: rest → jobCtx s = some id →
      (∃ t, exec (.restorePullDone true pages) s = .next t ∧ rd t 0x801201 = 2 ∧ rd t 0x800101 = s.ckpt.restoreNext % 2 ^ 32 ∧
        t.ckpt.resumeGen = some gen ∧ t.ckpt.restoreCands = [] ∧ (getC t id).step = step ∧ (getC t id).coll = none ∧
        (∀ cl, cl < 4000 → (getW (getC t id) cl).run = .atStep false ∧ (getW (getC t id) cl).wait = none)) ∧
      (rest ≠ [] → ∃ t, exec (.restorePullDone false pages) s = .next t ∧ t.ckpt.restoreCands = rest ∧ t.ctxs = s.ctxs) ∧
      (rest = [] → ∃ t, exec (.restorePullDone false pages) s = .next t ∧ rd t 0x801201 = 3 ∧ t.ckpt.restoreCands = [] ∧ t.ctxs = s.ctxs)) ∧
    (rd s 0x802001 = 1 → ∃ t, exec .reclaimStepWaitExpiry s = .next t ∧ rd t 0x802001 = 2 ∧ t.ckpt.reclaimPartial = true ∧
      ∀ id, runningId s = some id → (getC s id).modState = .running → (getC t id).modState = .halting) ∧
    (rd s 0x802001 ∈ [1, 2] → unvoted s = none → ∃ t, exec .reclaimCutoff s = .next t ∧ rd t 0x802001 = 3 ∧
      t.pkg.notes = s.pkg.notes ++ [.reclaimCutoff] ∧ t.ckpt.buddy = BuddySlot.empty ∧ t.pkg.scrubbing = true ∧
      rd t 0x303000 = 0xFFFF ∧ rd t 0x303003 = 0 ∧ ∀ id, (getC s id).live = true → (getC t id).sessKey = none) ∧
    (s.ckpt.rgapFrom = none → exec .replaySegmentAck s = .next { s with ckpt := { s.ckpt with rout := s.ckpt.rout.drop 1 } }) ∧
    (∀ records last, s.ckpt.rplay = true → exec (.replayLogReadDone records last) s = .next (fetchInputs
      { s with ckpt := { s.ckpt with rin := s.ckpt.rin ++ logRecords s.ckpt.rin.length records, rinEnd := s.ckpt.rinEnd || last } } (replayCtx s)))

/-! ### Package and firmware -/

/-- The package's control events: ring breaks, steward events, quiesce fences, access tables, stack temperatures and retraining, the
rate samples, quotes and pins (R21 to R25, R155, R156, R321, R348, R351, R437). -/
def Obligations.PackageEventsTakeEffect : Prop :=
  ∀ s : State,
    (∀ (d : Die) (lane : Fin 2), s.pkg.breaks = [] → ∃ t, exec (.mgmtRingBreak d lane) s = .next t ∧ rd t 0x101100 = 1 ∧
      ∀ x, x < 40 → dieState t x = dieState s x) ∧
    (∀ (a b : Die), s.pkg.breaks = [(a.val, 0)] → b.val < 39 → ∃ t, exec (.mgmtRingBreak b 1) s = .next t ∧
      (a.val ≤ b.val → rd t 0x101100 = 2) ∧
      (∀ x, a.val ≤ x → x ≤ b.val → dieState t x = 5 ∧ (dieState s x ≠ 5 → x ∈ t.wen.resetHeld)) ∧
      (∀ x, x < 40 → x < a.val ∨ b.val < x → dieState t x = dieState s x)) ∧
    (∀ (d : Die) unit e rest, tget [] s.pkg.stew d.val = e :: rest → e.ev = none →
      ∃ t, exec (.stewardEvent d unit none) s = .next t ∧ tget [] t.pkg.stew d.val = rest ∧ t.ctxs = s.ctxs ∧
        t.pkg.faults.getLast? = some { e.frec with time := s.ptpNs, seq := rd s 0x100400 } ∧ t.pkg.faults.length ≤ 1024) ∧
    (∀ f rest, s.pkg.fences = f :: rest → let t := fenceEnds s
      (fenceClear s f = false → exec .quiesceFenceDone s = .next (retryRun s)) ∧
      (fenceClear s f = true → exec .quiesceFenceDone s = .next (retryRun t) ∧ t.pkg.fenceDone = s.pkg.fenceDone ++ [f] ∧
        (∀ e table, f = .routeCommit e table → e < 2 ^ 32 → t.pkg.fences = rest ∧ rd t 0x400200 = e ∧ t.ctxs = s.ctxs ∧
          ∀ k ∈ routeKeys, rd t k = tget 0 table k % 2 ^ 32) ∧
        (∀ id code, f = .haltCtx id code none → t.pkg.fences = rest ∧ (getC t id).modState = .halted code ∧ (getC t id).coll = none ∧
          (getC t id).vmem = (getC s id).vmem))) ∧
    (∀ u rest, s.pkg.accPend = u :: rest →
      (accWaits s u = true → exec .accessTableUpdateDone s = .next s) ∧
      (accWaits s u = false → ∃ t, exec .accessTableUpdateDone s = .next t ∧ t.pkg.accPend = rest ∧
        (∀ m ∈ accMasters u, tget 0 t.pkg.access m = withPart s m u.entry) ∧
        (∀ m, m ∉ accMasters u → tget 0 t.pkg.access m = tget 0 s.pkg.access m))) ∧
    (∀ (stack : Fin 16) (v : BitVec 16), rd s (0x300301 + stack.val) < 256 → ∃ t, exec (.stackTempReading stack v) s = .next t ∧ rd t (0x300201 + stack.val) = v.toNat ∧
      (1050 < v.toInt → rd t (0x300401 + stack.val) = 1 ∧ 4 ≤ rd t (0x300301 + stack.val)) ∧
      (v.toInt < 1000 → rd t (0x300401 + stack.val) = 0) ∧ (v.toInt ≤ 820 → rd t (0x300301 + stack.val) = 1) ∧
      (1000 ≤ v.toInt → v.toInt ≤ 1050 → rd t (0x300401 + stack.val) = rd s (0x300401 + stack.val))) ∧
    (∀ stack : Fin 16, ∃ t, exec (.stackRetrain stack) s = .next t ∧ t.ent = s.ent ∧
      tget 0 t.pkg.retrain stack.val = (tget 0 s.pkg.retrain stack.val + 1) % 16) ∧
    (s.ckpt.pred.length < 59 → ∃ t, exec .predRateSample s = .next t ∧ rd t 0x800501 = 0 ∧ t.ckpt.predLast = predCounts s ∧
      t.ckpt.pred.length = s.ckpt.pred.length + 1 ∧ t.ctxs = s.ctxs) ∧
    (∀ nonce rest, s.wen.quotePending = (none, nonce) :: rest → s.wen.idKeys = true → ∃ t, exec .quoteReady s = .next t ∧
      t.wen.quotePending = rest ∧ t.wen.quotesSigned = s.wen.quotesSigned + 1 ∧ t.wen.quoteO % 2 ^ 32 = 0x544F5551) ∧
    ((∀ ms, 100 ≤ ms → ms ≤ 5000 → s.wen.sealOk = true → exec (.presNRelease ms true) s = .next { s with wen := { s.wen with window := true, ownerEn := true } }) ∧
      (∀ ms held, ms < 100 ∨ 5000 < ms ∨ held = false ∨ s.wen.sealOk = false → exec (.presNRelease ms held) s = .next s) ∧
      exec .ownerEnRelease s = .next { s with wen := { s.wen with ownerEn := false, window := false } } ∧
      exec .presenceWindowExpiry s = .next { s with wen := { s.wen with window := false } }) ∧
    ((∀ ohms, ohms = none ∨ (∃ x, ohms = some x ∧ 100 < x) → ∃ t, exec (.sealReading ohms) s = .next t ∧ t.wen.sealOk = false ∧
        t.wen.window = false ∧ rd t 0x702001 = 1 ∧ rd t 0x20092A = 0xFFFFFFFF) ∧
      (∀ x, x ≤ 100 → ∃ t, exec (.sealReading (some x)) s = .next t ∧ t.wen.sealOk = true ∧ rd t 0x20092A = x ∧ rd t 0x702001 = rd s 0x702001))

/-- The Taster, firmware verification and the counter snapshot (R345, R346, R401 to R406, R410, R424). -/
def Obligations.TestsAndImagesTakeEffect : Prop :=
  ∀ (s : State) (d : Die),
    (∀ q rest, (getTaster s d.val).slice = none → (getTaster s d.val).last = none → (getTaster s d.val).reqs = q :: rest → q.kind ∈ [1, 2, 3, 4] →
      mayTaste s d.val (getTaster s d.val) q.kind q.unit = true →
      ∃ t, exec (.tasterSliceStart d) s = .next t ∧ ((getTaster t d.val).slice.map (fun x => (x.1, x.2.1))) = some (q.kind, q.unit) ∧
        q ∉ (getTaster t d.val).reqs ∧ (getTaster t d.val).last = some s.ptpNs ∧ rd t 0xA00400 = (rd s 0xA00400 + 1) % 2 ^ 64) ∧
    (∀ unit flags failing, (getTaster s d.val).slice = some (3, unit, flags) →
      exec (.sliceBistDone d true failing) s = .next (retryTeardown (startAll (setTaster s d.val { getTaster s d.val with slice := none })))) ∧
    (∀ unit flags failing, (getTaster s d.val).slice = some (4, unit, flags) → 28 ≤ d.val → d.val < 30 → unit < 32 →
      ∃ t, exec (.sliceBistDone d false failing) s = .next (retryTeardown t) ∧ rd t (0x601201 + columnHalf d.val unit) = 2 ∧ (getTaster t d.val).slice = none ∧
        rd t 0xA00401 = (rd s 0xA00401 + 1) % 2 ^ 32) ∧
    (∀ ms : BitVec 32, d.val ∈ s.pkg.full → ∃ t, exec (.fullTestDone d [] ms) s = .next t ∧ d.val ∉ t.pkg.full ∧
      rd t 0xA00900 = d.val + 2 * 256 + ms.toNat * 2 ^ 32 ∧ rd t 0xA00401 = rd s 0xA00401) ∧
    (∀ img type slot, s.wen.staged = some (type, slot) → type < 8 →
      (imageBad s type img = none → ∃ t, exec (.fwStageVerified img) s = .next t ∧ t.wen.staged = none ∧ type ∈ t.wen.stagedOk ∧
        getSlot t type slot = slotOf img true ∧ rd t 0x103001 = 2 + type * 256) ∧
      (∀ code, imageBad s type img = some code → ∃ t, exec (.fwStageVerified img) s = .next t ∧ t.wen.staged = none ∧
        t.wen.stagedOk = s.wen.stagedOk ∧ rd t 0x103001 = 3 + type * 256 + code * 65536)) ∧
    (∀ img, dieState s d.val = 3 → img.type ∉ [3, 4] → img.type ∈ dieTypes d.val → (getSlot s img.type (firstSlot s img.type)).valid = true →
      imageBad s img.type img = none → ∃ t, exec (.stagedImageBootDone d img) s = .next t ∧
        getSlot t img.type (firstSlot s img.type) = slotOf img true ∧ tget 0 t.wen.booted img.type = firstSlot s img.type + 1 ∧ t.ctxs = s.ctxs) ∧
    exec .counterSnapshot s = .next { s with wen := { s.wen with counters := recordKeys.map (counterVal s) } }

/-! ### Solver and plant streams -/

/-- A problem's stages: staged operands are solved, a read error ends it with STAGE_FAULT, T_exec leads to the write-back or, after a fault,
to a status without results; the write-back gives the ticket its status and frees the target; a fault takes its halves OFFLINE (R174, R186,
R187, Table 7.6). -/
def Obligations.SolverProblemsRunTheirStages : Prop :=
  ∀ (s : State) (h : Half),
    (∀ p x cycles fault rest, getQ s h.val = ⟨some (.stageIn, p), rest⟩ → p.fail = none →
      acceptDesc s (getC s p.ctx) p.kind h.val p.desc = .ok x →
      (∀ off, stageBad s (getC s p.ctx) p.desc x fault = some off → ∃ t p', exec (.solverStageInDone h cycles fault) s = .next t ∧
        getQ t h.val = ⟨some (.writeBack, p'), rest⟩ ∧ p'.status = 0x20 ∧ p'.sol = p.sol ∧ p'.by' = p.by') ∧
      (stageBad s (getC s p.ctx) p.desc x fault = none → ∃ t p', exec (.solverStageInDone h cycles fault) s = .next t ∧
        getQ t h.val = ⟨some (.execute, p'), rest⟩ ∧ p'.fail = none ∧ p'.by' = p.by' ∧
        p'.status = BitVec.ofNat 32 (solveRun s (getC s p.ctx) p.kind h.val p.desc x).status ∧
        p'.sol = (solveRun s (getC s p.ctx) p.kind h.val p.desc x).sol) ∧
      ((∃ r ∈ stagedRefs p.desc x, 0 < r.2) → ∃ off, stageBad s (getC s p.ctx) p.desc x true = some off)) ∧
    (∀ p rest, (getQ s (plantQ h.val)).running = none → getQ s h.val = ⟨some (.execute, p), rest⟩ →
      (p.fail = none → exec (.solverExecEnd h) s = .next (setQ s h.val ⟨some (.writeBack, p), rest⟩)) ∧
      (∀ code, p.fail = some code → ∃ t p', exec (.solverExecEnd h) s = .next t ∧ getQ t h.val = ⟨some (.writeBack, p'), rest⟩ ∧
        p'.status = BitVec.ofNat 32 code ∧ p'.sol = [] ∧ p'.warm = [])) ∧
    (∀ p n, (getQ s (plantQ h.val)).running = some (.execute, p) → p.by' = .plant n → p.fail = none → (tget Plant.off s.plants n).run = .running →
      ∃ t, exec (.solverExecEnd h) s = .next t ∧ getQ t (plantQ h.val) = SolverQ.empty ∧ (tget Plant.off t.plants n).run = .done p.status) ∧
    (∀ p id cl num cycles, getQ s h.val = ⟨some (.writeBack, p), []⟩ → p.by' = .ticket id cl num →
      (∀ g ∈ rangesPages (writeRanges (getC s p.ctx) p), pageWaits (getC s p.ctx) g = false) →
      ∃ t, exec (.solverWritebackDone h cycles) s = .next t ∧ getQ t h.val = SolverQ.empty ∧
        (getW (getC t id) cl).tickets = (getW (getC s id) cl).tickets.map (fun y => if y.num = num then { y with status := some p.status } else y)) ∧
    (∃ t, exec (.solverFault h false) s = .next t ∧ rd t (0x601201 + h.val) = 2 ∧ t.ctxs = s.ctxs ∧
      (∀ g, g < 4 → g ≠ h.val → rd t (0x601201 + g) = rd s (0x601201 + g))) ∧
    (∃ t, exec (.solverFault h true) s = .next t ∧ rd t (0x601201 + 2 * (h.val / 2)) = 2 ∧ rd t (0x601202 + 2 * (h.val / 2)) = 2 ∧ t.ctxs = s.ctxs)

/-- Plant-timed streams: ARM, RESUME and STOP by their states; a period starts, its window is latched into the MEAS range's channels, its slot
runs the problem, its deadline sends one datagram; late datagrams and measurements are counted; PTP_STATE follows the messages (R194, R197
to R203). -/
def Obligations.PlantPeriodsRunTheirEvents : Prop :=
  ∀ (s : State) (r : Req) (n : PlantNo), let k := 0xC01D00 + n.val
    (∀ d x, psState s n.val = 0 → armBad s n.val = none → plantDescAt s n.val = some d → plantDesc s n.val d = some x →
      slotBad s n.val (texec d 0 x) = none → (getStream s false (plantStream n.val)).gen < 0xFFFF →
      ∃ t, psState t n.val = 1 ∧ (getStream t false (plantStream n.val)).state = 1 ∧ (getP t n.val).desc = d ∧
        (getStream t false (plantStream n.val)).gen = (getStream s false (plantStream n.val)).gen + 1 ∧
        (getP t n.val).period = firstPeriod s n.val ∧ Takes (.psArm r n) s r k (natLe 1 1) t) ∧
    (psState s n.val ≠ 0 → Refuses (.psArm r n) s r k (natLe 1 1) 0x0C06) ∧
    (∀ code, psState s n.val = 0 → armBad s n.val = some code → Refuses (.psArm r n) s r k (natLe 1 1) code) ∧
    (psState s n.val = 3 → Takes (.psResume r n) s r k (natLe 1 2) (bumpSnap (setP s n.val { getP s n.val with resume := true }) k)) ∧
    (psState s n.val ≠ 3 → Refuses (.psResume r n) s r k (natLe 1 2) 0x0C06) ∧
    (psState s n.val = 1 → Takes (.psStop r n) s r k (natLe 1 3) (bumpSnap (psOff s n.val) k)) ∧
    (2 ≤ psState s n.val → Takes (.psStop r n) s r k (natLe 1 3) (bumpSnap (setP s n.val { getP s n.val with stop := true }) k)) ∧
    (psState s n.val = 0 → Refuses (.psStop r n) s r k (natLe 1 3) 0x0C06) ∧
    (psState s n.val = 1 → (getP s n.val).serving = false → ∃ t, exec (.plantPeriodStart n) s = .next t ∧ psState t n.val = 2 ∧
      (getP t n.val).period = (getP s n.val).period ∧ (getP t n.val).window = true ∧ (getP t n.val).serving = true ∧ (getP t n.val).run = .notRun) ∧
    (2 ≤ psState s n.val → (getP s n.val).serving = true → ∃ t, exec (.plantPeriodStart n) s = .next t ∧
      (getP t n.val).period = (getP s n.val).period + 1 ∧ (getP t n.val).run = .notRun ∧ (getP t n.val).samples = [] ∧
      (getP t n.val).window = !(getP s n.val).stop ∧
      psState t n.val = (if (getP s n.val).stop = false ∧ (getP s n.val).resume = true ∧ psState s n.val = 3 then 2 else psState s n.val)) ∧
    ((getP s n.val).window = true → replaying s (psCtx s n.val) = false → ∃ t, exec (.plantWinClose n) s = .next t ∧
      (getP t n.val).window = false ∧ (getP t n.val).closed = some (getP s n.val).period ∧ (getP t n.val).samples = [] ∧
      (getP t n.val).values = latchValues (getP s n.val) ∧ (getP t n.val).stale = latchStale (getP s n.val) (psChannels s n.val) ∧
      (getP t n.val).param = none) ∧
    (2 ≤ psState s n.val → (getP s n.val).serving = true → (getP s n.val).stopping = false → (getP s n.val).missing = false →
      (getQ s (plantQ (psHalf s n.val))).running = none → ∃ t p, exec (.plantSlot n) s = .next t ∧
        getQ t (plantQ (psHalf s n.val)) = ⟨some (.execute, p), []⟩ ∧ p.by' = .plant n.val ∧ p.desc = (getP s n.val).desc ∧
        (getP t n.val).run = .running ∧ t.ctxs = s.ctxs) ∧
    (2 ≤ psState s n.val → (getP s n.val).serving = true → replaying s (psCtx s n.val) = false → ∃ t d, exec (.plantDeadline n) s = .next t ∧
      t.eth.tx = s.eth.tx ++ [d] ∧ d.queue = 1 ∧ d.stream = plantStream n.val ∧ d.opcode = 0x8200 ∧
      d.seq = (getStream s false (plantStream n.val)).txNext ∧ field d.bytes 0 8 = (getP s n.val).period % 2 ^ 64 ∧
      ((getP s n.val).stopping = true → field d.bytes 16 1 = 2 ∧ field d.bytes 17 1 = 5 ∧ psState t n.val = 0) ∧
      ((getP s n.val).stopping = false → psState s n.val = 2 → rd s 0xC00100 ≠ 2 → ∀ w, (getP s n.val).run = .done w → w.toNat % 65536 = 0 →
        field d.bytes 16 1 = 0 ∧ psState t n.val = 2)) ∧
    (∀ q, (getP s n.val).queued = some q → ∃ t, exec (.psTxLate n) s = .next t ∧ (getP t n.val).queued = none ∧
      t.eth.tx = s.eth.tx.filter (fun d => !decide (d.queue = 1 ∧ d.stream = plantStream n.val ∧ d.seq = q)) ∧
      ((∃ d ∈ s.eth.tx, d.queue = 1 ∧ d.stream = plantStream n.val ∧ d.seq = q) →
        rd t (0xC02500 + n.val) = (rd s (0xC02500 + n.val) + 1) % 2 ^ 64) ∧
      ((∀ d ∈ s.eth.tx, ¬(d.queue = 1 ∧ d.stream = plantStream n.val ∧ d.seq = q)) → t.ent = s.ent)) ∧
    (∀ h ts count entries e, edUp s = true → (arrive s h).2 = true → h.mgmt = false → (getStream s false h.stream).kind = 2 →
      h.stream = plantStream n.val → h.flagsRes = 0 → plantSeq (getStream s false h.stream) h.seq = some e →
      replaying s (psCtx s n.val) = false → recording s (psCtx s n.val) = false →
      let u := setStream (arrive s h).1 false h.stream e
      let o := (measOutcome u n.val h ts.toNat count entries false).1
      (o = 0 → exec (.plantMeas h ts count entries false) s = .next (setP u n.val { getP u n.val with
        samples := entries.foldl (fun xs y => putSample xs ts.toNat h.seq y.1 y.2) (getP u n.val).samples })) ∧
      (o = 1 → exec (.plantMeas h ts count entries false) s = .next (incr u (0xC02200 + n.val) 1)) ∧
      (o = 2 → exec (.plantMeas h ts count entries false) s = .next (incr u (0xC02300 + n.val) 1)) ∧
      (o = 3 → exec (.plantMeas h ts count entries false) s = .next (incr u (0xC02400 + n.val) 1))) ∧
    (∀ time offset, ∃ t, exec (.ptpMessage time offset) s = .next t ∧ t.ptpNs = time ∧ uptime t = uptime s ∧
      (offset.toInt.natAbs ≤ 50 → rd t 0xC00100 = 0) ∧ (50 < offset.toInt.natAbs → rd s 0xC00100 = 0 → rd t 0xC00100 = 1)) ∧
    (rd s 0xC00100 = 0 → ∃ t, exec .ptpSyncMissed s = .next t ∧ rd t 0xC00100 = 1 ∧ t.plants = s.plants) ∧
    (rd s 0xC00100 = 1 → ∃ t, exec .ptpHoldoverExpiry s = .next t ∧ rd t 0xC00100 = 2 ∧ ∀ m, m < 256 → psState s m = 2 →
      psState t m = 3 ∧ (getP t m).enter = 4)

/-! ### Datagram commands -/

/-- A command that ends: RX_NEXT moves on by one, and exactly one COMPLETION leaves on the command's stream, with its status, DETAIL and data;
the log keeps it. -/
def Obligations.CommandsCompleteOnce : Prop :=
  ∀ (s : State) (h : DgHdr), Passes s h .nop → h.relay = none → recording s h.ctx = false → (∀ d ∈ s.eth.tx, d.relay = none) →
    ∃ t d, exec (.cmdNop h) s = .next t ∧ t.eth.tx = s.eth.tx ++ [d] ∧ d.opcode = 0x8000 ∧ d.stream = h.stream ∧ d.mgmt = h.mgmt ∧
      d.seq = (getStream s h.mgmt h.stream).txNext ∧ field d.bytes 0 4 = h.seq ∧ field d.bytes 8 2 = 0 ∧
      (getStream t h.mgmt h.stream).rxNext = h.seq + 1 ∧ (∃ l ∈ t.eth.log, l.seq = h.seq ∧ l.stream = h.stream ∧ l.dg = d) ∧
      t.ctxs = s.ctxs ∧ t.eth.busy = s.eth.busy

/-- The commands of a context's streams (Table 12.5): what each leaves where its conditions hold, at once or until its end is reported, and
what an opcode that no table assigns gets. -/
def Obligations.HostCommandsTakeEffect : Prop :=
  ∀ (s : State) (h : DgHdr), let u := taken s h
    let c := getC u h.ctx
    (Performs (.cmdNop h) s h .nop u 0 0 []) ∧
    (∀ a bs, moduleRuns c = false → c.modState ≠ .translating → a.bytes = some bs →
      loadCheck u bs (max 1 c.n) (areaCap u - (areaUse u - contextUse c)) = none → let m := moduleOf (parseContainer bs)
      ∃ t, (getC t h.ctx).modState = .translating ∧ (getC t h.ctx).mod = some m ∧ (getC t h.ctx).vmem = [] ∧
        (getC t h.ctx).mr4 = extendMr c.mr4 (natLe 64 m.digest) ∧ Begins (.load h a) s h (.load a) t) ∧
    (∀ a bs step, moduleRuns c = false → c.modState ≠ .translating → a.bytes = some bs →
      loadCheck u bs (max 1 c.n) (areaCap u - (areaUse u - contextUse c)) = some step → Performs (.load h a) s h (.load a) u 0x0509 step []) ∧
    (∀ b, let v := modC u h.ctx (fun c => { c with modState := .loaded })
      c.modState = .translating → ∀ i : Fin 4096, i.val = h.ctx → Runs v (isLoadOf h.ctx) b → exec (.translationDone i) u = .next (ended v b 0 0)) ∧
    (c.modState = .loaded → deviceState u ≠ 3 → (replayCtx u ≠ h.ctx ∨ rd u 0x900100 = 0) → runningId u = some h.ctx → resumes u h.ctx = false →
      (∀ a n, runWaits u h.ctx = some (a, n) → Begins (.run h) s h .run
        (holdRange { u with ckpt := { u.ckpt with rplay := u.ckpt.rplay && decide (replayCtx u ≠ h.ctx) } } h.ctx a n)) ∧
      (runWaits u h.ctx = none → ∃ t, (getC t h.ctx).modState = .running ∧ (getC t h.ctx).step = 0 ∧ (∀ cl, cl < 4000 → (getW (getC t h.ctx) cl).run = .running ∧
        (getW (getC t h.ctx) cl).pc = 0 ∧ (getW (getC t h.ctx) cl).vl = 4096) ∧ Performs (.run h) s h .run t 0 0 [])) ∧
    (deviceState u = 3 → c.modState = .loaded → Performs (.run h) s h .run u 0x0A06 0 []) ∧
    (moduleRuns c = false → Performs (.haltAtStepPoint h 0) s h (.halt 0 0) u 0 0 [] ∧ Performs (.haltAtOnce h 0) s h (.halt 1 0) u 0 0 []) ∧
    (c.modState = .running → Begins (.haltAtStepPoint h 0) s h (.halt 0 0) (modC u h.ctx (fun c => { c with haltStream := some h.stream })) ∧
      ∃ t code, (getC t h.ctx).modState = .halting ∧ t.pkg.fences = u.pkg.fences ++ [.haltCtx h.ctx code (some h.stream)] ∧
        Begins (.haltAtOnce h 0) s h (.halt 1 0) t) ∧
    (∀ a d x, declOf c a.decl [1] = some d → tensorOf c d.tensor = some x → a.offset + a.data.length ≤ tensorBytes x →
      (c.step < a.step → (∀ y ∈ c.shadows, y.decl ≠ a.decl) →
        Performs (.input h a) s h (.input a) (setC u h.ctx { c with shadows := c.shadows ++ [⟨a.decl, a.step, a.last, wrBytes [] a.offset a.data⟩] }) 0 0 []) ∧
      (a.step < c.step → Performs (.input h a) s h (.input a) u 0x0507 0 []) ∧
      (c.step < a.step → (∀ y ∈ c.shadows, y.step ≠ a.step) → 2 ≤ (c.shadows.filter (fun y => decide (y.decl = a.decl))).length →
        Performs (.input h a) s h (.input a) u 0x0510 0 [])) ∧
    (∀ decl step d o, declOf c decl [2] = some d → c.outs.find? (fun o => decide (o.decl = decl ∧ o.step = step)) = some o →
      (getStream u false d.id).state ≠ 0 → (getStream u false d.id).ctx = h.ctx →
      Performs (.outputResend h decl 0 step) s h (.outputResend decl 0 step) (sendOutput u d.id decl step o.bytes) 0 0 []) ∧
    (∀ decl step d, declOf c decl [2] = some d → c.outs.find? (fun o => decide (o.decl = decl ∧ o.step = step)) = none →
      Performs (.outputResend h decl 0 step) s h (.outputResend decl 0 step) u 0x0508 0 []) ∧
    (∀ a x, l2Tensor c a.tensor = some x → a.offset + a.length ≤ tensorBytes x → c.regs.length < 4096 → (usedKeys u).length < 2 ^ 32 →
      ∃ t key, key ∉ usedKeys u ∧ (getC t h.ctx).regs = c.regs ++ [⟨key, a.tensor, a.rights, a.offset, a.length, false⟩] ∧
        Performs (.regMem h a) s h (.regMem a) t 0 key []) ∧
    (∀ key g, c.regs.find? (fun g => decide (g.rKey = key)) = some g →
      (g.busy = false → Performs (.deregMem h key 0) s h (.deregMem key 0)
        (modC u h.ctx (fun c => { c with regs := c.regs.filter (fun g => decide (g.rKey ≠ key)) })) 0 0 []) ∧
      (g.busy = true → Performs (.deregMem h key 0) s h (.deregMem key 0) u 0x0511 4 [])) ∧
    (∀ a x, l2Tensor c a.tensor = some x → a.local' + a.length ≤ tensorBytes x →
      (a.op = 0 → engineAdmits u h.ctx 0 = true → rangeBad c (tensorBase c 0 a.tensor + a.local') a.length = false →
        Begins (.bulk h a) s h (.bulk a) (sendRoce u h.ctx (tensorRead c 0 a.tensor a.local' a.length))) ∧
      (a.op = 1 → Begins (.bulk h a) s h (.bulk a) u)) ∧
    (∀ stream b a syndrome data, Runs u (isBulkOn stream) b → b.cmd = .bulk a →
      (syndrome ≠ 0 → exec (.bulkDone stream syndrome data) u = .next (ended u b 0x050A syndrome)) ∧
      (a.op = 0 → exec (.bulkDone stream 0 data) u = .next (ended u b 0 0))) ∧
    (∀ q, let x := dictServe u (.tenant h.ctx) q (recEffect (.tenant h.ctx) q)
      x.1.eth.held = [] →
      Performs (.entryRead h q) s h (.entryRead q) x.1 (if x.2.result = 0 then 0 else 0x050C) x.2.result (replyBytes x.2) ∧
      Performs (.entryWrite h q) s h (.entryWrite q) x.1 (if x.2.result = 0 then 0 else 0x050C) x.2.result (replyBytes x.2)) ∧
    (∀ q, let x := dictServe u (mgmtPath h) q (recEffect (mgmtPath h) q)
      x.1.eth.held = [] →
      Performs (.mgmtEntryRead h q) s h (.mgmtRead q) x.1 (if x.2.result = 0 then 0 else 0x050C) x.2.result (replyBytes x.2) ∧
      Performs (.mgmtEntryWrite h q) s h (.mgmtWrite q) x.1 (if x.2.result = 0 then 0 else 0x050C) x.2.result (replyBytes x.2)) ∧
    (∀ a : OpenArgs, a.table = 0 → 1 ≤ a.credit → a.credit ≤ 64 → a.count = 1 → a.firstId < 0xFFF00 → (getC u a.ctx).live = true →
      (getStream u false a.firstId).state = 0 → (getStream u false a.firstId).gen < 0xFFFF →
      ∃ t, getStream t false a.firstId = ⟨1, 1, a.ctx, (getStream u false a.firstId).gen + 1, a.credit, 0, 0, a.peer, a.peerPort, []⟩ ∧ t.ctxs = u.ctxs ∧
        Performs (.streamOpen h a) s h (.streamOpen a) t 0 ((getStream u false a.firstId).gen + 1) []) ∧
    (∀ a : OpenArgs, a.table = 0 → 1 ≤ a.credit → a.credit ≤ 64 → a.count = 1 → a.firstId < 0xFFF00 → (getC u a.ctx).live = true →
      (getStream u false a.firstId).state ≠ 0 → Performs (.streamOpen h a) s h (.streamOpen a) u 0x050E 0 []) ∧
    (∀ a : CloseArgs, a.table = 0 → a.count = 1 → a.firstId < 0xFFF00 → (getStream u false a.firstId).state ≠ 0 → u.eth.busy = [] →
      ∃ t, (getStream t false a.firstId).state = 0 ∧ (getStream t false a.firstId).gen = (getStream u false a.firstId).gen ∧ t.ctxs = u.ctxs ∧
        Performs (.streamClose h a) s h (.streamClose a) t 0 0 []) ∧
    (∀ op, InOrder s h → reservedBad h (.unassigned op) = false → recording s h.ctx = false →
      exec (.unassignedOpcode h op) s = .next (answered u h 0x0502 0 []))

/-! ### Contexts -/

/-- The context commands (R168, R354 to R358, R363 to R365): what each leaves where its conditions hold, and the status that refuses it. -/
def Obligations.ContextCommandsTakeEffect : Prop :=
  ∀ (s : State) (h : DgHdr) (id : Nat), let u := taken s h
    let c := getC u id
    (∀ code, (u.pkg.scrubbing = true ∧ code = 0x070D) ∨ (u.pkg.scrubbing = false ∧ u.wen.debug = true ∧ code = 0x070E) ∨
      (u.pkg.scrubbing = false ∧ u.wen.debug = false ∧ deviceState u = 3 ∧ code = 0x0A06) ∨
      (u.pkg.scrubbing = false ∧ u.wen.debug = false ∧ deviceState u ≠ 3 ∧ c.live = true ∧ code = 0x0701) →
      Performs (.create h id 0) s h (.context id 0 .create) u code 0 []) ∧
    (u.pkg.scrubbing = false → u.wen.debug = false → deviceState u ≠ 3 → c.live = false → (liveIds u).length < 4096 →
      let r := drawNat u
      let v := { r.2 with pkg := { r.2.pkg with serials := u.pkg.serials + 1 } }
      Performs (.create h id 0) s h (.context id 0 .create)
        (incr (setC v id { Context.dead with live := true, serial := u.pkg.serials + 1, memKey := some (r.1 % 2 ^ 512) }) 0x703000 1) 0 0 []) ∧
    (c.live = false → Performs (.teardown h id 0) s h (.context id 0 .teardown) u 0x0702 0 [] ∧
      Performs (.schedule h id 0) s h (.context id 0 .schedule) u 0x0702 0 [] ∧
      (∀ n, Performs (.unbind h id 0 n) s h (.context id 0 (.unbind n)) u 0x0702 0 [])) ∧
    (c.live = true →
      (∀ k, c.sessKey = none → Performs (.sessionKey h id 0 (some k)) s h (.context id 0 (.sessionKey (some k))) (setC u id { c with sessKey := some k }) 0 0 []) ∧
      (c.sessKey = none → Performs (.sessionKey h id 0 none) s h (.context id 0 (.sessionKey none)) u 0x0705 0 []) ∧
      (∀ n rank ids, moduleRuns c = false → 1 ≤ n → n ≤ 65536 → rank < n →
        Performs (.members h id 0 n rank ids) s h (.context id 0 (.members n rank ids)) (setC u id { c with n := n, rank := rank, ids := ids }) 0 0 []) ∧
      (∀ n rank ids, moduleRuns c = true → Performs (.members h id 0 n rank ids) s h (.context id 0 (.members n rank ids)) u 0x0704 0 []) ∧
      (∀ num kind die half, let b : Binding := ⟨num, kind, die, half⟩
        num < 8 → ((kind = 0 ∧ die < 2 ∧ half < 2 ∧ rd u (0x601001 + die) ≠ 1) ∨ (kind = 1 ∧ die < 2 ∧ half = 0 ∧ rd u (0x601001 + die) = 1) ∨
          (kind = 2 ∧ die = 0 ∧ half = 0 ∧ rd u 0x601001 = 1 ∧ rd u 0x601002 = 1)) →
        (∀ x ∈ c.binds, x.num ≠ num) →
        ((∃ x ∈ bindHalves b, x ∈ boundHalves u) →
          Performs (.bind h id 0 num kind die half) s h (.context id 0 (.bind num kind die half)) u 0x0601 0 []) ∧
        ((∀ x ∈ bindHalves b, x ∉ boundHalves u) → targetOffline u kind (bindFirst b) = false →
          Performs (.bind h id 0 num kind die half) s h (.context id 0 (.bind num kind die half)) (setC u id { c with binds := c.binds ++ [b] }) 0 0 [])) ∧
      (∀ num b, num < 8 → c.binds.find? (fun x => decide (x.num = num)) = some b →
        ((∃ x ∈ bindHalves b, halfBusy u x = true) → Performs (.unbind h id 0 num) s h (.context id 0 (.unbind num)) u 0x0602 0 []) ∧
        ((∀ x ∈ bindHalves b, halfBusy u x = false ∧ plantOn u x = false) → Performs (.unbind h id 0 num) s h (.context id 0 (.unbind num))
          (clearResident (setC u id { c with binds := c.binds.filter (fun x => decide (x.num ≠ num)) }) b.kind (bindFirst b)) 0 0 [])) ∧
      (u.pkg.scrubbing = false → deviceState u ≠ 3 → u.pkg.switchTo = none →
        (runningId u = some id → Performs (.schedule h id 0) s h (.context id 0 .schedule) u 0 0 []) ∧
        (∀ phase, (runningId u = none ∧ phase = 1) ∨ (∃ r, runningId u = some r ∧ r ≠ id ∧ phase = bit (!isRunning (getC u r))) →
          Begins (.schedule h id 0) s h (.context id 0 .schedule) { u with pkg := { u.pkg with switchTo := some (id, phase) } })) ∧
      (∀ src dst off a b, let hdr := tensorRead c 0 src off 128
        tensorOf c src = some a → tensorOf c dst = some b → a.level = 2 → b.level = 2 →
        field hdr 0 4 = 0x444E4257 → field hdr 4 2 = 1 → 1 ≤ field hdr 0x10 4 → field hdr 0x10 4 ≤ 65536 →
        off + 128 + 520 * field hdr 0x10 4 + bundleLength hdr + 16 ≤ tensorBytes a → bundleLength hdr ≤ tensorBytes b → u.pkg.bundle = none →
        Begins (.bundleOpen h id 0 src dst off) s h (.context id 0 (.bundleOpen src dst off)) { u with pkg := { u.pkg with bundle := some (id, src, dst, off) } }) ∧
      (sliceHoldsCtx u id = true → Begins (.teardown h id 0) s h (.context id 0 .teardown) u) ∧
      (sliceHoldsCtx u id = false → ∃ t, getC t id = Context.dead ∧ Performs (.teardown h id 0) s h (.context id 0 .teardown) t 0 0 [])) ∧
    (u.pkg.scrubbing = false → ((liveIds u).any (fun i => moduleRuns (getC u i)) = false → ∃ t, t.pkg.scrubbing = true ∧ rd t 0x800102 = 0 ∧ t.wen.ckptKey = 0 ∧
        t.pkg.loanKey = none ∧ (∀ i ∈ liveIds u, (getC t i).memKey = none ∧ (getC t i).sessKey = none) ∧ t.eth = u.eth ∧ Begins (.scrub h 0) s h (.context 0 0 .scrub) t) ∧
      ((liveIds u).any (fun i => moduleRuns (getC u i)) = true → Performs (.scrub h 0) s h (.context 0 0 .scrub) u 0x0704 0 [])) ∧
    (∀ p units, p < 16 → (∀ m ∈ units, unitExists m = true) →
      ((∀ m ∈ units, unitBusy u m = false) →
        Performs (.partition h 0 p units) s h (.context 0 0 (.partition p units)) (units.foldl (fun s m => moveUnit s p m) u) 0 0 []) ∧
      ((∃ m ∈ units, unitBusy u m = true) → Performs (.partition h 0 p units) s h (.context 0 0 (.partition p units)) u 0x070C 0 []))

/-- The ends of a context switch (R357), a bundle's decryption (R363) and a scrub (R365): the state they leave, and their commands complete. -/
def Obligations.ContextChangesEnd : Prop :=
  ∀ (s : State) (id : Nat) (b : BusyCmd), id < 4096 →
    (s.pkg.switchTo = some (id, 1) → (getC s id).live = true → let t := applySwitch s id
      t.pkg.switchTo = none ∧ runningId t = some id ∧ (getC t id).modState = (if (getC s id).modState = .paused then .running else (getC s id).modState) ∧
      (∀ j, j ≠ id → getC t j = getC s j) ∧
      (Runs t (isScheduleOf id) b → ((getC s id).modState = .paused → t.eth.busy.find? (isRunOf id) = none) →
        exec .contextSwitchDone s = .next (ended t b 0 0))) ∧
    (∀ src dst off ok1 ok2 ok3 plain, s.pkg.bundle = some (id, src, dst, off) → (getC s id).live = true →
      let r := bundleEnd s id src dst off ok1 ok2 ok3 plain
      let c := getC s id
      let hdr := tensorRead c 0 src off 128
      r.1.pkg.bundle = none ∧
      r.2 = (if ok1 = false then 0x0706 else if ok2 = false then 0x0705 else if ok3 = false then 0x0707 else 0) ∧
      (ok1 = false ∨ ok2 = false → getC r.1 id = c) ∧
      (ok1 = true → ok2 = true → let d := getC r.1 id
        let a := tensorBase c 0 dst
        let bs := bundleBytes c src dst off ok3 plain
        d.mr4 = (if ok3 = true then extendMr c.mr4 ((hdr.drop 8).take 8 ++ sha512Bytes hdr) else c.mr4) ∧
        (∀ q, rdByte d.vmem q = if a ≤ q ∧ q < a + bs.length then bs.getD (q - a) 0 else rdByte c.vmem q) ∧
        ∀ j, j ≠ id → getC r.1 j = getC s j) ∧
      (∀ a n, bundleWaits c src dst off (ok1 && ok2) ok3 plain = some (a, n) →
        exec (.bundleDecryptDone ok1 ok2 ok3 plain) s = .next (holdRange s id a n)) ∧
      (bundleWaits c src dst off (ok1 && ok2) ok3 plain = none → Runs r.1 isBundle b →
        exec (.bundleDecryptDone ok1 ok2 ok3 plain) s = .next (ended r.1 b r.2 0))) ∧
    (∀ us : BitVec 32, s.pkg.scrubbing = true → let t := scrubEnd s us.toNat
      (s.ckpt.reclaimCut = false → t.pkg.scrubbing = false ∧ rd t 0x704000 = 5 ∧ rd t 0x704001 = us.toNat ∧ t.fab.sieves = [] ∧ t.fab.held = [] ∧
        t.fab.rlc = [] ∧ t.pkg.pantry = [] ∧ t.fab.loanMem = [] ∧ t.solv.resident = [] ∧ t.ckpt.spool = [] ∧ t.ckpt.buddy = BuddySlot.empty ∧ t.eth.streams = [] ∧ rd t 0x501001 = 0) ∧
      (t.eth.busy.find? isScrub = none → exec (.scrubComplete us) s = .next t) ∧
      (Runs t isScrub b → exec (.scrubComplete us) s = .next (ended t b 0 0)))

/-! ### The port and the dictionary -/

/-- Frames beside the datagrams (R286, R287, R298, R301): what the port answers, what a registered range gives and takes, and what is
discarded. -/
def Obligations.PortFramesTakeEffect : Prop :=
  ∀ s : State,
    (edUp s = true → s.pkg.scrubbing = true → ∀ i, (i = .ethFrameDiscard ∨ (∃ q, i = .roceAtomic q) ∨ (∃ q, i = .roceCnp q) ∨ (∃ a, i = .arpRequest a) ∨
      (∃ a, i = .neighbourSolicit a) ∨ (∃ v a n, i = .icmpEcho v a n) ∨ (∃ k w o n bs, i = .roceRequest k w o n bs)) →
      exec i s = .next (incr s 0x102206 1)) ∧
    (edUp s = true → s.pkg.scrubbing = false →
      exec .ethFrameDiscard s = .next s ∧
      (∀ q, exec (.roceAtomic q) s = .next (portAnswer s 4 0x61)) ∧
      (∀ q, 0 < tget (2 ^ 32) s.eth.qpRate q → ∃ t, exec (.roceCnp q) s = .next t ∧ tget (2 ^ 32) t.eth.qpRate q < tget (2 ^ 32) s.eth.qpRate q ∧
        (∀ j, j ≠ q → tget (2 ^ 32) t.eth.qpRate j = tget (2 ^ 32) s.eth.qpRate j)) ∧
      (∀ a : BitVec 32, (ownIp4 s ≠ 0 → a.toNat = ownIp4 s → exec (.arpRequest a) s = .next (portAnswer s 1 a.toNat)) ∧
        (a.toNat ≠ ownIp4 s → exec (.arpRequest a) s = .next s)) ∧
      (∀ a : BitVec 128, (a.toNat = linkLocal s ∨ (ownIp6 s ≠ 0 ∧ a.toNat = ownIp6 s) → exec (.neighbourSolicit a) s = .next (portAnswer s 2 a.toNat) ∧
          ∀ n, exec (.icmpEcho true a n) s = .next (portAnswer s 3 n)) ∧
        (a.toNat ≠ linkLocal s → a.toNat ≠ ownIp6 s → exec (.neighbourSolicit a) s = .next s ∧ ∀ n, exec (.icmpEcho true a n) s = .next s)) ∧
      (∀ (a : BitVec 128) n, (ownIp4 s ≠ 0 → a.toNat = ownIp4 s → exec (.icmpEcho false a n) s = .next (portAnswer s 3 n)) ∧
        (a.toNat ≠ ownIp4 s → exec (.icmpEcho false a n) s = .next s)) ∧
      (∀ k w o n bs, findReg s k = none → exec (.roceRequest k w o n bs) s = .next (portAnswer s 4 0x62)) ∧
      (∀ k o n bs id r, findReg s k = some (id, r) → let c := getC s id
        let a := tensorBase c 0 r.tensor + r.offset + o
        (o + bs.length ≤ r.length → r.rights / 2 % 2 = 1 → moduleRuns c = false → engineAdmits s id 1 = true → rangeHeld c a bs.length = false →
          ∃ t, exec (.roceRequest k true o n bs) s = .next t ∧ t.eth.answers = s.eth.answers ++ [(5, k)] ∧
            (∀ q, rdByte (getC t id).vmem q = if a ≤ q ∧ q < a + bs.length then bs.getD (q - a) 0 else rdByte c.vmem q) ∧
            ∀ j, j ≠ id → getC t j = getC s j) ∧
        (r.length < o + bs.length ∨ r.rights / 2 % 2 = 0 ∨ moduleRuns c = true → exec (.roceRequest k true o n bs) s = .next (portAnswer s 4 0x62)) ∧
        (o + n ≤ r.length → r.rights % 2 = 1 → engineAdmits s id 0 = true → rangeBad c a n = false →
          exec (.roceRequest k false o n bs) s = .next (sendRoce s id (tensorRead c 0 r.tensor (r.offset + o) n))) ∧
        (r.length < o + n ∨ r.rights % 2 = 0 → exec (.roceRequest k false o n bs) s = .next (portAnswer s 4 0x62)))) ∧
    (∀ up, ∃ t, exec (.ethLinkChange up) s = .next t ∧ rd t 0x102001 = bit up) ∧
    (∀ p q, edUp s = true → (p.val = rd s 0x102104 → ∃ t, exec (.pfcPause p q) s = .next t ∧ t.eth.pfcPaused = decide (q ≠ 0) ∧
        t.eth.pfcUntil = s.ptpNs + cdiv (q.toNat * 32) 100) ∧
      (p.val ≠ rd s 0x102104 → exec (.pfcPause p q) s = .next s))

/-- Requests to the dictionary (R373 to R384): a request that passes its checks reads, writes, extends a segmented write, describes or
finds the next entry, and is answered; one that fails a check changes nothing but the two counts; CAN FD frames, segments, relayed
datagrams and relayed replies. -/
def Obligations.DictionaryServesRequests : Prop :=
  ∀ (s : State) (p : Path) (r : DRec), r.size = recLen r →
    let tenant := (pathCtx p).isSome
    let id := targetCtx p r
    let k := recKey r
    (∀ e, entryOf k = some e →
      let reply := fun (t : State) (bs : List Byte) =>
        sendReply (incr t 0x100900 1) p (replyBytes ⟨0, typeCode e.type, typeSize e.type, r.offset, snapOf t tenant id k, bs⟩)
      let deny := fun (t : State) (code : Nat) =>
        sendReply (incr (incr t 0x100900 1) 0x100901 1) p (replyBytes ⟨code, 0, typeSize e.type, r.offset, snapOf t tenant id k, []⟩)
      (∀ code, code ≠ 0 → checkHead p r = some code ∨
          (checkHead p r = none ∧ deviceState s ≠ 5 ∧ r.op ≠ 4 ∧ checkEntry s p r e = some code) →
        ∀ i, i = .dictRead p r ∨ i = .dictWrite p r ∨ i = .dictWriteSegment p r ∨ i = .dictDescribe p r ∨ i = .dictNext p r → exec i s = .next (deny s code)) ∧
      (checkHead p r = none → deviceState s ≠ 5 → checkEntry s p r e = none →
        (r.op = 1 → exec (.dictRead p r) s = .next (reply s
          (((if tenant = true then tenantView k (entryBytes s tenant id k (typeSize e.type)) else entryBytes s tenant id k (typeSize e.type)).drop r.offset).take r.length))) ∧
        (r.op = 3 → exec (.dictDescribe p r) s = .next (reply s (describeBytes e))) ∧
        (r.op = 2 → recFlag r 1 = false → ∀ t, recEffect p r s (padTo r.length r.value) = .ok t →
          exec (.dictWrite p r) s = .next (reply (afterWrite t r e (padTo r.length r.value)) [])) ∧
        (r.op = 2 → recFlag r 1 = false → ∀ code, code ≠ 0 → recEffect p r s (padTo r.length r.value) = .error code → exec (.dictWrite p r) s = .next (deny s code)) ∧
        (r.op = 2 → recFlag r 1 = true → recFlag r 2 = false → r.length ≠ 0 → r.length ≤ segmentMax p r → r.offset + r.length ≤ 67108864 →
          (s.wen.seg = none → r.offset = 0 → exec (.dictWriteSegment p r) s =
            .next (reply { s with wen := { s.wen with seg := some ⟨p, r.index, r.sub, padTo r.length r.value⟩ } } [])) ∧
          (∀ bs, s.wen.seg = some ⟨p, r.index, r.sub, bs⟩ → r.offset = bs.length → exec (.dictWriteSegment p r) s =
            .next (reply { s with wen := { s.wen with seg := some ⟨p, r.index, r.sub, bs ++ padTo r.length r.value⟩ } } []))) ∧
        (r.op = 2 → recFlag r 1 = true → recFlag r 2 = true → r.length ≠ 0 → r.length ≤ segmentMax p r → r.offset + r.length ≤ 67108864 →
          ∀ bs t, s.wen.seg = some ⟨p, r.index, r.sub, bs⟩ → r.offset = bs.length →
          recEffect p r { s with wen := { s.wen with seg := none } } (bs ++ padTo r.length r.value) = .ok t →
          exec (.dictWriteSegment p r) s = .next (reply (afterWrite t r e (bs ++ padTo r.length r.value)) [])))) ∧
    (checkHead p r = none → deviceState s ≠ 5 → r.op = 4 → ∀ q e, nextEntry s p (rankOfReq s p r) k = some (q, e) →
      exec (.dictNext p r) s = .next (sendReply (incr s 0x100900 1) p (replyBytes ⟨0, typeCode e.type, typeSize e.type, r.offset, snapOf s tenant id q,
        natLe 2 (q / 256) ++ natLe 1 (q % 256) ++ natLe 1 0 ++ describeBytes e⟩)))

/-- The transports that carry requests (R378, R383, R384): a segmented write without LAST is dropped, CAN FD frames build a request in
order, a relayed command has the command's own effect, and a relayed reply stands in its slot. -/
def Obligations.TransportsCarryRequests : Prop :=
  ∀ s : State,
    (exec .segmentTimeout s = .next { s with wen := { s.wen with seg := none } }) ∧
    (∀ ident first last counter bytes, ident ≠ 0x640 + rd s 0x100700 → exec (.canFrame ident first last counter bytes) s = .next s) ∧
    (∀ first last counter bytes,
      (first = true ∧ counter.val ≠ 0) ∨ (first = false ∧ s.wen.can = none) ∨ (first = false ∧ ∃ n bs, s.wen.can = some (n, bs) ∧ counter.val ≠ n) →
      exec (.canFrame (0x640 + rd s 0x100700) first last counter bytes) s = .next (incr s 0x100701 1)) ∧
    (∀ bytes, s.wen.can = none → exec (.canFrame (0x640 + rd s 0x100700) true false 0 bytes) s =
      .next { s with wen := { s.wen with can := some (1, padTo 63 bytes) } }) ∧
    (∀ bytes bs n (counter : Fin 64), s.wen.can = some (n, bs) → counter.val = n → exec (.canFrame (0x640 + rd s 0x100700) false false counter bytes) s =
      .next { s with wen := { s.wen with can := some ((n + 1) % 64, bs ++ padTo 63 bytes) } }) ∧
    (∀ bytes bs n (counter : Fin 64), s.wen.can = some (n, bs) → counter.val = n →
      let all := bs ++ padTo 63 bytes
      let r := parseRec all (all.length / 63) (decide ((drawNat s).1 % 2 = 1))
      exec (.canFrame (0x640 + rd s 0x100700) false true counter bytes) s =
        .next (dictRequest { (drawNat s).2 with wen := { s.wen with can := none } } .can r (recEffect .can r))) ∧
    (s.wen.can ≠ none → exec .canGapTimeout s = .next (incr { s with wen := { s.wen with can := none } } 0x100701 1)) ∧
    (s.wen.can = none → exec .canGapTimeout s = .next s) ∧
    (∀ h c, h.relay = none → exec (.relayDatagram h c) s = .next s) ∧
    (∀ h c t st d x, h.relay.isSome = true → performCmd (taken s h) h c = (t, some (st, d, x)) → t.eth.held = [] →
      Performs (.relayDatagram h c) s h c t st d x) ∧
    (∀ src tag bytes, ∃ t, exec (.relayReply src tag bytes) s = .next t ∧
      rd t (0x106001 + tag.val) = leNat (padTo 8232 (natLe 2 src.toNat ++ natLe 2 0 ++ natLe 4 bytes.length ++ bytes)))

/-! ### Power, clocks and bring-up -/

/-- What the input, the rails, temperatures, PLLs, RST_N and the watchdog do (R370, R371, R388, R389, R415, R419, R422 to R425, R440, R449): what is
held, which record is captured, which cold start follows and with which RESET_CAUSE. -/
def Obligations.PowerEventsHoldAndRestart : Prop :=
  ∀ s : State,
    (∀ mv : BitVec 32, s.wen.powered = true → exec (.v52Valid mv) s = .next (wr { s with wen := { s.wen with powered := true } } 0x200200 mv.toNat)) ∧
    (∀ mv : BitVec 32, s.wen.powered = false → ∃ t, exec (.v52Valid mv) s = .next t ∧ t.wen.powered = true ∧ t.ctxs = [] ∧ rd t 0x200600 = 1 ∧ rd t 0x100301 = 0) ∧
    (s.wen.powered = true → s.wen.heldSag = false → s.wen.guar = [] →
      (∀ mv : BitVec 32, ∃ t, exec (.supplySag mv) s = .next t ∧ t.wen.guar = [.save] ∧ t.ctxs = [] ∧ t.plants = [] ∧
        (s.wen.marker = none → 2 < rd s 0x200600 → ∃ b, t.wen.saving = some b ∧ b.cause = 4 ∧ b.time = s.ptpNs ∧ (b.faults.getLast?).map (·.code) = some 0x0203) ∧
        (s.wen.marker.isSome = true ∨ rd s 0x200600 ≤ 2 → t.wen.saving = none)) ∧
      (deviceState s ≠ 4 → ∃ t, exec .powerFault s = .next t ∧ t.wen.guar = [.powerDown] ∧ t.ctxs = [] ∧
        (s.wen.marker = none → ∃ b, t.wen.saving = some b ∧ b.cause = 3 ∧ (b.faults.getLast?).map (·.code) = some 0x0206)) ∧
      (∀ d (v : BitVec 16), deviceState s ≠ 4 → tget 0 s.pkg.tripped d.val = 1 → (10 * tripLimit d.val : Int) < toSigned 16 v.toNat →
        ∃ t, exec (.dieTempReading d v) s = .next t ∧ t.wen.guar = [.powerDown] ∧ t.pkg.waitCool = true ∧ t.ctxs = [])) ∧
    (∀ d (v : BitVec 16), s.pkg.waitCool = false → toSigned 16 v.toNat ≤ 10 * tripLimit d.val → ∃ t, exec (.dieTempReading d v) s = .next t ∧
      rd t (0x200701 + d.val) = v.toNat ∧ tget 0 t.pkg.tripped d.val = 0 ∧ t.wen = s.wen ∧ t.ctxs = s.ctxs ∧ t.pkg.faults = s.pkg.faults) ∧
    (∀ b, s.wen.saving = some b → b.valid = true →
      (s.wen.guar = [.save] → ∃ t, exec .brownoutSaveDone s = .next t ∧ newestBrown t = some b ∧ t.wen.saving = none ∧ t.wen.guar = [] ∧
        t.wen.heldSag = true ∧ deviceState t = 4) ∧
      (s.wen.guar = [.powerDown] → ∃ t, exec .brownoutSaveDone s = .next t ∧ newestBrown t = some b ∧ t.wen.guar = [] ∧ deviceState t = 4) ∧
      (∀ c, c < 256 → s.wen.guar = [.coldReset c] → s.wen.rstLow = false → s.pkg.waitCool = false → ∃ t, exec .brownoutSaveDone s = .next t ∧ t.ctxs = [] ∧
        rd t 0x200600 = 2 ∧ rd t 0x100301 = c) ∧
      (∀ c, c < 256 → s.wen.guar = [.warmReset c] → s.wen.rstLow = false → ∃ t, exec .brownoutSaveDone s = .next t ∧ t.ctxs = [] ∧ rd t 0x200600 = 3 ∧
        rd t 0x100301 = c ∧ t.wen.warm = true)) ∧
    (s.wen.heldSag = true → exec (.heldExit false) s = .next { s with wen := { s.wen with heldSag := false, powered := false } } ∧
      ∃ t, exec (.heldExit true) s = .next t ∧ t.wen.heldSag = false ∧ t.ctxs = [] ∧ rd t 0x200600 = 1 ∧ rd t 0x100301 = 4) ∧
    (∃ t, exec .wenedPllLost s = .next t ∧ rd t 0x100600 = 1 ∧ t.ctxs = s.ctxs ∧ t.pkg = s.pkg) ∧
    (∀ d, d.val ≠ 39 → s.wen.guar = [] → s.wen.powered = true → deviceState s ≠ 4 → ∃ t, exec (.pllLockLost d) s = .next t ∧ t.ctxs = [] ∧
      d.val ∈ t.pkg.pllLost ∧ (s.pkg.pllLost = [] → s.wen.marker = none → (newestBrown t).map (·.cause) = some 3)) ∧
    (s.pkg.pllLost ≠ [] → s.wen.guar = [] → s.pkg.waitCool = false → ∃ t, exec .pllLockStable s = .next t ∧ t.pkg.pllLost = [] ∧ t.ctxs = [] ∧
      rd t 0x200600 = 2 ∧ rd t 0x100301 = 3) ∧
    (s.wen.powered = true → s.wen.heldSag = false → ∃ t, exec .watchdogExpiry s = .next t ∧ t.wen.guar = [] ∧ t.wen.saving = none ∧ t.ctxs = [] ∧ rd t 0x100301 = 5 ∧
      (t.pkg.faults.getLast?).map (·.die) = some 39) ∧
    (s.wen.powered = true → s.wen.heldSag = false → s.wen.guar = [] →
      (s.wen.rstLow = false → deviceState s ≠ 4 → ∃ t, exec .rstNAssert s = .next t ∧ t.wen.rstLow = true ∧ t.ctxs = []) ∧
      (s.wen.rstLow = true → rd s 0x200600 ≠ 1 → s.pkg.waitCool = false → ∃ t, exec .rstNRelease s = .next t ∧ t.wen.rstLow = false ∧ t.ctxs = [] ∧
        rd t 0x200600 = 2 ∧ rd t 0x100301 = 1))

/-- Bring-up, stage by stage, and the clocks and the governor of a device in service (R417, R420, R421, R426 to R428, R430). -/
def Obligations.BringUpAndGovernor : Prop :=
  ∀ s : State,
    (∀ (ms : BitVec 32) (uf mohm : BitVec 16) failing images, bringing s = true →
      let s' := wr s 0x200601 (putField (rd s 0x200601) (4 * (stageNow s - 1)) 4 ms.toNat)
      let run := exec (.bringupStageComplete ms uf mohm failing images) s
      (stageNow s = 1 → s.pkg.waitCool = true → run = .next s) ∧
      (stageNow s = 1 → s.pkg.waitCool = false → ∃ t, run = .next t ∧ rd t 0x200600 = 2 ∧ rd t 0x200300 = uf.toNat ∧ rd t 0x200301 = mohm.toNat ∧
        (rd t 0x200302 = 1 ↔ 2200 ≤ uf.toNat ∧ mohm.toNat ≤ 25) ∧
        (¬ (2200 ≤ uf.toNat ∧ mohm.toNat ≤ 25) → (t.pkg.faults.getLast?).map (·.code) = some 0x0202)) ∧
      (stageNow s = 2 → (bootType s' 39 0 images).2 = none → ∃ t, run = .next t ∧ deviceState t = 5) ∧
      (stageNow s = 2 → (bootType s' 39 0 images).2 ≠ none → ∃ t, run = .next t ∧ deviceState t = 1 ∧ rd t 0x200600 = 3 ∧ dieState t 39 = 2) ∧
      (stageNow s = 3 → s.wen.warm = false → ∃ t, run = .next t ∧ rd t 0x200600 = 4) ∧
      (stageNow s = 3 → s.wen.warm = true → ∃ t, run = .next t ∧ rd t 0x200600 = 5) ∧
      (stageNow s = 4 → ∃ t, run = .next t ∧ rd t 0x200600 = 5) ∧
      (stageNow s = 5 → ∃ t, run = .next t ∧ rd t 0x200600 = 6) ∧
      (stageNow s = 6 → ∃ t, run = .next t ∧ rd t 0x200600 = 7) ∧
      (stageNow s = 7 → s.wen.scrubDue = false → ∃ t, run = .next t ∧ rd t 0x200600 = 8 ∧ t.pkg.access = accessReset ∧ t.wen.warm = false ∧
        (s.wen.idKeys = false → deviceState t = 6) ∧ (s.wen.idKeys = true → (∀ d, d < 39 → dieState s d = 2) → deviceState t = 2))) ∧
    (∀ d, bringing s = true → dieState s d.val ≠ 5 → d.val ≠ 39 → ∃ t, exec (.bringupTimeout d) s = .next t ∧ dieState t d.val = 5 ∧ d.val ∈ t.wen.resetHeld) ∧
    (∀ v, v ≤ 2 → s.pkg.opNext = some (v, false) → let u := switchTargets { s with pkg := { s.pkg with opNext := some (v, true) } }
      (runningId s = none → opReady u v = true →
        ∃ t, exec .synthLocked s = .next t ∧ rd t 0x200100 = v ∧ rd t 0x200102 = opCap v ∧ t.pkg.opNext = none ∧ t.ctxs = s.ctxs) ∧
      (runningId s = none → opReady u v = false → exec .synthLocked s = .next u) ∧
      (∀ h, h < 4 → runningOn s h = [] → tget 0 u.solv.clock h = v) ∧
      (∀ h, h < 4 → runningOn s h ≠ [] → tget 0 u.solv.clock h = tget 0 s.solv.clock h) ∧
      (∀ id, runningId s = some id → isRunning (getC s id) = true → exec .synthLocked s = .next u)) ∧
    (∀ w, s.ptpNs / 1000000000 = s.pkg.ptpSec → let win := (s.pkg.govWin ++ [w]).drop (s.pkg.govWin.length + 1 - 100)
      ∃ t, exec (.governorSample w) s = .next t ∧ t.pkg.govWin = win ∧ t.pkg.coarse = (s.pkg.coarse.1 + w, s.pkg.coarse.2 + 1) ∧
        rd t 0x200202 = fitEntry 0x200202 ((win.foldl (· + ·) 0 + (100 - win.length) * rd s 0x200102) / 100)) ∧
    (∀ d, ∃ t, exec (.governorDutyUpdate d) s = .next t ∧ rd t 0x200401 = d.val + 1 ∧
      (∀ id, runningId s = some id → rd s 0x200401 < 16 → erd (getC t id) 0x200400 = erd (getC s id) 0x200400 + 16800000))
end

