-- ==== Sys2Proof/Laws/State.lean ====
section
/-! SUPPORT. What each named update leaves: one lemma per field. -/

namespace Sys2Proof.Laws

open Sys2Proof Sys2Proof.Machine

/-! ### The machine -/

@[simp] theorem setC_pending (s : State) (id : Nat) (c : Context) : (setC s id c).pending = s.pending := rfl
@[simp] theorem setC_freeIdx (s : State) (id : Nat) (c : Context) : (setC s id c).freeIdx = s.freeIdx := rfl
@[simp] theorem setC_ptpNs (s : State) (id : Nat) (c : Context) : (setC s id c).ptpNs = s.ptpNs := rfl
@[simp] theorem setC_ent (s : State) (id : Nat) (c : Context) : (setC s id c).ent = s.ent := rfl
@[simp] theorem setC_snap (s : State) (id : Nat) (c : Context) : (setC s id c).snap = s.snap := rfl
@[simp] theorem setC_solv (s : State) (id : Nat) (c : Context) : (setC s id c).solv = s.solv := rfl
@[simp] theorem setC_plants (s : State) (id : Nat) (c : Context) : (setC s id c).plants = s.plants := rfl
@[simp] theorem setC_eth (s : State) (id : Nat) (c : Context) : (setC s id c).eth = s.eth := rfl
@[simp] theorem setC_fab (s : State) (id : Nat) (c : Context) : (setC s id c).fab = s.fab := rfl
@[simp] theorem setC_ckpt (s : State) (id : Nat) (c : Context) : (setC s id c).ckpt = s.ckpt := rfl
@[simp] theorem setC_wen (s : State) (id : Nat) (c : Context) : (setC s id c).wen = s.wen := rfl
@[simp] theorem setC_pkg (s : State) (id : Nat) (c : Context) : (setC s id c).pkg = s.pkg := rfl
@[simp] theorem bumpSnap_pending (s : State) (k : Nat) : (bumpSnap s k).pending = s.pending := rfl
@[simp] theorem bumpSnap_freeIdx (s : State) (k : Nat) : (bumpSnap s k).freeIdx = s.freeIdx := rfl
@[simp] theorem bumpSnap_ptpNs (s : State) (k : Nat) : (bumpSnap s k).ptpNs = s.ptpNs := rfl
@[simp] theorem bumpSnap_ent (s : State) (k : Nat) : (bumpSnap s k).ent = s.ent := rfl
@[simp] theorem bumpSnap_ctxs (s : State) (k : Nat) : (bumpSnap s k).ctxs = s.ctxs := rfl
@[simp] theorem bumpSnap_solv (s : State) (k : Nat) : (bumpSnap s k).solv = s.solv := rfl
@[simp] theorem bumpSnap_plants (s : State) (k : Nat) : (bumpSnap s k).plants = s.plants := rfl
@[simp] theorem bumpSnap_eth (s : State) (k : Nat) : (bumpSnap s k).eth = s.eth := rfl
@[simp] theorem bumpSnap_fab (s : State) (k : Nat) : (bumpSnap s k).fab = s.fab := rfl
@[simp] theorem bumpSnap_ckpt (s : State) (k : Nat) : (bumpSnap s k).ckpt = s.ckpt := rfl
@[simp] theorem bumpSnap_wen (s : State) (k : Nat) : (bumpSnap s k).wen = s.wen := rfl
@[simp] theorem bumpSnap_pkg (s : State) (k : Nat) : (bumpSnap s k).pkg = s.pkg := rfl
@[simp] theorem wrHost_pending (s : State) (k v : Nat) : (wrHost s k v).pending = s.pending := rfl
@[simp] theorem wrHost_freeIdx (s : State) (k v : Nat) : (wrHost s k v).freeIdx = s.freeIdx := rfl
@[simp] theorem wrHost_ptpNs (s : State) (k v : Nat) : (wrHost s k v).ptpNs = s.ptpNs := rfl
@[simp] theorem wrHost_ctxs (s : State) (k v : Nat) : (wrHost s k v).ctxs = s.ctxs := rfl
@[simp] theorem wrHost_solv (s : State) (k v : Nat) : (wrHost s k v).solv = s.solv := rfl
@[simp] theorem wrHost_plants (s : State) (k v : Nat) : (wrHost s k v).plants = s.plants := rfl
@[simp] theorem wrHost_eth (s : State) (k v : Nat) : (wrHost s k v).eth = s.eth := rfl
@[simp] theorem wrHost_fab (s : State) (k v : Nat) : (wrHost s k v).fab = s.fab := rfl
@[simp] theorem wrHost_ckpt (s : State) (k v : Nat) : (wrHost s k v).ckpt = s.ckpt := rfl
@[simp] theorem wrHost_wen (s : State) (k v : Nat) : (wrHost s k v).wen = s.wen := rfl
@[simp] theorem wrHost_pkg (s : State) (k v : Nat) : (wrHost s k v).pkg = s.pkg := rfl
@[simp] theorem modC_pending (s : State) (id : Nat) (f : Context → Context) : (modC s id f).pending = s.pending := rfl
@[simp] theorem modC_freeIdx (s : State) (id : Nat) (f : Context → Context) : (modC s id f).freeIdx = s.freeIdx := rfl
@[simp] theorem modC_ptpNs (s : State) (id : Nat) (f : Context → Context) : (modC s id f).ptpNs = s.ptpNs := rfl
@[simp] theorem modC_ent (s : State) (id : Nat) (f : Context → Context) : (modC s id f).ent = s.ent := rfl
@[simp] theorem modC_snap (s : State) (id : Nat) (f : Context → Context) : (modC s id f).snap = s.snap := rfl
@[simp] theorem modC_solv (s : State) (id : Nat) (f : Context → Context) : (modC s id f).solv = s.solv := rfl
@[simp] theorem modC_plants (s : State) (id : Nat) (f : Context → Context) : (modC s id f).plants = s.plants := rfl
@[simp] theorem modC_eth (s : State) (id : Nat) (f : Context → Context) : (modC s id f).eth = s.eth := rfl
@[simp] theorem modC_fab (s : State) (id : Nat) (f : Context → Context) : (modC s id f).fab = s.fab := rfl
@[simp] theorem modC_ckpt (s : State) (id : Nat) (f : Context → Context) : (modC s id f).ckpt = s.ckpt := rfl
@[simp] theorem modC_wen (s : State) (id : Nat) (f : Context → Context) : (modC s id f).wen = s.wen := rfl
@[simp] theorem modC_pkg (s : State) (id : Nat) (f : Context → Context) : (modC s id f).pkg = s.pkg := rfl
@[simp] theorem wr_pending (s : State) (k v : Nat) : (wr s k v).pending = s.pending := by unfold wr; split <;> rfl
@[simp] theorem wr_freeIdx (s : State) (k v : Nat) : (wr s k v).freeIdx = s.freeIdx := by unfold wr; split <;> rfl
@[simp] theorem wr_ptpNs (s : State) (k v : Nat) : (wr s k v).ptpNs = s.ptpNs := by unfold wr; split <;> rfl
@[simp] theorem wr_ctxs (s : State) (k v : Nat) : (wr s k v).ctxs = s.ctxs := by unfold wr; split <;> rfl
@[simp] theorem wr_solv (s : State) (k v : Nat) : (wr s k v).solv = s.solv := by unfold wr; split <;> rfl
@[simp] theorem wr_plants (s : State) (k v : Nat) : (wr s k v).plants = s.plants := by unfold wr; split <;> rfl
@[simp] theorem wr_eth (s : State) (k v : Nat) : (wr s k v).eth = s.eth := by unfold wr; split <;> rfl
@[simp] theorem wr_fab (s : State) (k v : Nat) : (wr s k v).fab = s.fab := by unfold wr; split <;> rfl
@[simp] theorem wr_ckpt (s : State) (k v : Nat) : (wr s k v).ckpt = s.ckpt := by unfold wr; split <;> rfl
@[simp] theorem wr_wen (s : State) (k v : Nat) : (wr s k v).wen = s.wen := by unfold wr; split <;> rfl
@[simp] theorem wr_pkg (s : State) (k v : Nat) : (wr s k v).pkg = s.pkg := by unfold wr; split <;> rfl
@[simp] theorem incr_pending (s : State) (k n : Nat) : (incr s k n).pending = s.pending := by simp [incr]
@[simp] theorem incr_freeIdx (s : State) (k n : Nat) : (incr s k n).freeIdx = s.freeIdx := by simp [incr]
@[simp] theorem incr_ptpNs (s : State) (k n : Nat) : (incr s k n).ptpNs = s.ptpNs := by simp [incr]
@[simp] theorem incr_ctxs (s : State) (k n : Nat) : (incr s k n).ctxs = s.ctxs := by simp [incr]
@[simp] theorem incr_solv (s : State) (k n : Nat) : (incr s k n).solv = s.solv := by simp [incr]
@[simp] theorem incr_plants (s : State) (k n : Nat) : (incr s k n).plants = s.plants := by simp [incr]
@[simp] theorem incr_eth (s : State) (k n : Nat) : (incr s k n).eth = s.eth := by simp [incr]
@[simp] theorem incr_fab (s : State) (k n : Nat) : (incr s k n).fab = s.fab := by simp [incr]
@[simp] theorem incr_ckpt (s : State) (k n : Nat) : (incr s k n).ckpt = s.ckpt := by simp [incr]
@[simp] theorem incr_wen (s : State) (k n : Nat) : (incr s k n).wen = s.wen := by simp [incr]
@[simp] theorem incr_pkg (s : State) (k n : Nat) : (incr s k n).pkg = s.pkg := by simp [incr]

/-! ### A context -/

@[simp] theorem setW_live (c : Context) (cl : Nat) (w : Worker) : (setW c cl w).live = c.live := rfl
@[simp] theorem setW_serial (c : Context) (cl : Nat) (w : Worker) : (setW c cl w).serial = c.serial := rfl
@[simp] theorem setW_memKey (c : Context) (cl : Nat) (w : Worker) : (setW c cl w).memKey = c.memKey := rfl
@[simp] theorem setW_place (c : Context) (cl : Nat) (w : Worker) : (setW c cl w).place = c.place := rfl
@[simp] theorem setW_lower (c : Context) (cl : Nat) (w : Worker) : (setW c cl w).lower = c.lower := rfl
@[simp] theorem setW_parts (c : Context) (cl : Nat) (w : Worker) : (setW c cl w).parts = c.parts := rfl
@[simp] theorem setW_lender (c : Context) (cl : Nat) (w : Worker) : (setW c cl w).lender = c.lender := rfl
@[simp] theorem setW_peerLost (c : Context) (cl : Nat) (w : Worker) : (setW c cl w).peerLost = c.peerLost := rfl
@[simp] theorem setW_noCommit (c : Context) (cl : Nat) (w : Worker) : (setW c cl w).noCommit = c.noCommit := rfl
@[simp] theorem setW_sessKey (c : Context) (cl : Nat) (w : Worker) : (setW c cl w).sessKey = c.sessKey := rfl
@[simp] theorem setW_n (c : Context) (cl : Nat) (w : Worker) : (setW c cl w).n = c.n := rfl
@[simp] theorem setW_rank (c : Context) (cl : Nat) (w : Worker) : (setW c cl w).rank = c.rank := rfl
@[simp] theorem setW_ids (c : Context) (cl : Nat) (w : Worker) : (setW c cl w).ids = c.ids := rfl
@[simp] theorem setW_binds (c : Context) (cl : Nat) (w : Worker) : (setW c cl w).binds = c.binds := rfl
@[simp] theorem setW_mod (c : Context) (cl : Nat) (w : Worker) : (setW c cl w).mod = c.mod := rfl
@[simp] theorem setW_modState (c : Context) (cl : Nat) (w : Worker) : (setW c cl w).modState = c.modState := rfl
@[simp] theorem setW_runStream (c : Context) (cl : Nat) (w : Worker) : (setW c cl w).runStream = c.runStream := rfl
@[simp] theorem setW_haltStream (c : Context) (cl : Nat) (w : Worker) : (setW c cl w).haltStream = c.haltStream := rfl
@[simp] theorem setW_step (c : Context) (cl : Nat) (w : Worker) : (setW c cl w).step = c.step := rfl
@[simp] theorem setW_stepStartNs (c : Context) (cl : Nat) (w : Worker) : (setW c cl w).stepStartNs = c.stepStartNs := rfl
@[simp] theorem setW_seed (c : Context) (cl : Nat) (w : Worker) : (setW c cl w).seed = c.seed := rfl
@[simp] theorem setW_vmem (c : Context) (cl : Nat) (w : Worker) : (setW c cl w).vmem = c.vmem := rfl
@[simp] theorem setW_gBad (c : Context) (cl : Nat) (w : Worker) : (setW c cl w).gBad = c.gBad := rfl
@[simp] theorem setW_pages (c : Context) (cl : Nat) (w : Worker) : (setW c cl w).pages = c.pages := rfl
@[simp] theorem setW_shadows (c : Context) (cl : Nat) (w : Worker) : (setW c cl w).shadows = c.shadows := rfl
@[simp] theorem setW_inputs (c : Context) (cl : Nat) (w : Worker) : (setW c cl w).inputs = c.inputs := rfl
@[simp] theorem setW_outs (c : Context) (cl : Nat) (w : Worker) : (setW c cl w).outs = c.outs := rfl
@[simp] theorem setW_regs (c : Context) (cl : Nat) (w : Worker) : (setW c cl w).regs = c.regs := rfl
@[simp] theorem setW_replDecl (c : Context) (cl : Nat) (w : Worker) : (setW c cl w).replDecl = c.replDecl := rfl
@[simp] theorem setW_replicas (c : Context) (cl : Nat) (w : Worker) : (setW c cl w).replicas = c.replicas := rfl
@[simp] theorem setW_replLines (c : Context) (cl : Nat) (w : Worker) : (setW c cl w).replLines = c.replLines := rfl
@[simp] theorem setW_coll (c : Context) (cl : Nat) (w : Worker) : (setW c cl w).coll = c.coll := rfl
@[simp] theorem setW_collSeq (c : Context) (cl : Nat) (w : Worker) : (setW c cl w).collSeq = c.collSeq := rfl
@[simp] theorem setW_collIn (c : Context) (cl : Nat) (w : Worker) : (setW c cl w).collIn = c.collIn := rfl
@[simp] theorem setW_checks (c : Context) (cl : Nat) (w : Worker) : (setW c cl w).checks = c.checks := rfl
@[simp] theorem setW_corruptSinceCommit (c : Context) (cl : Nat) (w : Worker) : (setW c cl w).corruptSinceCommit = c.corruptSinceCommit := rfl
@[simp] theorem setW_mr4 (c : Context) (cl : Nat) (w : Worker) : (setW c cl w).mr4 = c.mr4 := rfl
@[simp] theorem setW_quote (c : Context) (cl : Nat) (w : Worker) : (setW c cl w).quote = c.quote := rfl
@[simp] theorem setW_capture (c : Context) (cl : Nat) (w : Worker) : (setW c cl w).capture = c.capture := rfl
@[simp] theorem setW_prior (c : Context) (cl : Nat) (w : Worker) : (setW c cl w).prior = c.prior := rfl
@[simp] theorem setW_saves (c : Context) (cl : Nat) (w : Worker) : (setW c cl w).saves = c.saves := rfl
@[simp] theorem setW_fullNext (c : Context) (cl : Nat) (w : Worker) : (setW c cl w).fullNext = c.fullNext := rfl
@[simp] theorem setW_outDigest (c : Context) (cl : Nat) (w : Worker) : (setW c cl w).outDigest = c.outDigest := rfl
@[simp] theorem setW_souts (c : Context) (cl : Nat) (w : Worker) : (setW c cl w).souts = c.souts := rfl
@[simp] theorem setW_bulkIn (c : Context) (cl : Nat) (w : Worker) : (setW c cl w).bulkIn = c.bulkIn := rfl
@[simp] theorem setW_evRetries (c : Context) (cl : Nat) (w : Worker) : (setW c cl w).evRetries = c.evRetries := rfl
@[simp] theorem setW_evRetrain (c : Context) (cl : Nat) (w : Worker) : (setW c cl w).evRetrain = c.evRetrain := rfl
@[simp] theorem setW_evSlices (c : Context) (cl : Nat) (w : Worker) : (setW c cl w).evSlices = c.evSlices := rfl
@[simp] theorem setW_evRefresh (c : Context) (cl : Nat) (w : Worker) : (setW c cl w).evRefresh = c.evRefresh := rfl
@[simp] theorem setW_evHot (c : Context) (cl : Nat) (w : Worker) : (setW c cl w).evHot = c.evHot := rfl
@[simp] theorem setW_ent (c : Context) (cl : Nat) (w : Worker) : (setW c cl w).ent = c.ent := rfl
@[simp] theorem setW_snap (c : Context) (cl : Nat) (w : Worker) : (setW c cl w).snap = c.snap := rfl
@[simp] theorem ewr_live (c : Context) (k v : Nat) : (ewr c k v).live = c.live := by unfold ewr; split <;> rfl
@[simp] theorem ewr_serial (c : Context) (k v : Nat) : (ewr c k v).serial = c.serial := by unfold ewr; split <;> rfl
@[simp] theorem ewr_memKey (c : Context) (k v : Nat) : (ewr c k v).memKey = c.memKey := by unfold ewr; split <;> rfl
@[simp] theorem ewr_place (c : Context) (k v : Nat) : (ewr c k v).place = c.place := by unfold ewr; split <;> rfl
@[simp] theorem ewr_lower (c : Context) (k v : Nat) : (ewr c k v).lower = c.lower := by unfold ewr; split <;> rfl
@[simp] theorem ewr_parts (c : Context) (k v : Nat) : (ewr c k v).parts = c.parts := by unfold ewr; split <;> rfl
@[simp] theorem ewr_lender (c : Context) (k v : Nat) : (ewr c k v).lender = c.lender := by unfold ewr; split <;> rfl
@[simp] theorem ewr_peerLost (c : Context) (k v : Nat) : (ewr c k v).peerLost = c.peerLost := by unfold ewr; split <;> rfl
@[simp] theorem ewr_noCommit (c : Context) (k v : Nat) : (ewr c k v).noCommit = c.noCommit := by unfold ewr; split <;> rfl
@[simp] theorem ewr_sessKey (c : Context) (k v : Nat) : (ewr c k v).sessKey = c.sessKey := by unfold ewr; split <;> rfl
@[simp] theorem ewr_n (c : Context) (k v : Nat) : (ewr c k v).n = c.n := by unfold ewr; split <;> rfl
@[simp] theorem ewr_rank (c : Context) (k v : Nat) : (ewr c k v).rank = c.rank := by unfold ewr; split <;> rfl
@[simp] theorem ewr_ids (c : Context) (k v : Nat) : (ewr c k v).ids = c.ids := by unfold ewr; split <;> rfl
@[simp] theorem ewr_binds (c : Context) (k v : Nat) : (ewr c k v).binds = c.binds := by unfold ewr; split <;> rfl
@[simp] theorem ewr_mod (c : Context) (k v : Nat) : (ewr c k v).mod = c.mod := by unfold ewr; split <;> rfl
@[simp] theorem ewr_modState (c : Context) (k v : Nat) : (ewr c k v).modState = c.modState := by unfold ewr; split <;> rfl
@[simp] theorem ewr_runStream (c : Context) (k v : Nat) : (ewr c k v).runStream = c.runStream := by unfold ewr; split <;> rfl
@[simp] theorem ewr_haltStream (c : Context) (k v : Nat) : (ewr c k v).haltStream = c.haltStream := by unfold ewr; split <;> rfl
@[simp] theorem ewr_workers (c : Context) (k v : Nat) : (ewr c k v).workers = c.workers := by unfold ewr; split <;> rfl
@[simp] theorem ewr_step (c : Context) (k v : Nat) : (ewr c k v).step = c.step := by unfold ewr; split <;> rfl
@[simp] theorem ewr_stepStartNs (c : Context) (k v : Nat) : (ewr c k v).stepStartNs = c.stepStartNs := by unfold ewr; split <;> rfl
@[simp] theorem ewr_seed (c : Context) (k v : Nat) : (ewr c k v).seed = c.seed := by unfold ewr; split <;> rfl
@[simp] theorem ewr_vmem (c : Context) (k v : Nat) : (ewr c k v).vmem = c.vmem := by unfold ewr; split <;> rfl
@[simp] theorem ewr_gBad (c : Context) (k v : Nat) : (ewr c k v).gBad = c.gBad := by unfold ewr; split <;> rfl
@[simp] theorem ewr_pages (c : Context) (k v : Nat) : (ewr c k v).pages = c.pages := by unfold ewr; split <;> rfl
@[simp] theorem ewr_shadows (c : Context) (k v : Nat) : (ewr c k v).shadows = c.shadows := by unfold ewr; split <;> rfl
@[simp] theorem ewr_inputs (c : Context) (k v : Nat) : (ewr c k v).inputs = c.inputs := by unfold ewr; split <;> rfl
@[simp] theorem ewr_outs (c : Context) (k v : Nat) : (ewr c k v).outs = c.outs := by unfold ewr; split <;> rfl
@[simp] theorem ewr_regs (c : Context) (k v : Nat) : (ewr c k v).regs = c.regs := by unfold ewr; split <;> rfl
@[simp] theorem ewr_replDecl (c : Context) (k v : Nat) : (ewr c k v).replDecl = c.replDecl := by unfold ewr; split <;> rfl
@[simp] theorem ewr_replicas (c : Context) (k v : Nat) : (ewr c k v).replicas = c.replicas := by unfold ewr; split <;> rfl
@[simp] theorem ewr_replLines (c : Context) (k v : Nat) : (ewr c k v).replLines = c.replLines := by unfold ewr; split <;> rfl
@[simp] theorem ewr_coll (c : Context) (k v : Nat) : (ewr c k v).coll = c.coll := by unfold ewr; split <;> rfl
@[simp] theorem ewr_collSeq (c : Context) (k v : Nat) : (ewr c k v).collSeq = c.collSeq := by unfold ewr; split <;> rfl
@[simp] theorem ewr_collIn (c : Context) (k v : Nat) : (ewr c k v).collIn = c.collIn := by unfold ewr; split <;> rfl
@[simp] theorem ewr_checks (c : Context) (k v : Nat) : (ewr c k v).checks = c.checks := by unfold ewr; split <;> rfl
@[simp] theorem ewr_corruptSinceCommit (c : Context) (k v : Nat) : (ewr c k v).corruptSinceCommit = c.corruptSinceCommit := by unfold ewr; split <;> rfl
@[simp] theorem ewr_mr4 (c : Context) (k v : Nat) : (ewr c k v).mr4 = c.mr4 := by unfold ewr; split <;> rfl
@[simp] theorem ewr_quote (c : Context) (k v : Nat) : (ewr c k v).quote = c.quote := by unfold ewr; split <;> rfl
@[simp] theorem ewr_capture (c : Context) (k v : Nat) : (ewr c k v).capture = c.capture := by unfold ewr; split <;> rfl
@[simp] theorem ewr_prior (c : Context) (k v : Nat) : (ewr c k v).prior = c.prior := by unfold ewr; split <;> rfl
@[simp] theorem ewr_saves (c : Context) (k v : Nat) : (ewr c k v).saves = c.saves := by unfold ewr; split <;> rfl
@[simp] theorem ewr_fullNext (c : Context) (k v : Nat) : (ewr c k v).fullNext = c.fullNext := by unfold ewr; split <;> rfl
@[simp] theorem ewr_outDigest (c : Context) (k v : Nat) : (ewr c k v).outDigest = c.outDigest := by unfold ewr; split <;> rfl
@[simp] theorem ewr_souts (c : Context) (k v : Nat) : (ewr c k v).souts = c.souts := by unfold ewr; split <;> rfl
@[simp] theorem ewr_bulkIn (c : Context) (k v : Nat) : (ewr c k v).bulkIn = c.bulkIn := by unfold ewr; split <;> rfl
@[simp] theorem ewr_evRetries (c : Context) (k v : Nat) : (ewr c k v).evRetries = c.evRetries := by unfold ewr; split <;> rfl
@[simp] theorem ewr_evRetrain (c : Context) (k v : Nat) : (ewr c k v).evRetrain = c.evRetrain := by unfold ewr; split <;> rfl
@[simp] theorem ewr_evSlices (c : Context) (k v : Nat) : (ewr c k v).evSlices = c.evSlices := by unfold ewr; split <;> rfl
@[simp] theorem ewr_evRefresh (c : Context) (k v : Nat) : (ewr c k v).evRefresh = c.evRefresh := by unfold ewr; split <;> rfl
@[simp] theorem ewr_evHot (c : Context) (k v : Nat) : (ewr c k v).evHot = c.evHot := by unfold ewr; split <;> rfl
@[simp] theorem eincr_live (c : Context) (k n : Nat) : (eincr c k n).live = c.live := by simp [eincr]
@[simp] theorem eincr_serial (c : Context) (k n : Nat) : (eincr c k n).serial = c.serial := by simp [eincr]
@[simp] theorem eincr_memKey (c : Context) (k n : Nat) : (eincr c k n).memKey = c.memKey := by simp [eincr]
@[simp] theorem eincr_place (c : Context) (k n : Nat) : (eincr c k n).place = c.place := by simp [eincr]
@[simp] theorem eincr_lower (c : Context) (k n : Nat) : (eincr c k n).lower = c.lower := by simp [eincr]
@[simp] theorem eincr_parts (c : Context) (k n : Nat) : (eincr c k n).parts = c.parts := by simp [eincr]
@[simp] theorem eincr_lender (c : Context) (k n : Nat) : (eincr c k n).lender = c.lender := by simp [eincr]
@[simp] theorem eincr_peerLost (c : Context) (k n : Nat) : (eincr c k n).peerLost = c.peerLost := by simp [eincr]
@[simp] theorem eincr_noCommit (c : Context) (k n : Nat) : (eincr c k n).noCommit = c.noCommit := by simp [eincr]
@[simp] theorem eincr_sessKey (c : Context) (k n : Nat) : (eincr c k n).sessKey = c.sessKey := by simp [eincr]
@[simp] theorem eincr_n (c : Context) (k n : Nat) : (eincr c k n).n = c.n := by simp [eincr]
@[simp] theorem eincr_rank (c : Context) (k n : Nat) : (eincr c k n).rank = c.rank := by simp [eincr]
@[simp] theorem eincr_ids (c : Context) (k n : Nat) : (eincr c k n).ids = c.ids := by simp [eincr]
@[simp] theorem eincr_binds (c : Context) (k n : Nat) : (eincr c k n).binds = c.binds := by simp [eincr]
@[simp] theorem eincr_mod (c : Context) (k n : Nat) : (eincr c k n).mod = c.mod := by simp [eincr]
@[simp] theorem eincr_modState (c : Context) (k n : Nat) : (eincr c k n).modState = c.modState := by simp [eincr]
@[simp] theorem eincr_runStream (c : Context) (k n : Nat) : (eincr c k n).runStream = c.runStream := by simp [eincr]
@[simp] theorem eincr_haltStream (c : Context) (k n : Nat) : (eincr c k n).haltStream = c.haltStream := by simp [eincr]
@[simp] theorem eincr_workers (c : Context) (k n : Nat) : (eincr c k n).workers = c.workers := by simp [eincr]
@[simp] theorem eincr_step (c : Context) (k n : Nat) : (eincr c k n).step = c.step := by simp [eincr]
@[simp] theorem eincr_stepStartNs (c : Context) (k n : Nat) : (eincr c k n).stepStartNs = c.stepStartNs := by simp [eincr]
@[simp] theorem eincr_seed (c : Context) (k n : Nat) : (eincr c k n).seed = c.seed := by simp [eincr]
@[simp] theorem eincr_vmem (c : Context) (k n : Nat) : (eincr c k n).vmem = c.vmem := by simp [eincr]
@[simp] theorem eincr_gBad (c : Context) (k n : Nat) : (eincr c k n).gBad = c.gBad := by simp [eincr]
@[simp] theorem eincr_pages (c : Context) (k n : Nat) : (eincr c k n).pages = c.pages := by simp [eincr]
@[simp] theorem eincr_shadows (c : Context) (k n : Nat) : (eincr c k n).shadows = c.shadows := by simp [eincr]
@[simp] theorem eincr_inputs (c : Context) (k n : Nat) : (eincr c k n).inputs = c.inputs := by simp [eincr]
@[simp] theorem eincr_outs (c : Context) (k n : Nat) : (eincr c k n).outs = c.outs := by simp [eincr]
@[simp] theorem eincr_regs (c : Context) (k n : Nat) : (eincr c k n).regs = c.regs := by simp [eincr]
@[simp] theorem eincr_replDecl (c : Context) (k n : Nat) : (eincr c k n).replDecl = c.replDecl := by simp [eincr]
@[simp] theorem eincr_replicas (c : Context) (k n : Nat) : (eincr c k n).replicas = c.replicas := by simp [eincr]
@[simp] theorem eincr_replLines (c : Context) (k n : Nat) : (eincr c k n).replLines = c.replLines := by simp [eincr]
@[simp] theorem eincr_coll (c : Context) (k n : Nat) : (eincr c k n).coll = c.coll := by simp [eincr]
@[simp] theorem eincr_collSeq (c : Context) (k n : Nat) : (eincr c k n).collSeq = c.collSeq := by simp [eincr]
@[simp] theorem eincr_collIn (c : Context) (k n : Nat) : (eincr c k n).collIn = c.collIn := by simp [eincr]
@[simp] theorem eincr_checks (c : Context) (k n : Nat) : (eincr c k n).checks = c.checks := by simp [eincr]
@[simp] theorem eincr_corruptSinceCommit (c : Context) (k n : Nat) : (eincr c k n).corruptSinceCommit = c.corruptSinceCommit := by simp [eincr]
@[simp] theorem eincr_mr4 (c : Context) (k n : Nat) : (eincr c k n).mr4 = c.mr4 := by simp [eincr]
@[simp] theorem eincr_quote (c : Context) (k n : Nat) : (eincr c k n).quote = c.quote := by simp [eincr]
@[simp] theorem eincr_capture (c : Context) (k n : Nat) : (eincr c k n).capture = c.capture := by simp [eincr]
@[simp] theorem eincr_prior (c : Context) (k n : Nat) : (eincr c k n).prior = c.prior := by simp [eincr]
@[simp] theorem eincr_saves (c : Context) (k n : Nat) : (eincr c k n).saves = c.saves := by simp [eincr]
@[simp] theorem eincr_fullNext (c : Context) (k n : Nat) : (eincr c k n).fullNext = c.fullNext := by simp [eincr]
@[simp] theorem eincr_outDigest (c : Context) (k n : Nat) : (eincr c k n).outDigest = c.outDigest := by simp [eincr]
@[simp] theorem eincr_souts (c : Context) (k n : Nat) : (eincr c k n).souts = c.souts := by simp [eincr]
@[simp] theorem eincr_bulkIn (c : Context) (k n : Nat) : (eincr c k n).bulkIn = c.bulkIn := by simp [eincr]
@[simp] theorem eincr_evRetries (c : Context) (k n : Nat) : (eincr c k n).evRetries = c.evRetries := by simp [eincr]
@[simp] theorem eincr_evRetrain (c : Context) (k n : Nat) : (eincr c k n).evRetrain = c.evRetrain := by simp [eincr]
@[simp] theorem eincr_evSlices (c : Context) (k n : Nat) : (eincr c k n).evSlices = c.evSlices := by simp [eincr]
@[simp] theorem eincr_evRefresh (c : Context) (k n : Nat) : (eincr c k n).evRefresh = c.evRefresh := by simp [eincr]
@[simp] theorem eincr_evHot (c : Context) (k n : Nat) : (eincr c k n).evHot = c.evHot := by simp [eincr]

/-! ### A worker -/

@[simp] theorem setS_run (w : Worker) (r : SReg) (x : BitVec 64) : (setS w r x).run = w.run := by unfold setS; split <;> rfl
@[simp] theorem setS_wait (w : Worker) (r : SReg) (x : BitVec 64) : (setS w r x).wait = w.wait := by unfold setS; split <;> rfl
@[simp] theorem setS_since (w : Worker) (r : SReg) (x : BitVec 64) : (setS w r x).since = w.since := by unfold setS; split <;> rfl
@[simp] theorem setS_pc (w : Worker) (r : SReg) (x : BitVec 64) : (setS w r x).pc = w.pc := by unfold setS; split <;> rfl
@[simp] theorem setS_loops (w : Worker) (r : SReg) (x : BitVec 64) : (setS w r x).loops = w.loops := by unfold setS; split <;> rfl
@[simp] theorem setS_v (w : Worker) (r : SReg) (x : BitVec 64) : (setS w r x).v = w.v := by unfold setS; split <;> rfl
@[simp] theorem setS_t (w : Worker) (r : SReg) (x : BitVec 64) : (setS w r x).t = w.t := by unfold setS; split <;> rfl
@[simp] theorem setS_m (w : Worker) (r : SReg) (x : BitVec 64) : (setS w r x).m = w.m := by unfold setS; split <;> rfl
@[simp] theorem setS_vl (w : Worker) (r : SReg) (x : BitVec 64) : (setS w r x).vl = w.vl := by unfold setS; split <;> rfl
@[simp] theorem setS_acw (w : Worker) (r : SReg) (x : BitVec 64) : (setS w r x).acw = w.acw := by unfold setS; split <;> rfl
@[simp] theorem setS_asw (w : Worker) (r : SReg) (x : BitVec 64) : (setS w r x).asw = w.asw := by unfold setS; split <;> rfl
@[simp] theorem setS_f (w : Worker) (r : SReg) (x : BitVec 64) : (setS w r x).f = w.f := by unfold setS; split <;> rfl
@[simp] theorem setS_tickets (w : Worker) (r : SReg) (x : BitVec 64) : (setS w r x).tickets = w.tickets := by unfold setS; split <;> rfl
@[simp] theorem setS_nextTicket (w : Worker) (r : SReg) (x : BitVec 64) : (setS w r x).nextTicket = w.nextTicket := by unfold setS; split <;> rfl
@[simp] theorem setS_srOrd (w : Worker) (r : SReg) (x : BitVec 64) : (setS w r x).srOrd = w.srOrd := by unfold setS; split <;> rfl
@[simp] theorem setS_elemStart (w : Worker) (r : SReg) (x : BitVec 64) : (setS w r x).elemStart = w.elemStart := by unfold setS; split <;> rfl
@[simp] theorem setS_stopped (w : Worker) (r : SReg) (x : BitVec 64) : (setS w r x).stopped = w.stopped := by unfold setS; split <;> rfl
@[simp] theorem setS_record (w : Worker) (r : SReg) (x : BitVec 64) : (setS w r x).record = w.record := by unfold setS; split <;> rfl
@[simp] theorem setS_gq (w : Worker) (r : SReg) (x : BitVec 64) : (setS w r x).gq = w.gq := by unfold setS; split <;> rfl
@[simp] theorem setS_gf (w : Worker) (r : SReg) (x : BitVec 64) : (setS w r x).gf = w.gf := by unfold setS; split <;> rfl
@[simp] theorem setS_latches (w : Worker) (r : SReg) (x : BitVec 64) : (setS w r x).latches = w.latches := by unfold setS; split <;> rfl
@[simp] theorem setS_nextSet (w : Worker) (r : SReg) (x : BitVec 64) : (setS w r x).nextSet = w.nextSet := by unfold setS; split <;> rfl
@[simp] theorem setS_wregs (w : Worker) (r : SReg) (x : BitVec 64) : (setS w r x).wregs = w.wregs := by unfold setS; split <;> rfl
@[simp] theorem setS_wf (w : Worker) (r : SReg) (x : BitVec 64) : (setS w r x).wf = w.wf := by unfold setS; split <;> rfl
@[simp] theorem setS_rseq (w : Worker) (r : SReg) (x : BitVec 64) : (setS w r x).rseq = w.rseq := by unfold setS; split <;> rfl
@[simp] theorem setS_rpend (w : Worker) (r : SReg) (x : BitVec 64) : (setS w r x).rpend = w.rpend := by unfold setS; split <;> rfl
@[simp] theorem setS_slots (w : Worker) (r : SReg) (x : BitVec 64) : (setS w r x).slots = w.slots := by unfold setS; split <;> rfl
@[simp] theorem setS_flags (w : Worker) (r : SReg) (x : BitVec 64) : (setS w r x).flags = w.flags := by unfold setS; split <;> rfl
@[simp] theorem setS_replBits (w : Worker) (r : SReg) (x : BitVec 64) : (setS w r x).replBits = w.replBits := by unfold setS; split <;> rfl
@[simp] theorem setS_l0 (w : Worker) (r : SReg) (x : BitVec 64) : (setS w r x).l0 = w.l0 := by unfold setS; split <;> rfl
@[simp] theorem setS_l0Bad (w : Worker) (r : SReg) (x : BitVec 64) : (setS w r x).l0Bad = w.l0Bad := by unfold setS; split <;> rfl
@[simp] theorem setT_run (w : Worker) (t : TReg) (x : Tile) : (setT w t x).run = w.run := rfl
@[simp] theorem setT_wait (w : Worker) (t : TReg) (x : Tile) : (setT w t x).wait = w.wait := rfl
@[simp] theorem setT_since (w : Worker) (t : TReg) (x : Tile) : (setT w t x).since = w.since := rfl
@[simp] theorem setT_pc (w : Worker) (t : TReg) (x : Tile) : (setT w t x).pc = w.pc := rfl
@[simp] theorem setT_loops (w : Worker) (t : TReg) (x : Tile) : (setT w t x).loops = w.loops := rfl
@[simp] theorem setT_s (w : Worker) (t : TReg) (x : Tile) : (setT w t x).s = w.s := rfl
@[simp] theorem setT_v (w : Worker) (t : TReg) (x : Tile) : (setT w t x).v = w.v := rfl
@[simp] theorem setT_m (w : Worker) (t : TReg) (x : Tile) : (setT w t x).m = w.m := rfl
@[simp] theorem setT_vl (w : Worker) (t : TReg) (x : Tile) : (setT w t x).vl = w.vl := rfl
@[simp] theorem setT_acw (w : Worker) (t : TReg) (x : Tile) : (setT w t x).acw = w.acw := rfl
@[simp] theorem setT_asw (w : Worker) (t : TReg) (x : Tile) : (setT w t x).asw = w.asw := rfl
@[simp] theorem setT_f (w : Worker) (t : TReg) (x : Tile) : (setT w t x).f = w.f := rfl
@[simp] theorem setT_tickets (w : Worker) (t : TReg) (x : Tile) : (setT w t x).tickets = w.tickets := rfl
@[simp] theorem setT_nextTicket (w : Worker) (t : TReg) (x : Tile) : (setT w t x).nextTicket = w.nextTicket := rfl
@[simp] theorem setT_srOrd (w : Worker) (t : TReg) (x : Tile) : (setT w t x).srOrd = w.srOrd := rfl
@[simp] theorem setT_elemStart (w : Worker) (t : TReg) (x : Tile) : (setT w t x).elemStart = w.elemStart := rfl
@[simp] theorem setT_stopped (w : Worker) (t : TReg) (x : Tile) : (setT w t x).stopped = w.stopped := rfl
@[simp] theorem setT_record (w : Worker) (t : TReg) (x : Tile) : (setT w t x).record = w.record := rfl
@[simp] theorem setT_gq (w : Worker) (t : TReg) (x : Tile) : (setT w t x).gq = w.gq := rfl
@[simp] theorem setT_gf (w : Worker) (t : TReg) (x : Tile) : (setT w t x).gf = w.gf := rfl
@[simp] theorem setT_latches (w : Worker) (t : TReg) (x : Tile) : (setT w t x).latches = w.latches := rfl
@[simp] theorem setT_nextSet (w : Worker) (t : TReg) (x : Tile) : (setT w t x).nextSet = w.nextSet := rfl
@[simp] theorem setT_wregs (w : Worker) (t : TReg) (x : Tile) : (setT w t x).wregs = w.wregs := rfl
@[simp] theorem setT_wf (w : Worker) (t : TReg) (x : Tile) : (setT w t x).wf = w.wf := rfl
@[simp] theorem setT_rseq (w : Worker) (t : TReg) (x : Tile) : (setT w t x).rseq = w.rseq := rfl
@[simp] theorem setT_rpend (w : Worker) (t : TReg) (x : Tile) : (setT w t x).rpend = w.rpend := rfl
@[simp] theorem setT_slots (w : Worker) (t : TReg) (x : Tile) : (setT w t x).slots = w.slots := rfl
@[simp] theorem setT_flags (w : Worker) (t : TReg) (x : Tile) : (setT w t x).flags = w.flags := rfl
@[simp] theorem setT_replBits (w : Worker) (t : TReg) (x : Tile) : (setT w t x).replBits = w.replBits := rfl
@[simp] theorem setT_l0 (w : Worker) (t : TReg) (x : Tile) : (setT w t x).l0 = w.l0 := rfl
@[simp] theorem setT_l0Bad (w : Worker) (t : TReg) (x : Tile) : (setT w t x).l0Bad = w.l0Bad := rfl
@[simp] theorem setM_run (w : Worker) (m : MReg) (x : BitVec 4096) : (setM w m x).run = w.run := rfl
@[simp] theorem setM_wait (w : Worker) (m : MReg) (x : BitVec 4096) : (setM w m x).wait = w.wait := rfl
@[simp] theorem setM_since (w : Worker) (m : MReg) (x : BitVec 4096) : (setM w m x).since = w.since := rfl
@[simp] theorem setM_pc (w : Worker) (m : MReg) (x : BitVec 4096) : (setM w m x).pc = w.pc := rfl
@[simp] theorem setM_loops (w : Worker) (m : MReg) (x : BitVec 4096) : (setM w m x).loops = w.loops := rfl
@[simp] theorem setM_s (w : Worker) (m : MReg) (x : BitVec 4096) : (setM w m x).s = w.s := rfl
@[simp] theorem setM_v (w : Worker) (m : MReg) (x : BitVec 4096) : (setM w m x).v = w.v := rfl
@[simp] theorem setM_t (w : Worker) (m : MReg) (x : BitVec 4096) : (setM w m x).t = w.t := rfl
@[simp] theorem setM_vl (w : Worker) (m : MReg) (x : BitVec 4096) : (setM w m x).vl = w.vl := rfl
@[simp] theorem setM_acw (w : Worker) (m : MReg) (x : BitVec 4096) : (setM w m x).acw = w.acw := rfl
@[simp] theorem setM_asw (w : Worker) (m : MReg) (x : BitVec 4096) : (setM w m x).asw = w.asw := rfl
@[simp] theorem setM_f (w : Worker) (m : MReg) (x : BitVec 4096) : (setM w m x).f = w.f := rfl
@[simp] theorem setM_tickets (w : Worker) (m : MReg) (x : BitVec 4096) : (setM w m x).tickets = w.tickets := rfl
@[simp] theorem setM_nextTicket (w : Worker) (m : MReg) (x : BitVec 4096) : (setM w m x).nextTicket = w.nextTicket := rfl
@[simp] theorem setM_srOrd (w : Worker) (m : MReg) (x : BitVec 4096) : (setM w m x).srOrd = w.srOrd := rfl
@[simp] theorem setM_elemStart (w : Worker) (m : MReg) (x : BitVec 4096) : (setM w m x).elemStart = w.elemStart := rfl
@[simp] theorem setM_stopped (w : Worker) (m : MReg) (x : BitVec 4096) : (setM w m x).stopped = w.stopped := rfl
@[simp] theorem setM_record (w : Worker) (m : MReg) (x : BitVec 4096) : (setM w m x).record = w.record := rfl
@[simp] theorem setM_gq (w : Worker) (m : MReg) (x : BitVec 4096) : (setM w m x).gq = w.gq := rfl
@[simp] theorem setM_gf (w : Worker) (m : MReg) (x : BitVec 4096) : (setM w m x).gf = w.gf := rfl
@[simp] theorem setM_latches (w : Worker) (m : MReg) (x : BitVec 4096) : (setM w m x).latches = w.latches := rfl
@[simp] theorem setM_nextSet (w : Worker) (m : MReg) (x : BitVec 4096) : (setM w m x).nextSet = w.nextSet := rfl
@[simp] theorem setM_wregs (w : Worker) (m : MReg) (x : BitVec 4096) : (setM w m x).wregs = w.wregs := rfl
@[simp] theorem setM_wf (w : Worker) (m : MReg) (x : BitVec 4096) : (setM w m x).wf = w.wf := rfl
@[simp] theorem setM_rseq (w : Worker) (m : MReg) (x : BitVec 4096) : (setM w m x).rseq = w.rseq := rfl
@[simp] theorem setM_rpend (w : Worker) (m : MReg) (x : BitVec 4096) : (setM w m x).rpend = w.rpend := rfl
@[simp] theorem setM_slots (w : Worker) (m : MReg) (x : BitVec 4096) : (setM w m x).slots = w.slots := rfl
@[simp] theorem setM_flags (w : Worker) (m : MReg) (x : BitVec 4096) : (setM w m x).flags = w.flags := rfl
@[simp] theorem setM_replBits (w : Worker) (m : MReg) (x : BitVec 4096) : (setM w m x).replBits = w.replBits := rfl
@[simp] theorem setM_l0 (w : Worker) (m : MReg) (x : BitVec 4096) : (setM w m x).l0 = w.l0 := rfl
@[simp] theorem setM_l0Bad (w : Worker) (m : MReg) (x : BitVec 4096) : (setM w m x).l0Bad = w.l0Bad := rfl
@[simp] theorem addF_run (w : Worker) (f n : Nat) : (addF w f n).run = w.run := rfl
@[simp] theorem addF_wait (w : Worker) (f n : Nat) : (addF w f n).wait = w.wait := rfl
@[simp] theorem addF_since (w : Worker) (f n : Nat) : (addF w f n).since = w.since := rfl
@[simp] theorem addF_pc (w : Worker) (f n : Nat) : (addF w f n).pc = w.pc := rfl
@[simp] theorem addF_loops (w : Worker) (f n : Nat) : (addF w f n).loops = w.loops := rfl
@[simp] theorem addF_s (w : Worker) (f n : Nat) : (addF w f n).s = w.s := rfl
@[simp] theorem addF_v (w : Worker) (f n : Nat) : (addF w f n).v = w.v := rfl
@[simp] theorem addF_t (w : Worker) (f n : Nat) : (addF w f n).t = w.t := rfl
@[simp] theorem addF_m (w : Worker) (f n : Nat) : (addF w f n).m = w.m := rfl
@[simp] theorem addF_vl (w : Worker) (f n : Nat) : (addF w f n).vl = w.vl := rfl
@[simp] theorem addF_acw (w : Worker) (f n : Nat) : (addF w f n).acw = w.acw := rfl
@[simp] theorem addF_asw (w : Worker) (f n : Nat) : (addF w f n).asw = w.asw := rfl
@[simp] theorem addF_tickets (w : Worker) (f n : Nat) : (addF w f n).tickets = w.tickets := rfl
@[simp] theorem addF_nextTicket (w : Worker) (f n : Nat) : (addF w f n).nextTicket = w.nextTicket := rfl
@[simp] theorem addF_srOrd (w : Worker) (f n : Nat) : (addF w f n).srOrd = w.srOrd := rfl
@[simp] theorem addF_elemStart (w : Worker) (f n : Nat) : (addF w f n).elemStart = w.elemStart := rfl
@[simp] theorem addF_stopped (w : Worker) (f n : Nat) : (addF w f n).stopped = w.stopped := rfl
@[simp] theorem addF_record (w : Worker) (f n : Nat) : (addF w f n).record = w.record := rfl
@[simp] theorem addF_gq (w : Worker) (f n : Nat) : (addF w f n).gq = w.gq := rfl
@[simp] theorem addF_gf (w : Worker) (f n : Nat) : (addF w f n).gf = w.gf := rfl
@[simp] theorem addF_latches (w : Worker) (f n : Nat) : (addF w f n).latches = w.latches := rfl
@[simp] theorem addF_nextSet (w : Worker) (f n : Nat) : (addF w f n).nextSet = w.nextSet := rfl
@[simp] theorem addF_wregs (w : Worker) (f n : Nat) : (addF w f n).wregs = w.wregs := rfl
@[simp] theorem addF_wf (w : Worker) (f n : Nat) : (addF w f n).wf = w.wf := rfl
@[simp] theorem addF_rseq (w : Worker) (f n : Nat) : (addF w f n).rseq = w.rseq := rfl
@[simp] theorem addF_rpend (w : Worker) (f n : Nat) : (addF w f n).rpend = w.rpend := rfl
@[simp] theorem addF_slots (w : Worker) (f n : Nat) : (addF w f n).slots = w.slots := rfl
@[simp] theorem addF_flags (w : Worker) (f n : Nat) : (addF w f n).flags = w.flags := rfl
@[simp] theorem addF_replBits (w : Worker) (f n : Nat) : (addF w f n).replBits = w.replBits := rfl
@[simp] theorem addF_l0 (w : Worker) (f n : Nat) : (addF w f n).l0 = w.l0 := rfl
@[simp] theorem addF_l0Bad (w : Worker) (f n : Nat) : (addF w f n).l0Bad = w.l0Bad := rfl
@[simp] theorem mergeAsw_run (w : Worker) (fl : Flags) : (mergeAsw w fl).run = w.run := rfl
@[simp] theorem mergeAsw_wait (w : Worker) (fl : Flags) : (mergeAsw w fl).wait = w.wait := rfl
@[simp] theorem mergeAsw_since (w : Worker) (fl : Flags) : (mergeAsw w fl).since = w.since := rfl
@[simp] theorem mergeAsw_pc (w : Worker) (fl : Flags) : (mergeAsw w fl).pc = w.pc := rfl
@[simp] theorem mergeAsw_loops (w : Worker) (fl : Flags) : (mergeAsw w fl).loops = w.loops := rfl
@[simp] theorem mergeAsw_s (w : Worker) (fl : Flags) : (mergeAsw w fl).s = w.s := rfl
@[simp] theorem mergeAsw_v (w : Worker) (fl : Flags) : (mergeAsw w fl).v = w.v := rfl
@[simp] theorem mergeAsw_t (w : Worker) (fl : Flags) : (mergeAsw w fl).t = w.t := rfl
@[simp] theorem mergeAsw_m (w : Worker) (fl : Flags) : (mergeAsw w fl).m = w.m := rfl
@[simp] theorem mergeAsw_vl (w : Worker) (fl : Flags) : (mergeAsw w fl).vl = w.vl := rfl
@[simp] theorem mergeAsw_acw (w : Worker) (fl : Flags) : (mergeAsw w fl).acw = w.acw := rfl
@[simp] theorem mergeAsw_f (w : Worker) (fl : Flags) : (mergeAsw w fl).f = w.f := rfl
@[simp] theorem mergeAsw_tickets (w : Worker) (fl : Flags) : (mergeAsw w fl).tickets = w.tickets := rfl
@[simp] theorem mergeAsw_nextTicket (w : Worker) (fl : Flags) : (mergeAsw w fl).nextTicket = w.nextTicket := rfl
@[simp] theorem mergeAsw_srOrd (w : Worker) (fl : Flags) : (mergeAsw w fl).srOrd = w.srOrd := rfl
@[simp] theorem mergeAsw_elemStart (w : Worker) (fl : Flags) : (mergeAsw w fl).elemStart = w.elemStart := rfl
@[simp] theorem mergeAsw_stopped (w : Worker) (fl : Flags) : (mergeAsw w fl).stopped = w.stopped := rfl
@[simp] theorem mergeAsw_record (w : Worker) (fl : Flags) : (mergeAsw w fl).record = w.record := rfl
@[simp] theorem mergeAsw_gq (w : Worker) (fl : Flags) : (mergeAsw w fl).gq = w.gq := rfl
@[simp] theorem mergeAsw_gf (w : Worker) (fl : Flags) : (mergeAsw w fl).gf = w.gf := rfl
@[simp] theorem mergeAsw_latches (w : Worker) (fl : Flags) : (mergeAsw w fl).latches = w.latches := rfl
@[simp] theorem mergeAsw_nextSet (w : Worker) (fl : Flags) : (mergeAsw w fl).nextSet = w.nextSet := rfl
@[simp] theorem mergeAsw_wregs (w : Worker) (fl : Flags) : (mergeAsw w fl).wregs = w.wregs := rfl
@[simp] theorem mergeAsw_wf (w : Worker) (fl : Flags) : (mergeAsw w fl).wf = w.wf := rfl
@[simp] theorem mergeAsw_rseq (w : Worker) (fl : Flags) : (mergeAsw w fl).rseq = w.rseq := rfl
@[simp] theorem mergeAsw_rpend (w : Worker) (fl : Flags) : (mergeAsw w fl).rpend = w.rpend := rfl
@[simp] theorem mergeAsw_slots (w : Worker) (fl : Flags) : (mergeAsw w fl).slots = w.slots := rfl
@[simp] theorem mergeAsw_flags (w : Worker) (fl : Flags) : (mergeAsw w fl).flags = w.flags := rfl
@[simp] theorem mergeAsw_replBits (w : Worker) (fl : Flags) : (mergeAsw w fl).replBits = w.replBits := rfl
@[simp] theorem mergeAsw_l0 (w : Worker) (fl : Flags) : (mergeAsw w fl).l0 = w.l0 := rfl
@[simp] theorem mergeAsw_l0Bad (w : Worker) (fl : Flags) : (mergeAsw w fl).l0Bad = w.l0Bad := rfl

end Sys2Proof.Laws
end

