-- ==== Sys2Proof/Laws/Access.lean ====
section
/-! SUPPORT. What sending a packet and accessing memory through the Pantries leave: no context but for the counters of the one that accesses. -/

namespace Sys2Proof.Laws

open Sys2Proof Sys2Proof.Machine

/-! ### Packets -/

@[simp] theorem setLink_ctxs (s : State) (p : Nat) (l : PortLink) : (setLink s p l).ctxs = s.ctxs := rfl

@[simp] theorem freeBuffer_ctxs (s : State) (f : TxFlit) : (freeBuffer s f).ctxs = s.ctxs := by
  unfold freeBuffer; split <;> rfl

@[simp] theorem portSend_ctxs (s : State) (p : Nat) (f : TxFlit) : (portSend s p f).ctxs = s.ctxs := rfl

theorem egress_ctxs {s t : State} {f : TxFlit} {p : Nat} {a : Option Nat} (e : egress s f = some (t, p, a)) : t.ctxs = s.ctxs := by
  unfold egress at e
  split at e <;> simp only [Option.map_eq_some_iff, Option.bind_eq_some_iff, Prod.mk.injEq] at e
  · obtain ⟨_, _, rfl, _⟩ := e; rfl
  · obtain ⟨_, _, _, _, rfl, _⟩ := e; rfl

@[simp] theorem routeFlit_ctxs (s : State) (f : TxFlit) : (routeFlit s f).ctxs = s.ctxs := by
  unfold routeFlit
  split
  · rfl
  · split
    · simp
    · next he => simpa using egress_ctxs he

/-- Sending a packet changes no context. -/
@[simp] theorem sendPkt_ctxs (s : State) (vc kind dest flow : Nat) (rp : Option RPkt) (cp : Option CPkt) :
    (sendPkt s vc kind dest flow rp cp).ctxs = s.ctxs := by
  unfold sendPkt launchFlit
  split <;> simp

@[simp] theorem sendMsg_ctxs (s : State) (vc dest : Nat) (m : Ctl) : (sendMsg s vc dest m).ctxs = s.ctxs := by
  unfold sendMsg launchFlit
  split <;> simp

/-! ### Accesses -/

/-- `t`, with context `d`, comes of accesses of context `c` on `s`: counters and Pantry lines alone have changed. -/
structure Accessed (s : State) (c : Context) (t : State) (d : Context) : Prop where
  ctxs    : t.ctxs = s.ctxs
  pending : t.pending = s.pending
  vmem    : d.vmem = c.vmem
  workers : d.workers = c.workers
  mod     : d.mod = c.mod
  lower   : d.lower = c.lower
  pages   : d.pages = c.pages

theorem Accessed.refl (s : State) (c : Context) : Accessed s c s c := ⟨rfl, rfl, rfl, rfl, rfl, rfl, rfl⟩

theorem Accessed.trans {s t u : State} {c d e : Context} (h : Accessed s c t d) (g : Accessed t d u e) : Accessed s c u e :=
  ⟨g.1.trans h.1, g.2.trans h.2, g.3.trans h.3, g.4.trans h.4, g.5.trans h.5, g.6.trans h.6, g.7.trans h.7⟩

/-- A fold of accesses is one. -/
theorem Accessed.fold {α : Type} {f : State × Context → α → State × Context} (hf : ∀ x a, Accessed x.1 x.2 (f x a).1 (f x a).2) (l : List α)
    (x : State × Context) : Accessed x.1 x.2 (l.foldl f x).1 (l.foldl f x).2 := by
  induction l generalizing x with
  | nil => exact .refl _ _
  | cons a l ih => exact (hf x a).trans (ih (f x a))

theorem accessed_count (s : State) (c : Context) (hit : Bool) (bytes busy : Nat) (ovf : Bool) : Accessed s c s (countLine c hit bytes busy ovf) := by
  unfold countLine
  dsimp only
  split <;> split <;> constructor <;> simp

theorem accessed_eincr (s : State) (c : Context) (k n : Nat) : Accessed s c s (eincr c k n) := by constructor <;> simp

theorem accessed_line (s : State) (c : Context) (a hint : Nat) (write : Bool) :
    Accessed s c (lineAccess s c a hint write).1 (lineAccess s c a hint write).2 :=
  let h := accessed_count s c (setAccess (waysOf s (setKey s c a / 1024)) (setLines s (setKey s c a)) (lineTag s c a) hint write).hit
    (setAccess (waysOf s (setKey s c a / 1024)) (setLines s (setKey s c a)) (lineTag s c a) hint write).bytes
    (setAccess (waysOf s (setKey s c a / 1024)) (setLines s (setKey s c a)) (lineTag s c a) hint write).bytes
    (setAccess (waysOf s (setKey s c a / 1024)) (setLines s (setKey s c a)) (lineTag s c a) hint write).ovf
  ⟨h.1, h.2, h.3, h.4, h.5, h.6, h.7⟩

theorem accessed_narrow (s : State) (c : Context) (a : Nat) (write : Bool) :
    Accessed s c (narrowAccess s c a write).1 (narrowAccess s c a write).2 := by
  unfold narrowAccess
  dsimp only
  have h := accessed_count s c (setAccess (waysOf s (setKey s c a / 1024)) (setLines s (setKey s c a)) (lineTag s c a) 0 write).hit
    (if (setAccess (waysOf s (setKey s c a / 1024)) (setLines s (setKey s c a)) (lineTag s c a) 0 write).hit then 0 else 32) 256 false
  have g := h.trans (accessed_eincr s _ 0x302009 1)
  exact ⟨g.1, g.2, g.3, g.4, g.5, g.6, g.7⟩

@[simp] theorem sendPkt_pending (s : State) (vc kind dest flow : Nat) (rp : Option RPkt) (cp : Option CPkt) :
    (sendPkt s vc kind dest flow rp cp).pending = s.pending := by
  have hf : ∀ (s : State) (f : TxFlit), (freeBuffer s f).pending = s.pending := fun s f => by unfold freeBuffer; split <;> rfl
  unfold sendPkt launchFlit
  split
  · simp
  · unfold routeFlit
    split
    · rfl
    · split
      · simp [hf]
      · next he =>
        unfold egress at he
        split at he <;> simp only [Option.map_eq_some_iff, Option.bind_eq_some_iff, Prod.mk.injEq] at he
        · obtain ⟨_, _, rfl, _⟩ := he; rfl
        · obtain ⟨_, _, _, _, rfl, _⟩ := he; rfl

theorem accessed_peer (s : State) (id : Nat) (c : Context) (a : Nat) (write : Bool) :
    Accessed s c (peerLine s id c a write).1 (peerLine s id c a write).2 := by
  unfold peerLine
  constructor <;> simp

/-- The accesses of a view's elements. -/
theorem accessed_view (s : State) (c : Context) (cl : Nat) (v : View) (is : List Nat) (write indexed : Bool) :
    Accessed s c (viewAccess s c cl v is write indexed).1 (viewAccess s c cl v is write indexed).2 := by
  unfold viewAccess
  dsimp only
  split
  · exact .refl _ _
  · split
    · exact Accessed.fold (fun x a => accessed_peer x.1 _ x.2 _ _) _ (s, c)
    · split
      · exact Accessed.fold (fun x a => accessed_narrow x.1 x.2 _ _) _ (s, c)
      · exact Accessed.fold (fun x a => accessed_line x.1 x.2 _ _ _) _ (s, c)

/-- The accesses of a move. -/
theorem accessed_move (s : State) (c : Context) (cl : Nat) (fmt : Fmt) (ts : List Touched) :
    Accessed s c (moveAccess s c cl fmt ts).1 (moveAccess s c cl fmt ts).2 := by
  unfold moveAccess
  exact (accessed_eincr s c _ _).trans (Accessed.fold (fun x a => accessed_view x.1 x.2 _ _ _ _ _) _ (s, _))

/-- The accesses of a Whisk op. -/
theorem accessed_whisk (s : State) (c : Context) (cl : Nat) (k : Worker) (op : WOp) (is : List Nat) :
    Accessed s c (whiskAccess s c cl k op is).1 (whiskAccess s c cl k op is).2 := by
  unfold whiskAccess
  dsimp only
  split
  · exact ((accessed_view _ _ _ _ _ _ _).trans (accessed_view _ _ _ _ _ _ _)).trans (accessed_view _ _ _ _ _ _ _)
  · exact ((accessed_view _ _ _ _ _ _ _).trans (accessed_view _ _ _ _ _ _ _)).trans (accessed_view _ _ _ _ _ _ _)
  · exact (accessed_view _ _ _ _ _ _ _).trans (accessed_view _ _ _ _ _ _ _)
  · exact (Accessed.fold (fun x a => accessed_view x.1 x.2 _ _ _ _ _) _ (s, c)).trans (Accessed.fold (fun x a => accessed_view x.1 x.2 _ _ _ _ _) _ _)

/-- Dropping pages from the Pantries changes no context. -/
@[simp] theorem dropPages_ctxs (s : State) (c : Context) (ps : List Nat) : (dropPages s c ps).ctxs = s.ctxs := by
  unfold dropPages
  generalize hs : s.pkg.pantry = l
  clear hs
  have : ∀ (t : State), (l.foldl (fun s p => setSet s p.1 (p.2.filter (fun l => !decide (lineSpot p.1 l ∈ ps.map (pageSpot s c))))) t).ctxs = t.ctxs := by
    induction l with
    | nil => intro t; rfl
    | cons a l ih => intro t; rw [List.foldl_cons, ih]; rfl
  exact this s

/-- The registers that an op's form loads are the only thing of a worker that loading changes. -/
theorem loadGroups_spec (c : Context) (cl : Nat) (k : Worker) (op : WOp) : ∃ x, loadGroups c cl k op = { k with wregs := x } := by
  unfold loadGroups
  simp only [List.foldl_cons, List.foldl_nil]
  split <;> split <;> exact ⟨_, rfl⟩

end Sys2Proof.Laws
end

