-- ==== Sys2Proof/Laws/Tables.lean ====
section
/-! SUPPORT. Tables and memories: reads after writes, and that every operation keeps the canonical form. -/

namespace Sys2Proof.Laws

open Sys2Proof Sys2Proof.Machine

/-! ### Reads after writes -/

theorem tget_terase_self {α : Type} (d : α) (m : Tbl α) (k : Nat) : tget d (terase m k) k = d := by
  induction m with
  | nil => rfl
  | cons p m ih =>
    by_cases h : p.1 = k
    · simpa [terase, h] using ih
    · simpa [terase, h, tget] using ih

theorem tget_terase_ne {α : Type} (d : α) (m : Tbl α) (k q : Nat) (h : q ≠ k) : tget d (terase m k) q = tget d m q := by
  induction m with
  | nil => rfl
  | cons p m ih =>
    by_cases hk : p.1 = k
    · have hq : ¬ k = q := fun e => h e.symm
      simpa [terase, hk, tget, hq] using ih
    · by_cases hq : p.1 = q <;> simp_all [terase, tget]

theorem tget_tinsert_self {α : Type} (d : α) (m : Tbl α) (k : Nat) (v : α) (h : ∀ p ∈ m, p.1 ≠ k) :
    tget d (tinsert m k v) k = v := by
  induction m with
  | nil => simp [tinsert, tget]
  | cons p m ih =>
    by_cases hlt : k < p.1
    · simp [tinsert, hlt, tget]
    · have hp := h p (by simp)
      simpa [tinsert, hlt, tget, hp] using ih (fun q hq => h q (by simp [hq]))

theorem tget_tinsert_ne {α : Type} (d : α) (m : Tbl α) (k q : Nat) (v : α) (h : q ≠ k) :
    tget d (tinsert m k v) q = tget d m q := by
  have hk : ¬ k = q := fun e => h e.symm
  induction m with
  | nil => simp [tinsert, tget, hk]
  | cons p m ih =>
    by_cases hlt : k < p.1
    · simp [tinsert, hlt, tget, hk]
    · simp only [tinsert, hlt, if_false, tget, ih]

theorem terase_keys {α : Type} (m : Tbl α) (k : Nat) : ∀ p ∈ terase m k, p.1 ≠ k := by
  intro p hp
  simp only [terase, List.mem_filter, decide_eq_true_eq] at hp
  exact hp.2

/-- A table read after one write. -/
theorem tget_tset {α : Type} [DecidableEq α] (d : α) (m : Tbl α) (k q : Nat) (v : α) :
    tget d (tset d m k v) q = if q = k then v else tget d m q := by
  by_cases h : q = k
  · subst h
    by_cases hv : v = d
    · simp [tset, hv, tget_terase_self]
    · simp only [tset, hv, if_false, if_true]
      exact tget_tinsert_self d _ q v (terase_keys m q)
  · by_cases hv : v = d
    · simp [tset, hv, h, tget_terase_ne]
    · simp [tset, hv, h, tget_tinsert_ne, tget_terase_ne]

@[simp] theorem tget_tset_self {α : Type} [DecidableEq α] (d : α) (m : Tbl α) (k : Nat) (v : α) :
    tget d (tset d m k v) k = v := by simp [tget_tset]

theorem tget_tset_ne {α : Type} [DecidableEq α] (d : α) (m : Tbl α) (k q : Nat) (v : α) (h : q ≠ k) :
    tget d (tset d m k v) q = tget d m q := by simp [tget_tset, h]

/-- A write leaves every other key, whatever default each side takes. -/
theorem tget_tset_other {α : Type} [DecidableEq α] (d e : α) (m : Tbl α) (k q : Nat) (v : α) (h : q ≠ k) :
    tget d (tset e m k v) q = tget d m q := by
  unfold tset
  split
  · exact tget_terase_ne d m k q h
  · rw [tget_tinsert_ne d _ k q v h, tget_terase_ne d m k q h]

/-- A byte read after one byte is stored. -/
theorem rdByte_wrByte (m : Mem) (a q : Nat) (b : BitVec 8) : rdByte (wrByte m a b) q = if q = a then b else rdByte m q :=
  tget_tset 0 m a q b

/-- A byte outside a stored string stays. -/
theorem rdByte_wrBytes_outside (m : Mem) (a q : Nat) (bs : List (BitVec 8)) (h : q < a ∨ a + bs.length ≤ q) :
    rdByte (wrBytes m a bs) q = rdByte m q := by
  induction bs generalizing m a with
  | nil => rfl
  | cons b bs ih =>
    simp only [List.length_cons] at h
    have hne : q ≠ a := by omega
    rw [wrBytes, ih (wrByte m a b) (a + 1) (by omega), rdByte_wrByte, if_neg hne]

/-- Byte `i` of a stored string. -/
theorem rdByte_wrBytes_inside (m : Mem) (a i : Nat) (bs : List (BitVec 8)) (h : i < bs.length) :
    rdByte (wrBytes m a bs) (a + i) = bs.getD i 0 := by
  induction bs generalizing m a i with
  | nil => simp at h
  | cons b bs ih =>
    cases i with
    | zero => rw [wrBytes, rdByte_wrBytes_outside _ _ _ _ (by omega)]; simp [rdByte_wrByte]
    | succ i =>
      have : a + (i + 1) = a + 1 + i := by omega
      simpa [wrBytes, this] using ih (wrByte m a b) (a + 1) i (by simpa using h)

theorem tget_filter {α : Type} (d : α) (m : Tbl α) (p : Nat → Bool) (k : Nat) :
    tget d (m.filter (fun x => p x.1)) k = if p k then tget d m k else d := by
  induction m with
  | nil => simp [tget]
  | cons x m ih =>
    by_cases hx : p x.1 = true <;> by_cases hk : x.1 = k <;> by_cases hp : p k = true <;> simp_all [tget, List.filter]

/-- A byte after a range was cleared. -/
theorem rdByte_zeroRange (m : Mem) (lo n q : Nat) :
    rdByte (zeroRange m lo n) q = if q < lo ∨ lo + n ≤ q then rdByte m q else 0 := by
  have := tget_filter (0 : BitVec 8) m (fun a => decide (a < lo ∨ lo + n ≤ a)) q
  simpa [rdByte, zeroRange] using this

/-! ### The canonical form -/

theorem tsorted_filter {α : Type} (m : Tbl α) (p : Nat × α → Bool) (h : tsorted m = true) : tsorted (m.filter p) = true := by
  induction m with
  | nil => rfl
  | cons x m ih =>
    simp only [tsorted, Bool.and_eq_true] at h
    have hall : (m.filter p).all (fun q => decide (x.1 < q.1)) = true := by
      rw [List.all_eq_true] at h ⊢
      exact fun q hq => h.1 q (List.mem_of_mem_filter hq)
    by_cases hx : p x = true
    · simp [List.filter, hx, tsorted, hall, ih h.2]
    · simp [List.filter, hx, ih h.2]

theorem mem_tinsert {α : Type} (m : Tbl α) (k : Nat) (v : α) (p : Nat × α) (h : p ∈ tinsert m k v) : p = (k, v) ∨ p ∈ m := by
  induction m with
  | nil => simpa [tinsert] using h
  | cons x m ih =>
    by_cases hlt : k < x.1
    · simpa [tinsert, hlt] using h
    · simp only [tinsert, hlt, if_false, List.mem_cons] at h
      rcases h with h | h
      · simp [h]
      · rcases ih h with h | h <;> simp [h]

theorem tsorted_tinsert {α : Type} (m : Tbl α) (k : Nat) (v : α) (h : tsorted m = true) (hk : ∀ p ∈ m, p.1 ≠ k) :
    tsorted (tinsert m k v) = true := by
  induction m with
  | nil => rfl
  | cons x m ih =>
    have hs := h
    simp only [tsorted, Bool.and_eq_true, List.all_eq_true, decide_eq_true_eq] at h
    by_cases hlt : k < x.1
    · simp only [tinsert, hlt, if_true]
      rw [tsorted, hs, Bool.and_true, List.all_eq_true]
      intro q hq
      simp only [List.mem_cons] at hq
      rcases hq with hq | hq
      · simpa [hq] using hlt
      · simpa using Nat.lt_trans hlt (h.1 q hq)
    · have hx := hk x (by simp)
      simp only [tinsert, hlt, if_false, tsorted, Bool.and_eq_true, List.all_eq_true, decide_eq_true_eq]
      refine ⟨fun q hq => ?_, ih h.2 (fun p hp => hk p (by simp [hp]))⟩
      rcases mem_tinsert m k v q hq with hq | hq
      · subst hq; show x.1 < k; omega
      · exact h.1 q hq

theorem mem_tset {α : Type} [DecidableEq α] (d : α) (m : Tbl α) (k : Nat) (v : α) (p : Nat × α) (h : p ∈ tset d m k v) :
    (p = (k, v) ∧ v ≠ d) ∨ (p ∈ m ∧ p.1 ≠ k) := by
  by_cases hv : v = d
  · simp only [tset, hv, if_true, terase, List.mem_filter, decide_eq_true_eq] at h
    exact Or.inr h
  · simp only [tset, hv, if_false] at h
    rcases mem_tinsert _ _ _ _ h with h | h
    · exact Or.inl ⟨h, hv⟩
    · simp only [terase, List.mem_filter, decide_eq_true_eq] at h
      exact Or.inr h

theorem tsorted_tset {α : Type} [DecidableEq α] (d : α) (m : Tbl α) (k : Nat) (v : α) (h : tsorted m = true) :
    tsorted (tset d m k v) = true := by
  have he : tsorted (terase m k) = true := tsorted_filter m _ h
  by_cases hv : v = d
  · simpa [tset, hv] using he
  · simpa [tset, hv] using tsorted_tinsert _ _ _ he (terase_keys m k)

/-- A write keeps a table's canonical form. -/
theorem twf_tset {α : Type} [DecidableEq α] (d : Nat → α) (m : Tbl α) (k : Nat) (v : α) (h : twf d m = true) :
    twf d (tset (d k) m k v) = true := by
  simp only [twf, Bool.and_eq_true, List.all_eq_true, decide_eq_true_eq] at h ⊢
  refine ⟨tsorted_tset _ _ _ _ h.1, fun p hp => ?_⟩
  rcases mem_tset _ _ _ _ p hp with hp | hp
  · rw [hp.1]; exact hp.2
  · exact h.2 p hp.1

/-- Storing a byte keeps a memory's canonical form. -/
theorem memory_wf_wrByte (m : Mem) (a : Nat) (b : BitVec 8) (h : Memory.wf m = true) : Memory.wf (wrByte m a b) = true :=
  twf_tset (fun _ => 0) m a b h

/-- Storing a byte string keeps it. -/
theorem memory_wf_wrBytes (m : Mem) (a : Nat) (bs : List (BitVec 8)) (h : Memory.wf m = true) :
    Memory.wf (wrBytes m a bs) = true := by
  induction bs generalizing m a with
  | nil => exact h
  | cons b bs ih => exact ih _ _ (memory_wf_wrByte m a b h)

/-- Clearing a range keeps it. -/
theorem memory_wf_zeroRange (m : Mem) (lo n : Nat) (h : Memory.wf m = true) : Memory.wf (zeroRange m lo n) = true := by
  simp only [Memory.wf, twf, Bool.and_eq_true, List.all_eq_true, decide_eq_true_eq] at h ⊢
  exact ⟨tsorted_filter m _ h.1, fun p hp => h.2 p (List.mem_of_mem_filter hp)⟩

end Sys2Proof.Laws
end

