-- ==== Sys2Proof/Laws/Kept.lean ====
section
/-! SUPPORT. What every operation leaves alone, said once: it does not touch the queue of waiting commands, and it keeps the
dictionary's values, the change counters and the tables sound. `Kept` and its closure lemmas, then one lemma per operation over entries,
fabric, log, capture and replica: `kept_<operation>`. -/

namespace Sys2Proof.Laws

open Sys2Proof Sys2Proof.Machine

set_option linter.all false
set_option linter.unusedSimpArgs false
set_option linter.unnecessarySeqFocus false
set_option linter.unusedTactic false
set_option linter.unreachableTactic false

/-- `t` comes from `s` by operations that leave the queue alone and keep the dictionary's values sound. -/
def Kept (s t : State) : Prop := t.pending = s.pending ∧ (Sound s → Sound t)

/-- The same of a write that may be refused. -/
structure KeptE (s : State) (e : Except Nat State) : Prop where
  all : ∀ t, e = .ok t → Kept s t

/-- The same of the outcome of a presented op. -/
def KeptR (s : State) : OpRes → Prop
  | .done t _ _ => Kept s t
  | .jump t _ _ => Kept s t
  | .wait t _ _ _ => Kept s t
  | .halt t _ _ _ _ _ _ _ => Kept s t

/-- The same of the outcome of a context command. -/
def KeptC (s : State) : CmdRes → Prop
  | .done t _ => Kept s t
  | .fail _ _ => True
  | .long t => Kept s t

theorem Kept.refl (s : State) : Kept s s := ⟨rfl, id⟩

theorem Kept.trans {s t u : State} (h : Kept s t) (g : Kept t u) : Kept s u := ⟨g.1.trans h.1, fun x => g.2 (h.2 x)⟩

/-- An update of any field but the queue, the entries, their counters and the contexts. -/
theorem Kept.upd {s t : State} {a b : Nat} {c : SolvState} {d : Tbl Plant} {e : EthState} {f : FabState} {g : CkptState} {i : WenState}
    {j : PkgState} (h : Kept s t) : Kept s ⟨t.pending, a, b, t.ent, t.snap, t.ctxs, c, d, e, f, g, i, j⟩ := h

theorem kept_upd {s t : State} {a b : Nat} {c : SolvState} {d : Tbl Plant} {e : EthState} {f : FabState} {g : CkptState} {i : WenState}
    {j : PkgState} : Kept s ⟨t.pending, a, b, t.ent, t.snap, t.ctxs, c, d, e, f, g, i, j⟩ = Kept s t := rfl

theorem keptR_done {s t : State} {c : Context} {w : Worker} : KeptR s (.done t c w) = Kept s t := rfl

theorem keptR_jump {s t : State} {c : Context} {w : Worker} : KeptR s (.jump t c w) = Kept s t := rfl

theorem keptR_wait {s t : State} {c : Context} {w : Worker} {y : WaitWhy} : KeptR s (.wait t c w y) = Kept s t := rfl

theorem keptR_halt {s t : State} {c : Context} {w : Worker} {a b d : Nat} {e : BitVec 256} {f : Option UnitEvent} :
    KeptR s (.halt t c w a b d e f) = Kept s t := rfl

theorem keptC_done {s t : State} {n : Nat} : KeptC s (.done t n) = Kept s t := rfl

theorem keptC_fail {s : State} {m n : Nat} : KeptC s (.fail m n) = True := rfl

theorem keptC_long {s t : State} : KeptC s (.long t) = Kept s t := rfl

theorem Kept.noCtxs {s t : State} {a b : Nat} {c : SolvState} {d : Tbl Plant} {e : EthState} {f : FabState} {g : CkptState} {i : WenState}
    {j : PkgState} (h : Kept s t) : Kept s ⟨t.pending, a, b, t.ent, t.snap, [], c, d, e, f, g, i, j⟩ :=
  ⟨h.1, fun x => ⟨(h.2 x).1, (h.2 x).2.1, (h.2 x).2.2.1, (h.2 x).2.2.2.1, rfl⟩⟩

theorem tsorted_map {α β : Type} (m : Tbl α) (f : Nat × α → β) : tsorted (m.map (fun p => (p.1, f p))) = tsorted m := by
  induction m with
  | nil => rfl
  | cons p m ih => simp only [List.map_cons, tsorted, ih, List.all_map]; rfl

theorem Kept.mapCtxs {s t : State} {a b : Nat} {c : SolvState} {d : Tbl Plant} {e : EthState} {f : FabState} {g : CkptState} {i : WenState}
    {j : PkgState} {u : Nat × Context → Context} (h : Kept s t) :
    Kept s ⟨t.pending, a, b, t.ent, t.snap, t.ctxs.map (fun p => (p.1, u p)), c, d, e, f, g, i, j⟩ :=
  ⟨h.1, fun x => ⟨(h.2 x).1, (h.2 x).2.1, (h.2 x).2.2.1, (h.2 x).2.2.2.1, (tsorted_map t.ctxs u).trans (h.2 x).2.2.2.2⟩⟩

theorem Kept.ite {s a b : State} {p : Prop} [Decidable p] (h : Kept s a) (g : Kept s b) : Kept s (if p then a else b) := by
  split <;> assumption

/-- A fold keeps what each of its steps keeps. -/
theorem Kept.foldl {α : Type} {s t : State} {f : State → α → State} {l : List α} (hf : ∀ t a, Kept s t → Kept s (f t a)) (h : Kept s t) :
    Kept s (l.foldl f t) := by
  induction l generalizing t with
  | nil => exact h
  | cons a l ih => exact ih (hf t a h)

theorem Kept.foldlFst {α β : Type} {s : State} {t : State × β} {f : State × β → α → State × β} {l : List α}
    (hf : ∀ t a, Kept s t.1 → Kept s (f t a).1) (h : Kept s t.1) : Kept s (l.foldl f t).1 := by
  induction l generalizing t with
  | nil => exact h
  | cons a l ih => exact ih (hf t a h)

/-- The state of a pair. -/
theorem Kept.fst {β : Type} {s t : State} {x : β} {p : State × β} (e : p = (t, x)) (h : Kept s p.1) : Kept s t := by
  rw [e] at h; exact h

theorem Kept.snd {β : Type} {s t : State} {x : β} {p : β × State} (e : p = (x, t)) (h : Kept s p.2) : Kept s t := by
  rw [e] at h; exact h

theorem KeptE.get {s t : State} {e : Except Nat State} (h : e = .ok t) (g : KeptE s e) : Kept s t := g.all t h

theorem KeptE.ok {s t : State} (h : Kept s t) : KeptE s (.ok t) := by
  exact ⟨fun u e => by injection e with e; subst e; exact h⟩

theorem KeptE.error {s : State} {c : Nat} : KeptE s (.error c) := by
  exact ⟨fun u e => by cases e⟩

theorem KeptE.map {s : State} {e : Except Nat State} {f : State → State} (hf : ∀ t, Kept s t → Kept s (f t)) (h : KeptE s e) :
    KeptE s (e.map f) := by
  cases e with
  | error c => exact KeptE.error
  | ok t => exact KeptE.ok (hf t (h.all t rfl))

/-! ### The named operations over entries and contexts -/

theorem kept_setC {s0 s : State} {id : Nat} {c : Context} (h : Kept s0 s) : Kept s0 (setC s id c) :=
  ⟨h.1, fun x => ⟨(h.2 x).1, (h.2 x).2.1, (h.2 x).2.2.1, (h.2 x).2.2.2.1, tsorted_tset _ _ _ _ (h.2 x).2.2.2.2⟩⟩

theorem kept_bumpSnap {s0 s : State} {k : Nat} (h : Kept s0 s) : Kept s0 (bumpSnap s k) := by
  refine ⟨h.1, fun x => ⟨(h.2 x).1, (h.2 x).2.1, twf_tset (fun _ => 0) _ _ _ (h.2 x).2.2.1, fun p hp => ?_, (h.2 x).2.2.2.2⟩⟩
  rcases mem_tset _ _ _ _ p hp with hp | hp
  · rw [hp.1]; exact Nat.mod_lt _ (by decide)
  · exact (h.2 x).2.2.2.1 p hp.1

theorem fitEntry_fitEntry (k v : Nat) : fitEntry k (fitEntry k v) = fitEntry k v := by
  unfold fitEntry; split <;> simp

theorem kept_wrHost {s0 s : State} {k v : Nat} (h : Kept s0 s) : Kept s0 (wrHost s k v) := by
  refine kept_bumpSnap ⟨h.1, fun x => ⟨twf_tset _ _ _ _ (h.2 x).1, fun p hp => ?_, (h.2 x).2.2.1, (h.2 x).2.2.2.1, (h.2 x).2.2.2.2⟩⟩
  rcases mem_tset _ _ _ _ p hp with hp | hp
  · rw [hp.1]; exact fitEntry_fitEntry k v
  · exact (h.2 x).2.1 p hp.1

theorem kept_wr {s0 s : State} {k v : Nat} (h : Kept s0 s) : Kept s0 (wr s k v) := by
  unfold wr; split
  · exact h
  · exact kept_wrHost h

theorem kept_incr {s0 s : State} {k n : Nat} (h : Kept s0 s) : Kept s0 (incr s k n) := kept_wr h

theorem kept_modC {s0 s : State} {id : Nat} {f : Context → Context} (h : Kept s0 s) : Kept s0 (modC s id f) := kept_setC h

theorem kept_drawNat {s0 s : State} (h : Kept s0 s) : Kept s0 (drawNat s).2 := h

theorem kept_drawBytes {s0 s : State} {n : Nat} (h : Kept s0 s) : Kept s0 (drawBytes s n).2 := h

/-! ### Ops -/

theorem kept_applyOp {s0 : State} {s : State} (h : Kept s0 s) : Kept s0 (applyOp s) := by
  unfold applyOp
  (try dsimp only); repeat' (first
      | with_reducible assumption | intro _ | with_reducible apply kept_wr | simp only [kept_upd]
      | (with_reducible refine Kept.fst (by assumption) ?_) | (with_reducible refine Kept.snd (by assumption) ?_)
      | (with_reducible refine KeptE.get (by assumption) ?_) | split | dsimp only)

theorem kept_settleOp {s0 : State} {s : State} (h : Kept s0 s) : Kept s0 (settleOp s) := by
  unfold settleOp
  (try dsimp only); repeat' (first
      | with_reducible assumption | intro _ | with_reducible apply kept_applyOp | simp only [kept_upd]
      | (with_reducible refine Kept.fst (by assumption) ?_) | (with_reducible refine Kept.snd (by assumption) ?_)
      | (with_reducible refine KeptE.get (by assumption) ?_) | split | dsimp only)

theorem kept_logRec {s0 : State} {s : State} {r : FaultRec} {lost : Bool} (h : Kept s0 s) : Kept s0 (logRec s r lost) := by
  unfold logRec
  (try dsimp only); repeat' (first
      | with_reducible assumption | intro _ | with_reducible apply kept_bumpSnap | with_reducible apply kept_incr
      | simp only [kept_upd] | split | dsimp only)

theorem kept_logFault {s0 : State} {s : State} {die cls unit code ctx step : Nat} {detail : BitVec 256} (h : Kept s0 s) : Kept s0 (logFault s die cls unit code ctx step detail) := by
  unfold logFault
  (try dsimp only); repeat' (first | with_reducible assumption | intro _ | with_reducible apply kept_logRec | split | dsimp only)

theorem kept_raiseEvent {s0 : State} {s : State} {die : Nat} {r : FaultRec} {ev : Option UnitEvent} {jobEnding : Bool} (h : Kept s0 s) : Kept s0 (raiseEvent s die r ev jobEnding) := by
  unfold raiseEvent
  (try dsimp only); repeat' (first
      | with_reducible assumption | intro _ | with_reducible apply kept_incr | simp only [kept_upd] | split | dsimp only)

theorem kept_setStream {s0 : State} {s : State} {mgmt : Bool} {id : Nat} {e : Stream} (h : Kept s0 s) : Kept s0 (setStream s mgmt id e) := by
  unfold setStream
  (try dsimp only); repeat' (first | with_reducible assumption | intro _ | simp only [kept_upd] | split | dsimp only)

theorem kept_sendRoce {s0 : State} {s : State} {ctx : Nat} {bs : List Byte} (h : Kept s0 s) : Kept s0 (sendRoce s ctx bs) := by
  unfold sendRoce
  (try dsimp only); repeat' (first | with_reducible assumption | intro _ | simp only [kept_upd] | split | dsimp only)

theorem kept_sendVia {s0 : State} {s : State} {mgmt : Bool} {id opcode : Nat} {bytes : List Byte} {relay : Option (Nat × Nat)} (h : Kept s0 s) : Kept s0 (sendVia s mgmt id opcode bytes relay).1 := by
  unfold sendVia
  (try dsimp only); repeat' (first
      | with_reducible assumption | intro _ | with_reducible apply kept_setStream | simp only [kept_upd] | split | dsimp only)

theorem kept_sendDg {s0 : State} {s : State} {mgmt : Bool} {id opcode : Nat} {bytes : List Byte} (h : Kept s0 s) : Kept s0 (sendDg s mgmt id opcode bytes).1 := by
  unfold sendDg
  (try dsimp only); repeat' (first | with_reducible assumption | intro _ | with_reducible apply kept_sendVia | split | dsimp only)

theorem kept_complete {s0 : State} {s : State} {mgmt : Bool} {id : Nat} {h0 : DgHdr} {status detail : Nat} {extra : List Byte} (h : Kept s0 s) : Kept s0 (complete s mgmt id h0 status detail extra) := by
  unfold complete
  (try dsimp only); repeat' (first
      | with_reducible assumption | intro _ | with_reducible apply kept_sendVia | simp only [kept_upd] | split | dsimp only)

theorem kept_cutSegment {s0 : State} {s : State} (h : Kept s0 s) : Kept s0 (cutSegment s) := by
  unfold cutSegment
  (try dsimp only); repeat' (first
      | with_reducible assumption | intro _ | with_reducible apply kept_sendRoce | simp only [kept_upd] | split | dsimp only)

theorem kept_appendRec {s0 : State} {s : State} {type step key ts : Nat} {data : List Byte} (h : Kept s0 s) : Kept s0 (appendRec s type step key ts data).1 := by
  unfold appendRec
  (try dsimp only); repeat' (first
      | with_reducible assumption | intro _ | with_reducible apply kept_wr | with_reducible apply kept_cutSegment
      | simp only [kept_upd] | split | dsimp only)

theorem kept_recordEnded {s0 : State} {s : State} {b : BusyCmd} {status : Nat} (h : Kept s0 s) : Kept s0 (recordEnded s b status) := by
  unfold recordEnded
  (try dsimp only); repeat' (first
      | with_reducible assumption | intro _ | with_reducible apply kept_appendRec | simp only [kept_upd] | split | dsimp only)

theorem kept_endBusy {s0 : State} {s : State} {bs : List BusyCmd} {status detail : Nat} (h : Kept s0 s) : Kept s0 (endBusy s bs status detail) := by
  unfold endBusy
  (try dsimp only); repeat' (first
      | with_reducible assumption | intro _ | with_reducible apply kept_recordEnded | with_reducible apply kept_complete
      | with_reducible refine Kept.foldl ?_ ?_ | with_reducible refine Kept.foldlFst ?_ ?_ | split | dsimp only)

theorem kept_completeHeld {s0 : State} {s : State} {h0 : HeldCmd} {status detail : Nat} (h : Kept s0 s) : Kept s0 (completeHeld s h0 status detail) := by
  unfold completeHeld
  (try dsimp only); repeat' (first
      | with_reducible assumption | intro _ | with_reducible apply kept_setStream | with_reducible apply kept_complete
      | simp only [kept_upd] | split | dsimp only)

theorem kept_flushStream {s0 : State} {s : State} {mgmt : Bool} {id status detail : Nat} {keep : Bool} (h : Kept s0 s) : Kept s0 (flushStream s mgmt id status detail keep) := by
  unfold flushStream
  (try dsimp only); repeat' (first
      | with_reducible assumption | intro _ | with_reducible apply kept_endBusy | with_reducible apply kept_completeHeld
      | simp only [kept_upd] | with_reducible refine Kept.foldl ?_ ?_ | with_reducible refine Kept.foldlFst ?_ ?_ | split
      | dsimp only)

theorem kept_sendNotice {s0 : State} {s : State} {id kind detail : Nat} (h : Kept s0 s) : Kept s0 (sendNotice s id kind detail) := by
  unfold sendNotice
  (try dsimp only); repeat' (first | with_reducible assumption | intro _ | with_reducible apply kept_sendDg | split | dsimp only)

theorem kept_haltStreams {s0 : State} {s : State} {ctx code : Nat} {keep : Option Nat} (h : Kept s0 s) : Kept s0 (haltStreams s ctx code keep) := by
  unfold haltStreams
  (try dsimp only); repeat' (first
      | with_reducible assumption | intro _ | with_reducible apply kept_sendNotice | with_reducible apply kept_flushStream
      | with_reducible apply kept_setStream | simp only [kept_upd] | with_reducible refine Kept.foldl ?_ ?_
      | with_reducible refine Kept.foldlFst ?_ ?_ | split | dsimp only)

theorem kept_addFence {s0 : State} {s : State} {a : FenceAct} (h : Kept s0 s) : Kept s0 (addFence s a) := by
  unfold addFence
  (try dsimp only); repeat' (first | with_reducible assumption | intro _ | simp only [kept_upd] | split | dsimp only)

theorem kept_haltCtx {s0 : State} {s : State} {ctx code : Nat} {stream : Option Nat} (h : Kept s0 s) : Kept s0 (haltCtx s ctx code stream) := by
  unfold haltCtx
  (try dsimp only); repeat' (first
      | with_reducible assumption | intro _ | with_reducible apply kept_addFence | with_reducible apply kept_modC
      | with_reducible apply kept_haltStreams | simp only [kept_upd] | split | dsimp only)

theorem kept_haltWorker {s0 : State} {s : State} {id cl : Nat} {c : Context} {w : Worker} {code cls rcode : Nat} {detail : BitVec 256} {ev : Option UnitEvent} (h : Kept s0 s) : Kept s0 (haltWorker s id cl c w code cls rcode detail ev) := by
  unfold haltWorker
  (try dsimp only); repeat' (first
      | with_reducible assumption | intro _ | with_reducible apply kept_setC | with_reducible apply kept_raiseEvent
      | with_reducible apply kept_haltCtx | simp only [kept_upd] | split | dsimp only)

theorem kept_unitFault {s0 : State} {s : State} {die unit ctx : Nat} {ev : Option UnitEvent} {detail : BitVec 256} (h : Kept s0 s) : Kept s0 (unitFault s die unit ctx ev detail) := by
  unfold unitFault
  (try dsimp only); repeat' (first
      | with_reducible assumption | intro _ | with_reducible apply kept_haltCtx | with_reducible apply kept_raiseEvent | split
      | dsimp only)

/-- Meeting an outcome keeps what the outcome keeps. -/
theorem kept_applyRes {s0 : State} {id cl ext : Nat} {r : OpRes} (h : KeptR s0 r) : Kept s0 (applyRes id cl ext r) := by
  cases r
  · exact kept_setC h
  · exact kept_setC h
  · exact kept_setC h
  · exact kept_haltWorker h

theorem kept_holdPage {s0 : State} {s : State} {id p : Nat} (h : Kept s0 s) : Kept s0 (holdPage s id p) := by
  unfold holdPage
  (try dsimp only); repeat' (first | with_reducible assumption | intro _ | simp only [kept_upd] | split | dsimp only)

theorem kept_noteHeld {s0 : State} {s : State} {ps : List Nat} (h : Kept s0 s) : Kept s0 (noteHeld s ps) := by
  unfold noteHeld
  (try dsimp only); repeat' (first
      | with_reducible assumption | intro _ | with_reducible apply kept_holdPage | with_reducible refine Kept.foldl ?_ ?_
      | with_reducible refine Kept.foldlFst ?_ ?_ | split | dsimp only)

theorem kept_pageWait {s0 : State} {s : State} {c : Context} {cl : Nat} {k : Worker} {v : View} {n : Nat} {more : List Nat} (h : Kept s0 s) : KeptR s0 (pageWait s c cl k v n more) := by
  unfold pageWait
  (try dsimp only); repeat' (first
      | with_reducible assumption | intro _ | with_reducible apply kept_noteHeld
      | simp only [keptR_done, keptR_jump, keptR_wait, keptR_halt] | split | dsimp only)

/-- Presenting an op keeps what the op keeps. -/
theorem kept_issue {s0 s : State} {cl ext : Nat} {f : State → Nat → Context → Worker → OpRes}
    (hf : ∀ t id c k, Kept s0 t → KeptR s0 (f t id c k)) (h : Kept s0 s) : Kept s0 (issue s cl ext f) := by
  unfold issue
  split
  · exact h
  · dsimp only; split
    · exact kept_applyRes (hf _ _ _ _ h)
    · exact h

theorem kept_operandHalt {s0 : State} {s : State} {c : Context} {w : Worker} {code : Nat} (h : Kept s0 s) : KeptR s0 (operandHalt s c w code) := by
  unfold operandHalt
  (try dsimp only); repeat' (first
      | with_reducible assumption | intro _ | simp only [keptR_done, keptR_jump, keptR_wait, keptR_halt] | split | dsimp only)

theorem kept_replicaGuard {s0 s : State} {c : Context} {w : Worker} {k : OpRes} (hk : KeptR s0 k) (h : Kept s0 s) :
    KeptR s0 (replicaGuard s c w k) := by
  unfold replicaGuard
  split
  · exact hk
  · exact h

/-! ### Fab -/

theorem kept_setLink {s0 : State} {s : State} {p : Nat} {l : PortLink} (h : Kept s0 s) : Kept s0 (setLink s p l) := by
  unfold setLink
  (try dsimp only); repeat' (first | with_reducible assumption | intro _ | simp only [kept_upd] | split | dsimp only)

theorem kept_freeBuffer {s0 : State} {s : State} {f : TxFlit} (h : Kept s0 s) : Kept s0 (freeBuffer s f) := by
  unfold freeBuffer
  (try dsimp only); repeat' (first
      | with_reducible assumption | intro _ | with_reducible apply kept_setLink | simp only [kept_upd]
      | (with_reducible refine Kept.fst (by assumption) ?_) | (with_reducible refine Kept.snd (by assumption) ?_)
      | (with_reducible refine KeptE.get (by assumption) ?_) | split | dsimp only)

theorem kept_portSend {s0 : State} {s : State} {p : Nat} {f : TxFlit} (h : Kept s0 s) : Kept s0 (portSend s p f) := by
  unfold portSend
  (try dsimp only); repeat' (first
      | with_reducible assumption | intro _ | with_reducible apply kept_setLink | simp only [kept_upd] | split | dsimp only)

/-- Choosing an egress keeps what the machine keeps. -/
theorem kept_egress {s0 s t : State} {f : TxFlit} {p : Nat} {a : Option Nat} (e : egress s f = some (t, p, a)) (h : Kept s0 s) : Kept s0 t := by
  unfold egress at e
  split at e <;> simp only [Option.map_eq_some_iff, Option.bind_eq_some_iff, Prod.mk.injEq] at e
  · obtain ⟨_, _, rfl, _⟩ := e; exact h
  · obtain ⟨_, _, _, _, rfl, _⟩ := e; exact h

theorem kept_routeFlit {s0 s : State} {f : TxFlit} (h : Kept s0 s) : Kept s0 (routeFlit s f) := by
  unfold routeFlit
  split
  · exact h
  · split
    · exact kept_incr (kept_freeBuffer h)
    · next he => exact kept_portSend (kept_egress he h)

theorem kept_launchFlit {s0 : State} {s : State} {f : TxFlit} (h : Kept s0 s) : Kept s0 (launchFlit s f) := by
  unfold launchFlit
  (try dsimp only); repeat' (first
      | with_reducible assumption | intro _ | with_reducible apply kept_incr | with_reducible apply kept_routeFlit | split
      | dsimp only)

theorem kept_sendPkt {s0 : State} {s : State} {vc kind dest flow : Nat} {rp : Option RPkt} {cp : Option CPkt} (h : Kept s0 s) : Kept s0 (sendPkt s vc kind dest flow rp cp) := by
  unfold sendPkt
  (try dsimp only); repeat' (first
      | with_reducible assumption | intro _ | with_reducible apply kept_launchFlit | simp only [kept_upd] | split | dsimp only)

theorem kept_sendMsg {s0 : State} {s : State} {vc dest : Nat} {m : Ctl} (h : Kept s0 s) : Kept s0 (sendMsg s vc dest m) := by
  unfold sendMsg
  (try dsimp only); repeat' (first
      | with_reducible assumption | intro _ | with_reducible apply kept_launchFlit | simp only [kept_upd] | split | dsimp only)

theorem kept_sendCtl {s0 : State} {s : State} {dest : Nat} {m : Ctl} (h : Kept s0 s) : Kept s0 (sendCtl s dest m) := by
  unfold sendCtl
  (try dsimp only); repeat' (first | with_reducible assumption | intro _ | with_reducible apply kept_sendMsg | split | dsimp only)

theorem kept_sendPort {s0 : State} {s : State} {p kind : Nat} {m : Ctl} (h : Kept s0 s) : Kept s0 (sendPort s p kind m) := by
  unfold sendPort
  (try dsimp only); repeat' (first
      | with_reducible assumption | intro _ | with_reducible apply kept_portSend | simp only [kept_upd] | split | dsimp only)

/-! ### Link -/

theorem kept_newFrame {s0 : State} {s : State} {p : Nat} (h : Kept s0 s) : Kept s0 (newFrame s p) := by
  unfold newFrame
  (try dsimp only); repeat' (first
      | with_reducible assumption | intro _ | with_reducible apply kept_wr | with_reducible apply kept_setLink
      | simp only [kept_upd] | with_reducible refine Kept.foldl ?_ ?_ | with_reducible refine Kept.foldlFst ?_ ?_ | split
      | dsimp only)

theorem kept_newWindow {s0 : State} {s : State} (h : Kept s0 s) : Kept s0 (newWindow s) := by
  unfold newWindow
  (try dsimp only); repeat' (first
      | with_reducible assumption | intro _ | with_reducible apply kept_wr | simp only [kept_upd] | split | dsimp only)

theorem kept_emit {s0 : State} {s : State} {p : Nat} {f : TxFlit} (h : Kept s0 s) : Kept s0 (emit s p f) := by
  unfold emit
  (try dsimp only); repeat' (first
      | with_reducible assumption | intro _ | with_reducible apply kept_setLink | simp only [kept_upd] | split | dsimp only)

theorem kept_grant {s0 : State} {s : State} {p : Nat} {f : TxFlit} {rest : List TxFlit} (h : Kept s0 s) : Kept s0 (grant s p f rest) := by
  unfold grant
  (try dsimp only); repeat' (first
      | with_reducible assumption | intro _ | with_reducible apply kept_freeBuffer | with_reducible apply kept_emit
      | with_reducible apply kept_setLink | simp only [kept_upd] | split | dsimp only)

theorem kept_slot {s0 : State} {s : State} {p : Nat} (h : Kept s0 s) : Kept s0 (slot s p) := by
  unfold slot
  (try dsimp only); repeat' (first
      | with_reducible assumption | intro _ | with_reducible apply kept_newFrame | with_reducible apply kept_grant
      | with_reducible apply kept_emit | simp only [kept_upd] | (with_reducible refine Kept.fst (by assumption) ?_)
      | (with_reducible refine Kept.snd (by assumption) ?_) | (with_reducible refine KeptE.get (by assumption) ?_) | split
      | dsimp only)

theorem kept_ringEnter {s0 : State} {s : State} (h : Kept s0 s) : Kept s0 (ringEnter s) := by
  unfold ringEnter
  (try dsimp only); repeat' (first
      | with_reducible assumption | intro _ | with_reducible apply kept_freeBuffer | simp only [kept_upd]
      | with_reducible refine Kept.foldl ?_ ?_ | with_reducible refine Kept.foldlFst ?_ ?_ | split | dsimp only)

theorem kept_ringLeave {s0 : State} {s : State} (h : Kept s0 s) : Kept s0 (ringLeave s) := by
  unfold ringLeave
  (try dsimp only); repeat' (first
      | with_reducible assumption | intro _ | with_reducible apply kept_ringEnter | with_reducible apply kept_portSend
      | with_reducible apply kept_routeFlit | simp only [kept_upd] | (with_reducible refine Kept.fst (by assumption) ?_)
      | (with_reducible refine Kept.snd (by assumption) ?_) | (with_reducible refine KeptE.get (by assumption) ?_) | split
      | dsimp only)

theorem kept_transitVc0 {s0 s : State} {f : TxFlit} {inPort : Nat} (h : Kept s0 s) : Kept s0 (transitVc0 s f inPort) := by
  unfold transitVc0
  (repeat' split) <;> first
    | exact kept_incr (kept_freeBuffer h)
    | (next he _ => first | exact kept_portSend (kept_egress he h) | (have h1 := kept_egress he h; exact kept_ringEnter (Kept.upd h1)))

theorem kept_fabricTick {s0 : State} {s : State} (h : Kept s0 s) : Kept s0 (fabricTick s) := by
  unfold fabricTick
  (try dsimp only); repeat' (first
      | with_reducible assumption | intro _ | with_reducible apply kept_ringLeave | with_reducible apply kept_newWindow
      | with_reducible apply kept_slot | with_reducible refine Kept.foldl ?_ ?_ | with_reducible refine Kept.foldlFst ?_ ?_
      | split | dsimp only)

/-! ### Port -/

theorem kept_sendNext {s0 : State} {s : State} {d : TxDg} (h : Kept s0 s) : Kept s0 (sendNext s d) := by
  unfold sendNext
  (try dsimp only); repeat' (first | with_reducible assumption | intro _ | simp only [kept_upd] | split | dsimp only)

theorem kept_portClock {s0 : State} {s : State} (h : Kept s0 s) : Kept s0 (portClock s) := by
  unfold portClock
  (try dsimp only); repeat' (first | with_reducible assumption | intro _ | simp only [kept_upd] | split | dsimp only)

theorem kept_portTick {s0 : State} {s : State} (h : Kept s0 s) : Kept s0 (portTick s) := by
  unfold portTick
  (try dsimp only); repeat' (first
      | with_reducible assumption | intro _ | with_reducible apply kept_portClock | with_reducible apply kept_sendNext
      | simp only [kept_upd] | (with_reducible refine Kept.fst (by assumption) ?_)
      | (with_reducible refine Kept.snd (by assumption) ?_) | (with_reducible refine KeptE.get (by assumption) ?_) | split
      | dsimp only)

/-! ### Log -/

theorem kept_putReplay {s0 : State} {s : State} {id type step key ts : Nat} {data : List Byte} (h : Kept s0 s) : Kept s0 (putReplay s id type step key ts data) := by
  unfold putReplay
  (try dsimp only); repeat' (first
      | with_reducible assumption | intro _ | with_reducible apply kept_appendRec | with_reducible apply kept_haltCtx
      | with_reducible apply kept_raiseEvent | split | dsimp only)

theorem kept_logInput {s0 : State} {s : State} {id type step key ts : Nat} {data : List Byte} (h : Kept s0 s) : Kept s0 (logInput s id type step key ts data) := by
  unfold logInput
  (try dsimp only); repeat' (first | with_reducible assumption | intro _ | with_reducible apply kept_putReplay | split | dsimp only)

theorem kept_dropReplay {s0 : State} {s : State} {type key : Nat} (h : Kept s0 s) : Kept s0 (dropReplay s type key) := by
  unfold dropReplay
  (try dsimp only); repeat' (first
      | with_reducible assumption | intro _ | simp only [kept_upd] | (with_reducible refine Kept.fst (by assumption) ?_)
      | (with_reducible refine Kept.snd (by assumption) ?_) | (with_reducible refine KeptE.get (by assumption) ?_) | split
      | dsimp only)

theorem kept_endJob {s0 : State} {s : State} {id cls code : Nat} (h : Kept s0 s) : Kept s0 (endJob s id cls code) := by
  unfold endJob
  (try dsimp only); repeat' (first
      | with_reducible assumption | intro _ | with_reducible apply kept_haltCtx | with_reducible apply kept_raiseEvent | split
      | dsimp only)

theorem kept_endJobSealed {s0 : State} {s : State} {id cls code : Nat} (h : Kept s0 s) : Kept s0 (endJobSealed s id cls code) := by
  unfold endJobSealed
  (try dsimp only); repeat' (first
      | with_reducible assumption | intro _ | with_reducible apply kept_endJob | with_reducible apply kept_modC
      | simp only [kept_upd] | split | dsimp only)

/-! ### Mem -/

theorem kept_mapContext {s0 : State} {s : State} {id : Nat} (h : Kept s0 s) : Kept s0 (mapContext s id) := by
  unfold mapContext
  (try dsimp only); repeat' (first
      | with_reducible assumption | intro _ | with_reducible apply kept_modC | with_reducible apply kept_setC
      | simp only [kept_upd] | split | dsimp only)

theorem kept_lendPages {s0 : State} {s : State} {gib : Nat} (h : Kept s0 s) : Kept s0 (lendPages s gib) := by
  unfold lendPages
  (try dsimp only); repeat' (first | with_reducible assumption | intro _ | simp only [kept_upd] | split | dsimp only)

theorem kept_touchSys {s0 : State} {s : State} {off : Nat} (h : Kept s0 s) : Kept s0 (touchSys s off) := by
  unfold touchSys
  (try dsimp only); repeat' (first | with_reducible assumption | intro _ | simp only [kept_upd] | split | dsimp only)

theorem kept_setSet {s0 : State} {s : State} {k : Nat} {ls : List PLine} (h : Kept s0 s) : Kept s0 (setSet s k ls) := by
  unfold setSet
  (try dsimp only); repeat' (first | with_reducible assumption | intro _ | simp only [kept_upd] | split | dsimp only)

theorem kept_lineAccess {s0 : State} {s : State} {c : Context} {a hint : Nat} {write : Bool} (h : Kept s0 s) : Kept s0 (lineAccess s c a hint write).1 := by
  unfold lineAccess
  (try dsimp only); repeat' (first | with_reducible assumption | intro _ | with_reducible apply kept_setSet | split | dsimp only)

theorem kept_narrowAccess {s0 : State} {s : State} {c : Context} {a : Nat} {write : Bool} (h : Kept s0 s) : Kept s0 (narrowAccess s c a write).1 := by
  unfold narrowAccess
  (try dsimp only); repeat' (first | with_reducible assumption | intro _ | with_reducible apply kept_setSet | split | dsimp only)

theorem kept_streamWrite {s0 : State} {s : State} {c : Context} {a n : Nat} (h : Kept s0 s) : Kept s0 (streamWrite s c a n) := by
  unfold streamWrite
  (try dsimp only); repeat' (first
      | with_reducible assumption | intro _ | with_reducible apply kept_setSet | with_reducible refine Kept.foldl ?_ ?_
      | with_reducible refine Kept.foldlFst ?_ ?_ | split | dsimp only)

theorem kept_dropPages {s0 : State} {s : State} {c : Context} {ps : List Nat} (h : Kept s0 s) : Kept s0 (dropPages s c ps) := by
  unfold dropPages
  (try dsimp only); repeat' (first
      | with_reducible assumption | intro _ | with_reducible apply kept_setSet | with_reducible refine Kept.foldl ?_ ?_
      | with_reducible refine Kept.foldlFst ?_ ?_ | split | dsimp only)

theorem kept_replaceTensor {s0 : State} {s : State} {id t : Nat} {parts : List Nat} {lower : Tbl Nat} (h : Kept s0 s) : Kept s0 (replaceTensor s id t parts lower) := by
  unfold replaceTensor
  (try dsimp only); repeat' (first
      | with_reducible assumption | intro _ | with_reducible apply kept_setC | with_reducible apply kept_dropPages
      | simp only [kept_upd] | (with_reducible refine Kept.fst (by assumption) ?_)
      | (with_reducible refine Kept.snd (by assumption) ?_) | (with_reducible refine KeptE.get (by assumption) ?_) | split
      | dsimp only)

theorem kept_movePlacement {s0 : State} {s : State} {id : Nat} (h : Kept s0 s) : Kept s0 (movePlacement s id) := by
  unfold movePlacement
  (try dsimp only); repeat' (first
      | with_reducible assumption | intro _ | with_reducible apply kept_replaceTensor | with_reducible refine Kept.foldl ?_ ?_
      | with_reducible refine Kept.foldlFst ?_ ?_ | split | dsimp only)

theorem kept_peerLine {s0 : State} {s : State} {id : Nat} {c : Context} {a : Nat} {write : Bool} (h : Kept s0 s) : Kept s0 (peerLine s id c a write).1 := by
  unfold peerLine
  (try dsimp only); repeat' (first
      | with_reducible assumption | intro _ | with_reducible apply kept_sendPkt | simp only [kept_upd] | split | dsimp only)

theorem kept_deadRes {s0 : State} {s : State} {cl : Nat} {c : Context} {k : Worker} {addr : Nat} {detail : BitVec 256} (h : Kept s0 s) : KeptR s0 (deadRes s cl c k addr detail) := by
  unfold deadRes
  (try dsimp only); repeat' (first
      | with_reducible assumption | intro _ | simp only [keptR_done, keptR_jump, keptR_wait, keptR_halt] | split | dsimp only)

theorem kept_troubleRes {s0 s : State} {cl : Nat} {c : Context} {k : Worker} {t : Trouble} (h : Kept s0 s) : KeptR s0 (troubleRes s cl c k t) := by
  cases t <;> exact h

theorem kept_viewAccess {s0 : State} {s : State} {c : Context} {cl : Nat} {v : View} {is : List Nat} {write indexed : Bool} (h : Kept s0 s) : Kept s0 (viewAccess s c cl v is write indexed).1 := by
  unfold viewAccess
  (try dsimp only); repeat' (first
      | with_reducible assumption | intro _ | with_reducible apply kept_peerLine | with_reducible apply kept_narrowAccess
      | with_reducible apply kept_lineAccess | with_reducible refine Kept.foldl ?_ ?_ | with_reducible refine Kept.foldlFst ?_ ?_
      | split | dsimp only)

theorem kept_remoteAccess {s0 : State} {s : State} {c : Context} {a : Nat} {write : Bool} (h : Kept s0 s) : Kept s0 (remoteAccess s c a write).1 := by
  unfold remoteAccess
  (try dsimp only); repeat' (first | with_reducible assumption | intro _ | with_reducible apply kept_lineAccess | split | dsimp only)

/-! ### Capture -/

theorem kept_holdRange {s0 : State} {s : State} {id a n : Nat} (h : Kept s0 s) : Kept s0 (holdRange s id a n) := by
  unfold holdRange
  (try dsimp only); repeat' (first
      | with_reducible assumption | intro _ | with_reducible apply kept_holdPage | with_reducible refine Kept.foldl ?_ ?_
      | with_reducible refine Kept.foldlFst ?_ ?_ | split | dsimp only)

theorem kept_storeRange {s0 : State} {s : State} {id a : Nat} {bs : List Byte} (h : Kept s0 s) : Kept s0 (storeRange s id a bs) := by
  unfold storeRange
  (try dsimp only); repeat' (first
      | with_reducible assumption | intro _ | with_reducible apply kept_modC | with_reducible apply kept_streamWrite | split
      | dsimp only)

theorem kept_writeBack {s0 : State} {s : State} {e : SieveEnt} (h : Kept s0 s) : Kept s0 (writeBack s e) := by
  unfold writeBack
  exact kept_incr (kept_setC (kept_remoteAccess h))

theorem kept_flushSieves {s0 : State} {s : State} {hit : Nat → SieveEnt → Bool} (h : Kept s0 s) : Kept s0 (flushSieves s hit) := by
  unfold flushSieves
  (try dsimp only); repeat' (first
      | with_reducible assumption | intro _ | with_reducible apply kept_writeBack | simp only [kept_upd]
      | with_reducible refine Kept.foldl ?_ ?_ | with_reducible refine Kept.foldlFst ?_ ?_ | split | dsimp only)

theorem kept_pushSlot {s0 : State} {s : State} (h : Kept s0 s) : Kept s0 (pushSlot s) := by
  unfold pushSlot
  (try dsimp only); repeat' (first
      | with_reducible assumption | intro _ | with_reducible apply kept_sendPkt | with_reducible apply kept_sendRoce | simp only [kept_upd]
      | with_reducible refine Kept.foldl ?_ ?_ | with_reducible refine Kept.foldlFst ?_ ?_ | split | dsimp only)

theorem kept_releaseLent {s0 : State} {s : State} (h : Kept s0 s) : Kept s0 (releaseLent s) := by
  unfold releaseLent
  (try dsimp only); repeat' (first
      | with_reducible assumption | intro _ | with_reducible apply kept_wr | simp only [kept_upd] | split | dsimp only)

theorem kept_startFlush {s0 : State} {s : State} (h : Kept s0 s) : Kept s0 (startFlush s) :=
  kept_releaseLent (kept_pushSlot (kept_wr h))

theorem kept_capture {s0 : State} {s : State} {id step salt costNs : Nat} (h : Kept s0 s) : Kept s0 (capture s id step salt costNs) := by
  unfold capture
  (try dsimp only); repeat' (first
      | with_reducible assumption | intro _ | with_reducible apply kept_flushSieves | with_reducible apply kept_startFlush | with_reducible apply kept_wr
      | with_reducible apply kept_setC | simp only [kept_upd] | split | dsimp only)

theorem kept_captureDisabled {s0 : State} {s : State} {id : Nat} (h : Kept s0 s) : Kept s0 (captureDisabled s id) := by
  unfold captureDisabled
  (try dsimp only); repeat' (first | with_reducible assumption | intro _ | with_reducible apply kept_modC | split | dsimp only)

theorem kept_stepDigest {s0 : State} {s : State} {id k : Nat} (h : Kept s0 s) : Kept s0 (stepDigest s id k) := by
  unfold stepDigest
  (try dsimp only); repeat' (first
      | with_reducible assumption | intro _ | with_reducible apply kept_setC | with_reducible apply kept_logInput
      | with_reducible apply kept_putReplay | with_reducible apply kept_endJob | with_reducible apply kept_modC
      | simp only [kept_upd] | (with_reducible refine Kept.fst (by assumption) ?_)
      | (with_reducible refine Kept.snd (by assumption) ?_) | (with_reducible refine KeptE.get (by assumption) ?_) | split
      | dsimp only)

theorem kept_countEvent {s0 : State} {s : State} {f : Context → Context} (h : Kept s0 s) : Kept s0 (countEvent s f) := by
  unfold countEvent
  (try dsimp only); repeat' (first
      | with_reducible assumption | intro _ | with_reducible apply kept_modC | simp only [kept_upd]
      | (with_reducible refine Kept.fst (by assumption) ?_) | (with_reducible refine Kept.snd (by assumption) ?_)
      | (with_reducible refine KeptE.get (by assumption) ?_) | split | dsimp only)

theorem kept_takeInput {s0 : State} {s : State} {id decl tensor : Nat} {bs : List Byte} (h : Kept s0 s) : Kept s0 (takeInput s id decl tensor bs) := by
  unfold takeInput
  (try dsimp only); repeat' (first
      | with_reducible assumption | intro _ | with_reducible apply kept_modC | with_reducible apply kept_storeRange
      | simp only [kept_upd] | split | dsimp only)

theorem kept_inputOrHold {s0 : State} {s : State} {id tensor : Nat} {bs : List Byte} {go : State → State} (hf : ∀ t, Kept s0 t → Kept s0 (go t)) (h : Kept s0 s) : Kept s0 (inputOrHold s id tensor bs go) := by
  unfold inputOrHold
  (try dsimp only); repeat' (first
      | with_reducible assumption | intro _ | with_reducible apply kept_holdRange | with_reducible apply hf | split | dsimp only)

theorem kept_fetchInput {s0 : State} {s : State} {id i : Nat} (h : Kept s0 s) : Kept s0 (fetchInput s id i) := by
  unfold fetchInput
  (try dsimp only); repeat' (first
      | with_reducible assumption | intro _ | with_reducible apply kept_inputOrHold | with_reducible apply kept_modC
      | with_reducible apply kept_takeInput | with_reducible apply kept_dropReplay | with_reducible apply kept_logInput
      | simp only [kept_upd] | (with_reducible refine Kept.fst (by assumption) ?_)
      | (with_reducible refine Kept.snd (by assumption) ?_) | (with_reducible refine KeptE.get (by assumption) ?_) | split
      | dsimp only)

theorem kept_fetchInputs {s0 : State} {s : State} {id : Nat} (h : Kept s0 s) : Kept s0 (fetchInputs s id) := by
  unfold fetchInputs
  (try dsimp only); repeat' (first
      | with_reducible assumption | intro _ | with_reducible apply kept_fetchInput | with_reducible refine Kept.foldl ?_ ?_
      | with_reducible refine Kept.foldlFst ?_ ?_ | split | dsimp only)

theorem kept_applyBulk {s0 : State} {s : State} {id : Nat} (h : Kept s0 s) : Kept s0 (applyBulk s id) := by
  unfold applyBulk
  (try dsimp only); repeat' (first
      | with_reducible assumption | intro _ | with_reducible apply kept_modC | with_reducible apply kept_storeRange
      | simp only [kept_upd] | with_reducible refine Kept.foldl ?_ ?_ | with_reducible refine Kept.foldlFst ?_ ?_ | split
      | dsimp only)

theorem kept_replayBulk {s0 : State} {s : State} {id k : Nat} (h : Kept s0 s) : Kept s0 (replayBulk s id k) := by
  unfold replayBulk
  (try dsimp only); repeat' (first
      | with_reducible assumption | intro _ | with_reducible apply kept_storeRange | simp only [kept_upd]
      | with_reducible refine Kept.foldl ?_ ?_ | with_reducible refine Kept.foldlFst ?_ ?_
      | (with_reducible refine Kept.fst (by assumption) ?_) | (with_reducible refine Kept.snd (by assumption) ?_)
      | (with_reducible refine KeptE.get (by assumption) ?_) | split | dsimp only)

theorem kept_stepSeed {s0 : State} {s : State} {id k : Nat} (h : Kept s0 s) : Kept s0 (stepSeed s id k) := by
  unfold stepSeed
  (try dsimp only); repeat' (first
      | with_reducible assumption | intro _ | with_reducible apply kept_modC | with_reducible apply kept_logInput
      | with_reducible apply kept_setC | simp only [kept_upd] | (with_reducible refine Kept.fst (by assumption) ?_)
      | (with_reducible refine Kept.snd (by assumption) ?_) | (with_reducible refine KeptE.get (by assumption) ?_) | split
      | dsimp only)

/-! ### Replica -/

theorem kept_dropLines {s0 : State} {s : State} {id : Nat} {c : Context} {p : RlcLine → Bool} (h : Kept s0 s) : Kept s0 (dropLines s id c p).1 := by
  unfold dropLines
  (try dsimp only); repeat' (first | with_reducible assumption | intro _ | simp only [kept_upd] | split | dsimp only)

theorem kept_replCheck {s0 : State} {s : State} {c : Context} (h : Kept s0 s) : Kept s0 (replCheck s c).1 := by
  unfold replCheck
  (try dsimp only); repeat' (first
      | with_reducible assumption | intro _ | with_reducible apply kept_drawNat | simp only [kept_upd]
      | with_reducible refine Kept.foldl ?_ ?_ | with_reducible refine Kept.foldlFst ?_ ?_ | split | dsimp only)

theorem kept_sendFill {s0 : State} {s : State} {id : Nat} {c : Context} {device line : Nat} (h : Kept s0 s) : Kept s0 (sendFill s id c device line) := by
  unfold sendFill
  (try dsimp only); repeat' (first
      | with_reducible assumption | intro _ | with_reducible apply kept_sendPkt | simp only [kept_upd] | split | dsimp only)

theorem kept_fillCopies {s0 : State} {s : State} {id : Nat} {r : Replica} (h : Kept s0 s) : Kept s0 (fillCopies s id r) := by
  unfold fillCopies
  (try dsimp only); repeat' (first
      | with_reducible assumption | intro _ | with_reducible apply kept_sendFill | with_reducible refine Kept.foldl ?_ ?_
      | with_reducible refine Kept.foldlFst ?_ ?_ | split | dsimp only)

theorem kept_declareReplicas {s0 : State} {s : State} {id : Nat} {rs : List Replica} (h : Kept s0 s) : Kept s0 (declareReplicas s id rs) := by
  unfold declareReplicas
  (try dsimp only); repeat' (first
      | with_reducible assumption | intro _ | with_reducible apply kept_setC | with_reducible apply kept_fillCopies
      | simp only [kept_upd] | with_reducible refine Kept.foldl ?_ ?_ | with_reducible refine Kept.foldlFst ?_ ?_ | split
      | dsimp only)

end Sys2Proof.Laws
end

