-- ==== Sys2Proof/Laws/KeptOps.lean ====
section
/-! SUPPORT. `kept_<operation>` for the worker ops and what they share, and `kept_exec<Row>` for the rows of those families: a
row that answers a next state keeps the queue and the soundness of the tables. -/

namespace Sys2Proof.Laws

open Sys2Proof Sys2Proof.Machine

set_option linter.all false
set_option linter.unusedSimpArgs false
set_option linter.unnecessarySeqFocus false
set_option linter.unusedTactic false
set_option linter.unreachableTactic false

/-! ### Scalar -/

theorem kept_execNop {w : Cluster} {s : State} {v0 : State} (hu : execNop w s = .next v0) : Kept s v0 := by
  have h := Kept.refl s
  unfold execNop at hu
  (repeat' split at hu) <;> first
    | (injection hu with hu; subst hu; (try dsimp only); repeat' (first
        | with_reducible assumption | intro _ | with_reducible apply kept_issue
        | simp only [keptR_done, keptR_jump, keptR_wait, keptR_halt] | split | dsimp only))
    | (cases hu; done)

theorem kept_execSli {w : Cluster} {d : SReg} {imm : BitVec 32} {s : State} {v0 : State} (hu : execSli w d imm s = .next v0) : Kept s v0 := by
  have h := Kept.refl s
  unfold execSli at hu
  (repeat' split at hu) <;> first
    | (injection hu with hu; subst hu; (try dsimp only); repeat' (first
        | with_reducible assumption | intro _ | with_reducible apply kept_issue
        | simp only [keptR_done, keptR_jump, keptR_wait, keptR_halt] | split | dsimp only))
    | (cases hu; done)

theorem kept_execSlih {w : Cluster} {d : SReg} {imm : BitVec 32} {s : State} {v0 : State} (hu : execSlih w d imm s = .next v0) : Kept s v0 := by
  have h := Kept.refl s
  unfold execSlih at hu
  (repeat' split at hu) <;> first
    | (injection hu with hu; subst hu; (try dsimp only); repeat' (first
        | with_reducible assumption | intro _ | with_reducible apply kept_issue
        | simp only [keptR_done, keptR_jump, keptR_wait, keptR_halt] | split | dsimp only))
    | (cases hu; done)

theorem kept_execSalu {w : Cluster} {op : SaluOp} {d a b : SReg} {s : State} {v0 : State} (hu : execSalu w op d a b s = .next v0) : Kept s v0 := by
  have h := Kept.refl s
  unfold execSalu at hu
  (repeat' split at hu) <;> first
    | (injection hu with hu; subst hu; (try dsimp only); repeat' (first
        | with_reducible assumption | intro _ | with_reducible apply kept_issue
        | simp only [keptR_done, keptR_jump, keptR_wait, keptR_halt] | split | dsimp only))
    | (cases hu; done)

theorem kept_execLoop {w : Cluster} {d a : SReg} {b : Fin 4096} {s : State} {v0 : State} (hu : execLoop w d a b s = .next v0) : Kept s v0 := by
  have h := Kept.refl s
  unfold execLoop at hu
  (repeat' split at hu) <;> first
    | (injection hu with hu; subst hu; (try dsimp only); repeat' (first
        | with_reducible assumption | intro _ | with_reducible apply kept_issue
        | simp only [keptR_done, keptR_jump, keptR_wait, keptR_halt] | split | dsimp only))
    | (cases hu; done)

theorem kept_execBrnz {w : Cluster} {d : SReg} {off : BitVec 32} {s : State} {v0 : State} (hu : execBrnz w d off s = .next v0) : Kept s v0 := by
  have h := Kept.refl s
  unfold execBrnz at hu
  (repeat' split at hu) <;> first
    | (injection hu with hu; subst hu; (try dsimp only); repeat' (first
        | with_reducible assumption | intro _ | with_reducible apply kept_issue | simp only [kept_upd]
        | simp only [keptR_done, keptR_jump, keptR_wait, keptR_halt] | split | dsimp only))
    | (cases hu; done)

theorem kept_execWid {w : Cluster} {d : SReg} {sel : WidSel} {s : State} {v0 : State} (hu : execWid w d sel s = .next v0) : Kept s v0 := by
  have h := Kept.refl s
  unfold execWid at hu
  (repeat' split at hu) <;> first
    | (injection hu with hu; subst hu; (try dsimp only); repeat' (first
        | with_reducible assumption | intro _ | with_reducible apply kept_issue
        | simp only [keptR_done, keptR_jump, keptR_wait, keptR_halt] | split | dsimp only))
    | (cases hu; done)

theorem kept_execRdcw {w : Cluster} {d : SReg} {asw : Bool} {s : State} {v0 : State} (hu : execRdcw w d asw s = .next v0) : Kept s v0 := by
  have h := Kept.refl s
  unfold execRdcw at hu
  (repeat' split at hu) <;> first
    | (injection hu with hu; subst hu; (try dsimp only); repeat' (first
        | with_reducible assumption | intro _ | with_reducible apply kept_issue
        | simp only [keptR_done, keptR_jump, keptR_wait, keptR_halt] | split | dsimp only))
    | (cases hu; done)

theorem kept_execWrcw {w : Cluster} {asw : Bool} {a : SReg} {s : State} {v0 : State} (hu : execWrcw w asw a s = .next v0) : Kept s v0 := by
  have h := Kept.refl s
  unfold execWrcw at hu
  (repeat' split at hu) <;> first
    | (injection hu with hu; subst hu; (try dsimp only); repeat' (first
        | with_reducible assumption | intro _ | with_reducible apply kept_issue
        | simp only [keptR_done, keptR_jump, keptR_wait, keptR_halt] | split | dsimp only))
    | (cases hu; done)

theorem kept_execVdef {w : Cluster} {d : VReg} {tensor : Fin 4096} {sc : SReg} {rows cols rstride cstride : BitVec 32} {origin : BitVec 64} {s : State} {v0 : State} (hu : execVdef w d tensor sc rows cols rstride cstride origin s = .next v0) : Kept s v0 := by
  have h := Kept.refl s
  unfold execVdef at hu
  (repeat' split at hu) <;> first
    | (injection hu with hu; subst hu; (try dsimp only); repeat' (first
        | with_reducible assumption | intro _ | with_reducible apply kept_issue | with_reducible apply kept_operandHalt
        | simp only [kept_upd] | simp only [keptR_done, keptR_jump, keptR_wait, keptR_halt]
        | (with_reducible refine Kept.fst (by assumption) ?_) | (with_reducible refine Kept.snd (by assumption) ?_)
        | (with_reducible refine KeptE.get (by assumption) ?_) | split | dsimp only))
    | (cases hu; done)

/-! ### Griddle -/

theorem kept_stageNext {s0 : State} {s : State} {c : Context} {cl : Nat} {k : Worker} (h : Kept s0 s) : Kept s0 (stageNext s c cl k).1 := by
  unfold stageNext
  (try dsimp only); repeat' (first
      | with_reducible assumption | intro _ | with_reducible apply kept_viewAccess | simp only [kept_upd]
      | with_reducible refine Kept.foldl ?_ ?_ | with_reducible refine Kept.foldlFst ?_ ?_
      | (with_reducible refine Kept.fst (by assumption) ?_) | (with_reducible refine Kept.snd (by assumption) ?_)
      | (with_reducible refine KeptE.get (by assumption) ?_) | split | dsimp only)

theorem kept_stage {s0 : State} {s : State} {c : Context} {cl : Nat} {k : Worker} (h : Kept s0 s) : Kept s0 (stage s c cl k).1 := by
  unfold stage
  (try dsimp only); repeat' (first | with_reducible assumption | intro _ | with_reducible apply kept_stageNext | split | dsimp only)

theorem kept_queueOp {s0 : State} {s : State} {c : Context} {cl : Nat} {k : Worker} {g : GOp} (h : Kept s0 s) : KeptR s0 (queueOp s c cl k g) := by
  unfold queueOp
  (try dsimp only); repeat' (first
      | with_reducible assumption | intro _ | with_reducible apply kept_stage | simp only [kept_upd]
      | simp only [keptR_done, keptR_jump, keptR_wait, keptR_halt] | split | dsimp only)

theorem kept_execGzero {w : Cluster} {fmt : Fmt} {d : TReg} {s : State} {v0 : State} (hu : execGzero w fmt d s = .next v0) : Kept s v0 := by
  have h := Kept.refl s
  unfold execGzero at hu
  (repeat' split at hu) <;> first
    | (injection hu with hu; subst hu; (try dsimp only); repeat' (first
        | with_reducible assumption | intro _ | with_reducible apply kept_issue | with_reducible apply kept_queueOp
        | simp only [kept_upd] | (with_reducible refine Kept.fst (by assumption) ?_)
        | (with_reducible refine Kept.snd (by assumption) ?_) | (with_reducible refine KeptE.get (by assumption) ?_) | split
        | dsimp only))
    | (cases hu; done)

theorem kept_execGmma {w : Cluster} {fmt bfmt : Fmt} {za : Bool} {d : TReg} {a b : VReg} {u : Fin 256} {s : State} {v0 : State} (hu : execGmma w fmt bfmt za d a b u s = .next v0) : Kept s v0 := by
  have h := Kept.refl s
  unfold execGmma at hu
  (repeat' split at hu) <;> first
    | (injection hu with hu; subst hu; (try dsimp only); repeat' (first
        | with_reducible assumption | intro _ | with_reducible apply kept_issue | with_reducible apply kept_queueOp | split
        | dsimp only))
    | (cases hu; done)

theorem kept_execGld {w : Cluster} {d : TReg} {a : VReg} {s : State} {v0 : State} (hu : execGld w d a s = .next v0) : Kept s v0 := by
  have h := Kept.refl s
  unfold execGld at hu
  (repeat' split at hu) <;> first
    | (injection hu with hu; subst hu; (try dsimp only); repeat' (first
        | with_reducible assumption | intro _ | with_reducible apply kept_issue | with_reducible apply kept_queueOp | split
        | dsimp only))
    | (cases hu; done)

theorem kept_unitHalt {s0 : State} {s : State} {id cl : Nat} {c : Context} {k : Worker} (h : Kept s0 s) : Kept s0 (unitHalt s id cl c k) := by
  unfold unitHalt
  (try dsimp only); repeat' (first | with_reducible assumption | intro _ | with_reducible apply kept_haltWorker | split | dsimp only)

theorem kept_putStaged {s0 : State} {s : State} {id cl : Nat} {c : Context} {k : Worker} (h : Kept s0 s) : Kept s0 (putStaged s id cl c k) := by
  unfold putStaged
  (try dsimp only); repeat' (first
      | with_reducible assumption | intro _ | with_reducible apply kept_stage | with_reducible apply kept_setC | split
      | dsimp only)

theorem kept_issueFirst {s0 : State} {s : State} {id cl : Nat} {c : Context} {k : Worker} {g : GWait} {rest : List GWait} {err : Bool} (h : Kept s0 s) : Kept s0 (issueFirst s id cl c k g rest err) := by
  unfold issueFirst
  (try dsimp only); repeat' (first
      | with_reducible assumption | intro _ | with_reducible apply kept_putStaged | with_reducible apply kept_haltWorker
      | with_reducible apply kept_unitHalt | with_reducible apply kept_applyRes | with_reducible apply kept_troubleRes
      | with_reducible apply kept_setC | simp only [kept_upd] | (with_reducible refine Kept.fst (by assumption) ?_)
      | (with_reducible refine Kept.snd (by assumption) ?_) | (with_reducible refine KeptE.get (by assumption) ?_) | split
      | dsimp only)

theorem kept_execGriddleIssue {w : Cluster} {stageWait tileWait : Nat} {err : Bool} {s : State} {v0 : State} (hu : execGriddleIssue w stageWait tileWait err s = .next v0) : Kept s v0 := by
  have h := Kept.refl s
  unfold execGriddleIssue at hu
  (repeat' split at hu) <;> first
    | (injection hu with hu; subst hu; (try dsimp only); repeat' (first
        | with_reducible assumption | intro _ | with_reducible apply kept_stage | with_reducible apply kept_issueFirst
        | simp only [kept_upd] | (with_reducible refine Kept.fst (by assumption) ?_)
        | (with_reducible refine Kept.snd (by assumption) ?_) | (with_reducible refine KeptE.get (by assumption) ?_) | split
        | dsimp only))
    | (cases hu; done)

theorem kept_execGriddleComplete {w : Cluster} {error : Bool} {s : State} {v0 : State} (hu : execGriddleComplete w error s = .next v0) : Kept s v0 := by
  have h := Kept.refl s
  unfold execGriddleComplete at hu
  (repeat' split at hu) <;> first
    | (injection hu with hu; subst hu; (try dsimp only); repeat' (first
        | with_reducible assumption | intro _ | with_reducible apply kept_unitHalt | with_reducible apply kept_putStaged
        | simp only [kept_upd] | (with_reducible refine Kept.fst (by assumption) ?_)
        | (with_reducible refine Kept.snd (by assumption) ?_) | (with_reducible refine KeptE.get (by assumption) ?_) | split
        | dsimp only))
    | (cases hu; done)

/-! ### Whisk -/

theorem kept_whiskAccess {s0 : State} {s : State} {c : Context} {cl : Nat} {k : Worker} {op : WOp} {is : List Nat} (h : Kept s0 s) : Kept s0 (whiskAccess s c cl k op is).1 := by
  unfold whiskAccess
  (try dsimp only); repeat' (first
      | with_reducible assumption | intro _ | with_reducible apply kept_viewAccess | simp only [kept_upd]
      | with_reducible refine Kept.foldl ?_ ?_ | with_reducible refine Kept.foldlFst ?_ ?_
      | (with_reducible refine Kept.fst (by assumption) ?_) | (with_reducible refine Kept.snd (by assumption) ?_)
      | (with_reducible refine KeptE.get (by assumption) ?_) | split | dsimp only)

theorem kept_elemHalt {s0 : State} {s : State} {c : Context} {cl : Nat} {k : Worker} {opcode i : Nat} {e : EStop} (h : Kept s0 s) : KeptR s0 (elemHalt s c cl k opcode i e) := by
  unfold elemHalt
  (try dsimp only); repeat' (first
      | with_reducible assumption | intro _ | with_reducible apply kept_deadRes | simp only [kept_upd]
      | simp only [keptR_done, keptR_jump, keptR_wait, keptR_halt] | split | dsimp only)

theorem kept_elemStop {s0 : State} {s : State} {c : Context} {cl : Nat} {k : Worker} {op : WOp} {i : Nat} {e : EStop} (h : Kept s0 s) : KeptR s0 (elemStop s c cl k op i e) := by
  unfold elemStop
  (try dsimp only); repeat' (first
      | with_reducible assumption | intro _ | with_reducible apply kept_noteHeld | simp only [kept_upd]
      | simp only [keptR_done, keptR_jump, keptR_wait, keptR_halt] | split | dsimp only)

theorem kept_redRun {s0 : State} {s : State} {c : Context} {cl : Nat} {k : Worker} {op : WOp} {mode : RedMode} {rop : RedOp} (h : Kept s0 s) : KeptR s0 (redRun s c cl k op mode rop) := by
  unfold redRun
  (try dsimp only); repeat' (first
      | with_reducible assumption | intro _ | with_reducible apply kept_elemStop | with_reducible apply kept_elemHalt
      | with_reducible apply kept_viewAccess | with_reducible apply kept_whiskAccess | simp only [kept_upd]
      | with_reducible refine Kept.foldl ?_ ?_ | with_reducible refine Kept.foldlFst ?_ ?_
      | simp only [keptR_done, keptR_jump, keptR_wait, keptR_halt] | (with_reducible refine Kept.fst (by assumption) ?_)
      | (with_reducible refine Kept.snd (by assumption) ?_) | (with_reducible refine KeptE.get (by assumption) ?_) | split
      | dsimp only)

theorem kept_whiskRun {s0 : State} {s : State} {c : Context} {cl : Nat} {k : Worker} {op : WOp} (h : Kept s0 s) : KeptR s0 (whiskRun s c cl k op) := by
  unfold whiskRun
  (try dsimp only); repeat' (first
      | with_reducible assumption | intro _ | with_reducible apply kept_redRun | with_reducible apply kept_whiskAccess
      | with_reducible apply kept_elemStop | with_reducible apply kept_elemHalt | simp only [kept_upd]
      | simp only [keptR_done, keptR_jump, keptR_wait, keptR_halt] | (with_reducible refine Kept.fst (by assumption) ?_)
      | (with_reducible refine Kept.snd (by assumption) ?_) | (with_reducible refine KeptE.get (by assumption) ?_) | split
      | dsimp only)

theorem kept_whiskIssue {s0 : State} {s : State} {cl : Nat} {c : Context} {k : Worker} {op : WOp} (h : Kept s0 s) : KeptR s0 (whiskIssue s cl c k op) := by
  unfold whiskIssue
  (try dsimp only); repeat' (first
      | with_reducible assumption | intro _ | with_reducible apply kept_operandHalt | with_reducible apply kept_whiskRun
      | simp only [kept_upd] | simp only [keptR_done, keptR_jump, keptR_wait, keptR_halt]
      | (with_reducible refine Kept.fst (by assumption) ?_) | (with_reducible refine Kept.snd (by assumption) ?_)
      | (with_reducible refine KeptE.get (by assumption) ?_) | split | dsimp only)

theorem kept_whisk {s0 : State} {w : Cluster} {kind : WKind} {opcode : Nat} {fmt : Fmt} {mk : Option MReg} {d a b : Option VReg} {dm : MReg} {ext : Nat} {s : State} (h : Kept s0 s) : Kept s0 (whisk w kind opcode fmt mk d a b dm ext s) := by
  unfold whisk
  (try dsimp only); repeat' (first
      | with_reducible assumption | intro _ | with_reducible apply kept_issue | with_reducible apply kept_whiskIssue
      | simp only [kept_upd] | (with_reducible refine Kept.fst (by assumption) ?_)
      | (with_reducible refine Kept.snd (by assumption) ?_) | (with_reducible refine KeptE.get (by assumption) ?_) | split
      | dsimp only)

theorem kept_execWvl {w : Cluster} {d a : SReg} {s : State} {v0 : State} (hu : execWvl w d a s = .next v0) : Kept s v0 := by
  have h := Kept.refl s
  unfold execWvl at hu
  (repeat' split at hu) <;> first
    | (injection hu with hu; subst hu; (try dsimp only); repeat' (first
        | with_reducible assumption | intro _ | with_reducible apply kept_issue | simp only [kept_upd]
        | simp only [keptR_done, keptR_jump, keptR_wait, keptR_halt] | split | dsimp only))
    | (cases hu; done)

theorem kept_execWbin {w : Cluster} {fmt : Fmt} {op : BinOp} {mk : Option MReg} {d a b : VReg} {s : State} {v0 : State} (hu : execWbin w fmt op mk d a b s = .next v0) : Kept s v0 := by
  have h := Kept.refl s
  unfold execWbin at hu
  (repeat' split at hu) <;> first
    | (injection hu with hu; subst hu; (try dsimp only); repeat' (first
        | with_reducible assumption | intro _ | with_reducible apply kept_whisk | split | dsimp only))
    | (cases hu; done)

theorem kept_execWfma {w : Cluster} {fmt : Fmt} {mk : Option MReg} {d a b : VReg} {s : State} {v0 : State} (hu : execWfma w fmt mk d a b s = .next v0) : Kept s v0 := by
  have h := Kept.refl s
  unfold execWfma at hu
  (repeat' split at hu) <;> first
    | (injection hu with hu; subst hu; (try dsimp only); repeat' (first
        | with_reducible assumption | intro _ | with_reducible apply kept_whisk | split | dsimp only))
    | (cases hu; done)

theorem kept_execWun {w : Cluster} {fmt : Fmt} {op : UnOp} {mk : Option MReg} {d a : VReg} {s : State} {v0 : State} (hu : execWun w fmt op mk d a s = .next v0) : Kept s v0 := by
  have h := Kept.refl s
  unfold execWun at hu
  (repeat' split at hu) <;> first
    | (injection hu with hu; subst hu; (try dsimp only); repeat' (first
        | with_reducible assumption | intro _ | with_reducible apply kept_whisk | split | dsimp only))
    | (cases hu; done)

theorem kept_execWact {w : Cluster} {fmt : Fmt} {f : Act} {mk : Option MReg} {d a : VReg} {s : State} {v0 : State} (hu : execWact w fmt f mk d a s = .next v0) : Kept s v0 := by
  have h := Kept.refl s
  unfold execWact at hu
  (repeat' split at hu) <;> first
    | (injection hu with hu; subst hu; (try dsimp only); repeat' (first
        | with_reducible assumption | intro _ | with_reducible apply kept_whisk | split | dsimp only))
    | (cases hu; done)

theorem kept_execWcvt {w : Cluster} {fmt : Fmt} {mk : Option MReg} {d a : VReg} {s : State} {v0 : State} (hu : execWcvt w fmt mk d a s = .next v0) : Kept s v0 := by
  have h := Kept.refl s
  unfold execWcvt at hu
  (repeat' split at hu) <;> first
    | (injection hu with hu; subst hu; (try dsimp only); repeat' (first
        | with_reducible assumption | intro _ | with_reducible apply kept_whisk | split | dsimp only))
    | (cases hu; done)

theorem kept_execWcmp {w : Cluster} {fmt : Fmt} {op : CmpOp} {mk : Option MReg} {d : MReg} {a b : VReg} {s : State} {v0 : State} (hu : execWcmp w fmt op mk d a b s = .next v0) : Kept s v0 := by
  have h := Kept.refl s
  unfold execWcmp at hu
  (repeat' split at hu) <;> first
    | (injection hu with hu; subst hu; (try dsimp only); repeat' (first
        | with_reducible assumption | intro _ | with_reducible apply kept_whisk | split | dsimp only))
    | (cases hu; done)

theorem kept_execWsel {w : Cluster} {fmt : Fmt} {mk : Option MReg} {m : MReg} {d a b : VReg} {s : State} {v0 : State} (hu : execWsel w fmt mk m d a b s = .next v0) : Kept s v0 := by
  have h := Kept.refl s
  unfold execWsel at hu
  (repeat' split at hu) <;> first
    | (injection hu with hu; subst hu; (try dsimp only); repeat' (first
        | with_reducible assumption | intro _ | with_reducible apply kept_whisk | split | dsimp only))
    | (cases hu; done)

theorem kept_execWacc {w : Cluster} {fmt : Fmt} {f : Option Act} {scale : BitVec 32} {mk : Option MReg} {d : VReg} {t : TReg} {s : State} {v0 : State} (hu : execWacc w fmt f scale mk d t s = .next v0) : Kept s v0 := by
  have h := Kept.refl s
  unfold execWacc at hu
  (repeat' split at hu) <;> first
    | (injection hu with hu; subst hu; (try dsimp only); repeat' (first
        | with_reducible assumption | intro _ | with_reducible apply kept_whisk | split | dsimp only))
    | (cases hu; done)

theorem kept_execWred {w : Cluster} {fmt : Fmt} {mode : RedMode} {op : RedOp} {mk : Option MReg} {d a : VReg} {s : State} {v0 : State} (hu : execWred w fmt mode op mk d a s = .next v0) : Kept s v0 := by
  have h := Kept.refl s
  unfold execWred at hu
  (repeat' split at hu) <;> first
    | (injection hu with hu; subst hu; (try dsimp only); repeat' (first
        | with_reducible assumption | intro _ | with_reducible apply kept_whisk | split | dsimp only))
    | (cases hu; done)

theorem kept_execWgth {w : Cluster} {fmt : Fmt} {mk : Option MReg} {d a b : VReg} {s : State} {v0 : State} (hu : execWgth w fmt mk d a b s = .next v0) : Kept s v0 := by
  have h := Kept.refl s
  unfold execWgth at hu
  (repeat' split at hu) <;> first
    | (injection hu with hu; subst hu; (try dsimp only); repeat' (first
        | with_reducible assumption | intro _ | with_reducible apply kept_whisk | split | dsimp only))
    | (cases hu; done)

theorem kept_execWsct {w : Cluster} {fmt : Fmt} {mk : Option MReg} {d a b : VReg} {s : State} {v0 : State} (hu : execWsct w fmt mk d a b s = .next v0) : Kept s v0 := by
  have h := Kept.refl s
  unfold execWsct at hu
  (repeat' split at hu) <;> first
    | (injection hu with hu; subst hu; (try dsimp only); repeat' (first
        | with_reducible assumption | intro _ | with_reducible apply kept_whisk | split | dsimp only))
    | (cases hu; done)

theorem kept_execElemResume {w : Cluster} {waitNs : Nat} {s : State} {v0 : State} (hu : execElemResume w waitNs s = .next v0) : Kept s v0 := by
  have h := Kept.refl s
  unfold execElemResume at hu
  (repeat' split at hu) <;> first
    | (injection hu with hu; subst hu; (try dsimp only); repeat' (first
        | with_reducible assumption | intro _ | with_reducible apply kept_applyRes | with_reducible apply kept_whiskRun
        | simp only [kept_upd] | (with_reducible refine Kept.fst (by assumption) ?_)
        | (with_reducible refine Kept.snd (by assumption) ?_) | (with_reducible refine KeptE.get (by assumption) ?_) | split
        | dsimp only))
    | (cases hu; done)

theorem kept_execWhiskComplete {w : Cluster} {s : State} {v0 : State} (hu : execWhiskComplete w s = .next v0) : Kept s v0 := by
  have h := Kept.refl s
  unfold execWhiskComplete at hu
  (repeat' split at hu) <;> first
    | (injection hu with hu; subst hu; (try dsimp only); repeat' (first
        | with_reducible assumption | intro _ | with_reducible apply kept_setC | simp only [kept_upd]
        | (with_reducible refine Kept.fst (by assumption) ?_) | (with_reducible refine Kept.snd (by assumption) ?_)
        | (with_reducible refine KeptE.get (by assumption) ?_) | split | dsimp only))
    | (cases hu; done)

/-! ### Moves -/

theorem kept_moveWait {s0 s : State} {c : Context} {cl : Nat} {k : Worker} {lu : Bool} {srcs : List View} {d : View} {t : Nat} {go : OpRes}
    (hg : KeptR s0 go) (h : Kept s0 s) : KeptR s0 (moveWait s c cl k lu srcs d t go) := by
  unfold moveWait
  split
  · exact h
  · split
    · exact kept_pageWait h
    · exact hg

theorem kept_moveAccess {s0 : State} {s : State} {c : Context} {cl : Nat} {fmt : Fmt} {ts : List Touched} (h : Kept s0 s) : Kept s0 (moveAccess s c cl fmt ts).1 := by
  unfold moveAccess
  (try dsimp only); repeat' (first
      | with_reducible assumption | intro _ | with_reducible apply kept_viewAccess | with_reducible refine Kept.foldl ?_ ?_
      | with_reducible refine Kept.foldlFst ?_ ?_ | split | dsimp only)

theorem kept_moveGo {s0 : State} {s : State} {c : Context} {cl : Nat} {k : Worker} {fmt : Fmt} {ts : List Touched} {go : State → Context → OpRes} (hf : ∀ t c, Kept s0 t → KeptR s0 (go t c)) (h : Kept s0 s) : KeptR s0 (moveGo s c cl k fmt ts go) := by
  unfold moveGo
  (try dsimp only); repeat' (first
      | with_reducible assumption | intro _ | with_reducible apply kept_troubleRes | with_reducible apply kept_moveAccess
      | with_reducible apply hf | simp only [kept_upd] | simp only [keptR_done, keptR_jump, keptR_wait, keptR_halt]
      | (with_reducible refine Kept.fst (by assumption) ?_) | (with_reducible refine Kept.snd (by assumption) ?_)
      | (with_reducible refine KeptE.get (by assumption) ?_) | split | dsimp only)

theorem kept_lifeEnd {s0 : State} {s : State} {c : Context} {cl : Nat} {k : Worker} {t : Nat} (h : Kept s0 s) : KeptR s0 (lifeEnd s c cl k t) := by
  unfold lifeEnd
  (try dsimp only); repeat' (first
      | with_reducible assumption | intro _ | with_reducible apply kept_dropPages
      | simp only [keptR_done, keptR_jump, keptR_wait, keptR_halt] | split | dsimp only)

theorem kept_moveDone {s0 : State} {s : State} {c : Context} {cl : Nat} {k : Worker} {lu : Bool} {d : View} {t : Nat} {ws : List (Nat × Nat)} (h : Kept s0 s) : KeptR s0 (moveDone s c cl k lu d t ws) := by
  unfold moveDone
  (try dsimp only); repeat' (first
      | with_reducible assumption | intro _ | with_reducible apply kept_lifeEnd | with_reducible refine Kept.foldl ?_ ?_
      | with_reducible refine Kept.foldlFst ?_ ?_ | simp only [keptR_done, keptR_jump, keptR_wait, keptR_halt] | split
      | dsimp only)

theorem kept_moveIndexHalt {s0 : State} {s : State} {c : Context} {cl : Nat} {k : Worker} {opcode : Nat} {b d : View} {idx : List Int} {i : Nat} {ws : List (Nat × Nat)} (h : Kept s0 s) : KeptR s0 (moveIndexHalt s c cl k opcode b d idx i ws) := by
  unfold moveIndexHalt
  (try dsimp only); repeat' (first
      | with_reducible assumption | intro _ | with_reducible apply kept_elemHalt | simp only [kept_upd]
      | with_reducible refine Kept.foldl ?_ ?_ | with_reducible refine Kept.foldlFst ?_ ?_
      | simp only [keptR_done, keptR_jump, keptR_wait, keptR_halt] | split | dsimp only)

theorem kept_execMovs {w : Cluster} {fmt : Fmt} {lu : Bool} {d a : VReg} {s : State} {v0 : State} (hu : execMovs w fmt lu d a s = .next v0) : Kept s v0 := by
  have h := Kept.refl s
  unfold execMovs at hu
  (repeat' split at hu) <;> first
    | (injection hu with hu; subst hu; (try dsimp only); repeat' (first
        | with_reducible assumption | intro _ | with_reducible apply kept_issue | with_reducible apply kept_moveWait
        | with_reducible apply kept_operandHalt | with_reducible apply kept_moveGo | with_reducible apply kept_moveDone
        | simp only [keptR_done, keptR_jump, keptR_wait, keptR_halt] | split | dsimp only))
    | (cases hu; done)

theorem kept_execMovg {w : Cluster} {fmt : Fmt} {lu : Bool} {d a b : VReg} {s : State} {v0 : State} (hu : execMovg w fmt lu d a b s = .next v0) : Kept s v0 := by
  have h := Kept.refl s
  unfold execMovg at hu
  (repeat' split at hu) <;> first
    | (injection hu with hu; subst hu; (try dsimp only); repeat' (first
        | with_reducible assumption | intro _ | with_reducible apply kept_issue | with_reducible apply kept_moveWait
        | with_reducible apply kept_operandHalt | with_reducible apply kept_moveGo | with_reducible apply kept_moveIndexHalt
        | with_reducible apply kept_moveDone | simp only [kept_upd] | simp only [keptR_done, keptR_jump, keptR_wait, keptR_halt]
        | (with_reducible refine Kept.fst (by assumption) ?_) | (with_reducible refine Kept.snd (by assumption) ?_)
        | (with_reducible refine KeptE.get (by assumption) ?_) | split | dsimp only))
    | (cases hu; done)

theorem kept_execMovsc {w : Cluster} {fmt : Fmt} {lu : Bool} {d a b : VReg} {s : State} {v0 : State} (hu : execMovsc w fmt lu d a b s = .next v0) : Kept s v0 := by
  have h := Kept.refl s
  unfold execMovsc at hu
  (repeat' split at hu) <;> first
    | (injection hu with hu; subst hu; (try dsimp only); repeat' (first
        | with_reducible assumption | intro _ | with_reducible apply kept_issue | with_reducible apply kept_moveWait
        | with_reducible apply kept_operandHalt | with_reducible apply kept_moveGo | with_reducible apply kept_moveIndexHalt
        | with_reducible apply kept_moveDone | simp only [kept_upd] | simp only [keptR_done, keptR_jump, keptR_wait, keptR_halt]
        | (with_reducible refine Kept.fst (by assumption) ?_) | (with_reducible refine Kept.snd (by assumption) ?_)
        | (with_reducible refine KeptE.get (by assumption) ?_) | split | dsimp only))
    | (cases hu; done)

theorem kept_execFill {w : Cluster} {fmt : Fmt} {d : VReg} {a : SReg} {s : State} {v0 : State} (hu : execFill w fmt d a s = .next v0) : Kept s v0 := by
  have h := Kept.refl s
  unfold execFill at hu
  (repeat' split at hu) <;> first
    | (injection hu with hu; subst hu; (try dsimp only); repeat' (first
        | with_reducible assumption | intro _ | with_reducible apply kept_issue | with_reducible apply kept_moveWait
        | with_reducible apply kept_operandHalt | with_reducible apply kept_moveGo | with_reducible apply kept_moveDone
        | simp only [keptR_done, keptR_jump, keptR_wait, keptR_halt] | split | dsimp only))
    | (cases hu; done)

theorem kept_execPref {w : Cluster} {lu : Bool} {a : VReg} {level : Fin 4} {s : State} {v0 : State} (hu : execPref w lu a level s = .next v0) : Kept s v0 := by
  have h := Kept.refl s
  unfold execPref at hu
  (repeat' split at hu) <;> first
    | (injection hu with hu; subst hu; (try dsimp only); repeat' (first
        | with_reducible assumption | intro _ | with_reducible apply kept_issue | with_reducible apply kept_pageWait
        | with_reducible apply kept_lifeEnd | simp only [kept_upd] | simp only [keptR_done, keptR_jump, keptR_wait, keptR_halt]
        | (with_reducible refine Kept.fst (by assumption) ?_) | (with_reducible refine Kept.snd (by assumption) ?_)
        | (with_reducible refine KeptE.get (by assumption) ?_) | split | dsimp only))
    | (cases hu; done)

/-! ### Sync -/

theorem kept_execRdtime {w : Cluster} {d : SReg} {s : State} {v0 : State} (hu : execRdtime w d s = .next v0) : Kept s v0 := by
  have h := Kept.refl s
  unfold execRdtime at hu
  (repeat' split at hu) <;> first
    | (injection hu with hu; subst hu; (try dsimp only); repeat' (first
        | with_reducible assumption | intro _ | with_reducible apply kept_issue | with_reducible apply kept_dropReplay
        | with_reducible apply kept_logInput | simp only [kept_upd] | simp only [keptR_done, keptR_jump, keptR_wait, keptR_halt]
        | (with_reducible refine Kept.fst (by assumption) ?_) | (with_reducible refine Kept.snd (by assumption) ?_)
        | (with_reducible refine KeptE.get (by assumption) ?_) | split | dsimp only))
    | (cases hu; done)

theorem kept_execFset {w : Cluster} {a : SReg} {inc : Fin 256} {flag : Fin 64} {s : State} {v0 : State} (hu : execFset w a inc flag s = .next v0) : Kept s v0 := by
  have h := Kept.refl s
  unfold execFset at hu
  (repeat' split at hu) <;> first
    | (injection hu with hu; subst hu; (try dsimp only); repeat' (first
        | with_reducible assumption | intro _ | with_reducible apply kept_issue | with_reducible apply kept_replicaGuard
        | with_reducible apply kept_operandHalt | simp only [keptR_done, keptR_jump, keptR_wait, keptR_halt] | split | dsimp only))
    | (cases hu; done)

theorem kept_execFwait {w : Cluster} {a : SReg} {flag : Fin 64} {s : State} {v0 : State} (hu : execFwait w a flag s = .next v0) : Kept s v0 := by
  have h := Kept.refl s
  unfold execFwait at hu
  (repeat' split at hu) <;> first
    | (injection hu with hu; subst hu; (try dsimp only); repeat' (first
        | with_reducible assumption | intro _ | with_reducible apply kept_issue
        | simp only [keptR_done, keptR_jump, keptR_wait, keptR_halt] | split | dsimp only))
    | (cases hu; done)

theorem kept_execFrd {w : Cluster} {d : SReg} {flag : Fin 64} {s : State} {v0 : State} (hu : execFrd w d flag s = .next v0) : Kept s v0 := by
  have h := Kept.refl s
  unfold execFrd at hu
  (repeat' split at hu) <;> first
    | (injection hu with hu; subst hu; (try dsimp only); repeat' (first
        | with_reducible assumption | intro _ | with_reducible apply kept_issue
        | simp only [keptR_done, keptR_jump, keptR_wait, keptR_halt] | split | dsimp only))
    | (cases hu; done)

theorem kept_leaveBar {s0 : State} {s : State} {id cl : Nat} {sc : Scope} (h : Kept s0 s) : Kept s0 (leaveBar s id cl sc) := by
  unfold leaveBar
  (try dsimp only); repeat' (first
      | with_reducible assumption | intro _ | with_reducible apply kept_dropLines | with_reducible apply kept_setC
      | simp only [kept_upd] | with_reducible refine Kept.foldl ?_ ?_ | with_reducible refine Kept.foldlFst ?_ ?_ | split
      | dsimp only)

theorem kept_tellMembers {s0 : State} {s : State} {c : Context} {m : Ctl} (h : Kept s0 s) : Kept s0 (tellMembers s c m) := by
  unfold tellMembers
  (try dsimp only); repeat' (first
      | with_reducible assumption | intro _ | with_reducible apply kept_sendMsg | with_reducible refine Kept.foldl ?_ ?_
      | with_reducible refine Kept.foldlFst ?_ ?_ | split | dsimp only)

theorem kept_tryBar {s0 : State} {s : State} {id cl : Nat} {sc : Scope} (h : Kept s0 s) : Kept s0 (tryBar s id cl sc) := by
  unfold tryBar
  (try dsimp only); repeat' (first
      | with_reducible assumption | intro _ | with_reducible apply kept_drawNat | with_reducible apply kept_leaveBar | split
      | dsimp only)

theorem kept_execBar {w : Cluster} {scope : Scope} {s : State} {v0 : State} (hu : execBar w scope s = .next v0) : Kept s v0 := by
  have h := Kept.refl s
  unfold execBar at hu
  (repeat' split at hu) <;> first
    | (injection hu with hu; subst hu; (try dsimp only); repeat' (first
        | with_reducible assumption | intro _ | with_reducible apply kept_issue | with_reducible apply kept_replicaGuard
        | with_reducible apply kept_tellMembers | with_reducible apply kept_tryBar | simp only [kept_upd]
        | simp only [keptR_done, keptR_jump, keptR_wait, keptR_halt] | (with_reducible refine Kept.fst (by assumption) ?_)
        | (with_reducible refine Kept.snd (by assumption) ?_) | (with_reducible refine KeptE.get (by assumption) ?_) | split
        | dsimp only))
    | (cases hu; done)

theorem kept_sinMove {s0 : State} {s : State} {c : Context} {cl : Nat} {k : Worker} {vd : View} {t : Nat} (h : Kept s0 s) : KeptR s0 (sinMove s c cl k vd t) := by
  unfold sinMove
  (try dsimp only); repeat' (first
      | with_reducible assumption | intro _ | with_reducible apply kept_pageWait | with_reducible apply kept_moveGo
      | simp only [kept_upd] | simp only [keptR_done, keptR_jump, keptR_wait, keptR_halt]
      | (with_reducible refine Kept.fst (by assumption) ?_) | (with_reducible refine Kept.snd (by assumption) ?_)
      | (with_reducible refine KeptE.get (by assumption) ?_) | split | dsimp only)

theorem kept_execSin {w : Cluster} {d : VReg} {decl : Fin 4096} {s : State} {v0 : State} (hu : execSin w d decl s = .next v0) : Kept s v0 := by
  have h := Kept.refl s
  unfold execSin at hu
  (repeat' split at hu) <;> first
    | (injection hu with hu; subst hu; (try dsimp only); repeat' (first
        | with_reducible assumption | intro _ | with_reducible apply kept_fetchInput | with_reducible apply kept_issue
        | with_reducible apply kept_operandHalt | with_reducible apply kept_sinMove | simp only [kept_upd]
        | simp only [keptR_done, keptR_jump, keptR_wait, keptR_halt] | (with_reducible refine Kept.fst (by assumption) ?_)
        | (with_reducible refine Kept.snd (by assumption) ?_) | (with_reducible refine KeptE.get (by assumption) ?_) | split
        | dsimp only))
    | (cases hu; done)

theorem kept_sendOutput {s0 : State} {s : State} {stream decl step : Nat} {bs : List Byte} (h : Kept s0 s) : Kept s0 (sendOutput s stream decl step bs) := by
  unfold sendOutput
  (try dsimp only); repeat' (first
      | with_reducible assumption | intro _ | with_reducible apply kept_sendDg | with_reducible refine Kept.foldl ?_ ?_
      | with_reducible refine Kept.foldlFst ?_ ?_ | split | dsimp only)

theorem kept_emitOutput {s0 : State} {s : State} {id : Nat} {c : Context} {decl : Nat} {sd : StreamDecl} {bs : List Byte} {xs : List Nat} (h : Kept s0 s) : Kept s0 (emitOutput s id c decl sd bs xs).1 := by
  unfold emitOutput
  (try dsimp only); repeat' (first
      | with_reducible assumption | intro _ | with_reducible apply kept_sendOutput | simp only [kept_upd] | split | dsimp only)

theorem kept_execSout {w : Cluster} {decl : Fin 4096} {a : VReg} {s : State} {v0 : State} (hu : execSout w decl a s = .next v0) : Kept s v0 := by
  have h := Kept.refl s
  unfold execSout at hu
  (repeat' split at hu) <;> first
    | (injection hu with hu; subst hu; (try dsimp only); repeat' (first
        | with_reducible assumption | intro _ | with_reducible apply kept_issue | with_reducible apply kept_operandHalt
        | with_reducible apply kept_pageWait | with_reducible apply kept_moveGo | with_reducible apply kept_emitOutput
        | simp only [kept_upd] | simp only [keptR_done, keptR_jump, keptR_wait, keptR_halt]
        | (with_reducible refine Kept.fst (by assumption) ?_) | (with_reducible refine Kept.snd (by assumption) ?_)
        | (with_reducible refine KeptE.get (by assumption) ?_) | split | dsimp only))
    | (cases hu; done)

theorem kept_reachStep {s0 : State} {s : State} {w : Cluster} {r : RunState} (h : Kept s0 s) : Kept s0 (reachStep s w r) := by
  unfold reachStep
  (try dsimp only); repeat' (first
      | with_reducible assumption | intro _ | with_reducible apply kept_issue | with_reducible apply kept_replicaGuard
      | with_reducible apply kept_tellMembers | with_reducible apply kept_endJobSealed | simp only [kept_upd]
      | simp only [keptR_done, keptR_jump, keptR_wait, keptR_halt] | (with_reducible refine Kept.fst (by assumption) ?_)
      | (with_reducible refine Kept.snd (by assumption) ?_) | (with_reducible refine KeptE.get (by assumption) ?_) | split
      | dsimp only)

theorem kept_execEndOp {w : Cluster} {s : State} {v0 : State} (hu : execEndOp w s = .next v0) : Kept s v0 := by
  have h := Kept.refl s
  unfold execEndOp at hu
  (repeat' split at hu) <;> first
    | (injection hu with hu; subst hu; (try dsimp only); repeat' (first
        | with_reducible assumption | intro _ | with_reducible apply kept_reachStep | split | dsimp only))
    | (cases hu; done)

theorem kept_execStepOp {w : Cluster} {s : State} {v0 : State} (hu : execStepOp w s = .next v0) : Kept s v0 := by
  have h := Kept.refl s
  unfold execStepOp at hu
  (repeat' split at hu) <;> first
    | (injection hu with hu; subst hu; (try dsimp only); repeat' (first
        | with_reducible assumption | intro _ | with_reducible apply kept_reachStep | split | dsimp only))
    | (cases hu; done)

theorem kept_execCkptOp {w : Cluster} {s : State} {v0 : State} (hu : execCkptOp w s = .next v0) : Kept s v0 := by
  have h := Kept.refl s
  unfold execCkptOp at hu
  (repeat' split at hu) <;> first
    | (injection hu with hu; subst hu; (try dsimp only); repeat' (first
        | with_reducible assumption | intro _ | with_reducible apply kept_reachStep | split | dsimp only))
    | (cases hu; done)

theorem kept_openStep {s0 : State} {s : State} {id : Nat} (h : Kept s0 s) : Kept s0 (openStep s id) := by
  unfold openStep
  (try dsimp only); repeat' (first
      | with_reducible assumption | intro _ | with_reducible apply kept_dropLines | with_reducible apply kept_movePlacement
      | with_reducible apply kept_applyBulk | with_reducible apply kept_setC | simp only [kept_upd] | split | dsimp only)

theorem kept_endModule {s0 : State} {s : State} {id : Nat} (h : Kept s0 s) : Kept s0 (endModule s id) := by
  unfold endModule
  (try dsimp only); repeat' (first
      | with_reducible assumption | intro _ | with_reducible apply kept_sendNotice | with_reducible apply kept_setC
      | simp only [kept_upd] | split | dsimp only)

theorem kept_haltAtStep {s0 : State} {s : State} {id stream : Nat} (h : Kept s0 s) : Kept s0 (haltAtStep s id stream) := by
  unfold haltAtStep
  (try dsimp only); repeat' (first
      | with_reducible assumption | intro _ | with_reducible apply kept_endBusy | with_reducible apply kept_drawNat
      | with_reducible apply kept_modC | with_reducible apply kept_haltStreams | simp only [kept_upd] | split | dsimp only)

theorem kept_pauseModule {s0 : State} {s : State} {id : Nat} (h : Kept s0 s) : Kept s0 (pauseModule s id) := by
  unfold pauseModule
  (try dsimp only); repeat' (first
      | with_reducible assumption | intro _ | with_reducible apply kept_modC | simp only [kept_upd]
      | (with_reducible refine Kept.fst (by assumption) ?_) | (with_reducible refine Kept.snd (by assumption) ?_)
      | (with_reducible refine KeptE.get (by assumption) ?_) | split | dsimp only)

theorem kept_closeStep {s0 : State} {s : State} {id : Nat} (h : Kept s0 s) : Kept s0 (closeStep s id) := by
  unfold closeStep
  (try dsimp only); repeat' (first
      | with_reducible assumption | intro _ | with_reducible apply kept_applyOp | with_reducible apply kept_modC
      | with_reducible apply kept_haltAtStep | with_reducible apply kept_pauseModule | with_reducible apply kept_endModule
      | simp only [kept_upd] | (with_reducible refine Kept.fst (by assumption) ?_)
      | (with_reducible refine Kept.snd (by assumption) ?_) | (with_reducible refine KeptE.get (by assumption) ?_) | split
      | dsimp only)

theorem kept_stepEffects {s0 : State} {s : State} {id k salt costNs : Nat} (h : Kept s0 s) : Kept s0 (stepEffects s id k salt costNs) := by
  unfold stepEffects
  (try dsimp only); repeat' (first
      | with_reducible assumption | intro _ | with_reducible apply kept_stepSeed | with_reducible apply kept_openStep
      | with_reducible apply kept_fetchInputs | with_reducible apply kept_replayBulk | with_reducible apply kept_capture
      | with_reducible apply kept_captureDisabled | with_reducible apply kept_closeStep | simp only [kept_upd] | split
      | dsimp only)

theorem kept_execStepPointRelease {salt costNs : Nat} {s : State} {v0 : State} (hu : execStepPointRelease salt costNs s = .next v0) : Kept s v0 := by
  have h := Kept.refl s
  unfold execStepPointRelease at hu
  (repeat' split at hu) <;> first
    | (injection hu with hu; subst hu; (try dsimp only); repeat' (first
        | with_reducible assumption | intro _ | with_reducible apply kept_endJobSealed | with_reducible apply kept_holdRange
        | with_reducible apply kept_stepDigest | with_reducible apply kept_replCheck | with_reducible apply kept_endJob
        | with_reducible apply kept_stepEffects | with_reducible apply kept_declareReplicas | simp only [kept_upd]
        | (with_reducible refine Kept.fst (by assumption) ?_) | (with_reducible refine Kept.snd (by assumption) ?_)
        | (with_reducible refine KeptE.get (by assumption) ?_) | split | dsimp only))
    | (cases hu; done)

/-! ### Remote -/

theorem kept_sendReq {s0 : State} {s : State} {id cl slot : Nat} {r : RReq} {via : Nat} (h : Kept s0 s) : Kept s0 (sendReq s id cl slot r via) := by
  unfold sendReq
  (try dsimp only); repeat' (first
      | with_reducible assumption | intro _ | with_reducible apply kept_sendPkt | with_reducible apply kept_slot | split
      | dsimp only)

theorem kept_failReq {s0 : State} {s : State} {id cl : Nat} {c : Context} {k : Worker} {code device addr : Nat} (h : Kept s0 s) : Kept s0 (failReq s id cl c k code device addr) := by
  unfold failReq
  (try dsimp only); repeat' (first
      | with_reducible assumption | intro _ | with_reducible apply kept_haltWorker | simp only [kept_upd] | split | dsimp only)

theorem kept_pumpReqs {s0 s : State} {fuel id cl : Nat} {c : Context} {k : Worker} (h : Kept s0 s) :
    Kept s0 (pumpReqs fuel s id cl c k) := by
  induction fuel generalizing s c k with
  | zero => exact kept_setC h
  | succ n ih =>
    unfold pumpReqs
    split
    · dsimp only; split
      · exact kept_failReq h
      · exact ih (kept_sendReq h)
    · exact kept_setC h

theorem kept_pumpFlag {s0 : State} {s : State} {id cl : Nat} (h : Kept s0 s) : Kept s0 (pumpFlag s id cl) := by
  unfold pumpFlag
  (try dsimp only); repeat' (first
      | with_reducible assumption | intro _ | with_reducible apply kept_failReq | with_reducible apply kept_setC
      | with_reducible apply kept_sendPkt | simp only [kept_upd] | (with_reducible refine Kept.fst (by assumption) ?_)
      | (with_reducible refine Kept.snd (by assumption) ?_) | (with_reducible refine KeptE.get (by assumption) ?_) | split
      | dsimp only)

theorem kept_pump {s0 : State} {s : State} {id cl : Nat} (h : Kept s0 s) : Kept s0 (pump s id cl) := by
  unfold pump
  (try dsimp only); repeat' (first
      | with_reducible assumption | intro _ | with_reducible apply kept_pumpFlag | with_reducible apply kept_pumpReqs | split
      | dsimp only)

theorem kept_remoteOp {s0 : State} {s : State} {w : Cluster} {ext : Nat} {f : State → Nat → Context → Worker → OpRes} (hf : ∀ t id c k, Kept s0 t → KeptR s0 (f t id c k)) (h : Kept s0 s) : Kept s0 (remoteOp s w ext f) := by
  unfold remoteOp
  (try dsimp only); repeat' (first
      | with_reducible assumption | intro _ | with_reducible apply kept_pump | with_reducible apply kept_issue
      | with_reducible apply hf | simp only [kept_upd] | (with_reducible refine Kept.fst (by assumption) ?_)
      | (with_reducible refine Kept.snd (by assumption) ?_) | (with_reducible refine KeptE.get (by assumption) ?_) | split
      | dsimp only)

/-- A line of a read keeps what the machine keeps. -/
theorem kept_readLine {s0 : State} {id cl device : Nat} {src dst : View} {x : Reading} {line : Nat} (h : Kept s0 x.s) :
    Kept s0 (readLine id cl device src dst x line).s := by
  unfold readLine
  dsimp only
  split
  · have h1 := kept_viewAccess (cl := cl) (c := eincr x.c 0x407200 1) (v := dst) (is := lineElems x.c cl src dst line) (write := true) (indexed := false) h
    exact Kept.upd h1
  · exact h

theorem kept_readLines {s0 : State} {id cl device : Nat} {src dst : View} {x : Reading} {ls : List Nat} (h : Kept s0 x.s) :
    Kept s0 (ls.foldl (readLine id cl device src dst) x).s := by
  induction ls generalizing x with
  | nil => exact h
  | cons l ls ih => exact ih (kept_readLine h)

theorem kept_execRread {w : Cluster} {d a : VReg} {b : SReg} {s : State} {v0 : State} (hu : execRread w d a b s = .next v0) : Kept s v0 := by
  have h := Kept.refl s
  unfold execRread at hu
  (repeat' split at hu) <;> first
    | (injection hu with hu; subst hu; (try dsimp only); repeat' (first
        | with_reducible assumption | intro _ | with_reducible apply kept_remoteOp | with_reducible apply kept_operandHalt
        | with_reducible apply kept_pageWait | with_reducible apply kept_moveGo | with_reducible apply kept_readLine
        | with_reducible apply kept_readLines | simp only [kept_upd] | with_reducible refine Kept.foldl ?_ ?_
        | with_reducible refine Kept.foldlFst ?_ ?_ | simp only [keptR_done, keptR_jump, keptR_wait, keptR_halt]
        | (with_reducible refine Kept.fst (by assumption) ?_) | (with_reducible refine Kept.snd (by assumption) ?_)
        | (with_reducible refine KeptE.get (by assumption) ?_) | split | dsimp only))
    | (cases hu; done)

theorem kept_dropDevice {s0 : State} {s : State} {c : Context} {device : Nat} {ls : List Nat} (h : Kept s0 s) : Kept s0 (dropDevice s c device ls).1 := by
  unfold dropDevice
  (try dsimp only); repeat' (first
      | with_reducible assumption | intro _ | with_reducible apply kept_dropLines | with_reducible refine Kept.foldl ?_ ?_
      | with_reducible refine Kept.foldlFst ?_ ?_ | split | dsimp only)

theorem kept_remoteWrite {s0 : State} {s : State} {w : Cluster} {ext : Nat} {kind : RKind} {d a : VReg} {b : SReg} {flag : Option (Nat × Nat × Nat)} (h : Kept s0 s) : Kept s0 (remoteWrite s w ext kind d a b flag) := by
  unfold remoteWrite
  (try dsimp only); repeat' (first
      | with_reducible assumption | intro _ | with_reducible apply kept_remoteOp | with_reducible apply kept_replicaGuard
      | with_reducible apply kept_operandHalt | with_reducible apply kept_moveGo | with_reducible apply kept_dropDevice
      | simp only [kept_upd] | simp only [keptR_done, keptR_jump, keptR_wait, keptR_halt]
      | (with_reducible refine Kept.fst (by assumption) ?_) | (with_reducible refine Kept.snd (by assumption) ?_)
      | (with_reducible refine KeptE.get (by assumption) ?_) | split | dsimp only)

theorem kept_execRwrite {w : Cluster} {d a : VReg} {b : SReg} {s : State} {v0 : State} (hu : execRwrite w d a b s = .next v0) : Kept s v0 := by
  have h := Kept.refl s
  unfold execRwrite at hu
  (repeat' split at hu) <;> first
    | (injection hu with hu; subst hu; (try dsimp only); repeat' (first
        | with_reducible assumption | intro _ | with_reducible apply kept_remoteWrite | split | dsimp only))
    | (cases hu; done)

theorem kept_execRwritef {w : Cluster} {d a : VReg} {b : SReg} {target : Fin 4096} {flag : Fin 64} {inc : Fin 256} {s : State} {v0 : State} (hu : execRwritef w d a b target flag inc s = .next v0) : Kept s v0 := by
  have h := Kept.refl s
  unfold execRwritef at hu
  (repeat' split at hu) <;> first
    | (injection hu with hu; subst hu; (try dsimp only); repeat' (first
        | with_reducible assumption | intro _ | with_reducible apply kept_remoteWrite | split | dsimp only))
    | (cases hu; done)

theorem kept_execRwritec {w : Cluster} {d a : VReg} {b : SReg} {s : State} {v0 : State} (hu : execRwritec w d a b s = .next v0) : Kept s v0 := by
  have h := Kept.refl s
  unfold execRwritec at hu
  (repeat' split at hu) <;> first
    | (injection hu with hu; subst hu; (try dsimp only); repeat' (first
        | with_reducible assumption | intro _ | with_reducible apply kept_remoteWrite | split | dsimp only))
    | (cases hu; done)

theorem kept_invReplicas {s0 : State} {s : State} {c : Context} {cl : Nat} {k : Worker} {va : View} (h : Kept s0 s) : KeptR s0 (invReplicas s c cl k va) := by
  unfold invReplicas
  (try dsimp only); repeat' (first
      | with_reducible assumption | intro _ | simp only [kept_upd] | simp only [keptR_done, keptR_jump, keptR_wait, keptR_halt]
      | (with_reducible refine Kept.fst (by assumption) ?_) | (with_reducible refine Kept.snd (by assumption) ?_)
      | (with_reducible refine KeptE.get (by assumption) ?_) | split | dsimp only)

theorem kept_execRinv {w : Cluster} {a : VReg} {b : SReg} {s : State} {v0 : State} (hu : execRinv w a b s = .next v0) : Kept s v0 := by
  have h := Kept.refl s
  unfold execRinv at hu
  (repeat' split at hu) <;> first
    | (injection hu with hu; subst hu; (try dsimp only); repeat' (first
        | with_reducible assumption | intro _ | with_reducible apply kept_remoteOp | with_reducible apply kept_invReplicas
        | with_reducible apply kept_operandHalt | with_reducible apply kept_dropDevice
        | simp only [keptR_done, keptR_jump, keptR_wait, keptR_halt] | split | dsimp only))
    | (cases hu; done)

theorem kept_execRrepl {w : Cluster} {tensor : Fin 4096} {copies : Fin 16} {s : State} {v0 : State} (hu : execRrepl w tensor copies s = .next v0) : Kept s v0 := by
  have h := Kept.refl s
  unfold execRrepl at hu
  (repeat' split at hu) <;> first
    | (injection hu with hu; subst hu; (try dsimp only); repeat' (first
        | with_reducible assumption | intro _ | with_reducible apply kept_issue | with_reducible apply kept_operandHalt
        | simp only [kept_upd] | simp only [keptR_done, keptR_jump, keptR_wait, keptR_halt] | split | dsimp only))
    | (cases hu; done)

theorem kept_admitAnswer {s0 : State} {s : State} {f : Flit} {p : RPkt} {vcs : List Nat} (h : Kept s0 s) : Kept s0 (admitAnswer s f p vcs).1 := by
  unfold admitAnswer
  (try dsimp only); repeat' (first | with_reducible assumption | intro _ | with_reducible apply kept_incr | split | dsimp only)

theorem kept_peerAnswer {s0 : State} {s : State} {p : RPkt} (h : Kept s0 s) : Kept s0 (peerAnswer s p) := by
  unfold peerAnswer
  (try dsimp only); repeat' (first | with_reducible assumption | intro _ | with_reducible apply kept_endJob | split | dsimp only)

theorem kept_answer {s0 : State} {s : State} {f : Flit} {p : RPkt} {vcs : List Nat} {kinds : List RKind} {ok : State → Nat → Nat → Context → Worker → RReq → State} (hf : ∀ t id cl c k r, Kept s0 t → Kept s0 (ok t id cl c k r)) (h : Kept s0 s) : Kept s0 (answer s f p vcs kinds ok) := by
  unfold answer
  (try dsimp only); repeat' (first
      | with_reducible assumption | intro _ | with_reducible apply kept_admitAnswer | with_reducible apply kept_peerAnswer
      | with_reducible apply kept_failReq | with_reducible apply hf | simp only [kept_upd]
      | (with_reducible refine Kept.fst (by assumption) ?_) | (with_reducible refine Kept.snd (by assumption) ?_)
      | (with_reducible refine KeptE.get (by assumption) ?_) | split | dsimp only)

theorem kept_allocLine {s0 : State} {s : State} {id die device line : Nat} {data : BitVec 1024} (h : Kept s0 s) : Kept s0 (allocLine s id die device line data) := by
  unfold allocLine
  (try dsimp only); repeat' (first | with_reducible assumption | intro _ | simp only [kept_upd] | split | dsimp only)

theorem kept_execReadResp {f : Flit} {p : RPkt} {s : State} {v0 : State} (hu : execReadResp f p s = .next v0) : Kept s v0 := by
  have h := Kept.refl s
  unfold execReadResp at hu
  (repeat' split at hu) <;> first
    | (injection hu with hu; subst hu; (try dsimp only); repeat' (first
        | with_reducible assumption | intro _ | with_reducible apply kept_answer | with_reducible apply kept_viewAccess
        | with_reducible apply kept_allocLine | with_reducible apply kept_pump | with_reducible apply kept_setC | split
        | dsimp only))
    | (cases hu; done)

theorem kept_flagAck {s0 : State} {s : State} {f : Flit} {p : RPkt} {vcs : List Nat} (h : Kept s0 s) : Kept s0 (flagAck s f p vcs) := by
  unfold flagAck
  (try dsimp only); repeat' (first
      | with_reducible assumption | intro _ | with_reducible apply kept_admitAnswer | with_reducible apply kept_failReq
      | with_reducible apply kept_pump | with_reducible apply kept_setC | simp only [kept_upd]
      | (with_reducible refine Kept.fst (by assumption) ?_) | (with_reducible refine Kept.snd (by assumption) ?_)
      | (with_reducible refine KeptE.get (by assumption) ?_) | split | dsimp only)

theorem kept_execFlagAck {f : Flit} {p : RPkt} {s : State} {v0 : State} (hu : execFlagAck f p s = .next v0) : Kept s v0 := by
  have h := Kept.refl s
  unfold execFlagAck at hu
  (repeat' split at hu) <;> first
    | (injection hu with hu; subst hu; (try dsimp only); repeat' (first
        | with_reducible assumption | intro _ | with_reducible apply kept_flagAck | split | dsimp only))
    | (cases hu; done)

theorem kept_execInvAck {f : Flit} {p : RPkt} {s : State} {v0 : State} (hu : execInvAck f p s = .next v0) : Kept s v0 := by
  have h := Kept.refl s
  unfold execInvAck at hu
  (repeat' split at hu) <;> first
    | (injection hu with hu; subst hu; (try dsimp only); repeat' (first
        | with_reducible assumption | intro _ | with_reducible apply kept_answer | with_reducible apply kept_pump
        | with_reducible apply kept_setC | split | dsimp only))
    | (cases hu; done)

theorem kept_execRemoteTimeout {w : Cluster} {slot : Fin 65} {s : State} {v0 : State} (hu : execRemoteTimeout w slot s = .next v0) : Kept s v0 := by
  have h := Kept.refl s
  unfold execRemoteTimeout at hu
  (repeat' split at hu) <;> first
    | (injection hu with hu; subst hu; (try dsimp only); repeat' (first
        | with_reducible assumption | intro _ | with_reducible apply kept_failReq | with_reducible apply kept_slot
        | simp only [kept_upd] | (with_reducible refine Kept.fst (by assumption) ?_)
        | (with_reducible refine Kept.snd (by assumption) ?_) | (with_reducible refine KeptE.get (by assumption) ?_) | split
        | dsimp only))
    | (cases hu; done)

theorem kept_deadWorker {s0 : State} {s : State} {id cl device : Nat} (h : Kept s0 s) : Kept s0 (deadWorker s id cl device) := by
  unfold deadWorker
  (try dsimp only); repeat' (first
      | with_reducible assumption | intro _ | with_reducible apply kept_failReq | simp only [kept_upd]
      | (with_reducible refine Kept.fst (by assumption) ?_) | (with_reducible refine Kept.snd (by assumption) ?_)
      | (with_reducible refine KeptE.get (by assumption) ?_) | split | dsimp only)

theorem kept_deadRequests {s0 : State} {s : State} {device : Nat} (h : Kept s0 s) : Kept s0 (deadRequests s device) := by
  unfold deadRequests
  (try dsimp only); repeat' (first
      | with_reducible assumption | intro _ | with_reducible apply kept_modC | with_reducible apply kept_deadWorker
      | simp only [kept_upd] | with_reducible refine Kept.foldl ?_ ?_ | with_reducible refine Kept.foldlFst ?_ ?_ | split
      | dsimp only)

/-! ### Target -/

theorem kept_admitReq {s0 : State} {s : State} {f : Flit} {p : RPkt} {spaces : List Nat} {write : Bool} (h : Kept s0 s) : Kept s0 (admitReq s f p spaces write).1 := by
  unfold admitReq
  (try dsimp only); repeat' (first | with_reducible assumption | intro _ | with_reducible apply kept_incr | split | dsimp only)

theorem kept_respond {s0 : State} {s : State} {f : Flit} {p : RPkt} {vc kind flow status : Nat} {data : BitVec 1024} (h : Kept s0 s) : Kept s0 (respond s f p vc kind flow status data) := by
  unfold respond
  (try dsimp only); repeat' (first
      | with_reducible assumption | intro _ | with_reducible apply kept_sendPkt | simp only [kept_upd] | split | dsimp only)

theorem kept_request {s0 : State} {s : State} {f : Flit} {p : RPkt} {vcs spaces : List Nat} {write mask inc : Bool} {rvc rkind : Nat} {ok : State → State} (hf : ∀ t, Kept s0 t → Kept s0 (ok t)) (h : Kept s0 s) : Kept s0 (request s f p vcs spaces write mask inc rvc rkind ok) := by
  unfold request
  (try dsimp only); repeat' (first
      | with_reducible assumption | intro _ | with_reducible apply kept_incr | with_reducible apply kept_respond
      | with_reducible apply kept_admitReq | with_reducible apply hf | simp only [kept_upd]
      | (with_reducible refine Kept.fst (by assumption) ?_) | (with_reducible refine Kept.snd (by assumption) ?_)
      | (with_reducible refine KeptE.get (by assumption) ?_) | split | dsimp only)

theorem kept_stackFault {s0 : State} {s : State} {ctx off : Nat} (h : Kept s0 s) : Kept s0 (stackFault s ctx off) := by
  unfold stackFault
  (try dsimp only); repeat' (first | with_reducible assumption | intro _ | with_reducible apply kept_unitFault | split | dsimp only)

theorem kept_localDenied {s0 : State} {s : State} {die unit ctx : Nat} (h : Kept s0 s) : Kept s0 (localDenied s die unit ctx) := by
  unfold localDenied
  (try dsimp only); repeat' (first
      | with_reducible assumption | intro _ | with_reducible apply kept_unitFault | with_reducible apply kept_incr | split
      | dsimp only)

theorem kept_readAnswer {s0 : State} {s : State} {f : Flit} {p : RPkt} (h : Kept s0 s) : Kept s0 (readAnswer s f p) := by
  unfold readAnswer
  (try dsimp only); repeat' (first
      | with_reducible assumption | intro _ | with_reducible apply kept_stackFault | with_reducible apply kept_remoteAccess
      | with_reducible apply kept_respond | with_reducible apply kept_setC | split | dsimp only)

theorem kept_homeRead {s0 : State} {s : State} {f : Flit} {p : RPkt} (h : Kept s0 s) : Kept s0 (homeRead s f p) := by
  unfold homeRead
  (try dsimp only); repeat' (first
      | with_reducible assumption | intro _ | with_reducible apply kept_readAnswer | with_reducible apply kept_sendFill
      | simp only [kept_upd] | (with_reducible refine Kept.fst (by assumption) ?_)
      | (with_reducible refine Kept.snd (by assumption) ?_) | (with_reducible refine KeptE.get (by assumption) ?_) | split
      | dsimp only)

theorem kept_holderRead {s0 : State} {s : State} {f : Flit} {p : RPkt} (h : Kept s0 s) : Kept s0 (holderRead s f p) := by
  unfold holderRead
  (try dsimp only); repeat' (first
      | with_reducible assumption | intro _ | with_reducible apply kept_respond | with_reducible apply kept_routeFlit
      | with_reducible apply kept_modC | simp only [kept_upd] | (with_reducible refine Kept.fst (by assumption) ?_)
      | (with_reducible refine Kept.snd (by assumption) ?_) | (with_reducible refine KeptE.get (by assumption) ?_) | split
      | dsimp only)

theorem kept_execReadReq {f : Flit} {p : RPkt} {s : State} {v0 : State} (hu : execReadReq f p s = .next v0) : Kept s v0 := by
  have h := Kept.refl s
  unfold execReadReq at hu
  (repeat' split at hu) <;> first
    | (injection hu with hu; subst hu; (try dsimp only); repeat' (first
        | with_reducible assumption | intro _ | with_reducible apply kept_request | with_reducible apply kept_respond
        | with_reducible apply kept_homeRead | with_reducible apply kept_holderRead | with_reducible apply kept_readAnswer | split
        | dsimp only))
    | (cases hu; done)

theorem kept_ackWrite {s0 : State} {s : State} {ctx src master tag line : Nat} {addr : BitVec 64} (h : Kept s0 s) : Kept s0 (ackWrite s ctx src master tag line addr) := by
  unfold ackWrite
  (try dsimp only); repeat' (first | with_reducible assumption | intro _ | with_reducible apply kept_sendPkt | split | dsimp only)

theorem kept_setSieve {s0 : State} {s : State} {slice : Nat} {v : Sieve} (h : Kept s0 s) : Kept s0 (setSieve s slice v) := by
  unfold setSieve
  (try dsimp only); repeat' (first
      | with_reducible assumption | intro _ | with_reducible apply kept_incr | simp only [kept_upd]
      | (with_reducible refine Kept.fst (by assumption) ?_) | (with_reducible refine Kept.snd (by assumption) ?_)
      | (with_reducible refine KeptE.get (by assumption) ?_) | split | dsimp only)

theorem kept_sievePush {s0 : State} {s : State} {x : SieveStore} (h : Kept s0 s) : Kept s0 (sievePush s x) := by
  unfold sievePush
  (try dsimp only); repeat' (first
      | with_reducible assumption | intro _ | with_reducible apply kept_setSieve | simp only [kept_upd] | split | dsimp only)

theorem kept_physWrite {s0 : State} {s : State} {off : Nat} {mask : BitVec 128} {data : BitVec 1024} (h : Kept s0 s) : Kept s0 (physWrite s off mask data) := by
  unfold physWrite
  (try dsimp only); repeat' (first
      | with_reducible assumption | intro _ | with_reducible apply kept_touchSys | simp only [kept_upd] | split | dsimp only)

theorem kept_takeRemote {s0 : State} {s : State} {ctx line : Nat} {mask : BitVec 128} {data : BitVec 1024} (h : Kept s0 s) : Kept s0 (takeRemote s ctx line mask data) := by
  unfold takeRemote
  (try dsimp only); repeat' (first
      | with_reducible assumption | intro _ | with_reducible apply kept_remoteAccess | with_reducible apply kept_setC | split
      | dsimp only)

theorem kept_execWriteReq {f : Flit} {p : RPkt} {s : State} {v0 : State} (hu : execWriteReq f p s = .next v0) : Kept s v0 := by
  have h := Kept.refl s
  unfold execWriteReq at hu
  (repeat' split at hu) <;> first
    | (injection hu with hu; subst hu; (try dsimp only); repeat' (first
        | with_reducible assumption | intro _ | with_reducible apply kept_request | with_reducible apply kept_ackWrite
        | with_reducible apply kept_physWrite | with_reducible apply kept_sievePush | with_reducible apply kept_holdPage
        | with_reducible apply kept_takeRemote | simp only [kept_upd] | split | dsimp only))
    | (cases hu; done)

theorem kept_execWritecReq {f : Flit} {p : RPkt} {s : State} {v0 : State} (hu : execWritecReq f p s = .next v0) : Kept s v0 := by
  have h := Kept.refl s
  unfold execWritecReq at hu
  (repeat' split at hu) <;> first
    | (injection hu with hu; subst hu; (try dsimp only); repeat' (first
        | with_reducible assumption | intro _ | with_reducible apply kept_request | with_reducible apply kept_sievePush | split
        | dsimp only))
    | (cases hu; done)

theorem kept_releaseHeld {s0 : State} {s : State} {ctx page : Nat} (h : Kept s0 s) : Kept s0 (releaseHeld s ctx page) := by
  unfold releaseHeld
  (try dsimp only); repeat' (first
      | with_reducible assumption | intro _ | with_reducible apply kept_ackWrite | with_reducible apply kept_takeRemote
      | with_reducible apply kept_modC | simp only [kept_upd] | with_reducible refine Kept.foldl ?_ ?_
      | with_reducible refine Kept.foldlFst ?_ ?_ | split | dsimp only)

theorem kept_execFlagInc {f : Flit} {p : RPkt} {s : State} {v0 : State} (hu : execFlagInc f p s = .next v0) : Kept s v0 := by
  have h := Kept.refl s
  unfold execFlagInc at hu
  (repeat' split at hu) <;> first
    | (injection hu with hu; subst hu; (try dsimp only); repeat' (first
        | with_reducible assumption | intro _ | with_reducible apply kept_request | with_reducible apply kept_respond
        | with_reducible apply kept_setC | split | dsimp only))
    | (cases hu; done)

theorem kept_execReplInv {f : Flit} {p : RPkt} {s : State} {v0 : State} (hu : execReplInv f p s = .next v0) : Kept s v0 := by
  have h := Kept.refl s
  unfold execReplInv at hu
  (repeat' split at hu) <;> first
    | (injection hu with hu; subst hu; (try dsimp only); repeat' (first
        | with_reducible assumption | intro _ | with_reducible apply kept_request | with_reducible apply kept_respond
        | with_reducible apply kept_modC | simp only [kept_upd] | split | dsimp only))
    | (cases hu; done)

theorem kept_execReplFill {f : Flit} {p : RPkt} {s : State} {v0 : State} (hu : execReplFill f p s = .next v0) : Kept s v0 := by
  have h := Kept.refl s
  unfold execReplFill at hu
  (repeat' split at hu) <;> first
    | (injection hu with hu; subst hu; (try dsimp only); repeat' (first
        | with_reducible assumption | intro _ | with_reducible apply kept_incr | with_reducible apply kept_admitReq
        | with_reducible apply kept_setC | simp only [kept_upd] | (with_reducible refine Kept.fst (by assumption) ?_)
        | (with_reducible refine Kept.snd (by assumption) ?_) | (with_reducible refine KeptE.get (by assumption) ?_) | split
        | dsimp only))
    | (cases hu; done)

theorem kept_ladleAck {s0 : State} {s : State} {p : RPkt} (h : Kept s0 s) : Kept s0 (ladleAck s p) := by
  unfold ladleAck
  (try dsimp only); repeat' (first
      | with_reducible assumption | intro _ | with_reducible apply kept_modC | with_reducible apply kept_capture
      | simp only [kept_upd] | split | dsimp only)

theorem kept_execWriteAck {f : Flit} {p : RPkt} {s : State} {v0 : State} (hu : execWriteAck f p s = .next v0) : Kept s v0 := by
  have h := Kept.refl s
  unfold execWriteAck at hu
  (repeat' split at hu) <;> first
    | (injection hu with hu; subst hu; (try dsimp only); repeat' (first
        | with_reducible assumption | intro _ | with_reducible apply kept_admitAnswer | with_reducible apply kept_ladleAck
        | with_reducible apply kept_answer | with_reducible apply kept_pump | with_reducible apply kept_setC | split | dsimp only))
    | (cases hu; done)

theorem kept_execRefusal {f : Flit} {p : RPkt} {s : State} {v0 : State} (hu : execRefusal f p s = .next v0) : Kept s v0 := by
  have h := Kept.refl s
  unfold execRefusal at hu
  (repeat' split at hu) <;> first
    | (injection hu with hu; subst hu; (try dsimp only); repeat' (first
        | with_reducible assumption | intro _ | with_reducible apply kept_admitAnswer | with_reducible apply kept_ladleAck
        | with_reducible apply kept_flagAck | with_reducible apply kept_answer | with_reducible apply kept_pump
        | with_reducible apply kept_setC | split | dsimp only))
    | (cases hu; done)

theorem kept_makeRoom {s0 s : State} {v : Sieve} {x : SieveStore} {r : State × Sieve × SieveEnt} (hr : makeRoom s v x = some r)
    (h : Kept s0 s) : Kept s0 r.1 := by
  unfold makeRoom at hr
  (repeat' split at hr) <;> first | (cases hr; done) | (injection hr with hr; subst hr; (dsimp only; first | exact h | exact kept_writeBack h | (split <;> first | exact kept_writeBack h | exact h)))

theorem kept_execSieveMerge {die : Fin 8} {slice : Fin 32} {s v0 : State} (hu : execSieveMerge die slice s = .next v0) : Kept s v0 := by
  have h := Kept.refl s
  unfold execSieveMerge at hu
  injection hu with hu
  subst hu
  dsimp only
  split
  · exact h
  · split
    · exact h
    · next hr =>
      have h1 := kept_makeRoom hr h
      split
      · exact kept_modC (kept_setSieve h1)
      · exact kept_ackWrite (kept_modC (kept_setSieve h1))

theorem kept_execSieveWriteback {die : Fin 8} {slice : Fin 32} {e : Fin 64} {s : State} {v0 : State} (hu : execSieveWriteback die slice e s = .next v0) : Kept s v0 := by
  have h := Kept.refl s
  unfold execSieveWriteback at hu
  (repeat' split at hu) <;> first
    | (injection hu with hu; subst hu; (try dsimp only); repeat' (first
        | with_reducible assumption | intro _ | with_reducible apply kept_holdPage | with_reducible apply kept_remoteAccess
        | with_reducible apply kept_setC | with_reducible apply kept_writeBack | with_reducible apply kept_setSieve
        | simp only [kept_upd] | (with_reducible refine Kept.fst (by assumption) ?_)
        | (with_reducible refine Kept.snd (by assumption) ?_) | (with_reducible refine KeptE.get (by assumption) ?_) | split
        | dsimp only))
    | (cases hu; done)

theorem kept_execSieveRetire {die : Fin 8} {slice : Fin 32} {e : Fin 64} {s : State} {v0 : State} (hu : execSieveRetire die slice e s = .next v0) : Kept s v0 := by
  have h := Kept.refl s
  unfold execSieveRetire at hu
  (repeat' split at hu) <;> first
    | (injection hu with hu; subst hu; (try dsimp only); repeat' (first
        | with_reducible assumption | intro _ | with_reducible apply kept_setSieve | with_reducible apply kept_writeBack
        | simp only [kept_upd] | (with_reducible refine Kept.fst (by assumption) ?_)
        | (with_reducible refine Kept.snd (by assumption) ?_) | (with_reducible refine KeptE.get (by assumption) ?_) | split
        | dsimp only))
    | (cases hu; done)

/-! ### Coll -/

theorem kept_flitAccess {s0 : State} {s : State} {c : Context} {q : CollReq} {reqs : List CollReq} {src : Nat} {is : List Nat} (h : Kept s0 s) : Kept s0 (flitAccess s c q reqs src is).1 := by
  unfold flitAccess
  (try dsimp only); repeat' (first
      | with_reducible assumption | intro _ | with_reducible apply kept_viewAccess | with_reducible refine Kept.foldl ?_ ?_
      | with_reducible refine Kept.foldlFst ?_ ?_ | split | dsimp only)

theorem kept_putFlit {s0 : State} {s : State} {id : Nat} {q : CollReq} {reqs : List CollReq} {src : Nat} {es : List (Nat × Partial)} (h : Kept s0 s) : Kept s0 (putFlit s id q reqs src es) := by
  unfold putFlit
  (try dsimp only); repeat' (first
      | with_reducible assumption | intro _ | with_reducible apply kept_flitAccess | with_reducible apply kept_setC | split
      | dsimp only)

theorem kept_raiseCorrupt {s0 : State} {s : State} {id ch code : Nat} (h : Kept s0 s) : Kept s0 (raiseCorrupt s id ch code) := by
  unfold raiseCorrupt
  (try dsimp only); repeat' (first
      | with_reducible assumption | intro _ | with_reducible apply kept_modC | with_reducible apply kept_raiseEvent
      | with_reducible apply kept_incr | simp only [kept_upd] | split | dsimp only)

theorem kept_finishColl {s0 : State} {s : State} {id : Nat} (h : Kept s0 s) : Kept s0 (finishColl s id) := by
  unfold finishColl
  (try dsimp only); repeat' (first
      | with_reducible assumption | intro _ | with_reducible apply kept_setC | simp only [kept_upd]
      | with_reducible refine Kept.foldl ?_ ?_ | with_reducible refine Kept.foldlFst ?_ ?_
      | (with_reducible refine Kept.fst (by assumption) ?_) | (with_reducible refine Kept.snd (by assumption) ?_)
      | (with_reducible refine KeptE.get (by assumption) ?_) | split | dsimp only)

theorem kept_sendColl {s0 : State} {s : State} {id kind r : Nat} {p : CPkt} (h : Kept s0 s) : Kept s0 (sendColl s id kind r p) := by
  unfold sendColl
  (try dsimp only); repeat' (first | with_reducible assumption | intro _ | with_reducible apply kept_sendPkt | split | dsimp only)

theorem kept_modColl {s0 : State} {s : State} {id : Nat} {f : Coll → Coll} (h : Kept s0 s) : Kept s0 (modColl s id f) := by
  unfold modColl
  (try dsimp only); repeat' (first
      | with_reducible assumption | intro _ | with_reducible apply kept_modC | simp only [kept_upd] | split | dsimp only)

theorem kept_takeDown {s0 : State} {s : State} {id : Nat} {q : CollReq} {ch fl form : Nat} {ps : List Partial} (h : Kept s0 s) : Kept s0 (takeDown s id q ch fl form ps) := by
  unfold takeDown
  (try dsimp only); repeat' (first
      | with_reducible assumption | intro _ | with_reducible apply kept_modColl | with_reducible apply kept_putFlit
      | simp only [kept_upd] | (with_reducible refine Kept.fst (by assumption) ?_)
      | (with_reducible refine Kept.snd (by assumption) ?_) | (with_reducible refine KeptE.get (by assumption) ?_) | split
      | dsimp only)

theorem kept_goDown {s0 : State} {t : Nat} {s : State} {id : Nat} {q : CollReq} {ch fl form : Nat} {ps : List Partial} (h : Kept s0 s) : Kept s0 (goDown t s id q ch fl form ps) := by
  induction t using Nat.strongRecOn generalizing s with
  | ind m ih =>
  unfold goDown
  (try dsimp only); repeat' (first
      | with_reducible assumption | intro _ | with_reducible apply kept_sendColl | with_reducible apply kept_takeDown
      | with_reducible apply ih | simp only [kept_upd] | with_reducible refine Kept.foldl ?_ ?_
      | with_reducible refine Kept.foldlFst ?_ ?_ | (with_reducible refine Kept.fst (by assumption) ?_)
      | (with_reducible refine Kept.snd (by assumption) ?_) | (with_reducible refine KeptE.get (by assumption) ?_) | split
      | dsimp only)
  all_goals omega

theorem kept_downDone {s0 : State} {s : State} {id ch form : Nat} (h : Kept s0 s) : Kept s0 (downDone s id ch form) := by
  unfold downDone
  (try dsimp only); repeat' (first | with_reducible assumption | intro _ | with_reducible apply kept_modColl | split | dsimp only)

theorem kept_goUp {s0 : State} {n : Nat} {s : State} {id : Nat} {q : CollReq} {ch fl form idx count : Nat} {ps : List Partial} (h : Kept s0 s) : Kept s0 (goUp n s id q ch fl form idx count ps) := by
  induction n generalizing s idx count ps with
  | zero => unfold goUp; (try dsimp only); repeat' (first
      | with_reducible assumption | intro _ | with_reducible apply kept_downDone | with_reducible apply kept_goDown
      | with_reducible apply kept_sendColl | with_reducible apply kept_modColl | with_reducible apply kept_raiseCorrupt
      | simp only [kept_upd] | with_reducible refine Kept.foldl ?_ ?_ | with_reducible refine Kept.foldlFst ?_ ?_
      | (with_reducible refine Kept.fst (by assumption) ?_) | (with_reducible refine Kept.snd (by assumption) ?_)
      | (with_reducible refine KeptE.get (by assumption) ?_) | split | dsimp only)
  | succ m ih =>
  unfold goUp
  (try dsimp only); repeat' (first
      | with_reducible apply ih | with_reducible assumption | intro _ | with_reducible apply kept_downDone
      | with_reducible apply kept_goDown | with_reducible apply kept_sendColl | with_reducible apply kept_modColl
      | with_reducible apply kept_raiseCorrupt | simp only [kept_upd] | with_reducible refine Kept.foldl ?_ ?_
      | with_reducible refine Kept.foldlFst ?_ ?_ | (with_reducible refine Kept.fst (by assumption) ?_)
      | (with_reducible refine Kept.snd (by assumption) ?_) | (with_reducible refine KeptE.get (by assumption) ?_) | split
      | dsimp only)

theorem kept_contribute {s0 : State} {s : State} {id : Nat} {q : CollReq} {ch fl form : Nat} {ps : List Partial} (h : Kept s0 s) : Kept s0 (contribute s id q ch fl form ps) := by
  unfold contribute
  (try dsimp only); repeat' (first
      | with_reducible assumption | intro _ | with_reducible apply kept_goUp | with_reducible apply kept_sendColl
      | simp only [kept_upd] | (with_reducible refine Kept.fst (by assumption) ?_)
      | (with_reducible refine Kept.snd (by assumption) ?_) | (with_reducible refine KeptE.get (by assumption) ?_) | split
      | dsimp only)

theorem kept_contributeChunk {s0 : State} {s : State} {id : Nat} {q : CollReq} {ch form : Nat} (h : Kept s0 s) : Kept s0 (contributeChunk s id q ch form) := by
  unfold contributeChunk
  (try dsimp only); repeat' (first
      | with_reducible assumption | intro _ | with_reducible apply kept_contribute | with_reducible apply kept_setC
      | with_reducible refine Kept.foldl ?_ ?_ | with_reducible refine Kept.foldlFst ?_ ?_ | split | dsimp only)

theorem kept_sendBlocks {s0 : State} {s : State} {id : Nat} {q : CollReq} {ch : Nat} (h : Kept s0 s) : Kept s0 (sendBlocks s id q ch) := by
  unfold sendBlocks
  (try dsimp only); repeat' (first
      | with_reducible assumption | intro _ | with_reducible apply kept_sendColl | with_reducible refine Kept.foldl ?_ ?_
      | with_reducible refine Kept.foldlFst ?_ ?_ | split | dsimp only)

theorem kept_startChunk {s0 : State} {s : State} {id : Nat} {q : CollReq} {ch : Nat} (h : Kept s0 s) : Kept s0 (startChunk s id q ch) := by
  unfold startChunk
  (try dsimp only); repeat' (first
      | with_reducible assumption | intro _ | with_reducible apply kept_sendBlocks | with_reducible apply kept_contributeChunk
      | simp only [kept_upd] | (with_reducible refine Kept.fst (by assumption) ?_)
      | (with_reducible refine Kept.snd (by assumption) ?_) | (with_reducible refine KeptE.get (by assumption) ?_) | split
      | dsimp only)

theorem kept_startChunks {s0 : State} {fuel : Nat} {s : State} {id : Nat} {q : CollReq} (h : Kept s0 s) : Kept s0 (startChunks fuel s id q) := by
  induction fuel generalizing s with
  | zero => unfold startChunks; (try dsimp only); repeat' (first
      | with_reducible assumption | intro _ | with_reducible apply kept_modColl | with_reducible apply kept_startChunk
      | simp only [kept_upd] | (with_reducible refine Kept.fst (by assumption) ?_)
      | (with_reducible refine Kept.snd (by assumption) ?_) | (with_reducible refine KeptE.get (by assumption) ?_) | split
      | dsimp only)
  | succ m ih =>
  unfold startChunks
  (try dsimp only); repeat' (first
      | with_reducible apply ih | with_reducible assumption | intro _ | with_reducible apply kept_modColl
      | with_reducible apply kept_startChunk | simp only [kept_upd] | (with_reducible refine Kept.fst (by assumption) ?_)
      | (with_reducible refine Kept.snd (by assumption) ?_) | (with_reducible refine KeptE.get (by assumption) ?_) | split
      | dsimp only)

theorem kept_secondPass {s0 : State} {s : State} {id : Nat} {q : CollReq} {ch : Nat} (h : Kept s0 s) : Kept s0 (secondPass s id q ch) := by
  unfold secondPass
  (try dsimp only); repeat' (first
      | with_reducible assumption | intro _ | with_reducible apply kept_contributeChunk | simp only [kept_upd]
      | (with_reducible refine Kept.fst (by assumption) ?_) | (with_reducible refine Kept.snd (by assumption) ?_)
      | (with_reducible refine KeptE.get (by assumption) ?_) | split | dsimp only)

theorem kept_openDown {s0 : State} {t : Nat} {s : State} {id : Nat} {sig : BitVec 64} {v : EntryVals} (h : Kept s0 s) : Kept s0 (openDown t s id sig v) := by
  induction t using Nat.strongRecOn generalizing s with
  | ind m ih =>
  unfold openDown
  (try dsimp only); repeat' (first
      | with_reducible assumption | intro _ | with_reducible apply kept_sendColl | with_reducible apply kept_modColl
      | with_reducible apply ih | simp only [kept_upd] | with_reducible refine Kept.foldl ?_ ?_
      | with_reducible refine Kept.foldlFst ?_ ?_ | (with_reducible refine Kept.fst (by assumption) ?_)
      | (with_reducible refine Kept.snd (by assumption) ?_) | (with_reducible refine KeptE.get (by assumption) ?_) | split
      | dsimp only)
  all_goals omega

theorem kept_openUp {s0 : State} {n : Nat} {s : State} {id : Nat} {sig : BitVec 64} {idx : Nat} {v : EntryVals} (h : Kept s0 s) : Kept s0 (openUp n s id sig idx v) := by
  induction n generalizing s idx v with
  | zero => unfold openUp; (try dsimp only); repeat' (first
      | with_reducible assumption | intro _ | with_reducible apply kept_openDown | with_reducible apply kept_modColl
      | with_reducible apply kept_sendColl | simp only [kept_upd] | with_reducible refine Kept.foldl ?_ ?_
      | with_reducible refine Kept.foldlFst ?_ ?_ | (with_reducible refine Kept.fst (by assumption) ?_)
      | (with_reducible refine Kept.snd (by assumption) ?_) | (with_reducible refine KeptE.get (by assumption) ?_) | split
      | dsimp only)
  | succ m ih =>
  unfold openUp
  (try dsimp only); repeat' (first
      | with_reducible apply ih | with_reducible assumption | intro _ | with_reducible apply kept_openDown
      | with_reducible apply kept_modColl | with_reducible apply kept_sendColl | simp only [kept_upd]
      | with_reducible refine Kept.foldl ?_ ?_ | with_reducible refine Kept.foldlFst ?_ ?_
      | (with_reducible refine Kept.fst (by assumption) ?_) | (with_reducible refine Kept.snd (by assumption) ?_)
      | (with_reducible refine KeptE.get (by assumption) ?_) | split | dsimp only)

theorem kept_openOwn {s0 : State} {s : State} {id : Nat} {sig : BitVec 64} {v : EntryVals} (h : Kept s0 s) : Kept s0 (openOwn s id sig v) := by
  unfold openOwn
  (try dsimp only); repeat' (first
      | with_reducible assumption | intro _ | with_reducible apply kept_openUp | with_reducible apply kept_sendColl
      | simp only [kept_upd] | (with_reducible refine Kept.fst (by assumption) ?_)
      | (with_reducible refine Kept.snd (by assumption) ?_) | (with_reducible refine KeptE.get (by assumption) ?_) | split
      | dsimp only)

theorem kept_collMismatch {s0 : State} {s : State} {id : Nat} (h : Kept s0 s) : Kept s0 (collMismatch s id) := by
  unfold collMismatch
  (try dsimp only); repeat' (first | with_reducible assumption | intro _ | with_reducible apply kept_endJobSealed | split | dsimp only)

theorem kept_collTake {s0 : State} {s : State} {id : Nat} {q : CollReq} {kind : Nat} {p : CPkt} (h : Kept s0 s) : Kept s0 (collTake s id q kind p) := by
  unfold collTake
  (try dsimp only); repeat' (first
      | with_reducible assumption | intro _ | with_reducible apply kept_incr | with_reducible apply kept_raiseCorrupt
      | with_reducible apply kept_modC | with_reducible apply kept_secondPass | with_reducible apply kept_startChunks
      | with_reducible apply kept_downDone | with_reducible apply kept_collMismatch | with_reducible apply kept_openUp
      | with_reducible apply kept_openDown | with_reducible apply kept_modColl | with_reducible apply kept_goUp
      | with_reducible apply kept_takeDown | with_reducible apply kept_goDown | with_reducible apply kept_putFlit
      | simp only [kept_upd] | (with_reducible refine Kept.fst (by assumption) ?_)
      | (with_reducible refine Kept.snd (by assumption) ?_) | (with_reducible refine KeptE.get (by assumption) ?_) | split
      | dsimp only)

theorem kept_collDrain {s0 : State} {fuel : Nat} {s : State} {id : Nat} (h : Kept s0 s) : Kept s0 (collDrain fuel s id) := by
  induction fuel generalizing s with
  | zero => unfold collDrain; (try dsimp only); repeat' (first
      | with_reducible assumption | intro _ | with_reducible apply kept_collTake | with_reducible apply kept_modC
      | simp only [kept_upd] | (with_reducible refine Kept.fst (by assumption) ?_)
      | (with_reducible refine Kept.snd (by assumption) ?_) | (with_reducible refine KeptE.get (by assumption) ?_) | split
      | dsimp only)
  | succ m ih =>
  unfold collDrain
  (try dsimp only); repeat' (first
      | with_reducible apply ih | with_reducible assumption | intro _ | with_reducible apply kept_collTake
      | with_reducible apply kept_modC | simp only [kept_upd] | (with_reducible refine Kept.fst (by assumption) ?_)
      | (with_reducible refine Kept.snd (by assumption) ?_) | (with_reducible refine KeptE.get (by assumption) ?_) | split
      | dsimp only)

theorem kept_collPump {s0 : State} {s : State} {id : Nat} (h : Kept s0 s) : Kept s0 (collPump s id) := by
  unfold collPump
  (try dsimp only); repeat' (first
      | with_reducible assumption | intro _ | with_reducible apply kept_finishColl | with_reducible apply kept_collDrain | split
      | dsimp only)

theorem kept_collArrive {s0 : State} {kind : Nat} {f : Flit} {p : CPkt} {s : State} (h : Kept s0 s) : Kept s0 (collArrive kind f p s) := by
  unfold collArrive
  (try dsimp only); repeat' (first
      | with_reducible assumption | intro _ | with_reducible apply kept_incr | with_reducible apply kept_collPump
      | with_reducible apply kept_setC | simp only [kept_upd] | (with_reducible refine Kept.fst (by assumption) ?_)
      | (with_reducible refine Kept.snd (by assumption) ?_) | (with_reducible refine KeptE.get (by assumption) ?_) | split
      | dsimp only)

theorem kept_execCollOpenUp {f : Flit} {p : CPkt} {s : State} {v0 : State} (hu : execCollOpenUp f p s = .next v0) : Kept s v0 := by
  have h := Kept.refl s
  unfold execCollOpenUp at hu
  (repeat' split at hu) <;> first
    | (injection hu with hu; subst hu; (try dsimp only); repeat' (first
        | with_reducible assumption | intro _ | with_reducible apply kept_collArrive | split | dsimp only))
    | (cases hu; done)

theorem kept_execCollOpenDown {f : Flit} {p : CPkt} {s : State} {v0 : State} (hu : execCollOpenDown f p s = .next v0) : Kept s v0 := by
  have h := Kept.refl s
  unfold execCollOpenDown at hu
  (repeat' split at hu) <;> first
    | (injection hu with hu; subst hu; (try dsimp only); repeat' (first
        | with_reducible assumption | intro _ | with_reducible apply kept_collArrive | split | dsimp only))
    | (cases hu; done)

theorem kept_execCollUp {f : Flit} {p : CPkt} {s : State} {v0 : State} (hu : execCollUp f p s = .next v0) : Kept s v0 := by
  have h := Kept.refl s
  unfold execCollUp at hu
  (repeat' split at hu) <;> first
    | (injection hu with hu; subst hu; (try dsimp only); repeat' (first
        | with_reducible assumption | intro _ | with_reducible apply kept_collArrive | split | dsimp only))
    | (cases hu; done)

theorem kept_execCollDown {f : Flit} {p : CPkt} {s : State} {v0 : State} (hu : execCollDown f p s = .next v0) : Kept s v0 := by
  have h := Kept.refl s
  unfold execCollDown at hu
  (repeat' split at hu) <;> first
    | (injection hu with hu; subst hu; (try dsimp only); repeat' (first
        | with_reducible assumption | intro _ | with_reducible apply kept_collArrive | split | dsimp only))
    | (cases hu; done)

theorem kept_execCollA2a {f : Flit} {p : CPkt} {s : State} {v0 : State} (hu : execCollA2a f p s = .next v0) : Kept s v0 := by
  have h := Kept.refl s
  unfold execCollA2a at hu
  (repeat' split at hu) <;> first
    | (injection hu with hu; subst hu; (try dsimp only); repeat' (first
        | with_reducible assumption | intro _ | with_reducible apply kept_collArrive | split | dsimp only))
    | (cases hu; done)

theorem kept_collOp {s0 : State} {w : Cluster} {kind : CollKind} {fmt : Fmt} {mode : RedMode} {op : RedOp} {cfield chunk : Nat} {d a : VReg} {b : Option SReg} {s : State} (h : Kept s0 s) : Kept s0 (collOp w kind fmt mode op cfield chunk d a b s) := by
  unfold collOp
  (try dsimp only); repeat' (first
      | with_reducible assumption | intro _ | with_reducible apply kept_issue | with_reducible apply kept_operandHalt
      | with_reducible apply kept_pageWait | simp only [kept_upd] | simp only [keptR_done, keptR_jump, keptR_wait, keptR_halt]
      | (with_reducible refine Kept.fst (by assumption) ?_) | (with_reducible refine Kept.snd (by assumption) ?_)
      | (with_reducible refine KeptE.get (by assumption) ?_) | split | dsimp only)

theorem kept_execCallred {w : Cluster} {fmt : Fmt} {mode : RedMode} {op : RedOp} {chunk : Nat} {d a : VReg} {s : State} {v0 : State} (hu : execCallred w fmt mode op chunk d a s = .next v0) : Kept s v0 := by
  have h := Kept.refl s
  unfold execCallred at hu
  (repeat' split at hu) <;> first
    | (injection hu with hu; subst hu; (try dsimp only); repeat' (first
        | with_reducible assumption | intro _ | with_reducible apply kept_collOp | split | dsimp only))
    | (cases hu; done)

theorem kept_execCrscat {w : Cluster} {fmt : Fmt} {mode : RedMode} {op : RedOp} {chunk : Nat} {d a : VReg} {s : State} {v0 : State} (hu : execCrscat w fmt mode op chunk d a s = .next v0) : Kept s v0 := by
  have h := Kept.refl s
  unfold execCrscat at hu
  (repeat' split at hu) <;> first
    | (injection hu with hu; subst hu; (try dsimp only); repeat' (first
        | with_reducible assumption | intro _ | with_reducible apply kept_collOp | split | dsimp only))
    | (cases hu; done)

theorem kept_execCagth {w : Cluster} {fmt : Fmt} {chunk : Nat} {d a : VReg} {s : State} {v0 : State} (hu : execCagth w fmt chunk d a s = .next v0) : Kept s v0 := by
  have h := Kept.refl s
  unfold execCagth at hu
  (repeat' split at hu) <;> first
    | (injection hu with hu; subst hu; (try dsimp only); repeat' (first
        | with_reducible assumption | intro _ | with_reducible apply kept_collOp | split | dsimp only))
    | (cases hu; done)

theorem kept_execCbcst {w : Cluster} {fmt : Fmt} {chunk : Nat} {d a : VReg} {b : SReg} {s : State} {v0 : State} (hu : execCbcst w fmt chunk d a b s = .next v0) : Kept s v0 := by
  have h := Kept.refl s
  unfold execCbcst at hu
  (repeat' split at hu) <;> first
    | (injection hu with hu; subst hu; (try dsimp only); repeat' (first
        | with_reducible assumption | intro _ | with_reducible apply kept_collOp | split | dsimp only))
    | (cases hu; done)

theorem kept_execCa2a {w : Cluster} {fmt : Fmt} {chunk : Nat} {d a : VReg} {s : State} {v0 : State} (hu : execCa2a w fmt chunk d a s = .next v0) : Kept s v0 := by
  have h := Kept.refl s
  unfold execCa2a at hu
  (repeat' split at hu) <;> first
    | (injection hu with hu; subst hu; (try dsimp only); repeat' (first
        | with_reducible assumption | intro _ | with_reducible apply kept_collOp | split | dsimp only))
    | (cases hu; done)

theorem kept_oneDevice {s0 : State} {s : State} {id : Nat} {q : CollReq} {reqs : List CollReq} {src : List (List Nat)} (h : Kept s0 s) : Kept s0 (oneDevice s id q reqs src) := by
  unfold oneDevice
  (try dsimp only); repeat' (first
      | with_reducible assumption | intro _ | with_reducible apply kept_flitAccess | with_reducible apply kept_modColl
      | with_reducible apply kept_setC | simp only [kept_upd] | with_reducible refine Kept.foldl ?_ ?_
      | with_reducible refine Kept.foldlFst ?_ ?_ | split | dsimp only)

theorem kept_entryReads {s0 : State} {s : State} {c : Context} {reqs : List CollReq} (h : Kept s0 s) : Kept s0 (entryReads s c reqs).1 := by
  unfold entryReads
  (try dsimp only); repeat' (first
      | with_reducible assumption | intro _ | with_reducible apply kept_viewAccess | with_reducible refine Kept.foldl ?_ ?_
      | with_reducible refine Kept.foldlFst ?_ ?_ | split | dsimp only)

theorem kept_execCollDeviceEntry {s : State} {v0 : State} (hu : execCollDeviceEntry s = .next v0) : Kept s v0 := by
  have h := Kept.refl s
  unfold execCollDeviceEntry at hu
  (repeat' split at hu) <;> first
    | (injection hu with hu; subst hu; (try dsimp only); repeat' (first
        | with_reducible assumption | intro _ | with_reducible apply kept_collMismatch | with_reducible apply kept_applyRes
        | with_reducible apply kept_troubleRes | with_reducible apply kept_entryReads | with_reducible apply kept_setC
        | with_reducible apply kept_collPump | with_reducible apply kept_oneDevice | with_reducible apply kept_openOwn
        | with_reducible apply kept_startChunks | simp only [kept_upd] | with_reducible refine Kept.foldl ?_ ?_
        | with_reducible refine Kept.foldlFst ?_ ?_ | (with_reducible refine Kept.fst (by assumption) ?_)
        | (with_reducible refine Kept.snd (by assumption) ?_) | (with_reducible refine KeptE.get (by assumption) ?_) | split
        | dsimp only))
    | (cases hu; done)

theorem kept_execResidueCheckDone {s : State} {v0 : State} (hu : execResidueCheckDone s = .next v0) : Kept s v0 := by
  have h := Kept.refl s
  unfold execResidueCheckDone at hu
  (repeat' split at hu) <;> first
    | (injection hu with hu; subst hu; (try dsimp only); repeat' (first
        | with_reducible assumption | intro _ | with_reducible apply kept_incr | with_reducible apply kept_setC
        | with_reducible apply kept_raiseCorrupt | simp only [kept_upd] | (with_reducible refine Kept.fst (by assumption) ?_)
        | (with_reducible refine Kept.snd (by assumption) ?_) | (with_reducible refine KeptE.get (by assumption) ?_) | split
        | dsimp only))
    | (cases hu; done)

theorem kept_collEnd {s0 : State} {s : State} {id code : Nat} {device : Option Nat} (h : Kept s0 s) : Kept s0 (collEnd s id code device) := by
  unfold collEnd
  (try dsimp only); repeat' (first
      | with_reducible assumption | intro _ | with_reducible apply kept_drawNat | with_reducible apply kept_endJob
      | with_reducible apply kept_setC | simp only [kept_upd] | with_reducible refine Kept.foldl ?_ ?_
      | with_reducible refine Kept.foldlFst ?_ ?_ | (with_reducible refine Kept.fst (by assumption) ?_)
      | (with_reducible refine Kept.snd (by assumption) ?_) | (with_reducible refine KeptE.get (by assumption) ?_) | split
      | dsimp only)

theorem kept_execCollectiveTimeout {s : State} {v0 : State} (hu : execCollectiveTimeout s = .next v0) : Kept s v0 := by
  have h := Kept.refl s
  unfold execCollectiveTimeout at hu
  (repeat' split at hu) <;> first
    | (injection hu with hu; subst hu; (try dsimp only); repeat' (first
        | with_reducible assumption | intro _ | with_reducible apply kept_collEnd | simp only [kept_upd]
        | (with_reducible refine Kept.fst (by assumption) ?_) | (with_reducible refine Kept.snd (by assumption) ?_)
        | (with_reducible refine KeptE.get (by assumption) ?_) | split | dsimp only))
    | (cases hu; done)

theorem kept_deadCollectives {s0 : State} {s : State} {device : Nat} (h : Kept s0 s) : Kept s0 (deadCollectives s device) := by
  unfold deadCollectives
  (try dsimp only); repeat' (first
      | with_reducible assumption | intro _ | with_reducible apply kept_collEnd | with_reducible refine Kept.foldl ?_ ?_
      | with_reducible refine Kept.foldlFst ?_ ?_ | split | dsimp only)

theorem kept_execLateWindowEnd {s : State} {v0 : State} (hu : execLateWindowEnd s = .next v0) : Kept s v0 := by
  have h := Kept.refl s
  unfold execLateWindowEnd at hu
  (repeat' split at hu) <;> first
    | (injection hu with hu; subst hu; (try dsimp only); repeat' (first
        | with_reducible assumption | intro _ | with_reducible apply kept_modC | with_reducible refine Kept.foldl ?_ ?_
        | with_reducible refine Kept.foldlFst ?_ ?_ | split | dsimp only))
    | (cases hu; done)

end Sys2Proof.Laws
end

