-- ==== Sys2Proof/Laws/KeptUnits.lean ====
section
/-! SUPPORT. `kept_<operation>` and `kept_exec<Row>` for checkpoints, solvers, plants, Celale, the package, contexts, keys,
firmware, the taster and power. -/

namespace Sys2Proof.Laws

open Sys2Proof Sys2Proof.Machine

set_option linter.all false
set_option linter.unusedSimpArgs false
set_option linter.unnecessarySeqFocus false
set_option linter.unusedTactic false
set_option linter.unreachableTactic false

/-! ### Ckpt -/

theorem kept_modCap {s0 : State} {s : State} {id : Nat} {f : Capture → Capture} (h : Kept s0 s) : Kept s0 (modCap s id f) := by
  unfold modCap
  (try dsimp only); repeat' (first
      | with_reducible assumption | intro _ | with_reducible apply kept_modC | with_reducible apply kept_capture
      | simp only [kept_upd] | split | dsimp only)

theorem kept_dirtyCap {s0 : State} {s : State} {id reason : Nat} (h : Kept s0 s) : Kept s0 (dirtyCap s id reason) := by
  unfold dirtyCap
  (try dsimp only); repeat' (first
      | with_reducible assumption | intro _ | with_reducible apply kept_modCap | simp only [kept_upd] | split | dsimp only)

theorem kept_putVotes {s0 : State} {s : State} {g : GenVotes} (h : Kept s0 s) : Kept s0 (putVotes s g) := by
  unfold putVotes
  (try dsimp only); repeat' (first | with_reducible assumption | intro _ | simp only [kept_upd] | split | dsimp only)

theorem kept_toMembers {s0 : State} {s : State} {c : Context} {m : Ctl} {self : State → State} (hf : ∀ t, Kept s0 t → Kept s0 (self t)) (h : Kept s0 s) : Kept s0 (toMembers s c m self) := by
  unfold toMembers
  (try dsimp only); repeat' (first
      | with_reducible assumption | intro _ | with_reducible apply kept_sendCtl | with_reducible apply hf
      | with_reducible refine Kept.foldl ?_ ?_ | with_reducible refine Kept.foldlFst ?_ ?_ | split | dsimp only)

theorem kept_toBuddy {s0 : State} {s : State} {m : Ctl} (h : Kept s0 s) : Kept s0 (toBuddy s m) := by
  unfold toBuddy
  (try dsimp only); repeat' (first | with_reducible assumption | intro _ | with_reducible apply kept_sendCtl | split | dsimp only)

theorem kept_memberDone {s0 : State} {s : State} {gen : Nat} (h : Kept s0 s) : Kept s0 (memberDone s gen) := by
  unfold memberDone
  (try dsimp only); repeat' (first
      | with_reducible assumption | intro _ | with_reducible apply kept_toBuddy | simp only [kept_upd] | split | dsimp only)

theorem kept_takeAck {s0 : State} {s : State} {gen rank : Nat} (h : Kept s0 s) : Kept s0 (takeAck s gen rank) := by
  unfold takeAck
  (try dsimp only); repeat' (first
      | with_reducible assumption | intro _ | with_reducible apply kept_putVotes | with_reducible apply kept_toMembers
      | with_reducible apply kept_memberDone | simp only [kept_upd] | (with_reducible refine Kept.fst (by assumption) ?_)
      | (with_reducible refine Kept.snd (by assumption) ?_) | (with_reducible refine KeptE.get (by assumption) ?_) | split
      | dsimp only)

theorem kept_memberCommit {s0 : State} {s : State} {gen digest : Nat} (h : Kept s0 s) : Kept s0 (memberCommit s gen digest) := by
  unfold memberCommit
  (try dsimp only); repeat' (first
      | with_reducible assumption | intro _ | with_reducible apply kept_setC | with_reducible apply kept_capture
      | with_reducible apply kept_logInput | with_reducible apply kept_takeAck | with_reducible apply kept_sendCtl
      | simp only [kept_upd] | (with_reducible refine Kept.fst (by assumption) ?_)
      | (with_reducible refine Kept.snd (by assumption) ?_) | (with_reducible refine KeptE.get (by assumption) ?_) | split
      | dsimp only)

theorem kept_memberAbort {s0 : State} {s : State} {gen : Nat} {reason : Nat} (h : Kept s0 s) : Kept s0 (memberAbort s gen reason) := by
  unfold memberAbort
  (try dsimp only); repeat' (first
      | with_reducible assumption | intro _ | with_reducible apply kept_capture | with_reducible apply kept_setC
      | with_reducible apply kept_toBuddy | simp only [kept_upd] | with_reducible refine Kept.foldl ?_ ?_
      | with_reducible refine Kept.foldlFst ?_ ?_ | (with_reducible refine Kept.fst (by assumption) ?_)
      | (with_reducible refine Kept.snd (by assumption) ?_) | (with_reducible refine KeptE.get (by assumption) ?_) | split
      | dsimp only)

theorem kept_abortGen {s0 : State} {s : State} {c : Context} {gen reason : Nat} (h : Kept s0 s) : Kept s0 (abortGen s c gen reason) := by
  unfold abortGen
  (try dsimp only); repeat' (first
      | with_reducible assumption | intro _ | with_reducible apply kept_putVotes | with_reducible apply kept_toMembers
      | with_reducible apply kept_memberAbort | simp only [kept_upd] | split | dsimp only)

theorem kept_manifestBytes {s0 : State} {s : State} {c : Context} {g : GenVotes} (h : Kept s0 s) : Kept s0 (manifestBytes s c g).2 := by
  unfold manifestBytes
  (try dsimp only); repeat' (first
      | with_reducible assumption | intro _ | with_reducible apply kept_drawBytes | simp only [kept_upd]
      | (with_reducible refine Kept.fst (by assumption) ?_) | (with_reducible refine Kept.snd (by assumption) ?_)
      | (with_reducible refine KeptE.get (by assumption) ?_) | split | dsimp only)

theorem kept_decideGen {s0 : State} {s : State} {c : Context} {gen : Nat} (h : Kept s0 s) : Kept s0 (decideGen s c gen) := by
  unfold decideGen
  (try dsimp only); repeat' (first
      | with_reducible assumption | intro _ | with_reducible apply kept_abortGen | with_reducible apply kept_manifestBytes
      | with_reducible apply kept_sendRoce | with_reducible apply kept_putVotes | with_reducible apply kept_toMembers
      | with_reducible apply kept_memberCommit | simp only [kept_upd] | (with_reducible refine Kept.fst (by assumption) ?_)
      | (with_reducible refine Kept.snd (by assumption) ?_) | (with_reducible refine KeptE.get (by assumption) ?_) | split
      | dsimp only)

theorem kept_takeVote {s0 : State} {s : State} {gen : Nat} {e : Shard} (h : Kept s0 s) : Kept s0 (takeVote s gen e) := by
  unfold takeVote
  (try dsimp only); repeat' (first
      | with_reducible assumption | intro _ | with_reducible apply kept_decideGen | with_reducible apply kept_putVotes
      | simp only [kept_upd] | (with_reducible refine Kept.fst (by assumption) ?_)
      | (with_reducible refine Kept.snd (by assumption) ?_) | (with_reducible refine KeptE.get (by assumption) ?_) | split
      | dsimp only)

theorem kept_castVote {s0 : State} {s : State} {id : Nat} {g : Capture} {reason : Nat} (h : Kept s0 s) : Kept s0 (castVote s id g reason) := by
  unfold castVote
  (try dsimp only); repeat' (first
      | with_reducible assumption | intro _ | with_reducible apply kept_drawNat | with_reducible apply kept_setC
      | with_reducible apply kept_capture | with_reducible apply kept_raiseEvent | with_reducible apply kept_takeVote
      | with_reducible apply kept_sendCtl | simp only [kept_upd] | split | dsimp only)

theorem kept_execVoteCast {s : State} {v0 : State} (hu : execVoteCast s = .next v0) : Kept s v0 := by
  have h := Kept.refl s
  unfold execVoteCast at hu
  (repeat' split at hu) <;> first
    | (injection hu with hu; subst hu; (try dsimp only); repeat' (first
        | with_reducible assumption | intro _ | with_reducible apply kept_castVote | simp only [kept_upd]
        | (with_reducible refine Kept.fst (by assumption) ?_) | (with_reducible refine Kept.snd (by assumption) ?_)
        | (with_reducible refine KeptE.get (by assumption) ?_) | split | dsimp only))
    | (cases hu; done)

theorem kept_execCkptVote {gen : Nat} {e : Shard} {s : State} {v0 : State} (hu : execCkptVote gen e s = .next v0) : Kept s v0 := by
  have h := Kept.refl s
  unfold execCkptVote at hu
  (repeat' split at hu) <;> first
    | (injection hu with hu; subst hu; (try dsimp only); repeat' (first
        | with_reducible assumption | intro _ | with_reducible apply kept_takeVote | split | dsimp only))
    | (cases hu; done)

theorem kept_execCkptVoteTimeout {gen : Nat} {s : State} {v0 : State} (hu : execCkptVoteTimeout gen s = .next v0) : Kept s v0 := by
  have h := Kept.refl s
  unfold execCkptVoteTimeout at hu
  (repeat' split at hu) <;> first
    | (injection hu with hu; subst hu; (try dsimp only); repeat' (first
        | with_reducible assumption | intro _ | with_reducible apply kept_abortGen | simp only [kept_upd]
        | (with_reducible refine Kept.fst (by assumption) ?_) | (with_reducible refine Kept.snd (by assumption) ?_)
        | (with_reducible refine KeptE.get (by assumption) ?_) | split | dsimp only))
    | (cases hu; done)

theorem kept_execCommit {gen digest : Nat} {s : State} {v0 : State} (hu : execCommit gen digest s = .next v0) : Kept s v0 := by
  have h := Kept.refl s
  unfold execCommit at hu
  (repeat' split at hu) <;> first
    | (injection hu with hu; subst hu; (try dsimp only); repeat' (first
        | with_reducible assumption | intro _ | with_reducible apply kept_memberCommit | split | dsimp only))
    | (cases hu; done)

theorem kept_execCommitAck {gen rank : Nat} {s : State} {v0 : State} (hu : execCommitAck gen rank s = .next v0) : Kept s v0 := by
  have h := Kept.refl s
  unfold execCommitAck at hu
  (repeat' split at hu) <;> first
    | (injection hu with hu; subst hu; (try dsimp only); repeat' (first
        | with_reducible assumption | intro _ | with_reducible apply kept_takeAck | split | dsimp only))
    | (cases hu; done)

theorem kept_execCommitDone {gen : Nat} {fromPartner : Bool} {s : State} {v0 : State} (hu : execCommitDone gen fromPartner s = .next v0) : Kept s v0 := by
  have h := Kept.refl s
  unfold execCommitDone at hu
  (repeat' split at hu) <;> first
    | (injection hu with hu; subst hu; (try dsimp only); repeat' (first
        | with_reducible assumption | intro _ | with_reducible apply kept_memberDone | simp only [kept_upd] | split | dsimp only))
    | (cases hu; done)

theorem kept_execAbort {gen : Nat} {fromPartner : Bool} {s : State} {v0 : State} (hu : execAbort gen fromPartner s = .next v0) : Kept s v0 := by
  have h := Kept.refl s
  unfold execAbort at hu
  (repeat' split at hu) <;> first
    | (injection hu with hu; subst hu; (try dsimp only); repeat' (first
        | with_reducible assumption | intro _ | with_reducible apply kept_memberAbort | simp only [kept_upd] | split | dsimp only))
    | (cases hu; done)

theorem kept_sendRecord {s0 : State} {s : State} {die id base : Nat} {bytes : List Byte} (h : Kept s0 s) : Kept s0 (sendRecord s die id base bytes) := by
  unfold sendRecord
  (try dsimp only); repeat' (first
      | with_reducible assumption | intro _ | with_reducible apply kept_sendPkt | simp only [kept_upd]
      | with_reducible refine Kept.foldl ?_ ?_ | with_reducible refine Kept.foldlFst ?_ ?_ | split | dsimp only)

theorem kept_pageCopied {s0 : State} {s : State} {id p : Nat} (h : Kept s0 s) : Kept s0 (pageCopied s id p) := by
  unfold pageCopied
  (try dsimp only); repeat' (first
      | with_reducible assumption | intro _ | with_reducible apply kept_modCap | with_reducible apply kept_modC
      | with_reducible apply kept_releaseHeld | simp only [kept_upd] | split | dsimp only)

theorem kept_sendCopies {s0 s : State} {die id base : Nat} {buddy stored : Bool} {bytes : List Byte} (h : Kept s0 s) :
    Kept s0 (sendCopies s die id base buddy stored bytes) := by
  unfold sendCopies
  dsimp only
  cases buddy <;> cases stored <;> simp only [if_true, if_false, Bool.false_eq_true]
  · exact h
  · exact kept_sendRoce h
  · exact kept_sendRecord h
  · exact kept_sendRoce (kept_sendRecord h)

theorem kept_spoolPage {s0 s : State} {die id p : Nat} {c : Context} {g : Capture} (h : Kept s0 s) :
    Kept s0 (spoolPage s die id c g p) := by
  unfold spoolPage
  refine kept_modC ?_
  have hd : Kept s0 (drawNat s).2 := kept_drawNat h
  have h1 := fun i base b bytes => kept_modCap (f := i) (id := id) (kept_sendCopies (die := die) (id := id) (base := base) (buddy := b)
    (stored := g.stored) (bytes := bytes) (Kept.upd (b := (drawNat s).2.ptpNs) (a := (drawNat s).2.freeIdx + 1) (c := (drawNat s).2.solv)
      (d := (drawNat s).2.plants) (e := (drawNat s).2.eth) (f := (drawNat s).2.fab) (g := (drawNat s).2.ckpt) (i := (drawNat s).2.wen)
      (j := (drawNat s).2.pkg) hd))
  split
  · exact Kept.upd (h1 _ _ _ _)
  · exact h1 _ _ _ _

theorem kept_ladleCopy {s0 : State} {die : Fin 8} {fault : Bool} {s : State} (h : Kept s0 s) : Kept s0 (ladleCopy die fault s) := by
  unfold ladleCopy
  (try dsimp only); repeat' (first
      | with_reducible assumption | intro _ | with_reducible apply kept_pageCopied | with_reducible apply kept_dirtyCap
      | with_reducible apply kept_localDenied | with_reducible apply kept_stackFault | with_reducible apply kept_spoolPage
      | simp only [kept_upd] | (with_reducible refine Kept.fst (by assumption) ?_)
      | (with_reducible refine Kept.snd (by assumption) ?_) | (with_reducible refine KeptE.get (by assumption) ?_) | split
      | dsimp only)

theorem kept_execLadleSlotTimeout {die : Fin 8} {s : State} {v0 : State} (hu : execLadleSlotTimeout die s = .next v0) : Kept s v0 := by
  have h := Kept.refl s
  unfold execLadleSlotTimeout at hu
  (repeat' split at hu) <;> first
    | (injection hu with hu; subst hu; (try dsimp only); repeat' (first
        | with_reducible assumption | intro _ | with_reducible apply kept_dirtyCap | simp only [kept_upd]
        | (with_reducible refine Kept.fst (by assumption) ?_) | (with_reducible refine Kept.snd (by assumption) ?_)
        | (with_reducible refine KeptE.get (by assumption) ?_) | split | dsimp only))
    | (cases hu; done)

theorem kept_execCkptStorageAck {die : Fin 8} {error : Bool} {s : State} {v0 : State} (hu : execCkptStorageAck die error s = .next v0) : Kept s v0 := by
  have h := Kept.refl s
  unfold execCkptStorageAck at hu
  (repeat' split at hu) <;> first
    | (injection hu with hu; subst hu; (try dsimp only); repeat' (first
        | with_reducible assumption | intro _ | with_reducible apply kept_dirtyCap | simp only [kept_upd]
        | (with_reducible refine Kept.fst (by assumption) ?_) | (with_reducible refine Kept.snd (by assumption) ?_)
        | (with_reducible refine KeptE.get (by assumption) ?_) | split | dsimp only))
    | (cases hu; done)

theorem kept_refuseRestore {s0 : State} {s : State} {mixed : Nat} (h : Kept s0 s) : Kept s0 (refuseRestore s mixed) := by
  unfold refuseRestore
  (try dsimp only); repeat' (first
      | with_reducible assumption | intro _ | with_reducible apply kept_wr | with_reducible apply kept_raiseEvent
      | simp only [kept_upd] | split | dsimp only)

theorem kept_restoreStart {s0 : State} {s : State} {target next : Nat} {cands : List Nat} {held : List (Nat × Nat × Nat × Nat)} (h : Kept s0 s) : Kept s0 (restoreStart s target next cands held) := by
  unfold restoreStart
  (try dsimp only); repeat' (first
      | with_reducible assumption | intro _ | with_reducible apply kept_refuseRestore | with_reducible apply kept_wr
      | simp only [kept_upd] | (with_reducible refine Kept.fst (by assumption) ?_)
      | (with_reducible refine Kept.snd (by assumption) ?_) | (with_reducible refine KeptE.get (by assumption) ?_) | split
      | dsimp only)

theorem kept_restoreResident {s0 : State} {s : State} {c : Context} {pages : List (Nat × List Byte)} (h : Kept s0 s) : Kept s0 (restoreResident s c pages) := by
  unfold restoreResident
  (try dsimp only); repeat' (first
      | with_reducible assumption | intro _ | simp only [kept_upd] | with_reducible refine Kept.foldl ?_ ?_
      | with_reducible refine Kept.foldlFst ?_ ?_ | (with_reducible refine Kept.fst (by assumption) ?_)
      | (with_reducible refine Kept.snd (by assumption) ?_) | (with_reducible refine KeptE.get (by assumption) ?_) | split
      | dsimp only)

theorem kept_execRestorePullDone {ok : Bool} {pages : List (Nat × List Byte)} {s : State} {v0 : State} (hu : execRestorePullDone ok pages s = .next v0) : Kept s v0 := by
  have h := Kept.refl s
  unfold execRestorePullDone at hu
  (repeat' split at hu) <;> first
    | (injection hu with hu; subst hu; (try dsimp only); repeat' (first
        | with_reducible assumption | intro _ | with_reducible apply kept_raiseEvent | with_reducible apply kept_refuseRestore
        | with_reducible apply kept_capture | with_reducible apply kept_restoreResident | with_reducible apply kept_setC
        | with_reducible apply kept_wr | simp only [kept_upd] | with_reducible refine Kept.foldl ?_ ?_
        | with_reducible refine Kept.foldlFst ?_ ?_ | (with_reducible refine Kept.fst (by assumption) ?_)
        | (with_reducible refine Kept.snd (by assumption) ?_) | (with_reducible refine KeptE.get (by assumption) ?_) | split
        | dsimp only))
    | (cases hu; done)

theorem kept_execPredRateSample {s : State} {v0 : State} (hu : execPredRateSample s = .next v0) : Kept s v0 := by
  have h := Kept.refl s
  unfold execPredRateSample at hu
  (repeat' split at hu) <;> first
    | (injection hu with hu; subst hu; (try dsimp only); repeat' (first
        | with_reducible assumption | intro _ | with_reducible apply kept_wr | with_reducible apply kept_drawNat
        | with_reducible apply kept_raiseEvent | simp only [kept_upd] | (with_reducible refine Kept.fst (by assumption) ?_)
        | (with_reducible refine Kept.snd (by assumption) ?_) | (with_reducible refine KeptE.get (by assumption) ?_) | split
        | dsimp only))
    | (cases hu; done)

theorem kept_jobIdWrite {s0 : State} {s : State} {v : Nat} (h : Kept s0 s) : KeptE s0 (jobIdWrite s v) := by
  unfold jobIdWrite
  (try dsimp only); repeat' (first
      | with_reducible assumption | intro _ | with_reducible apply kept_wr | with_reducible apply kept_wrHost
      | simp only [kept_upd] | with_reducible apply Kept.mapCtxs | with_reducible apply KeptE.map
      | with_reducible exact KeptE.error | with_reducible apply KeptE.ok | split | dsimp only)

theorem kept_ckptKeyWrite {s0 : State} {s : State} {v : Nat} (h : Kept s0 s) : KeptE s0 (ckptKeyWrite s v) := by
  unfold ckptKeyWrite
  (try dsimp only); repeat' (first
      | with_reducible assumption | intro _ | with_reducible apply kept_wrHost | simp only [kept_upd]
      | with_reducible exact KeptE.error | with_reducible apply KeptE.ok | split | dsimp only)

theorem kept_buddyDeviceWrite {s0 : State} {s : State} {v : Nat} (h : Kept s0 s) : KeptE s0 (buddyDeviceWrite s v) := by
  unfold buddyDeviceWrite
  (try dsimp only); repeat' (first
      | with_reducible assumption | intro _ | with_reducible apply kept_wrHost | simp only [kept_upd]
      | with_reducible apply Kept.mapCtxs | with_reducible apply KeptE.map | with_reducible exact KeptE.error
      | with_reducible apply KeptE.ok | split | dsimp only)

theorem kept_buddyPartnerWrite {s0 : State} {s : State} {v : Nat} {partnerA : Bool} {job rank : Nat} (h : Kept s0 s) : KeptE s0 (buddyPartnerWrite s v partnerA job rank) := by
  unfold buddyPartnerWrite
  (try dsimp only); repeat' (first
      | with_reducible assumption | intro _ | with_reducible apply kept_wrHost | simp only [kept_upd]
      | with_reducible exact KeptE.error | with_reducible apply KeptE.ok | split | dsimp only)

theorem kept_ckptRequestWrite {s0 : State} {s : State} {v : Nat} (h : Kept s0 s) : KeptE s0 (ckptRequestWrite s v) := by
  unfold ckptRequestWrite
  (try dsimp only); repeat' (first
      | with_reducible assumption | intro _ | with_reducible apply kept_bumpSnap | simp only [kept_upd]
      | with_reducible exact KeptE.error | with_reducible apply KeptE.ok | (with_reducible refine Kept.fst (by assumption) ?_)
      | (with_reducible refine Kept.snd (by assumption) ?_) | (with_reducible refine KeptE.get (by assumption) ?_) | split
      | dsimp only)

theorem kept_releaseLoans {s0 : State} {s : State} (h : Kept s0 s) : Kept s0 (releaseLoans s) := by
  unfold releaseLoans
  (try dsimp only); repeat' (first
      | with_reducible assumption | intro _ | with_reducible apply kept_releaseLent | with_reducible apply kept_wr | simp only [kept_upd] | split | dsimp only)

theorem kept_reclaimWrite {s0 : State} {s : State} {v : Nat} (h : Kept s0 s) : KeptE s0 (reclaimWrite s v) := by
  unfold reclaimWrite
  (try dsimp only); repeat' (first
      | with_reducible assumption | intro _ | with_reducible apply kept_bumpSnap | with_reducible apply kept_wr
      | simp only [kept_upd] | with_reducible exact KeptE.error | with_reducible apply KeptE.ok | split | dsimp only)

theorem kept_execReclaimStepWaitExpiry {s : State} {v0 : State} (hu : execReclaimStepWaitExpiry s = .next v0) : Kept s v0 := by
  have h := Kept.refl s
  unfold execReclaimStepWaitExpiry at hu
  (repeat' split at hu) <;> first
    | (injection hu with hu; subst hu; (try dsimp only); repeat' (first
        | with_reducible assumption | intro _ | with_reducible apply kept_startFlush | with_reducible apply kept_endJob
        | simp only [kept_upd] | (with_reducible refine Kept.fst (by assumption) ?_)
        | (with_reducible refine Kept.snd (by assumption) ?_) | (with_reducible refine KeptE.get (by assumption) ?_) | split
        | dsimp only))
    | (cases hu; done)

theorem kept_reclaimCut {s0 : State} {s : State} {scrub : State → State} (hf : ∀ t, Kept s0 t → Kept s0 (scrub t)) (h : Kept s0 s) : Kept s0 (reclaimCut s scrub) := by
  unfold reclaimCut
  (try dsimp only); repeat' (first
      | with_reducible assumption | intro _ | with_reducible apply kept_castVote | with_reducible apply kept_releaseLoans
      | with_reducible apply kept_wr | with_reducible apply hf | simp only [kept_upd]
      | (with_reducible refine Kept.fst (by assumption) ?_) | (with_reducible refine Kept.snd (by assumption) ?_)
      | (with_reducible refine KeptE.get (by assumption) ?_) | split | dsimp only)

/-! ### Solver -/

theorem kept_setHalves {s0 : State} {s : State} {kind first v : Nat} (h : Kept s0 s) : Kept s0 (setHalves s kind first v) := by
  unfold setHalves
  (try dsimp only); repeat' (first
      | with_reducible assumption | intro _ | with_reducible apply kept_wr | with_reducible refine Kept.foldl ?_ ?_
      | with_reducible refine Kept.foldlFst ?_ ?_ | split | dsimp only)

theorem kept_setQ {s0 : State} {s : State} {first : Nat} {q : SolverQ} (h : Kept s0 s) : Kept s0 (setQ s first q) := by
  unfold setQ
  (try dsimp only); repeat' (first | with_reducible assumption | intro _ | simp only [kept_upd] | split | dsimp only)

theorem kept_residentWrite {s0 : State} {s : State} {kind first off : Nat} {bs : List Byte} (h : Kept s0 s) : Kept s0 (residentWrite s kind first off bs) := by
  unfold residentWrite
  (try dsimp only); repeat' (first
      | with_reducible assumption | intro _ | simp only [kept_upd] | with_reducible refine Kept.foldl ?_ ?_
      | with_reducible refine Kept.foldlFst ?_ ?_ | split | dsimp only)

theorem kept_switchTargets {s0 : State} {s : State} (h : Kept s0 s) : Kept s0 (switchTargets s) := by
  unfold switchTargets
  (try dsimp only); repeat' (first
      | with_reducible assumption | intro _ | simp only [kept_upd] | with_reducible refine Kept.foldl ?_ ?_
      | with_reducible refine Kept.foldlFst ?_ ?_ | (with_reducible refine Kept.fst (by assumption) ?_)
      | (with_reducible refine Kept.snd (by assumption) ?_) | (with_reducible refine KeptE.get (by assumption) ?_) | split
      | dsimp only)

theorem kept_startNext {s0 : State} {s : State} {first : Nat} (h : Kept s0 s) : Kept s0 (startNext s first) := by
  unfold startNext
  (try dsimp only); repeat' (first
      | with_reducible assumption | intro _ | with_reducible apply kept_settleOp | with_reducible apply kept_switchTargets
      | with_reducible apply kept_setHalves | with_reducible apply kept_setQ | simp only [kept_upd]
      | (with_reducible refine Kept.fst (by assumption) ?_) | (with_reducible refine Kept.snd (by assumption) ?_)
      | (with_reducible refine KeptE.get (by assumption) ?_) | split | dsimp only)

theorem kept_startAll {s0 : State} {s : State} (h : Kept s0 s) : Kept s0 (startAll s) := by
  unfold startAll
  (try dsimp only); repeat' (first
      | with_reducible assumption | intro _ | with_reducible apply kept_startNext | with_reducible refine Kept.foldl ?_ ?_
      | with_reducible refine Kept.foldlFst ?_ ?_ | split | dsimp only)

theorem kept_refWrite {s0 : State} {s : State} {ctx kind first r : Nat} {bs : List Byte} (h : Kept s0 s) : Kept s0 (refWrite s ctx kind first r bs) := by
  unfold refWrite
  (try dsimp only); repeat' (first
      | with_reducible assumption | intro _ | with_reducible apply kept_residentWrite | with_reducible apply kept_storeRange
      | split | dsimp only)

theorem kept_countProblem {s0 : State} {s : State} {ctx : Nat} {status texec : Nat} (h : Kept s0 s) : Kept s0 (countProblem s ctx status texec) := by
  unfold countProblem
  (try dsimp only); repeat' (first | with_reducible assumption | intro _ | with_reducible apply kept_modC | split | dsimp only)

theorem kept_finishTicket {s0 : State} {s : State} {p : Problem} {status : Nat} (h : Kept s0 s) : Kept s0 (finishTicket s p status) := by
  unfold finishTicket
  (try dsimp only); repeat' (first
      | with_reducible assumption | intro _ | with_reducible apply kept_modC | simp only [kept_upd]
      | (with_reducible refine Kept.fst (by assumption) ?_) | (with_reducible refine Kept.snd (by assumption) ?_)
      | (with_reducible refine KeptE.get (by assumption) ?_) | split | dsimp only)

theorem kept_stageWait {s0 : State} {s : State} {ctx kind cycles bytes : Nat} (h : Kept s0 s) : Kept s0 (stageWait s ctx kind cycles bytes) := by
  unfold stageWait
  (try dsimp only); repeat' (first | with_reducible assumption | intro _ | with_reducible apply kept_modC | split | dsimp only)

theorem kept_execSolverStageInDone {h0 : Half} {cycles : Nat} {fault : Bool} {s : State} {v0 : State} (hu : execSolverStageInDone h0 cycles fault s = .next v0) : Kept s v0 := by
  have h := Kept.refl s
  unfold execSolverStageInDone at hu
  (repeat' split at hu) <;> first
    | (injection hu with hu; subst hu; (try dsimp only); repeat' (first
        | with_reducible assumption | intro _ | with_reducible apply kept_setQ | with_reducible apply kept_stageWait
        | with_reducible apply kept_stackFault | with_reducible apply kept_raiseEvent | simp only [kept_upd]
        | (with_reducible refine Kept.fst (by assumption) ?_) | (with_reducible refine Kept.snd (by assumption) ?_)
        | (with_reducible refine KeptE.get (by assumption) ?_) | split | dsimp only))
    | (cases hu; done)

theorem kept_plantStatus {s0 : State} {s : State} {by' : Submitter} {st : BitVec 32} (h : Kept s0 s) : Kept s0 (plantStatus s by' st) := by
  unfold plantStatus
  (try dsimp only); repeat' (first
      | with_reducible assumption | intro _ | simp only [kept_upd] | simp only [keptR_done, keptR_jump, keptR_wait, keptR_halt]
      | (with_reducible refine Kept.fst (by assumption) ?_) | (with_reducible refine Kept.snd (by assumption) ?_)
      | (with_reducible refine KeptE.get (by assumption) ?_) | split | dsimp only)

theorem kept_plantEnd {s0 : State} {s : State} {h0 : Nat} {p : Problem} (h : Kept s0 s) : Kept s0 (plantEnd s h0 p) := by
  unfold plantEnd
  (try dsimp only); repeat' (first
      | with_reducible assumption | intro _ | with_reducible apply kept_refWrite | with_reducible apply kept_setHalves
      | with_reducible apply kept_setQ | with_reducible apply kept_plantStatus | with_reducible apply kept_countProblem
      | simp only [kept_upd] | split | dsimp only)

theorem kept_execSolverExecEnd {h0 : Half} {s : State} {v0 : State} (hu : execSolverExecEnd h0 s = .next v0) : Kept s v0 := by
  have h := Kept.refl s
  unfold execSolverExecEnd at hu
  (repeat' split at hu) <;> first
    | (injection hu with hu; subst hu; (try dsimp only); repeat' (first
        | with_reducible assumption | intro _ | with_reducible apply kept_plantEnd | with_reducible apply kept_setQ
        | simp only [kept_upd] | (with_reducible refine Kept.fst (by assumption) ?_)
        | (with_reducible refine Kept.snd (by assumption) ?_) | (with_reducible refine KeptE.get (by assumption) ?_) | split
        | dsimp only))
    | (cases hu; done)

theorem kept_execSolverWritebackDone {h0 : Half} {cycles : Nat} {s : State} {v0 : State} (hu : execSolverWritebackDone h0 cycles s = .next v0) : Kept s v0 := by
  have h := Kept.refl s
  unfold execSolverWritebackDone at hu
  (repeat' split at hu) <;> first
    | (injection hu with hu; subst hu; (try dsimp only); repeat' (first
        | with_reducible assumption | intro _ | with_reducible apply kept_holdRange | with_reducible apply kept_refWrite
        | with_reducible apply kept_stageWait | with_reducible apply kept_countProblem | with_reducible apply kept_setHalves
        | with_reducible apply kept_setQ | with_reducible apply kept_startNext | with_reducible apply kept_finishTicket
        | simp only [kept_upd] | with_reducible refine Kept.foldl ?_ ?_ | with_reducible refine Kept.foldlFst ?_ ?_
        | (with_reducible refine Kept.fst (by assumption) ?_) | (with_reducible refine Kept.snd (by assumption) ?_)
        | (with_reducible refine KeptE.get (by assumption) ?_) | split | dsimp only))
    | (cases hu; done)

theorem kept_faultHalf {s0 : State} {s : State} {h0 code : Nat} (h : Kept s0 s) : Kept s0 (faultHalf s h0 code) := by
  unfold faultHalf
  (try dsimp only); repeat' (first
      | with_reducible assumption | intro _ | with_reducible apply kept_wr | with_reducible apply kept_setQ | simp only [kept_upd]
      | with_reducible refine Kept.foldl ?_ ?_ | with_reducible refine Kept.foldlFst ?_ ?_ | split | dsimp only)

theorem kept_execSolverFault {h0 : Half} {assembler : Bool} {s : State} {v0 : State} (hu : execSolverFault h0 assembler s = .next v0) : Kept s v0 := by
  have h := Kept.refl s
  unfold execSolverFault at hu
  (repeat' split at hu) <;> first
    | (injection hu with hu; subst hu; (try dsimp only); repeat' (first
        | with_reducible assumption | intro _ | with_reducible apply kept_faultHalf | with_reducible apply kept_raiseEvent
        | simp only [kept_upd] | split | dsimp only))
    | (cases hu; done)

theorem kept_submit {s0 : State} {s : State} {id cl : Nat} {c : Context} {k : Worker} {b : Binding} {d : Desc} (h : Kept s0 s) : Kept s0 (submit s id cl c k b d).1 := by
  unfold submit
  (try dsimp only); repeat' (first
      | with_reducible assumption | intro _ | with_reducible apply kept_countProblem | with_reducible apply kept_setC
      | with_reducible apply kept_refWrite | with_reducible apply kept_startNext | with_reducible apply kept_setQ
      | simp only [kept_upd] | (with_reducible refine Kept.fst (by assumption) ?_)
      | (with_reducible refine Kept.snd (by assumption) ?_) | (with_reducible refine KeptE.get (by assumption) ?_) | split
      | dsimp only)

theorem kept_execSolve {w : Cluster} {d : SReg} {a : VReg} {cn : Fin 8} {s : State} {v0 : State} (hu : execSolve w d a cn s = .next v0) : Kept s v0 := by
  have h := Kept.refl s
  unfold execSolve at hu
  (repeat' split at hu) <;> first
    | (injection hu with hu; subst hu; (try dsimp only); repeat' (first
        | with_reducible assumption | intro _ | with_reducible apply kept_issue | with_reducible apply kept_operandHalt
        | with_reducible apply kept_moveGo | with_reducible apply kept_submit | simp only [kept_upd]
        | with_reducible refine Kept.foldl ?_ ?_ | with_reducible refine Kept.foldlFst ?_ ?_
        | simp only [keptR_done, keptR_jump, keptR_wait, keptR_halt] | (with_reducible refine Kept.fst (by assumption) ?_)
        | (with_reducible refine Kept.snd (by assumption) ?_) | (with_reducible refine KeptE.get (by assumption) ?_) | split
        | dsimp only))
    | (cases hu; done)

theorem kept_execSwait {w : Cluster} {d a : SReg} {s : State} {v0 : State} (hu : execSwait w d a s = .next v0) : Kept s v0 := by
  have h := Kept.refl s
  unfold execSwait at hu
  (repeat' split at hu) <;> first
    | (injection hu with hu; subst hu; (try dsimp only); repeat' (first
        | with_reducible assumption | intro _ | with_reducible apply kept_issue | with_reducible apply kept_operandHalt
        | simp only [kept_upd] | simp only [keptR_done, keptR_jump, keptR_wait, keptR_halt]
        | (with_reducible refine Kept.fst (by assumption) ?_) | (with_reducible refine Kept.snd (by assumption) ?_)
        | (with_reducible refine KeptE.get (by assumption) ?_) | split | dsimp only))
    | (cases hu; done)

theorem kept_abortProblems {s0 : State} {s : State} {id : Nat} (h : Kept s0 s) : Kept s0 (abortProblems s id) := by
  unfold abortProblems
  (try dsimp only); repeat' (first
      | with_reducible assumption | intro _ | with_reducible apply kept_finishTicket | with_reducible apply kept_setQ
      | with_reducible apply kept_setHalves | with_reducible apply kept_startAll | simp only [kept_upd]
      | with_reducible refine Kept.foldl ?_ ?_ | with_reducible refine Kept.foldlFst ?_ ?_
      | (with_reducible refine Kept.fst (by assumption) ?_) | (with_reducible refine Kept.snd (by assumption) ?_)
      | (with_reducible refine KeptE.get (by assumption) ?_) | split | dsimp only)

theorem kept_clearResident {s0 : State} {s : State} {kind first : Nat} (h : Kept s0 s) : Kept s0 (clearResident s kind first) := by
  unfold clearResident
  (try dsimp only); repeat' (first
      | with_reducible assumption | intro _ | simp only [kept_upd] | with_reducible refine Kept.foldl ?_ ?_
      | with_reducible refine Kept.foldlFst ?_ ?_ | split | dsimp only)

theorem kept_sdModeWrite {s0 : State} {s : State} {die v : Nat} (h : Kept s0 s) : KeptE s0 (sdModeWrite s die v) := by
  unfold sdModeWrite
  (try dsimp only); repeat' (first
      | with_reducible assumption | intro _ | with_reducible apply kept_wrHost | with_reducible exact KeptE.error
      | with_reducible apply KeptE.ok | split | dsimp only)

theorem kept_compatWrite {s0 : State} {s : State} {v : Nat} (h : Kept s0 s) : KeptE s0 (compatWrite s v) := by
  unfold compatWrite
  (try dsimp only); repeat' (first
      | with_reducible assumption | intro _ | with_reducible apply kept_wrHost | with_reducible exact KeptE.error
      | with_reducible apply KeptE.ok | split | dsimp only)

/-! ### Dgram -/

theorem kept_touchEntry {s0 : State} {s : State} {id : Nat} (h : Kept s0 s) : Kept s0 (touchEntry s id) := by
  unfold touchEntry
  (try dsimp only); repeat' (first
      | with_reducible assumption | intro _ | with_reducible apply kept_incr | simp only [kept_upd] | split | dsimp only)

theorem kept_arrive {s0 : State} {s : State} {h0 : DgHdr} (h : Kept s0 s) : Kept s0 (arrive s h0).1 := by
  unfold arrive
  (try dsimp only); repeat' (first
      | with_reducible assumption | intro _ | with_reducible apply kept_incr | with_reducible apply kept_touchEntry | split
      | dsimp only)

/-! ### Plant -/

theorem kept_setP {s0 : State} {s : State} {n : Nat} {p : Plant} (h : Kept s0 s) : Kept s0 (setP s n p) := by
  unfold setP
  (try dsimp only); repeat' (first | with_reducible assumption | intro _ | simp only [kept_upd] | split | dsimp only)

theorem kept_openPlant {s0 s t : State} {n : Nat} (e : openPlant s n = some t) (h : Kept s0 s) : Kept s0 t := by
  unfold openPlant at e
  dsimp only at e
  split at e
  · cases e
  · injection e with e; subst e; exact kept_wr h

theorem kept_psArm {s0 s : State} {n : Nat} (h : Kept s0 s) : KeptE s0 (psArm s n) := by
  unfold psArm
  (repeat' split) <;> first | with_reducible exact KeptE.error | (next e => exact KeptE.ok (kept_wr (kept_setP (kept_openPlant e h))))

theorem kept_psOff {s0 : State} {s : State} {n : Nat} (h : Kept s0 s) : Kept s0 (psOff s n) := by
  unfold psOff
  (try dsimp only); repeat' (first
      | with_reducible assumption | intro _ | with_reducible apply kept_setP | with_reducible apply kept_wr
      | with_reducible apply kept_setStream | simp only [kept_upd] | split | dsimp only)

theorem kept_psResume {s0 : State} {s : State} {n : Nat} (h : Kept s0 s) : KeptE s0 (psResume s n) := by
  unfold psResume
  (try dsimp only); repeat' (first
      | with_reducible assumption | intro _ | with_reducible apply kept_setP | simp only [kept_upd]
      | with_reducible exact KeptE.error | with_reducible apply KeptE.ok | split | dsimp only)

theorem kept_psStop {s0 : State} {s : State} {n : Nat} (h : Kept s0 s) : KeptE s0 (psStop s n) := by
  unfold psStop
  (try dsimp only); repeat' (first
      | with_reducible assumption | intro _ | with_reducible apply kept_psOff | with_reducible apply kept_setP
      | simp only [kept_upd] | with_reducible exact KeptE.error | with_reducible apply KeptE.ok
      | (with_reducible refine Kept.fst (by assumption) ?_) | (with_reducible refine Kept.snd (by assumption) ?_)
      | (with_reducible refine KeptE.get (by assumption) ?_) | split | dsimp only)

theorem kept_psCtrlWrite {s0 : State} {s : State} {n v : Nat} (h : Kept s0 s) : KeptE s0 (psCtrlWrite s n v) := by
  unfold psCtrlWrite
  (try dsimp only); repeat' (first
      | with_reducible assumption | intro _ | with_reducible apply kept_psArm | with_reducible apply kept_bumpSnap
      | with_reducible apply kept_psResume | with_reducible apply kept_psStop | simp only [kept_upd]
      | with_reducible apply KeptE.map | with_reducible exact KeptE.error | with_reducible apply KeptE.ok
      | (with_reducible refine Kept.fst (by assumption) ?_) | (with_reducible refine Kept.snd (by assumption) ?_)
      | (with_reducible refine KeptE.get (by assumption) ?_) | split | dsimp only)

theorem kept_dropPlant {s0 : State} {s : State} {n : Nat} (h : Kept s0 s) : Kept s0 (dropPlant s n) := by
  unfold dropPlant
  (try dsimp only); repeat' (first
      | with_reducible assumption | intro _ | with_reducible apply kept_setP | simp only [kept_upd] | split | dsimp only)

theorem kept_plantTeardown {s0 : State} {s : State} {id : Nat} (h : Kept s0 s) : Kept s0 (plantTeardown s id) := by
  unfold plantTeardown
  (try dsimp only); repeat' (first
      | with_reducible assumption | intro _ | with_reducible apply kept_psOff | with_reducible apply kept_dropPlant
      | with_reducible refine Kept.foldl ?_ ?_ | with_reducible refine Kept.foldlFst ?_ ?_ | split | dsimp only)

theorem kept_psEntryWrite {s0 : State} {s : State} {k v : Nat} (h : Kept s0 s) : KeptE s0 (psEntryWrite s k v) := by
  unfold psEntryWrite
  (try dsimp only); repeat' (first
      | with_reducible assumption | intro _ | with_reducible apply kept_wrHost | with_reducible exact KeptE.error
      | with_reducible apply KeptE.ok | split | dsimp only)

theorem kept_execPlantPeriodStart {n : PlantNo} {s : State} {v0 : State} (hu : execPlantPeriodStart n s = .next v0) : Kept s v0 := by
  have h := Kept.refl s
  unfold execPlantPeriodStart at hu
  (repeat' split at hu) <;> first
    | (injection hu with hu; subst hu; (try dsimp only); repeat' (first
        | with_reducible assumption | intro _ | with_reducible apply kept_wr | with_reducible apply kept_setP
        | simp only [kept_upd] | split | dsimp only))
    | (cases hu; done)

theorem kept_putParam {s0 : State} {s : State} {n : Nat} {d : Desc} {xs : List (BitVec 64)} (h : Kept s0 s) : Kept s0 (putParam s n d xs) := by
  unfold putParam
  (try dsimp only); repeat' (first | with_reducible assumption | intro _ | with_reducible apply kept_residentWrite | split | dsimp only)

theorem kept_execPlantWinClose {n : PlantNo} {s : State} {v0 : State} (hu : execPlantWinClose n s = .next v0) : Kept s v0 := by
  have h := Kept.refl s
  unfold execPlantWinClose at hu
  (repeat' split at hu) <;> first
    | (injection hu with hu; subst hu; (try dsimp only); repeat' (first
        | with_reducible assumption | intro _ | with_reducible apply kept_setP | with_reducible apply kept_logInput
        | with_reducible apply kept_putParam | with_reducible apply kept_residentWrite | with_reducible apply kept_fetchInputs
        | simp only [kept_upd] | (with_reducible refine Kept.fst (by assumption) ?_)
        | (with_reducible refine Kept.snd (by assumption) ?_) | (with_reducible refine KeptE.get (by assumption) ?_) | split
        | dsimp only))
    | (cases hu; done)

theorem kept_execPlantSlot {n : PlantNo} {s : State} {v0 : State} (hu : execPlantSlot n s = .next v0) : Kept s v0 := by
  have h := Kept.refl s
  unfold execPlantSlot at hu
  (repeat' split at hu) <;> first
    | (injection hu with hu; subst hu; (try dsimp only); repeat' (first
        | with_reducible assumption | intro _ | with_reducible apply kept_setQ | with_reducible apply kept_setHalves
        | with_reducible apply kept_setP | simp only [kept_upd] | split | dsimp only))
    | (cases hu; done)

theorem kept_sendPlant {s0 : State} {s : State} {n : Nat} {bs : List Byte} (h : Kept s0 s) : Kept s0 (sendPlant s n bs) := by
  unfold sendPlant
  (try dsimp only); repeat' (first
      | with_reducible assumption | intro _ | with_reducible apply kept_setStream | with_reducible apply kept_setP
      | simp only [kept_upd] | split | dsimp only)

theorem kept_execPlantDeadline {n : PlantNo} {s : State} {v0 : State} (hu : execPlantDeadline n s = .next v0) : Kept s v0 := by
  have h := Kept.refl s
  unfold execPlantDeadline at hu
  (repeat' split at hu) <;> first
    | (injection hu with hu; subst hu; (try dsimp only); repeat' (first
        | with_reducible assumption | intro _ | with_reducible apply kept_setP | with_reducible apply kept_sendPlant
        | with_reducible apply kept_modC | with_reducible apply kept_incr | with_reducible apply kept_psOff
        | with_reducible apply kept_wr | simp only [kept_upd] | split | dsimp only))
    | (cases hu; done)

theorem kept_execPsTxLate {n : PlantNo} {s : State} {v0 : State} (hu : execPsTxLate n s = .next v0) : Kept s v0 := by
  have h := Kept.refl s
  unfold execPsTxLate at hu
  (repeat' split at hu) <;> first
    | (injection hu with hu; subst hu; (try dsimp only); repeat' (first
        | with_reducible assumption | intro _ | with_reducible apply kept_setP | with_reducible apply kept_incr
        | simp only [kept_upd] | (with_reducible refine Kept.fst (by assumption) ?_)
        | (with_reducible refine Kept.snd (by assumption) ?_) | (with_reducible refine KeptE.get (by assumption) ?_) | split
        | dsimp only))
    | (cases hu; done)

theorem kept_measure {s0 : State} {s : State} {n : Nat} {h0 : DgHdr} {ts count : Nat} {entries : List (Nat × BitVec 64)} {resv : Bool} (h : Kept s0 s) : Kept s0 (measure s n h0 ts count entries resv) := by
  unfold Machine.measure
  (try dsimp only); repeat' (first
      | with_reducible assumption | intro _ | with_reducible apply kept_logInput | with_reducible apply kept_setP
      | with_reducible apply kept_incr | simp only [kept_upd] | with_reducible refine Kept.foldl ?_ ?_
      | with_reducible refine Kept.foldlFst ?_ ?_ | (with_reducible refine Kept.fst (by assumption) ?_)
      | (with_reducible refine Kept.snd (by assumption) ?_) | (with_reducible refine KeptE.get (by assumption) ?_) | split
      | dsimp only)

theorem kept_plantArrive {s0 : State} {s : State} {h0 : DgHdr} {ts count : Nat} {entries : List (Nat × BitVec 64)} {resv : Bool} (h : Kept s0 s) : Kept s0 (plantArrive s h0 ts count entries resv) := by
  unfold plantArrive
  (try dsimp only); repeat' (first
      | with_reducible assumption | intro _ | with_reducible apply kept_incr | with_reducible apply kept_measure
      | with_reducible apply kept_setStream | simp only [kept_upd] | (with_reducible refine Kept.fst (by assumption) ?_)
      | (with_reducible refine Kept.snd (by assumption) ?_) | (with_reducible refine KeptE.get (by assumption) ?_) | split
      | dsimp only)

theorem kept_ptpLost {s0 : State} {s : State} (h : Kept s0 s) : Kept s0 (ptpLost s) := by
  unfold ptpLost
  (try dsimp only); repeat' (first
      | with_reducible assumption | intro _ | with_reducible apply kept_wr | with_reducible apply kept_setP | simp only [kept_upd]
      | with_reducible refine Kept.foldl ?_ ?_ | with_reducible refine Kept.foldlFst ?_ ?_ | split | dsimp only)

theorem kept_execPtpMessage {time : Nat} {offset : BitVec 32} {s : State} {v0 : State} (hu : execPtpMessage time offset s = .next v0) : Kept s v0 := by
  have h := Kept.refl s
  unfold execPtpMessage at hu
  (repeat' split at hu) <;> first
    | (injection hu with hu; subst hu; (try dsimp only); repeat' (first
        | with_reducible assumption | intro _ | with_reducible apply kept_wr | simp only [kept_upd] | split | dsimp only))
    | (cases hu; done)

theorem kept_execPtpSyncMissed {s : State} {v0 : State} (hu : execPtpSyncMissed s = .next v0) : Kept s v0 := by
  have h := Kept.refl s
  unfold execPtpSyncMissed at hu
  (repeat' split at hu) <;> first
    | (injection hu with hu; subst hu; (try dsimp only); repeat' (first
        | with_reducible assumption | intro _ | with_reducible apply kept_wr | split | dsimp only))
    | (cases hu; done)

theorem kept_execPtpHoldoverExpiry {s : State} {v0 : State} (hu : execPtpHoldoverExpiry s = .next v0) : Kept s v0 := by
  have h := Kept.refl s
  unfold execPtpHoldoverExpiry at hu
  (repeat' split at hu) <;> first
    | (injection hu with hu; subst hu; (try dsimp only); repeat' (first
        | with_reducible assumption | intro _ | with_reducible apply kept_ptpLost | split | dsimp only))
    | (cases hu; done)

/-! ### Celale -/

theorem kept_raiseFree {s0 : State} {s : State} {die cls unit ctx step : Nat} {ev : Option UnitEvent} {jobEnding : Bool} (h : Kept s0 s) : Kept s0 (raiseFree s die cls unit ctx step ev jobEnding) := by
  unfold raiseFree
  (try dsimp only); repeat' (first
      | with_reducible assumption | intro _ | with_reducible apply kept_raiseEvent | with_reducible apply kept_drawNat | split
      | dsimp only)

theorem kept_setPort {s0 : State} {s : State} {p v : Nat} (h : Kept s0 s) : Kept s0 (setPort s p v) := by
  unfold setPort
  (try dsimp only); repeat' (first | with_reducible assumption | intro _ | with_reducible apply kept_wr | split | dsimp only)

theorem kept_linkEvent {s0 : State} {s : State} {p : Nat} (h : Kept s0 s) : Kept s0 (linkEvent s p) := by
  unfold linkEvent
  (try dsimp only); repeat' (first | with_reducible assumption | intro _ | with_reducible apply kept_raiseFree | split | dsimp only)

theorem kept_clearSamples {s0 : State} {s : State} {p : Nat} (h : Kept s0 s) : Kept s0 (clearSamples s p) := by
  unfold clearSamples
  (try dsimp only); repeat' (first
      | with_reducible assumption | intro _ | with_reducible apply kept_wr | with_reducible apply kept_setLink
      | simp only [kept_upd] | split | dsimp only)

theorem kept_reroute {s0 : State} {s : State} {p : Nat} {stays : TxFlit → Bool} (h : Kept s0 s) : Kept s0 (reroute s p stays) := by
  unfold reroute
  (try dsimp only); repeat' (first
      | with_reducible assumption | intro _ | with_reducible apply kept_routeFlit | with_reducible apply kept_setLink
      | simp only [kept_upd] | with_reducible refine Kept.foldl ?_ ?_ | with_reducible refine Kept.foldlFst ?_ ?_ | split
      | dsimp only)

theorem kept_portDown {s0 : State} {s : State} {p : Nat} (h : Kept s0 s) : Kept s0 (portDown s p) := by
  unfold portDown
  (try dsimp only); repeat' (first
      | with_reducible assumption | intro _ | with_reducible apply kept_setLink | with_reducible apply kept_reroute
      | with_reducible apply kept_linkEvent | with_reducible apply kept_clearSamples | with_reducible apply kept_setPort
      | simp only [kept_upd] | split | dsimp only)

theorem kept_execPortLossOfLock {p : Port} {s : State} {v0 : State} (hu : execPortLossOfLock p s = .next v0) : Kept s v0 := by
  have h := Kept.refl s
  unfold execPortLossOfLock at hu
  (repeat' split at hu) <;> first
    | (injection hu with hu; subst hu; (try dsimp only); repeat' (first
        | with_reducible assumption | intro _ | with_reducible apply kept_portDown | split | dsimp only))
    | (cases hu; done)

theorem kept_portTrain {s0 : State} {s : State} {p : Nat} (h : Kept s0 s) : Kept s0 (portTrain s p) := by
  unfold portTrain
  (try dsimp only); repeat' (first
      | with_reducible assumption | intro _ | with_reducible apply kept_clearSamples | with_reducible apply kept_setPort | split
      | dsimp only)

theorem kept_execPortTrained {p : Port} {s : State} {v0 : State} (hu : execPortTrained p s = .next v0) : Kept s v0 := by
  have h := Kept.refl s
  unfold execPortTrained at hu
  (repeat' split at hu) <;> first
    | (injection hu with hu; subst hu; (try dsimp only); repeat' (first
        | with_reducible assumption | intro _ | with_reducible apply kept_setPort | with_reducible apply kept_setLink
        | simp only [kept_upd] | split | dsimp only))
    | (cases hu; done)

theorem kept_transit {s0 : State} {s : State} {f : Flit} {payload : BitVec 2048} (h : Kept s0 s) : Kept s0 (transit s f payload) := by
  unfold transit
  (try dsimp only); repeat' (first
      | with_reducible assumption | intro _ | with_reducible apply kept_freeBuffer | with_reducible apply kept_incr
      | with_reducible apply kept_raiseFree | with_reducible apply kept_transitVc0 | with_reducible apply kept_routeFlit | split
      | dsimp only)

theorem kept_discardFlit {s0 : State} {s : State} {p seq : Nat} (h : Kept s0 s) : Kept s0 (discardFlit s p seq) := by
  unfold discardFlit
  (try dsimp only); repeat' (first
      | with_reducible assumption | intro _ | with_reducible apply kept_setLink | with_reducible apply kept_emit
      | simp only [kept_upd] | (with_reducible refine Kept.fst (by assumption) ?_)
      | (with_reducible refine Kept.snd (by assumption) ?_) | (with_reducible refine KeptE.get (by assumption) ?_) | split
      | dsimp only)

theorem kept_execFlitForward {f : Flit} {x : Trailer} {crcOk : Bool} {s : State} {v0 : State} (hu : execFlitForward f x crcOk s = .next v0) : Kept s v0 := by
  have h := Kept.refl s
  unfold execFlitForward at hu
  (repeat' split at hu) <;> first
    | (injection hu with hu; subst hu; (try dsimp only); repeat' (first
        | with_reducible assumption | intro _ | with_reducible apply kept_incr | with_reducible apply kept_setLink
        | with_reducible apply kept_discardFlit | with_reducible apply kept_freeBuffer | with_reducible apply kept_transit
        | simp only [kept_upd] | split | dsimp only))
    | (cases hu; done)

theorem kept_execNak {p : Port} {n : Nak} {s : State} {v0 : State} (hu : execNak p n s = .next v0) : Kept s v0 := by
  have h := Kept.refl s
  unfold execNak at hu
  (repeat' split at hu) <;> first
    | (injection hu with hu; subst hu; (try dsimp only); repeat' (first
        | with_reducible assumption | intro _ | with_reducible apply kept_incr | with_reducible apply kept_portDown
        | with_reducible apply kept_setLink | with_reducible apply kept_countEvent | simp only [kept_upd] | split | dsimp only))
    | (cases hu; done)

theorem kept_checkCabling {s0 : State} {s : State} {p : Nat} (h : Kept s0 s) : Kept s0 (checkCabling s p) := by
  unfold checkCabling
  (try dsimp only); repeat' (first
      | with_reducible assumption | intro _ | with_reducible apply kept_reroute | with_reducible apply kept_clearSamples
      | with_reducible apply kept_setPort | with_reducible apply kept_linkEvent | split | dsimp only)

theorem kept_execProbe {p : Port} {serial : BitVec 64} {device : BitVec 16} {port : BitVec 8} {s : State} {v0 : State} (hu : execProbe p serial device port s = .next v0) : Kept s v0 := by
  have h := Kept.refl s
  unfold execProbe at hu
  (repeat' split at hu) <;> first
    | (injection hu with hu; subst hu; (try dsimp only); repeat' (first
        | with_reducible assumption | intro _ | with_reducible apply kept_wr | with_reducible apply kept_checkCabling
        | with_reducible apply kept_linkEvent | with_reducible apply kept_setLink | simp only [kept_upd] | split | dsimp only))
    | (cases hu; done)

theorem kept_execProbeTimer {s : State} {v0 : State} (hu : execProbeTimer s = .next v0) : Kept s v0 := by
  have h := Kept.refl s
  unfold execProbeTimer at hu
  (repeat' split at hu) <;> first
    | (injection hu with hu; subst hu; (try dsimp only); repeat' (first
        | with_reducible assumption | intro _ | with_reducible apply kept_sendPort | with_reducible refine Kept.foldl ?_ ?_
        | with_reducible refine Kept.foldlFst ?_ ?_ | split | dsimp only))
    | (cases hu; done)

theorem kept_execCongestionSample {p : Port} {use : Fin 257} {s : State} {v0 : State} (hu : execCongestionSample p use s = .next v0) : Kept s v0 := by
  have h := Kept.refl s
  unfold execCongestionSample at hu
  (repeat' split at hu) <;> first
    | (injection hu with hu; subst hu; (try dsimp only); repeat' (first
        | with_reducible assumption | intro _ | with_reducible apply kept_wr | with_reducible apply kept_setLink
        | simp only [kept_upd] | with_reducible refine Kept.foldl ?_ ?_ | with_reducible refine Kept.foldlFst ?_ ?_ | split
        | dsimp only))
    | (cases hu; done)

theorem kept_startDrain {s0 : State} {s : State} {p : Nat} (h : Kept s0 s) : Kept s0 (startDrain s p) := by
  unfold startDrain
  (try dsimp only); repeat' (first
      | with_reducible assumption | intro _ | with_reducible apply kept_sendPort | with_reducible apply kept_setLink
      | simp only [kept_upd] | split | dsimp only)

theorem kept_execDrainNotice {p : Port} {s : State} {v0 : State} (hu : execDrainNotice p s = .next v0) : Kept s v0 := by
  have h := Kept.refl s
  unfold execDrainNotice at hu
  (repeat' split at hu) <;> first
    | (injection hu with hu; subst hu; (try dsimp only); repeat' (first
        | with_reducible assumption | intro _ | with_reducible apply kept_startDrain | split | dsimp only))
    | (cases hu; done)

theorem kept_execPortDrained {p : Port} {s : State} {v0 : State} (hu : execPortDrained p s = .next v0) : Kept s v0 := by
  have h := Kept.refl s
  unfold execPortDrained at hu
  (repeat' split at hu) <;> first
    | (injection hu with hu; subst hu; (try dsimp only); repeat' (first
        | with_reducible assumption | intro _ | with_reducible apply kept_setPort | with_reducible apply kept_setLink
        | simp only [kept_upd] | split | dsimp only))
    | (cases hu; done)

theorem kept_execRecalDone {p : Port} {s : State} {v0 : State} (hu : execRecalDone p s = .next v0) : Kept s v0 := by
  have h := Kept.refl s
  unfold execRecalDone at hu
  (repeat' split at hu) <;> first
    | (injection hu with hu; subst hu; (try dsimp only); repeat' (first
        | with_reducible assumption | intro _ | with_reducible apply kept_portTrain | split | dsimp only))
    | (cases hu; done)

theorem kept_portCtrlWrite {s0 : State} {s : State} {p v : Nat} (h : Kept s0 s) : KeptE s0 (portCtrlWrite s p v) := by
  unfold portCtrlWrite
  (try dsimp only); repeat' (first
      | with_reducible assumption | intro _ | with_reducible apply kept_bumpSnap | with_reducible apply kept_startDrain
      | with_reducible apply kept_portTrain | with_reducible apply kept_reroute | with_reducible apply kept_clearSamples
      | with_reducible apply kept_setPort | simp only [kept_upd] | with_reducible exact KeptE.error
      | with_reducible apply KeptE.ok | (with_reducible refine Kept.fst (by assumption) ?_)
      | (with_reducible refine Kept.snd (by assumption) ?_) | (with_reducible refine KeptE.get (by assumption) ?_) | split
      | dsimp only)

theorem kept_moveSwitch {s0 : State} {s : State} {lane closed : Nat} (h : Kept s0 s) : Kept s0 (moveSwitch s lane closed) := by
  unfold moveSwitch
  (try dsimp only); repeat' (first
      | with_reducible assumption | intro _ | with_reducible apply kept_portDown | simp only [kept_upd] | split | dsimp only)

theorem kept_bypassClose {s0 : State} {s : State} (h : Kept s0 s) : Kept s0 (bypassClose s) := by
  unfold bypassClose
  (try dsimp only); repeat' (first | with_reducible assumption | intro _ | with_reducible apply kept_moveSwitch | split | dsimp only)

theorem kept_execBypassSwitchSettled {lane : Fin 2} {s : State} {v0 : State} (hu : execBypassSwitchSettled lane s = .next v0) : Kept s v0 := by
  have h := Kept.refl s
  unfold execBypassSwitchSettled at hu
  (repeat' split at hu) <;> first
    | (injection hu with hu; subst hu; (try dsimp only); repeat' (first
        | with_reducible assumption | intro _ | with_reducible apply kept_wr | simp only [kept_upd]
        | (with_reducible refine Kept.fst (by assumption) ?_) | (with_reducible refine Kept.snd (by assumption) ?_)
        | (with_reducible refine KeptE.get (by assumption) ?_) | split | dsimp only))
    | (cases hu; done)

theorem kept_bypassWrite {s0 : State} {s : State} {v : Nat} (h : Kept s0 s) : KeptE s0 (bypassWrite s v) := by
  unfold bypassWrite
  (try dsimp only); repeat' (first
      | with_reducible assumption | intro _ | with_reducible apply kept_bumpSnap | with_reducible apply kept_bypassClose
      | with_reducible apply kept_moveSwitch | simp only [kept_upd] | with_reducible exact KeptE.error
      | with_reducible apply KeptE.ok | (with_reducible refine Kept.fst (by assumption) ?_)
      | (with_reducible refine Kept.snd (by assumption) ?_) | (with_reducible refine KeptE.get (by assumption) ?_) | split
      | dsimp only)

theorem kept_execLaserCheck {low : BitVec 8} {s : State} {v0 : State} (hu : execLaserCheck low s = .next v0) : Kept s v0 := by
  have h := Kept.refl s
  unfold execLaserCheck at hu
  (repeat' split at hu) <;> first
    | (injection hu with hu; subst hu; (try dsimp only); repeat' (first
        | with_reducible assumption | intro _ | with_reducible apply kept_raiseFree | with_reducible apply kept_wr
        | with_reducible apply kept_portDown | with_reducible apply kept_bypassClose | with_reducible refine Kept.foldl ?_ ?_
        | with_reducible refine Kept.foldlFst ?_ ?_ | split | dsimp only))
    | (cases hu; done)

theorem kept_routeWrite {s0 : State} {s : State} {k v : Nat} (h : Kept s0 s) : KeptE s0 (routeWrite s k v) := by
  unfold routeWrite
  (try dsimp only); repeat' (first
      | with_reducible assumption | intro _ | with_reducible apply kept_bumpSnap | simp only [kept_upd]
      | with_reducible exact KeptE.error | with_reducible apply KeptE.ok | split | dsimp only)

theorem kept_routeCommitWrite {s0 : State} {s : State} {e : Nat} (h : Kept s0 s) : KeptE s0 (routeCommitWrite s e) := by
  unfold routeCommitWrite
  (try dsimp only); repeat' (first
      | with_reducible assumption | intro _ | with_reducible apply kept_bumpSnap | with_reducible apply kept_addFence
      | with_reducible exact KeptE.error | with_reducible apply KeptE.ok | split | dsimp only)

theorem kept_applyRoutes {s0 : State} {s : State} {e : Nat} {table : Tbl Nat} (h : Kept s0 s) : Kept s0 (applyRoutes s e table) := by
  unfold applyRoutes
  (try dsimp only); repeat' (first
      | with_reducible assumption | intro _ | with_reducible apply kept_wr | with_reducible refine Kept.foldl ?_ ?_
      | with_reducible refine Kept.foldlFst ?_ ?_ | split | dsimp only)

theorem kept_checkAllPorts {s0 : State} {s : State} (h : Kept s0 s) : Kept s0 (checkAllPorts s) := by
  unfold checkAllPorts
  (try dsimp only); repeat' (first
      | with_reducible assumption | intro _ | with_reducible apply kept_checkCabling | with_reducible refine Kept.foldl ?_ ?_
      | with_reducible refine Kept.foldlFst ?_ ?_ | split | dsimp only)

theorem kept_deviceIdWrite {s0 : State} {s : State} {v : Nat} (h : Kept s0 s) : KeptE s0 (deviceIdWrite s v) := by
  unfold deviceIdWrite
  (try dsimp only); repeat' (first
      | with_reducible assumption | intro _ | with_reducible apply kept_checkAllPorts | with_reducible apply kept_wrHost
      | with_reducible exact KeptE.error | with_reducible apply KeptE.ok | split | dsimp only)

theorem kept_systemShapeWrite {s0 : State} {s : State} {v : Nat} (h : Kept s0 s) : KeptE s0 (systemShapeWrite s v) := by
  unfold systemShapeWrite
  (try dsimp only); repeat' (first
      | with_reducible assumption | intro _ | with_reducible apply kept_checkAllPorts | with_reducible apply kept_wrHost
      | with_reducible exact KeptE.error | with_reducible apply KeptE.ok | split | dsimp only)

theorem kept_vcArbWrite {s0 : State} {s : State} {v : Nat} (h : Kept s0 s) : KeptE s0 (vcArbWrite s v) := by
  unfold vcArbWrite
  (try dsimp only); repeat' (first
      | with_reducible assumption | intro _ | with_reducible apply kept_wrHost | with_reducible refine Kept.foldl ?_ ?_
      | with_reducible refine Kept.foldlFst ?_ ?_ | with_reducible exact KeptE.error | with_reducible apply KeptE.ok | split
      | dsimp only)

theorem kept_deadNoticeWrite {s0 : State} {s : State} {device : Nat} (h : Kept s0 s) : KeptE s0 (deadNoticeWrite s device) := by
  unfold deadNoticeWrite
  (try dsimp only); repeat' (first
      | with_reducible assumption | intro _ | with_reducible apply kept_bumpSnap | with_reducible apply kept_deadCollectives
      | with_reducible apply kept_deadRequests | with_reducible exact KeptE.error | with_reducible apply KeptE.ok | split
      | dsimp only)

/-! ### Package -/

theorem kept_setDie {s0 : State} {s : State} {d v : Nat} (h : Kept s0 s) : Kept s0 (setDie s d v) := by
  unfold setDie
  (try dsimp only); repeat' (first | with_reducible assumption | intro _ | with_reducible apply kept_wr | split | dsimp only)

theorem kept_degradeDevice {s0 : State} {s : State} (h : Kept s0 s) : Kept s0 (degradeDevice s) := by
  unfold degradeDevice
  (try dsimp only); repeat' (first | with_reducible assumption | intro _ | with_reducible apply kept_wr | split | dsimp only)

theorem kept_degradeDie {s0 : State} {s : State} {d : Nat} (h : Kept s0 s) : Kept s0 (degradeDie s d) := by
  unfold degradeDie
  (try dsimp only); repeat' (first
      | with_reducible assumption | intro _ | with_reducible apply kept_degradeDevice | with_reducible apply kept_logFault
      | with_reducible apply kept_setDie | split | dsimp only)

theorem kept_holdReset {s0 : State} {s : State} {d : Nat} (h : Kept s0 s) : Kept s0 (holdReset s d) := by
  unfold holdReset
  (try dsimp only); repeat' (first | with_reducible assumption | intro _ | simp only [kept_upd] | split | dsimp only)

theorem kept_releaseDies {s0 : State} {s : State} (h : Kept s0 s) : Kept s0 (releaseDies s) := by
  unfold releaseDies
  (try dsimp only); repeat' (first | with_reducible assumption | intro _ | simp only [kept_upd] | split | dsimp only)

theorem kept_holdLines {s0 : State} {s : State} (h : Kept s0 s) : Kept s0 (holdLines s) := by
  unfold holdLines
  (try dsimp only); repeat' (first | with_reducible assumption | intro _ | simp only [kept_upd] | split | dsimp only)

theorem kept_setPower {s0 : State} {s : State} {ds : List Nat} (h : Kept s0 s) : Kept s0 (setPower s ds) := by
  unfold setPower
  (try dsimp only); repeat' (first | with_reducible assumption | intro _ | simp only [kept_upd] | split | dsimp only)

theorem kept_dieLost {s0 : State} {s : State} {d : Nat} (h : Kept s0 s) : Kept s0 (dieLost s d) := by
  unfold dieLost
  (try dsimp only); repeat' (first
      | with_reducible assumption | intro _ | with_reducible apply kept_haltCtx | with_reducible apply kept_degradeDevice
      | with_reducible apply kept_faultHalf | with_reducible apply kept_portDown | with_reducible apply kept_bypassClose
      | simp only [kept_upd] | with_reducible refine Kept.foldl ?_ ?_ | with_reducible refine Kept.foldlFst ?_ ?_
      | (with_reducible refine Kept.fst (by assumption) ?_) | (with_reducible refine Kept.snd (by assumption) ?_)
      | (with_reducible refine KeptE.get (by assumption) ?_) | split | dsimp only)

theorem kept_dieFail {s0 : State} {s : State} {d : Nat} (h : Kept s0 s) : Kept s0 (dieFail s d) := by
  unfold dieFail
  (try dsimp only); repeat' (first
      | with_reducible assumption | intro _ | with_reducible apply kept_holdReset | with_reducible apply kept_setDie
      | with_reducible apply kept_dieLost | with_reducible apply kept_logFault | with_reducible apply kept_drawNat | split
      | dsimp only)

theorem kept_setFuses {s0 : State} {s : State} {d : Nat} {f : Fuses} (h : Kept s0 s) : Kept s0 (setFuses s d f) := by
  unfold setFuses
  (try dsimp only); repeat' (first | with_reducible assumption | intro _ | simp only [kept_upd] | split | dsimp only)

theorem kept_markFailed {s0 : State} {s : State} {d p : Nat} (h : Kept s0 s) : Kept s0 (markFailed s d p) := by
  unfold markFailed
  (try dsimp only); repeat' (first
      | with_reducible assumption | intro _ | with_reducible apply kept_setFuses | simp only [kept_upd] | split | dsimp only)

theorem kept_failCluster {s0 : State} {s : State} {cl : Nat} (h : Kept s0 s) : Kept s0 (failCluster s cl) := by
  unfold failCluster
  (try dsimp only); repeat' (first
      | with_reducible assumption | intro _ | with_reducible apply kept_markFailed | with_reducible apply kept_addFence
      | with_reducible apply kept_degradeDie | simp only [kept_upd] | (with_reducible refine Kept.fst (by assumption) ?_)
      | (with_reducible refine Kept.snd (by assumption) ?_) | (with_reducible refine KeptE.get (by assumption) ?_) | split
      | dsimp only)

theorem kept_applySwap {s0 : State} {s : State} {cl : Nat} (h : Kept s0 s) : Kept s0 (applySwap s cl) := by
  unfold applySwap
  (try dsimp only); repeat' (first
      | with_reducible assumption | intro _ | with_reducible apply kept_degradeDie | with_reducible apply kept_setFuses
      | with_reducible apply kept_modC | with_reducible apply kept_logFault | simp only [kept_upd]
      | (with_reducible refine Kept.fst (by assumption) ?_) | (with_reducible refine Kept.snd (by assumption) ?_)
      | (with_reducible refine KeptE.get (by assumption) ?_) | split | dsimp only)

theorem kept_failGranule {s0 : State} {s : State} {stack : Fin 16} {ctx g : Nat} (h : Kept s0 s) : Kept s0 (failGranule s stack ctx g) := by
  unfold failGranule
  (try dsimp only); repeat' (first
      | with_reducible assumption | intro _ | with_reducible apply kept_addFence | with_reducible apply kept_degradeDie | split
      | dsimp only)

theorem kept_applyRemap {s0 : State} {s : State} {stack : Fin 16} {ctx p : Nat} (h : Kept s0 s) : Kept s0 (applyRemap s stack ctx p) := by
  unfold applyRemap
  (try dsimp only); repeat' (first
      | with_reducible assumption | intro _ | with_reducible apply kept_modC | with_reducible apply kept_logFault
      | with_reducible apply kept_incr | with_reducible apply kept_releaseHeld | with_reducible apply kept_degradeDie
      | simp only [kept_upd] | split | dsimp only)

theorem kept_queueTaster {s0 : State} {s : State} {d : Nat} {r : TasterReq} (h : Kept s0 s) : Kept s0 (queueTaster s d r) := by
  unfold queueTaster
  (try dsimp only); repeat' (first | with_reducible assumption | intro _ | simp only [kept_upd] | split | dsimp only)

theorem kept_raiseUnit {s0 s : State} {d unit : Nat} {e : UnitEvent} (h : Kept s0 s) : Kept s0 (raiseUnit s d unit e) := by
  unfold raiseUnit
  split
  · refine kept_unitFault ?_
    split
    · exact kept_modC h
    · exact h
  · exact kept_unitFault h
  · exact kept_raiseEvent h
  · refine kept_unitFault ?_
    split
    · exact kept_modC h
    · exact h
  all_goals first | exact kept_raiseFree h | exact kept_raiseEvent h | exact kept_incr h

theorem kept_actOn {s0 s : State} {d : Nat} {e : UnitEvent} (h : Kept s0 s) : Kept s0 (actOn s d e) := by
  unfold actOn
  split <;> first | with_reducible exact h | with_reducible exact kept_failCluster h | with_reducible exact kept_queueTaster h | with_reducible exact kept_failGranule h | with_reducible exact kept_dieFail h

theorem kept_forwardEvent {s0 : State} {s : State} {d : Nat} (h : Kept s0 s) : Kept s0 (forwardEvent s d) := by
  unfold forwardEvent
  (try dsimp only); repeat' (first
      | with_reducible assumption | intro _ | with_reducible apply kept_logRec | with_reducible apply kept_actOn
      | simp only [kept_upd] | (with_reducible refine Kept.fst (by assumption) ?_)
      | (with_reducible refine Kept.snd (by assumption) ?_) | (with_reducible refine KeptE.get (by assumption) ?_) | split
      | dsimp only)

theorem kept_execStewardEvent {d : Die} {unit : Nat} {ev : Option UnitEvent} {s : State} {v0 : State} (hu : execStewardEvent d unit ev s = .next v0) : Kept s v0 := by
  have h := Kept.refl s
  unfold execStewardEvent at hu
  (repeat' split at hu) <;> first
    | (injection hu with hu; subst hu; (try dsimp only); repeat' (first
        | with_reducible assumption | intro _ | with_reducible apply kept_raiseUnit | with_reducible apply kept_forwardEvent
        | simp only [kept_upd] | (with_reducible refine Kept.fst (by assumption) ?_)
        | (with_reducible refine Kept.snd (by assumption) ?_) | (with_reducible refine KeptE.get (by assumption) ?_) | split
        | dsimp only))
    | (cases hu; done)

theorem kept_senseRing {s0 : State} {s : State} (h : Kept s0 s) : Kept s0 (senseRing s) := by
  unfold senseRing
  (try dsimp only); repeat' (first | with_reducible assumption | intro _ | with_reducible apply kept_wr | split | dsimp only)

theorem kept_execMgmtRingBreak {d : Die} {lane : Fin 2} {s : State} {v0 : State} (hu : execMgmtRingBreak d lane s = .next v0) : Kept s v0 := by
  have h := Kept.refl s
  unfold execMgmtRingBreak at hu
  (repeat' split at hu) <;> first
    | (injection hu with hu; subst hu; (try dsimp only); repeat' (first
        | with_reducible assumption | intro _ | with_reducible apply kept_dieFail | with_reducible apply kept_senseRing
        | simp only [kept_upd] | with_reducible refine Kept.foldl ?_ ?_ | with_reducible refine Kept.foldlFst ?_ ?_ | split
        | dsimp only))
    | (cases hu; done)

theorem kept_putAccess {s0 : State} {s : State} {master : Option Nat} {e : BitVec 32} (h : Kept s0 s) : Kept s0 (putAccess s master e) := by
  unfold putAccess
  (try dsimp only); repeat' (first | with_reducible assumption | intro _ | simp only [kept_upd] | split | dsimp only)

theorem kept_repart {s0 : State} {s : State} {m : Nat} (h : Kept s0 s) : Kept s0 (repart s m) := by
  unfold repart
  (try dsimp only); repeat' (first
      | with_reducible assumption | intro _ | with_reducible apply kept_putAccess | with_reducible refine Kept.foldl ?_ ?_
      | with_reducible refine Kept.foldlFst ?_ ?_ | split | dsimp only)

theorem kept_execAccessTableUpdateDone {s : State} {v0 : State} (hu : execAccessTableUpdateDone s = .next v0) : Kept s v0 := by
  have h := Kept.refl s
  unfold execAccessTableUpdateDone at hu
  (repeat' split at hu) <;> first
    | (injection hu with hu; subst hu; (try dsimp only); repeat' (first
        | with_reducible assumption | intro _ | simp only [kept_upd] | with_reducible refine Kept.foldl ?_ ?_
        | with_reducible refine Kept.foldlFst ?_ ?_ | (with_reducible refine Kept.fst (by assumption) ?_)
        | (with_reducible refine Kept.snd (by assumption) ?_) | (with_reducible refine KeptE.get (by assumption) ?_) | split
        | dsimp only))
    | (cases hu; done)

theorem kept_execStackTempReading {stack : Fin 16} {t : BitVec 16} {s : State} {v0 : State} (hu : execStackTempReading stack t s = .next v0) : Kept s v0 := by
  have h := Kept.refl s
  unfold execStackTempReading at hu
  (repeat' split at hu) <;> first
    | (injection hu with hu; subst hu; (try dsimp only); repeat' (first
        | with_reducible assumption | intro _ | with_reducible apply kept_wr | with_reducible apply kept_countEvent
        | with_reducible apply kept_raiseFree | simp only [kept_upd] | split | dsimp only))
    | (cases hu; done)

theorem kept_execStackRetrain {stack : Fin 16} {s : State} {v0 : State} (hu : execStackRetrain stack s = .next v0) : Kept s v0 := by
  have h := Kept.refl s
  unfold execStackRetrain at hu
  (repeat' split at hu) <;> first
    | (injection hu with hu; subst hu; (try dsimp only); repeat' (first
        | with_reducible assumption | intro _ | with_reducible apply kept_countEvent | simp only [kept_upd] | split | dsimp only))
    | (cases hu; done)

theorem kept_setSlot {s0 : State} {s : State} {type slot : Nat} {x : FwSlot} (h : Kept s0 s) : Kept s0 (setSlot s type slot x) := by
  unfold setSlot
  (try dsimp only); repeat' (first
      | with_reducible assumption | intro _ | with_reducible apply kept_bumpSnap | with_reducible apply kept_slot
      | simp only [kept_upd] | split | dsimp only)

theorem kept_advanceCounters {s0 : State} {s : State} {d : Nat} (h : Kept s0 s) : Kept s0 (advanceCounters s d) := by
  unfold advanceCounters
  (try dsimp only); repeat' (first
      | with_reducible assumption | intro _ | with_reducible apply kept_wr | with_reducible refine Kept.foldl ?_ ?_
      | with_reducible refine Kept.foldlFst ?_ ?_ | split | dsimp only)

/-! ### Ctx -/

theorem kept_clusterAccess {s0 : State} {s : State} {id : Option Nat} (h : Kept s0 s) : Kept s0 (clusterAccess s id) := by
  unfold clusterAccess
  (try dsimp only); repeat' (first
      | with_reducible assumption | intro _ | with_reducible apply kept_putAccess | simp only [kept_upd]
      | (with_reducible refine Kept.fst (by assumption) ?_) | (with_reducible refine Kept.snd (by assumption) ?_)
      | (with_reducible refine KeptE.get (by assumption) ?_) | split | dsimp only)

theorem kept_ctxCreate {s0 : State} {s : State} {id : Nat} (h : Kept s0 s) : KeptC s0 (ctxCreate s id) := by
  unfold ctxCreate
  (try dsimp only); repeat' (first
      | with_reducible assumption | intro _ | with_reducible apply kept_drawNat | with_reducible apply kept_incr
      | with_reducible apply kept_setC | simp only [kept_upd] | with_reducible exact True.intro
      | simp only [keptC_done, keptC_fail, keptC_long] | split | dsimp only)

theorem kept_restartGens {s0 : State} {s : State} {id : Nat} (h : Kept s0 s) : Kept s0 (restartGens s id) := by
  unfold restartGens
  (try dsimp only); repeat' (first
      | with_reducible assumption | intro _ | with_reducible apply kept_setStream | with_reducible apply kept_wr
      | simp only [kept_upd] | with_reducible refine Kept.foldl ?_ ?_ | with_reducible refine Kept.foldlFst ?_ ?_ | split
      | dsimp only)

theorem kept_ctxSessionKey {s0 : State} {s : State} {id : Nat} {key : Option Nat} (h : Kept s0 s) : KeptC s0 (ctxSessionKey s id key) := by
  unfold ctxSessionKey
  (try dsimp only); repeat' (first
      | with_reducible assumption | intro _ | with_reducible apply kept_modC | with_reducible apply kept_restartGens
      | simp only [kept_upd] | with_reducible exact True.intro | simp only [keptC_done, keptC_fail, keptC_long]
      | (with_reducible refine Kept.fst (by assumption) ?_) | (with_reducible refine Kept.snd (by assumption) ?_)
      | (with_reducible refine KeptE.get (by assumption) ?_) | split | dsimp only)

theorem kept_ctxMembers {s0 : State} {s : State} {id n rank : Nat} {ids : List Nat} (h : Kept s0 s) : KeptC s0 (ctxMembers s id n rank ids) := by
  unfold ctxMembers
  (try dsimp only); repeat' (first
      | with_reducible assumption | intro _ | with_reducible apply kept_modC | simp only [kept_upd]
      | with_reducible exact True.intro | simp only [keptC_done, keptC_fail, keptC_long] | split | dsimp only)

theorem kept_ctxBind {s0 : State} {s : State} {id num kind die half : Nat} (h : Kept s0 s) : KeptC s0 (ctxBind s id num kind die half) := by
  unfold ctxBind
  (try dsimp only); repeat' (first
      | with_reducible assumption | intro _ | with_reducible apply kept_modC | simp only [kept_upd]
      | with_reducible exact True.intro | simp only [keptC_done, keptC_fail, keptC_long] | split | dsimp only)

theorem kept_ctxUnbind {s0 : State} {s : State} {id num : Nat} (h : Kept s0 s) : KeptC s0 (ctxUnbind s id num) := by
  unfold ctxUnbind
  (try dsimp only); repeat' (first
      | with_reducible assumption | intro _ | with_reducible apply kept_clearResident | with_reducible apply kept_modC
      | simp only [kept_upd] | with_reducible exact True.intro | simp only [keptR_done, keptR_jump, keptR_wait, keptR_halt]
      | simp only [keptC_done, keptC_fail, keptC_long] | (with_reducible refine Kept.fst (by assumption) ?_)
      | (with_reducible refine Kept.snd (by assumption) ?_) | (with_reducible refine KeptE.get (by assumption) ?_) | split
      | dsimp only)

theorem kept_ctxSchedule {s0 : State} {s : State} {id : Nat} (h : Kept s0 s) : KeptC s0 (ctxSchedule s id) := by
  unfold ctxSchedule
  (try dsimp only); repeat' (first
      | with_reducible assumption | intro _ | simp only [kept_upd] | with_reducible exact True.intro
      | simp only [keptR_done, keptR_jump, keptR_wait, keptR_halt] | simp only [keptC_done, keptC_fail, keptC_long]
      | (with_reducible refine Kept.fst (by assumption) ?_) | (with_reducible refine Kept.snd (by assumption) ?_)
      | (with_reducible refine KeptE.get (by assumption) ?_) | split | dsimp only)

theorem kept_applySwitch {s0 : State} {s : State} {id : Nat} (h : Kept s0 s) : Kept s0 (applySwitch s id) := by
  unfold applySwitch
  (try dsimp only); repeat' (first
      | with_reducible assumption | intro _ | with_reducible apply kept_wr | with_reducible apply kept_clusterAccess
      | with_reducible apply kept_modC | simp only [kept_upd] | split | dsimp only)

theorem kept_dropSieves {s0 : State} {s : State} {id : Nat} (h : Kept s0 s) : Kept s0 (dropSieves s id) := by
  unfold dropSieves
  (try dsimp only); repeat' (first | with_reducible assumption | intro _ | simp only [kept_upd] | split | dsimp only)

theorem kept_dropLadle {s0 : State} {s : State} {id : Nat} (h : Kept s0 s) : Kept s0 (dropLadle s id) := by
  unfold dropLadle
  (try dsimp only); repeat' (first | with_reducible assumption | intro _ | simp only [kept_upd] | split | dsimp only)

theorem kept_dropFences {s0 : State} {s : State} {id : Nat} (h : Kept s0 s) : Kept s0 (dropFences s id) := by
  unfold dropFences
  (try dsimp only); repeat' (first
      | with_reducible assumption | intro _ | with_reducible apply kept_haltCtx | simp only [kept_upd]
      | (with_reducible refine Kept.fst (by assumption) ?_) | (with_reducible refine Kept.snd (by assumption) ?_)
      | (with_reducible refine KeptE.get (by assumption) ?_) | split | dsimp only)

theorem kept_freeStreams {s0 : State} {s : State} {id : Nat} (h : Kept s0 s) : Kept s0 (freeStreams s id) := by
  unfold freeStreams
  (try dsimp only); repeat' (first
      | with_reducible assumption | intro _ | with_reducible apply kept_setStream | simp only [kept_upd]
      | with_reducible refine Kept.foldl ?_ ?_ | with_reducible refine Kept.foldlFst ?_ ?_ | split | dsimp only)

theorem kept_setXcache {s0 : State} {s : State} {xs : List (Nat × Nat × Nat)} (h : Kept s0 s) : Kept s0 (setXcache s xs) := by
  unfold setXcache
  (try dsimp only); repeat' (first
      | with_reducible assumption | intro _ | with_reducible apply kept_wr | simp only [kept_upd]
      | with_reducible refine Kept.foldl ?_ ?_ | with_reducible refine Kept.foldlFst ?_ ?_ | split | dsimp only)

theorem kept_dropRemote {s0 : State} {s : State} {id : Nat} (h : Kept s0 s) : Kept s0 (dropRemote s id) := by
  unfold dropRemote
  (try dsimp only); repeat' (first | with_reducible assumption | intro _ | simp only [kept_upd] | split | dsimp only)

theorem kept_dropReplayOf {s0 : State} {s : State} {id : Nat} (h : Kept s0 s) : Kept s0 (dropReplayOf s id) := by
  unfold dropReplayOf
  (try dsimp only); repeat' (first | with_reducible assumption | intro _ | simp only [kept_upd] | split | dsimp only)

theorem kept_teardownCtx {s0 : State} {s : State} {id code : Nat} (h : Kept s0 s) : Kept s0 (teardownCtx s id code) := by
  unfold teardownCtx
  (try dsimp only); repeat' (first
      | with_reducible assumption | intro _ | with_reducible apply kept_plantTeardown | with_reducible apply kept_abortProblems
      | with_reducible apply kept_haltStreams | with_reducible apply kept_dropReplayOf | with_reducible apply kept_dropFences
      | with_reducible apply kept_dropLadle | with_reducible apply kept_dropSieves | with_reducible apply kept_clearResident
      | with_reducible apply kept_dropRemote | with_reducible apply kept_dropPages | with_reducible apply kept_freeStreams
      | with_reducible apply kept_setXcache | with_reducible apply kept_clusterAccess | with_reducible apply kept_wr
      | with_reducible apply kept_settleOp | with_reducible apply kept_setC | simp only [kept_upd]
      | with_reducible refine Kept.foldl ?_ ?_ | with_reducible refine Kept.foldlFst ?_ ?_ | split | dsimp only)

theorem kept_ctxTeardown {s0 : State} {s : State} {id : Nat} (h : Kept s0 s) : KeptC s0 (ctxTeardown s id) := by
  unfold ctxTeardown
  (try dsimp only); repeat' (first
      | with_reducible assumption | intro _ | with_reducible apply kept_teardownCtx | with_reducible apply kept_drawNat
      | with_reducible exact True.intro | simp only [keptC_done, keptC_fail, keptC_long] | split | dsimp only)

theorem kept_scrubStart {s0 : State} {s : State} (h : Kept s0 s) : Kept s0 (scrubStart s) := by
  unfold scrubStart
  (try dsimp only); repeat' (first
      | with_reducible assumption | intro _ | with_reducible apply kept_wr | with_reducible apply kept_modC | simp only [kept_upd]
      | with_reducible refine Kept.foldl ?_ ?_ | with_reducible refine Kept.foldlFst ?_ ?_ | split | dsimp only)

theorem kept_scrubSram {s0 : State} {s : State} (h : Kept s0 s) : Kept s0 (scrubSram s) := by
  unfold scrubSram
  (try dsimp only); repeat' (first
      | with_reducible assumption | intro _ | with_reducible apply kept_dropReplayOf | with_reducible apply kept_dropFences
      | with_reducible apply kept_plantTeardown | with_reducible apply kept_abortProblems | with_reducible apply kept_modC
      | simp only [kept_upd] | with_reducible refine Kept.foldl ?_ ?_ | with_reducible refine Kept.foldlFst ?_ ?_ | split
      | dsimp only)

theorem kept_scrubStacks {s0 : State} {s : State} (h : Kept s0 s) : Kept s0 (scrubStacks s) := by
  unfold scrubStacks
  (try dsimp only); repeat' (first
      | with_reducible assumption | intro _ | with_reducible apply kept_modC | with_reducible apply kept_wr
      | with_reducible apply kept_setXcache | simp only [kept_upd] | with_reducible refine Kept.foldl ?_ ?_
      | with_reducible refine Kept.foldlFst ?_ ?_ | split | dsimp only)

theorem kept_scrubMemory {s0 : State} {s : State} (h : Kept s0 s) : Kept s0 (scrubMemory s) := by
  unfold scrubMemory
  (try dsimp only); repeat' (first
      | with_reducible assumption | intro _ | with_reducible apply kept_scrubStacks | with_reducible apply kept_scrubSram | split
      | dsimp only)

theorem kept_scrubTick {s0 : State} {s : State} (h : Kept s0 s) : Kept s0 (scrubTick s) := by
  unfold scrubTick
  (try dsimp only); repeat' (first
      | with_reducible assumption | intro _ | with_reducible apply kept_scrubSram | with_reducible apply kept_wr
      | with_reducible apply kept_scrubStacks | split | dsimp only)

theorem kept_ctxScrub {s0 : State} {s : State} (h : Kept s0 s) : KeptC s0 (ctxScrub s) := by
  unfold ctxScrub
  (try dsimp only); repeat' (first
      | with_reducible assumption | intro _ | with_reducible apply kept_scrubStart | with_reducible exact True.intro
      | simp only [keptC_done, keptC_fail, keptC_long] | split | dsimp only)

theorem kept_scrubEnd {s0 : State} {s : State} {us : Nat} (h : Kept s0 s) : Kept s0 (scrubEnd s us) := by
  unfold scrubEnd
  (try dsimp only); repeat' (first
      | with_reducible assumption | intro _ | with_reducible apply kept_scrubMemory | with_reducible apply kept_wr
      | with_reducible apply kept_teardownCtx | with_reducible apply kept_reclaimCut | simp only [kept_upd]
      | with_reducible refine Kept.foldl ?_ ?_ | with_reducible refine Kept.foldlFst ?_ ?_ | split | dsimp only)

theorem kept_execReclaimCutoff {s : State} {v0 : State} (hu : execReclaimCutoff s = .next v0) : Kept s v0 := by
  have h := Kept.refl s
  unfold execReclaimCutoff at hu
  (repeat' split at hu) <;> first
    | (injection hu with hu; subst hu; (try dsimp only); repeat' (first
        | with_reducible assumption | intro _ | with_reducible apply kept_reclaimCut | with_reducible apply kept_scrubStart
        | with_reducible apply kept_modC | with_reducible apply kept_haltStreams | simp only [kept_upd]
        | with_reducible refine Kept.foldl ?_ ?_ | with_reducible refine Kept.foldlFst ?_ ?_ | split | dsimp only))
    | (cases hu; done)

theorem kept_moveHalf {s0 : State} {s : State} {p h0 : Nat} (h : Kept s0 s) : Kept s0 (moveHalf s p h0) := by
  unfold moveHalf
  (try dsimp only); repeat' (first
      | with_reducible assumption | intro _ | with_reducible apply kept_clearResident | with_reducible apply kept_wr | split
      | dsimp only)

theorem kept_resetStack {s0 : State} {s : State} {k : Nat} (h : Kept s0 s) : Kept s0 (resetStack s k) := by
  unfold resetStack
  (try dsimp only); repeat' (first
      | with_reducible assumption | intro _ | with_reducible apply kept_wr | simp only [kept_upd] | split | dsimp only)

theorem kept_clearPantry {s0 : State} {s : State} {d : Nat} (h : Kept s0 s) : Kept s0 (clearPantry s d) := by
  unfold clearPantry
  (try dsimp only); repeat' (first | with_reducible assumption | intro _ | simp only [kept_upd] | split | dsimp only)

theorem kept_moveUnit {s0 : State} {s : State} {p m : Nat} (h : Kept s0 s) : Kept s0 (moveUnit s p m) := by
  unfold moveUnit
  refine Kept.ite h ?_
  (try dsimp only); repeat' (first
      | with_reducible assumption | intro _ | with_reducible apply kept_repart | with_reducible apply kept_moveHalf
      | with_reducible apply kept_holdReset | with_reducible apply kept_setDie | with_reducible apply kept_bypassClose
      | with_reducible apply kept_clearPantry | with_reducible apply kept_resetStack | with_reducible apply kept_advanceCounters
      | with_reducible apply kept_portTrain | simp only [kept_upd] | with_reducible refine Kept.foldl ?_ ?_
      | with_reducible refine Kept.foldlFst ?_ ?_ | split | dsimp only)

theorem kept_ctxPartition {s0 : State} {s : State} {p : Nat} {units : List Nat} (h : Kept s0 s) : KeptC s0 (ctxPartition s p units) := by
  unfold ctxPartition
  (try dsimp only); repeat' (first
      | with_reducible assumption | intro _ | with_reducible apply kept_moveUnit | with_reducible refine Kept.foldl ?_ ?_
      | with_reducible refine Kept.foldlFst ?_ ?_ | with_reducible exact True.intro
      | simp only [keptC_done, keptC_fail, keptC_long] | split | dsimp only)

theorem kept_ctxBundleOpen {s0 : State} {s : State} {id src dst off : Nat} (h : Kept s0 s) : KeptC s0 (ctxBundleOpen s id src dst off) := by
  unfold ctxBundleOpen
  (try dsimp only); repeat' (first
      | with_reducible assumption | intro _ | simp only [kept_upd] | with_reducible exact True.intro
      | simp only [keptC_done, keptC_fail, keptC_long] | (with_reducible refine Kept.fst (by assumption) ?_)
      | (with_reducible refine Kept.snd (by assumption) ?_) | (with_reducible refine KeptE.get (by assumption) ?_) | split
      | dsimp only)

theorem kept_bundleEnd {s0 : State} {s : State} {id src dst off : Nat} {member unwrapOk tagOk : Bool} {plain : List Byte} (h : Kept s0 s) : Kept s0 (bundleEnd s id src dst off member unwrapOk tagOk plain).1 := by
  unfold bundleEnd
  (try dsimp only); repeat' (first
      | with_reducible assumption | intro _ | with_reducible apply kept_storeRange | with_reducible apply kept_modC
      | simp only [kept_upd] | split | dsimp only)

/-! ### Keys -/

theorem kept_signQuote {s0 : State} {s : State} {who : Option Nat} {nonce : Nat} (h : Kept s0 s) : Kept s0 (signQuote s who nonce) := by
  unfold signQuote
  (try dsimp only); repeat' (first
      | with_reducible assumption | intro _ | with_reducible apply kept_drawBytes | with_reducible apply kept_bumpSnap
      | with_reducible apply kept_modC | simp only [kept_upd] | (with_reducible refine Kept.fst (by assumption) ?_)
      | (with_reducible refine Kept.snd (by assumption) ?_) | (with_reducible refine KeptE.get (by assumption) ?_) | split
      | dsimp only)

theorem kept_quoteNonceWrite {s0 : State} {s : State} {who : Option Nat} {nonce : Nat} (h : Kept s0 s) : KeptE s0 (quoteNonceWrite s who nonce) := by
  unfold quoteNonceWrite
  (try dsimp only); repeat' (first
      | with_reducible assumption | intro _ | with_reducible apply kept_bumpSnap | simp only [kept_upd]
      | with_reducible exact KeptE.error | with_reducible apply KeptE.ok | split | dsimp only)

theorem kept_execQuoteReady {s : State} {v0 : State} (hu : execQuoteReady s = .next v0) : Kept s v0 := by
  have h := Kept.refl s
  unfold execQuoteReady at hu
  (repeat' split at hu) <;> first
    | (injection hu with hu; subst hu; (try dsimp only); repeat' (first
        | with_reducible assumption | intro _ | with_reducible apply kept_signQuote | simp only [kept_upd]
        | (with_reducible refine Kept.fst (by assumption) ?_) | (with_reducible refine Kept.snd (by assumption) ?_)
        | (with_reducible refine KeptE.get (by assumption) ?_) | split | dsimp only))
    | (cases hu; done)

theorem kept_keyWrite {s0 : State} {s : State} {k v : Nat} (h : Kept s0 s) : KeptE s0 (keyWrite s k v) := by
  unfold keyWrite
  (try dsimp only); repeat' (first
      | with_reducible assumption | intro _ | with_reducible apply kept_wrHost | with_reducible exact KeptE.error
      | with_reducible apply KeptE.ok | split | dsimp only)

theorem kept_mgmtEnrolWrite {s0 : State} {s : State} {key : Option Nat} (h : Kept s0 s) : KeptE s0 (mgmtEnrolWrite s key) := by
  unfold mgmtEnrolWrite
  (try dsimp only); repeat' (first
      | with_reducible assumption | intro _ | with_reducible apply kept_bumpSnap | simp only [kept_upd]
      | with_reducible exact KeptE.error | with_reducible apply KeptE.ok | (with_reducible refine Kept.fst (by assumption) ?_)
      | (with_reducible refine Kept.snd (by assumption) ?_) | (with_reducible refine KeptE.get (by assumption) ?_) | split
      | dsimp only)

theorem kept_mgmtNextWrite {s0 : State} {s : State} {key : Option Nat} (h : Kept s0 s) : KeptE s0 (mgmtNextWrite s key) := by
  unfold mgmtNextWrite
  (try dsimp only); repeat' (first
      | with_reducible assumption | intro _ | with_reducible apply kept_bumpSnap | simp only [kept_upd]
      | with_reducible exact KeptE.error | with_reducible apply KeptE.ok | (with_reducible refine Kept.fst (by assumption) ?_)
      | (with_reducible refine Kept.snd (by assumption) ?_) | (with_reducible refine KeptE.get (by assumption) ?_) | split
      | dsimp only)

theorem kept_stopModules {s0 : State} {s : State} {code : Nat} (h : Kept s0 s) : Kept s0 (stopModules s code) := by
  unfold stopModules
  (try dsimp only); repeat' (first
      | with_reducible assumption | intro _ | with_reducible apply kept_modC | with_reducible apply kept_haltStreams
      | simp only [kept_upd] | with_reducible refine Kept.foldl ?_ ?_ | with_reducible refine Kept.foldlFst ?_ ?_ | split
      | dsimp only)

theorem kept_destroyKeys {s0 : State} {s : State} (h : Kept s0 s) : Kept s0 (destroyKeys s) := by
  unfold destroyKeys
  (try dsimp only); repeat' (first
      | with_reducible assumption | intro _ | with_reducible apply kept_modC | with_reducible apply kept_wr | simp only [kept_upd]
      | with_reducible refine Kept.foldl ?_ ?_ | with_reducible refine Kept.foldlFst ?_ ?_ | split | dsimp only)

theorem kept_destroyIdentity {s0 : State} {s : State} (h : Kept s0 s) : Kept s0 (destroyIdentity s) := by
  unfold destroyIdentity
  (try dsimp only); repeat' (first
      | with_reducible assumption | intro _ | with_reducible apply kept_wr | simp only [kept_upd] | split | dsimp only)

theorem kept_zeroiseNow {s0 : State} {s : State} {decom : Bool} (h : Kept s0 s) : Kept s0 (zeroiseNow s decom) := by
  unfold zeroiseNow
  (try dsimp only); repeat' (first
      | with_reducible assumption | intro _ | with_reducible apply kept_stopModules | with_reducible apply kept_setPower
      | with_reducible apply kept_destroyKeys | with_reducible apply kept_setDie | with_reducible apply kept_destroyIdentity
      | simp only [kept_upd] | with_reducible refine Kept.foldl ?_ ?_ | with_reducible refine Kept.foldlFst ?_ ?_ | split
      | dsimp only)

theorem kept_zeroiseWrite {s0 : State} {s : State} {v : Nat} (h : Kept s0 s) : KeptE s0 (zeroiseWrite s v) := by
  unfold zeroiseWrite
  (try dsimp only); repeat' (first
      | with_reducible assumption | intro _ | with_reducible apply kept_bumpSnap | with_reducible apply kept_zeroiseNow
      | with_reducible exact KeptE.error | with_reducible apply KeptE.ok | split | dsimp only)

theorem kept_decommissionWrite {s0 : State} {s : State} {v : Nat} (h : Kept s0 s) : KeptE s0 (decommissionWrite s v) := by
  unfold decommissionWrite
  (try dsimp only); repeat' (first
      | with_reducible assumption | intro _ | with_reducible apply kept_bumpSnap | with_reducible apply kept_zeroiseNow
      | with_reducible exact KeptE.error | with_reducible apply KeptE.ok | split | dsimp only)

theorem kept_debugWrite {s0 : State} {s : State} {v : Nat} (h : Kept s0 s) : KeptE s0 (debugWrite s v) := by
  unfold debugWrite
  (try dsimp only); repeat' (first
      | with_reducible assumption | intro _ | with_reducible apply kept_destroyKeys | with_reducible apply kept_stopModules
      | with_reducible apply kept_bumpSnap | with_reducible apply kept_scrubStart | simp only [kept_upd]
      | with_reducible exact KeptE.error | with_reducible apply KeptE.ok | split | dsimp only)

theorem kept_tamperClearWrite {s0 : State} {s : State} {v : Nat} (h : Kept s0 s) : KeptE s0 (tamperClearWrite s v) := by
  unfold tamperClearWrite
  (try dsimp only); repeat' (first
      | with_reducible assumption | intro _ | with_reducible apply kept_bumpSnap | with_reducible apply kept_wr
      | with_reducible exact KeptE.error | with_reducible apply KeptE.ok | split | dsimp only)

theorem kept_rollbackWrite {s0 : State} {s : State} {v : Nat} (h : Kept s0 s) : KeptE s0 (rollbackWrite s v) := by
  unfold rollbackWrite
  (try dsimp only); repeat' (first
      | with_reducible assumption | intro _ | with_reducible apply kept_bumpSnap | simp only [kept_upd]
      | with_reducible exact KeptE.error | with_reducible apply KeptE.ok | split | dsimp only)

theorem kept_closeWindow {s0 : State} {s : State} (h : Kept s0 s) : Kept s0 (closeWindow s) := by
  unfold closeWindow
  (try dsimp only); repeat' (first | with_reducible assumption | intro _ | simp only [kept_upd] | split | dsimp only)

theorem kept_execPresNRelease {lowMs : Nat} {held : Bool} {s : State} {v0 : State} (hu : execPresNRelease lowMs held s = .next v0) : Kept s v0 := by
  have h := Kept.refl s
  unfold execPresNRelease at hu
  (repeat' split at hu) <;> first
    | (injection hu with hu; subst hu; (try dsimp only); repeat' (first
        | with_reducible assumption | intro _ | simp only [kept_upd] | split | dsimp only))
    | (cases hu; done)

theorem kept_execOwnerEnRelease {s : State} {v0 : State} (hu : execOwnerEnRelease s = .next v0) : Kept s v0 := by
  have h := Kept.refl s
  unfold execOwnerEnRelease at hu
  (repeat' split at hu) <;> first
    | (injection hu with hu; subst hu; (try dsimp only); repeat' (first
        | with_reducible assumption | intro _ | with_reducible apply kept_closeWindow | simp only [kept_upd] | split | dsimp only))
    | (cases hu; done)

theorem kept_execPresenceWindowExpiry {s : State} {v0 : State} (hu : execPresenceWindowExpiry s = .next v0) : Kept s v0 := by
  have h := Kept.refl s
  unfold execPresenceWindowExpiry at hu
  (repeat' split at hu) <;> first
    | (injection hu with hu; subst hu; (try dsimp only); repeat' (first
        | with_reducible assumption | intro _ | with_reducible apply kept_closeWindow | split | dsimp only))
    | (cases hu; done)

theorem kept_execSealReading {ohms : Option Nat} {s : State} {v0 : State} (hu : execSealReading ohms s = .next v0) : Kept s v0 := by
  have h := Kept.refl s
  unfold execSealReading at hu
  (repeat' split at hu) <;> first
    | (injection hu with hu; subst hu; (try dsimp only); repeat' (first
        | with_reducible assumption | intro _ | with_reducible apply kept_wr | with_reducible apply kept_closeWindow
        | simp only [kept_upd] | (with_reducible refine Kept.fst (by assumption) ?_)
        | (with_reducible refine Kept.snd (by assumption) ?_) | (with_reducible refine KeptE.get (by assumption) ?_) | split
        | dsimp only))
    | (cases hu; done)

/-! ### Firmware -/

theorem kept_firmwareRecord {s0 : State} {s : State} {die code : Nat} (h : Kept s0 s) : Kept s0 (firmwareRecord s die code) := by
  unfold firmwareRecord
  (try dsimp only); repeat' (first | with_reducible assumption | intro _ | with_reducible apply kept_logFault | split | dsimp only)

theorem kept_extendMrs {s0 : State} {s : State} {i : Nat} {item : List Byte} (h : Kept s0 s) : Kept s0 (extendMrs s i item) := by
  unfold extendMrs
  (try dsimp only); repeat' (first
      | with_reducible assumption | intro _ | with_reducible apply kept_bumpSnap | simp only [kept_upd] | split | dsimp only)

theorem kept_measureImage {s0 : State} {s : State} {i : Nat} {img : FwImage} (h : Kept s0 s) : Kept s0 (measureImage s i img) := by
  unfold measureImage
  (try dsimp only); repeat' (first
      | with_reducible assumption | intro _ | with_reducible apply kept_drawBytes | with_reducible apply kept_extendMrs | split
      | dsimp only)

theorem kept_bootedFrom {s0 : State} {s : State} {type slot : Nat} {img : FwImage} (h : Kept s0 s) : Kept s0 (bootedFrom s type slot img) := by
  unfold bootedFrom
  (try dsimp only); repeat' (first
      | with_reducible assumption | intro _ | with_reducible apply kept_setSlot | with_reducible apply kept_slot
      | simp only [kept_upd] | split | dsimp only)

theorem kept_bootType {s0 : State} {s : State} {die type : Nat} {images : List FwImage} (h : Kept s0 s) : Kept s0 (bootType s die type images).1 := by
  unfold bootType
  (try dsimp only); repeat' (first
      | with_reducible assumption | intro _ | with_reducible apply kept_slot | with_reducible apply kept_firmwareRecord
      | with_reducible apply kept_bootedFrom | simp only [kept_upd] | with_reducible refine Kept.foldl ?_ ?_
      | with_reducible refine Kept.foldlFst ?_ ?_ | (with_reducible refine Kept.fst (by assumption) ?_)
      | (with_reducible refine Kept.snd (by assumption) ?_) | (with_reducible refine KeptE.get (by assumption) ?_) | split
      | dsimp only)

theorem kept_bootTypes {s0 : State} {s : State} {images : List FwImage} (h : Kept s0 s) : Kept s0 (bootTypes s images).1 := by
  unfold bootTypes
  (try dsimp only); repeat' (first
      | with_reducible assumption | intro _ | with_reducible apply kept_bootType | with_reducible refine Kept.foldl ?_ ?_
      | with_reducible refine Kept.foldlFst ?_ ?_ | split | dsimp only)

theorem kept_bootDies {s0 : State} {s : State} {images : List FwImage} (h : Kept s0 s) : Kept s0 (bootDies s images) := by
  unfold bootDies
  (try dsimp only); repeat' (first
      | with_reducible assumption | intro _ | with_reducible apply kept_bootTypes | with_reducible apply kept_measureImage
      | with_reducible apply kept_dieFail | with_reducible refine Kept.foldl ?_ ?_ | with_reducible refine Kept.foldlFst ?_ ?_
      | split | dsimp only)

theorem kept_setClass {s0 : State} {s : State} (h : Kept s0 s) : Kept s0 (setClass s) := by
  unfold setClass
  (try dsimp only); repeat' (first
      | with_reducible assumption | intro _ | with_reducible apply kept_wr | with_reducible apply kept_drawBytes
      | with_reducible apply kept_extendMrs | split | dsimp only)

theorem kept_stageState {s0 : State} {s : State} {st type code : Nat} (h : Kept s0 s) : Kept s0 (stageState s st type code) := by
  unfold stageState
  (try dsimp only); repeat' (first | with_reducible assumption | intro _ | with_reducible apply kept_wr | split | dsimp only)

theorem kept_stageWrite {s0 : State} {s : State} {v type : Nat} (h : Kept s0 s) : KeptE s0 (stageWrite s v type) := by
  unfold stageWrite
  (try dsimp only); repeat' (first
      | with_reducible assumption | intro _ | with_reducible apply kept_slot | with_reducible apply kept_setSlot
      | with_reducible apply kept_bumpSnap | with_reducible apply kept_stageState | simp only [kept_upd]
      | with_reducible exact KeptE.error | with_reducible apply KeptE.ok | split | dsimp only)

theorem kept_execFwStageVerified {img : FwImage} {s : State} {v0 : State} (hu : execFwStageVerified img s = .next v0) : Kept s v0 := by
  have h := Kept.refl s
  unfold execFwStageVerified at hu
  (repeat' split at hu) <;> first
    | (injection hu with hu; subst hu; (try dsimp only); repeat' (first
        | with_reducible assumption | intro _ | with_reducible apply kept_slot | with_reducible apply kept_stageState
        | with_reducible apply kept_firmwareRecord | with_reducible apply kept_setSlot | simp only [kept_upd]
        | (with_reducible refine Kept.fst (by assumption) ?_) | (with_reducible refine Kept.snd (by assumption) ?_)
        | (with_reducible refine KeptE.get (by assumption) ?_) | split | dsimp only))
    | (cases hu; done)

theorem kept_activateWrite {s0 : State} {s : State} {type : Nat} (h : Kept s0 s) : KeptE s0 (activateWrite s type) := by
  unfold activateWrite
  (try dsimp only); repeat' (first
      | with_reducible assumption | intro _ | with_reducible apply kept_bumpSnap | simp only [kept_upd]
      | with_reducible exact KeptE.error | with_reducible apply KeptE.ok | split | dsimp only)

theorem kept_recoveryWrite {s0 : State} {s : State} {img : FwImage} {length : Nat} (h : Kept s0 s) : KeptE s0 (recoveryWrite s img length) := by
  unfold recoveryWrite
  (try dsimp only); repeat' (first
      | with_reducible assumption | intro _ | with_reducible apply kept_slot | with_reducible apply kept_bumpSnap
      | with_reducible apply kept_setSlot | with_reducible apply kept_firmwareRecord | simp only [kept_upd]
      | with_reducible exact KeptE.error | with_reducible apply KeptE.ok | (with_reducible refine Kept.fst (by assumption) ?_)
      | (with_reducible refine Kept.snd (by assumption) ?_) | (with_reducible refine KeptE.get (by assumption) ?_) | split
      | dsimp only)

theorem kept_execStagedImageBootDone {d : Die} {img : FwImage} {s : State} {v0 : State} (hu : execStagedImageBootDone d img s = .next v0) : Kept s v0 := by
  have h := Kept.refl s
  unfold execStagedImageBootDone at hu
  (repeat' split at hu) <;> first
    | (injection hu with hu; subst hu; (try dsimp only); repeat' (first
        | with_reducible assumption | intro _ | with_reducible apply kept_slot | with_reducible apply kept_measureImage
        | with_reducible apply kept_bootedFrom | with_reducible apply kept_setSlot | with_reducible apply kept_firmwareRecord
        | with_reducible apply kept_dieFail | simp only [kept_upd] | (with_reducible refine Kept.fst (by assumption) ?_)
        | (with_reducible refine Kept.snd (by assumption) ?_) | (with_reducible refine KeptE.get (by assumption) ?_) | split
        | dsimp only))
    | (cases hu; done)

/-! ### Taster -/

theorem kept_setTaster {s0 : State} {s : State} {d : Nat} {t : Taster} (h : Kept s0 s) : Kept s0 (setTaster s d t) := by
  unfold setTaster
  (try dsimp only); repeat' (first | with_reducible assumption | intro _ | simp only [kept_upd] | split | dsimp only)

theorem kept_tasterWrite {s0 : State} {s : State} {die kind unit : Nat} {raise : Bool} {res : Nat} (h : Kept s0 s) : KeptE s0 (tasterWrite s die kind unit raise res) := by
  unfold tasterWrite
  (try dsimp only); repeat' (first
      | with_reducible assumption | intro _ | with_reducible apply kept_bumpSnap | with_reducible apply kept_queueTaster
      | with_reducible exact KeptE.error | with_reducible apply KeptE.ok | split | dsimp only)

theorem kept_flushSlice {s0 : State} {s : State} {k : Nat} (h : Kept s0 s) : Kept s0 (flushSlice s k) := by
  unfold flushSlice
  (try dsimp only); repeat' (first
      | with_reducible assumption | intro _ | with_reducible apply kept_incr | with_reducible apply kept_flushSieves | simp only [kept_upd] | split | dsimp only)

theorem kept_startSlice {s0 : State} {s : State} {d : Nat} {t : Taster} {kind unit : Nat} {requested : Bool} (h : Kept s0 s) : Kept s0 (startSlice s d t kind unit requested) := by
  unfold startSlice
  (try dsimp only); repeat' (first
      | with_reducible assumption | intro _ | with_reducible apply kept_incr | with_reducible apply kept_setTaster
      | with_reducible apply kept_flushSlice | with_reducible apply kept_countEvent | simp only [kept_upd]
      | (with_reducible refine Kept.fst (by assumption) ?_) | (with_reducible refine Kept.snd (by assumption) ?_)
      | (with_reducible refine KeptE.get (by assumption) ?_) | split | dsimp only)

theorem kept_startRequest {s0 : State} {s : State} {d : Nat} {t : Taster} {q : TasterReq} (h : Kept s0 s) : Kept s0 (startRequest s d t q) := by
  unfold startRequest
  (try dsimp only); repeat' (first
      | with_reducible assumption | intro _ | with_reducible apply kept_startDrain | with_reducible apply kept_setTaster
      | with_reducible apply kept_wr | with_reducible apply kept_startSlice | simp only [kept_upd]
      | (with_reducible refine Kept.fst (by assumption) ?_) | (with_reducible refine Kept.snd (by assumption) ?_)
      | (with_reducible refine KeptE.get (by assumption) ?_) | split | dsimp only)

theorem kept_execTasterSliceStart {d : Die} {s : State} {v0 : State} (hu : execTasterSliceStart d s = .next v0) : Kept s v0 := by
  have h := Kept.refl s
  unfold execTasterSliceStart at hu
  (repeat' split at hu) <;> first
    | (injection hu with hu; subst hu; (try dsimp only); repeat' (first
        | with_reducible assumption | intro _ | with_reducible apply kept_startRequest | with_reducible apply kept_startSlice
        | simp only [kept_upd] | (with_reducible refine Kept.fst (by assumption) ?_)
        | (with_reducible refine Kept.snd (by assumption) ?_) | (with_reducible refine KeptE.get (by assumption) ?_) | split
        | dsimp only))
    | (cases hu; done)

theorem kept_sliceRecord {s0 : State} {s : State} {d unit : Nat} (h : Kept s0 s) : Kept s0 (sliceRecord s d unit) := by
  unfold sliceRecord
  (try dsimp only); repeat' (first
      | with_reducible assumption | intro _ | with_reducible apply kept_setTaster | with_reducible apply kept_logFault
      | simp only [kept_upd] | (with_reducible refine Kept.fst (by assumption) ?_)
      | (with_reducible refine Kept.snd (by assumption) ?_) | (with_reducible refine KeptE.get (by assumption) ?_) | split
      | dsimp only)

theorem kept_retireWay {s0 : State} {s : State} {d slice way : Nat} (h : Kept s0 s) : Kept s0 (retireWay s d slice way) := by
  unfold retireWay
  (try dsimp only); repeat' (first
      | with_reducible assumption | intro _ | with_reducible apply kept_setFuses | with_reducible apply kept_degradeDie
      | with_reducible apply kept_logFault | simp only [kept_upd] | split | dsimp only)

theorem kept_retirePage {s0 : State} {s : State} {d : Nat} (h : Kept s0 s) : Kept s0 (retirePage s d) := by
  unfold retirePage
  (try dsimp only); repeat' (first
      | with_reducible assumption | intro _ | with_reducible apply kept_logFault | with_reducible apply kept_incr
      | with_reducible apply kept_degradeDie | split | dsimp only)

theorem kept_retireCluster {s0 : State} {s : State} {d p : Nat} {fence : Bool} (h : Kept s0 s) : Kept s0 (retireCluster s d p fence) := by
  unfold retireCluster
  (try dsimp only); repeat' (first
      | with_reducible assumption | intro _ | with_reducible apply kept_markFailed | with_reducible apply kept_failCluster
      | with_reducible apply kept_applySwap | simp only [kept_upd] | (with_reducible refine Kept.fst (by assumption) ?_)
      | (with_reducible refine Kept.snd (by assumption) ?_) | (with_reducible refine KeptE.get (by assumption) ?_) | split
      | dsimp only)

theorem kept_columnPassed {s0 : State} {s : State} {h0 col : Nat} (h : Kept s0 s) : Kept s0 (columnPassed s h0 col) := by
  unfold columnPassed
  (try dsimp only); repeat' (first
      | with_reducible assumption | intro _ | with_reducible apply kept_clearResident | with_reducible apply kept_wr
      | simp only [kept_upd] | split | dsimp only)

theorem kept_columnFailed {s0 : State} {s : State} {h0 : Nat} (h : Kept s0 s) : Kept s0 (columnFailed s h0) := by
  unfold columnFailed
  (try dsimp only); repeat' (first
      | with_reducible assumption | intro _ | with_reducible apply kept_faultHalf | simp only [kept_upd] | split | dsimp only)

theorem kept_slicePassed {s0 : State} {s : State} {d kind unit flags : Nat} (h : Kept s0 s) : Kept s0 (slicePassed s d kind unit flags) := by
  unfold slicePassed
  (try dsimp only); repeat' (first
      | with_reducible assumption | intro _ | with_reducible apply kept_setFuses | with_reducible apply kept_columnPassed
      | simp only [kept_upd] | (with_reducible refine Kept.fst (by assumption) ?_)
      | (with_reducible refine Kept.snd (by assumption) ?_) | (with_reducible refine KeptE.get (by assumption) ?_) | split
      | dsimp only)

theorem kept_sliceFailed {s0 : State} {s : State} {d kind unit flags : Nat} {failing : List Nat} (h : Kept s0 s) : Kept s0 (sliceFailed s d kind unit flags failing) := by
  unfold sliceFailed
  (try dsimp only); repeat' (first
      | with_reducible assumption | intro _ | with_reducible apply kept_sliceRecord | with_reducible apply kept_incr
      | with_reducible apply kept_haltCtx | with_reducible apply kept_retireCluster | with_reducible apply kept_retireWay
      | with_reducible apply kept_retirePage | with_reducible apply kept_columnFailed | simp only [kept_upd]
      | with_reducible refine Kept.foldl ?_ ?_ | with_reducible refine Kept.foldlFst ?_ ?_
      | (with_reducible refine Kept.fst (by assumption) ?_) | (with_reducible refine Kept.snd (by assumption) ?_)
      | (with_reducible refine KeptE.get (by assumption) ?_) | split | dsimp only)

theorem kept_sliceEnds {s0 : State} {d : Die} {pass : Bool} {failing : List Nat} {s : State} (h : Kept s0 s) : Kept s0 (sliceEnds d pass failing s) := by
  unfold sliceEnds
  (try dsimp only); repeat' (first
      | with_reducible assumption | intro _ | with_reducible apply kept_startAll | with_reducible apply kept_setTaster
      | with_reducible apply kept_slicePassed | with_reducible apply kept_sliceFailed | simp only [kept_upd]
      | (with_reducible refine Kept.fst (by assumption) ?_) | (with_reducible refine Kept.snd (by assumption) ?_)
      | (with_reducible refine KeptE.get (by assumption) ?_) | split | dsimp only)

theorem kept_retireUnits {s0 : State} {s : State} {d : Nat} {failing : List (Nat × Nat)} (h : Kept s0 s) : Kept s0 (retireUnits s d failing) := by
  unfold retireUnits
  (try dsimp only); repeat' (first
      | with_reducible assumption | intro _ | with_reducible apply kept_sliceRecord | with_reducible apply kept_markFailed
      | with_reducible apply kept_retireCluster | with_reducible apply kept_retireWay | with_reducible apply kept_retirePage
      | simp only [kept_upd] | with_reducible refine Kept.foldl ?_ ?_ | with_reducible refine Kept.foldlFst ?_ ?_
      | (with_reducible refine Kept.fst (by assumption) ?_) | (with_reducible refine Kept.snd (by assumption) ?_)
      | (with_reducible refine KeptE.get (by assumption) ?_) | split | dsimp only)

theorem kept_testColumns {s0 : State} {s : State} {d : Nat} {failing : List Nat} (h : Kept s0 s) : Kept s0 (testColumns s d failing) := by
  unfold testColumns
  (try dsimp only); repeat' (first
      | with_reducible assumption | intro _ | with_reducible apply kept_columnFailed | with_reducible apply kept_columnPassed
      | with_reducible refine Kept.foldl ?_ ?_ | with_reducible refine Kept.foldlFst ?_ ?_ | split | dsimp only)

theorem kept_testSpares {s0 : State} {s : State} {d : Nat} (h : Kept s0 s) : Kept s0 (testSpares s d) := by
  unfold testSpares
  (try dsimp only); repeat' (first
      | with_reducible assumption | intro _ | with_reducible apply kept_setFuses | simp only [kept_upd] | split | dsimp only)

theorem kept_fullTested {s0 : State} {s : State} {d : Nat} {failing : List (Nat × Nat)} (h : Kept s0 s) : Kept s0 (fullTested s d failing) := by
  unfold fullTested
  (try dsimp only); repeat' (first
      | with_reducible assumption | intro _ | with_reducible apply kept_testSpares | with_reducible apply kept_retireUnits
      | with_reducible apply kept_testColumns | split | dsimp only)

theorem kept_execFullTestDone {d : Die} {failing : List (Nat × Nat)} {ms : BitVec 32} {s : State} {v0 : State} (hu : execFullTestDone d failing ms s = .next v0) : Kept s v0 := by
  have h := Kept.refl s
  unfold execFullTestDone at hu
  (repeat' split at hu) <;> first
    | (injection hu with hu; subst hu; (try dsimp only); repeat' (first
        | with_reducible assumption | intro _ | with_reducible apply kept_incr | with_reducible apply kept_wr
        | with_reducible apply kept_fullTested | simp only [kept_upd] | split | dsimp only))
    | (cases hu; done)

/-! ### Power -/

theorem kept_execCounterSnapshot {s : State} {v0 : State} (hu : execCounterSnapshot s = .next v0) : Kept s v0 := by
  have h := Kept.refl s
  unfold execCounterSnapshot at hu
  (repeat' split at hu) <;> first
    | (injection hu with hu; subst hu; (try dsimp only); repeat' (first
        | with_reducible assumption | intro _ | simp only [kept_upd] | split | dsimp only))
    | (cases hu; done)

theorem kept_commitBrown {s0 : State} {s : State} (h : Kept s0 s) : Kept s0 (commitBrown s) := by
  unfold commitBrown
  (try dsimp only); repeat' (first
      | with_reducible assumption | intro _ | with_reducible apply kept_bumpSnap | simp only [kept_upd]
      | (with_reducible refine Kept.fst (by assumption) ?_) | (with_reducible refine Kept.snd (by assumption) ?_)
      | (with_reducible refine KeptE.get (by assumption) ?_) | split | dsimp only)

theorem kept_resetEntries {s0 : State} {s : State} {warm : Bool} (h : Kept s0 s) : Kept s0 (resetEntries s warm) := by
  unfold resetEntries
  (try dsimp only); repeat' (first
      | with_reducible assumption | intro _ | with_reducible apply kept_wr | with_reducible refine Kept.foldl ?_ ?_
      | with_reducible refine Kept.foldlFst ?_ ?_ | split | dsimp only)

theorem kept_loseDies {s0 : State} {s : State} {warm : Bool} (h : Kept s0 s) : Kept s0 (loseDies s warm) := by
  unfold loseDies
  (try dsimp only); repeat' (first
      | with_reducible assumption | intro _ | with_reducible apply kept_wr | with_reducible apply kept_setPort
      | simp only [kept_upd] | with_reducible apply Kept.noCtxs | with_reducible refine Kept.foldl ?_ ?_
      | with_reducible refine Kept.foldlFst ?_ ?_ | split | dsimp only)

theorem kept_setDies {s0 : State} {s : State} {v : Nat} (h : Kept s0 s) : Kept s0 (setDies s v) := by
  unfold setDies
  (try dsimp only); repeat' (first
      | with_reducible assumption | intro _ | with_reducible apply kept_setDie | with_reducible refine Kept.foldl ?_ ?_
      | with_reducible refine Kept.foldlFst ?_ ?_ | split | dsimp only)

theorem kept_holdDies {s0 : State} {s : State} (h : Kept s0 s) : Kept s0 (holdDies s) := by
  unfold holdDies
  (try dsimp only); repeat' (first
      | with_reducible assumption | intro _ | with_reducible apply kept_holdLines | with_reducible apply kept_setDies | split
      | dsimp only)

theorem kept_keepCutOff {s0 : State} {s : State} (h : Kept s0 s) : Kept s0 (keepCutOff s) := by
  unfold keepCutOff
  (try dsimp only); repeat' (first
      | with_reducible assumption | intro _ | with_reducible apply kept_setDie | with_reducible apply kept_senseRing
      | with_reducible refine Kept.foldl ?_ ?_ | with_reducible refine Kept.foldlFst ?_ ?_ | split | dsimp only)

theorem kept_sampleStrap {s0 : State} {s : State} (h : Kept s0 s) : Kept s0 (sampleStrap s) := by
  unfold sampleStrap
  (try dsimp only); repeat' (first | with_reducible assumption | intro _ | with_reducible apply kept_wr | split | dsimp only)

theorem kept_drawSysKeys {s0 : State} {s : State} (h : Kept s0 s) : Kept s0 (drawSysKeys s) := by
  unfold drawSysKeys
  (try dsimp only); repeat' (first
      | with_reducible assumption | intro _ | with_reducible apply kept_drawNat | simp only [kept_upd] | split | dsimp only)

theorem kept_beginCold {s0 : State} {s : State} {stage cause : Nat} (h : Kept s0 s) : Kept s0 (beginCold s stage cause) := by
  unfold beginCold
  (try dsimp only); repeat' (first
      | with_reducible assumption | intro _ | with_reducible apply kept_loseDies | with_reducible apply kept_destroyKeys
      | with_reducible apply kept_destroyIdentity | with_reducible apply kept_resetEntries | with_reducible apply kept_setDie
      | with_reducible apply kept_stage | with_reducible apply kept_keepCutOff | with_reducible apply kept_holdLines
      | with_reducible apply kept_setPower | with_reducible apply kept_drawSysKeys | with_reducible apply kept_wr
      | with_reducible apply kept_sampleStrap | simp only [kept_upd] | with_reducible refine Kept.foldl ?_ ?_
      | with_reducible refine Kept.foldlFst ?_ ?_ | (with_reducible refine Kept.fst (by assumption) ?_)
      | (with_reducible refine Kept.snd (by assumption) ?_) | (with_reducible refine KeptE.get (by assumption) ?_) | split
      | dsimp only)

theorem kept_beginWarm {s0 : State} {s : State} {cause : Nat} (h : Kept s0 s) : Kept s0 (beginWarm s cause) := by
  unfold beginWarm
  (try dsimp only); repeat' (first
      | with_reducible assumption | intro _ | with_reducible apply kept_senseRing | with_reducible apply kept_resetEntries
      | with_reducible apply kept_loseDies | with_reducible apply kept_setDie | with_reducible apply kept_holdDies
      | with_reducible apply kept_wr | simp only [kept_upd] | split | dsimp only)

theorem kept_startOp {s0 : State} {s : State} {op : GuarOp} {rest : List GuarOp} (h : Kept s0 s) : Kept s0 (startOp s op rest) := by
  unfold startOp
  (try dsimp only); repeat' (first
      | with_reducible assumption | intro _ | with_reducible apply kept_bypassClose | with_reducible apply kept_loseDies
      | with_reducible apply kept_holdDies | simp only [kept_upd] | (with_reducible refine Kept.fst (by assumption) ?_)
      | (with_reducible refine Kept.snd (by assumption) ?_) | (with_reducible refine KeptE.get (by assumption) ?_) | split
      | dsimp only)

theorem kept_finishOp {s0 : State} {s : State} {op : GuarOp} (h : Kept s0 s) : Kept s0 (finishOp s op) := by
  unfold finishOp
  (try dsimp only); repeat' (first
      | with_reducible assumption | intro _ | with_reducible apply kept_wr | with_reducible apply kept_setPower
      | with_reducible apply kept_holdLines | with_reducible apply kept_setDies | with_reducible apply kept_beginCold
      | with_reducible apply kept_beginWarm | simp only [kept_upd] | (with_reducible refine Kept.fst (by assumption) ?_)
      | (with_reducible refine Kept.snd (by assumption) ?_) | (with_reducible refine KeptE.get (by assumption) ?_) | split
      | dsimp only)

theorem kept_nextOp {s0 : State} {s : State} (h : Kept s0 s) : Kept s0 (nextOp s) := by
  unfold nextOp
  (try dsimp only); repeat' (first
      | with_reducible assumption | intro _ | with_reducible apply kept_beginCold | with_reducible apply kept_startOp
      | simp only [kept_upd] | (with_reducible refine Kept.fst (by assumption) ?_)
      | (with_reducible refine Kept.snd (by assumption) ?_) | (with_reducible refine KeptE.get (by assumption) ?_) | split
      | dsimp only)

theorem kept_requestOp {s0 : State} {s : State} {op : GuarOp} (h : Kept s0 s) : Kept s0 (requestOp s op) := by
  unfold requestOp
  (try dsimp only); repeat' (first
      | with_reducible assumption | intro _ | with_reducible apply kept_startOp | with_reducible apply kept_beginCold
      | simp only [kept_upd] | (with_reducible refine Kept.fst (by assumption) ?_)
      | (with_reducible refine Kept.snd (by assumption) ?_) | (with_reducible refine KeptE.get (by assumption) ?_) | split
      | dsimp only)

theorem kept_execBrownoutSaveDone {s : State} {v0 : State} (hu : execBrownoutSaveDone s = .next v0) : Kept s v0 := by
  have h := Kept.refl s
  unfold execBrownoutSaveDone at hu
  (repeat' split at hu) <;> first
    | (injection hu with hu; subst hu; (try dsimp only); repeat' (first
        | with_reducible assumption | intro _ | with_reducible apply kept_commitBrown | with_reducible apply kept_nextOp
        | with_reducible apply kept_finishOp | simp only [kept_upd] | (with_reducible refine Kept.fst (by assumption) ?_)
        | (with_reducible refine Kept.snd (by assumption) ?_) | (with_reducible refine KeptE.get (by assumption) ?_) | split
        | dsimp only))
    | (cases hu; done)

theorem kept_wenedCmd {s0 : State} {s : State} {k v : Nat} {service : Bool} (h : Kept s0 s) : KeptE s0 (wenedCmd s k v service) := by
  unfold wenedCmd
  (try dsimp only); repeat' (first
      | with_reducible assumption | intro _ | with_reducible apply kept_requestOp | with_reducible apply kept_bumpSnap
      | with_reducible apply kept_bypassClose | simp only [kept_upd] | with_reducible exact KeptE.error
      | with_reducible apply KeptE.ok | (with_reducible refine Kept.fst (by assumption) ?_)
      | (with_reducible refine Kept.snd (by assumption) ?_) | (with_reducible refine KeptE.get (by assumption) ?_) | split
      | dsimp only)

theorem kept_execV52Valid {mv : BitVec 32} {s : State} {v0 : State} (hu : execV52Valid mv s = .next v0) : Kept s v0 := by
  have h := Kept.refl s
  unfold execV52Valid at hu
  (repeat' split at hu) <;> first
    | (injection hu with hu; subst hu; (try dsimp only); repeat' (first
        | with_reducible assumption | intro _ | with_reducible apply kept_wr | with_reducible apply kept_beginCold
        | simp only [kept_upd] | split | dsimp only))
    | (cases hu; done)

theorem kept_execSupplySag {mv : BitVec 32} {s : State} {v0 : State} (hu : execSupplySag mv s = .next v0) : Kept s v0 := by
  have h := Kept.refl s
  unfold execSupplySag at hu
  (repeat' split at hu) <;> first
    | (injection hu with hu; subst hu; (try dsimp only); repeat' (first
        | with_reducible assumption | intro _ | with_reducible apply kept_requestOp | with_reducible apply kept_logFault
        | with_reducible apply kept_wr | split | dsimp only))
    | (cases hu; done)

theorem kept_execHeldExit {valid : Bool} {s : State} {v0 : State} (hu : execHeldExit valid s = .next v0) : Kept s v0 := by
  have h := Kept.refl s
  unfold execHeldExit at hu
  (repeat' split at hu) <;> first
    | (injection hu with hu; subst hu; (try dsimp only); repeat' (first
        | with_reducible assumption | intro _ | with_reducible apply kept_beginCold | with_reducible apply kept_incr
        | simp only [kept_upd] | split | dsimp only))
    | (cases hu; done)

theorem kept_execPowerFault {s : State} {v0 : State} (hu : execPowerFault s = .next v0) : Kept s v0 := by
  have h := Kept.refl s
  unfold execPowerFault at hu
  (repeat' split at hu) <;> first
    | (injection hu with hu; subst hu; (try dsimp only); repeat' (first
        | with_reducible assumption | intro _ | with_reducible apply kept_requestOp | with_reducible apply kept_logFault | split
        | dsimp only))
    | (cases hu; done)

theorem kept_execDieTempReading {d : Die} {t : BitVec 16} {s : State} {v0 : State} (hu : execDieTempReading d t s = .next v0) : Kept s v0 := by
  have h := Kept.refl s
  unfold execDieTempReading at hu
  (repeat' split at hu) <;> first
    | (injection hu with hu; subst hu; (try dsimp only); repeat' (first
        | with_reducible assumption | intro _ | with_reducible apply kept_wr | with_reducible apply kept_incr
        | with_reducible apply kept_logFault | with_reducible apply kept_requestOp | simp only [kept_upd]
        | simp only [keptR_done, keptR_jump, keptR_wait, keptR_halt] | split | dsimp only))
    | (cases hu; done)

theorem kept_clearPll {s0 : State} {s : State} {d : Nat} (h : Kept s0 s) : Kept s0 (clearPll s d) := by
  unfold clearPll
  (try dsimp only); repeat' (first | with_reducible assumption | intro _ | with_reducible apply kept_wr | split | dsimp only)

theorem kept_execWenedPllLost {s : State} {v0 : State} (hu : execWenedPllLost s = .next v0) : Kept s v0 := by
  have h := Kept.refl s
  unfold execWenedPllLost at hu
  (repeat' split at hu) <;> first
    | (injection hu with hu; subst hu; (try dsimp only); repeat' (first
        | with_reducible assumption | intro _ | with_reducible apply kept_wr | with_reducible apply kept_clearPll | split
        | dsimp only))
    | (cases hu; done)

theorem kept_execPllLockLost {d : Die} {s : State} {v0 : State} (hu : execPllLockLost d s = .next v0) : Kept s v0 := by
  have h := Kept.refl s
  unfold execPllLockLost at hu
  (repeat' split at hu) <;> first
    | (injection hu with hu; subst hu; (try dsimp only); repeat' (first
        | with_reducible assumption | intro _ | with_reducible apply kept_wr | with_reducible apply kept_clearPll
        | with_reducible apply kept_logFault | with_reducible apply kept_stopModules | with_reducible apply kept_commitBrown
        | with_reducible apply kept_bypassClose | with_reducible apply kept_loseDies | with_reducible apply kept_holdDies
        | simp only [kept_upd] | split | dsimp only))
    | (cases hu; done)

theorem kept_execPllLockStable {s : State} {v0 : State} (hu : execPllLockStable s = .next v0) : Kept s v0 := by
  have h := Kept.refl s
  unfold execPllLockStable at hu
  (repeat' split at hu) <;> first
    | (injection hu with hu; subst hu; (try dsimp only); repeat' (first
        | with_reducible assumption | intro _ | with_reducible apply kept_beginCold | simp only [kept_upd] | split | dsimp only))
    | (cases hu; done)

theorem kept_execWatchdogExpiry {s : State} {v0 : State} (hu : execWatchdogExpiry s = .next v0) : Kept s v0 := by
  have h := Kept.refl s
  unfold execWatchdogExpiry at hu
  (repeat' split at hu) <;> first
    | (injection hu with hu; subst hu; (try dsimp only); repeat' (first
        | with_reducible assumption | intro _ | with_reducible apply kept_beginCold | with_reducible apply kept_bypassClose
        | with_reducible apply kept_logFault | with_reducible apply kept_drawNat | simp only [kept_upd] | split | dsimp only))
    | (cases hu; done)

theorem kept_execRstNAssert {s : State} {v0 : State} (hu : execRstNAssert s = .next v0) : Kept s v0 := by
  have h := Kept.refl s
  unfold execRstNAssert at hu
  (repeat' split at hu) <;> first
    | (injection hu with hu; subst hu; (try dsimp only); repeat' (first
        | with_reducible assumption | intro _ | with_reducible apply kept_bypassClose | with_reducible apply kept_loseDies
        | with_reducible apply kept_holdDies | simp only [kept_upd] | split | dsimp only))
    | (cases hu; done)

theorem kept_execRstNRelease {s : State} {v0 : State} (hu : execRstNRelease s = .next v0) : Kept s v0 := by
  have h := Kept.refl s
  unfold execRstNRelease at hu
  (repeat' split at hu) <;> first
    | (injection hu with hu; subst hu; (try dsimp only); repeat' (first
        | with_reducible assumption | intro _ | with_reducible apply kept_requestOp | simp only [kept_upd] | split | dsimp only))
    | (cases hu; done)

theorem kept_stagePower {s0 : State} {s : State} {uf mohm : Nat} (h : Kept s0 s) : Kept s0 (stagePower s uf mohm) := by
  unfold stagePower
  (try dsimp only); repeat' (first
      | with_reducible assumption | intro _ | with_reducible apply kept_drawNat | with_reducible apply kept_wr
      | with_reducible apply kept_logFault | split | dsimp only)

theorem kept_stageBoot {s0 : State} {s : State} {images : List FwImage} (h : Kept s0 s) : Kept s0 (stageBoot s images) := by
  unfold stageBoot
  (try dsimp only); repeat' (first
      | with_reducible assumption | intro _ | with_reducible apply kept_bootType | with_reducible apply kept_wr
      | with_reducible apply kept_advanceCounters | with_reducible apply kept_setDie | with_reducible apply kept_measureImage
      | simp only [kept_upd] | (with_reducible refine Kept.fst (by assumption) ?_)
      | (with_reducible refine Kept.snd (by assumption) ?_) | (with_reducible refine KeptE.get (by assumption) ?_) | split
      | dsimp only)

theorem kept_stageDies {s0 : State} {s : State} {images : List FwImage} (h : Kept s0 s) : Kept s0 (stageDies s images) := by
  unfold stageDies
  (try dsimp only); repeat' (first
      | with_reducible assumption | intro _ | with_reducible apply kept_setPower | with_reducible apply kept_wr
      | with_reducible apply kept_holdDies | with_reducible apply kept_releaseDies | with_reducible apply kept_setClass
      | with_reducible apply kept_bootDies | with_reducible apply kept_setDies | split | dsimp only)

theorem kept_stageTest {s0 : State} {s : State} {failing : List Nat} (h : Kept s0 s) : Kept s0 (stageTest s failing) := by
  unfold stageTest
  (try dsimp only); repeat' (first
      | with_reducible assumption | intro _ | with_reducible apply kept_dieFail | with_reducible apply kept_fullTested
      | with_reducible apply kept_wr | with_reducible refine Kept.foldl ?_ ?_ | with_reducible refine Kept.foldlFst ?_ ?_ | split
      | dsimp only)

theorem kept_stageMemory {s0 : State} {s : State} (h : Kept s0 s) : Kept s0 (stageMemory s) := by
  unfold stageMemory
  (try dsimp only); repeat' (first
      | with_reducible assumption | intro _ | with_reducible apply kept_advanceCounters | with_reducible apply kept_setDie
      | with_reducible apply kept_portTrain | with_reducible apply kept_wr | with_reducible refine Kept.foldl ?_ ?_
      | with_reducible refine Kept.foldlFst ?_ ?_ | split | dsimp only)

theorem kept_stageLinks {s0 : State} {s : State} (h : Kept s0 s) : Kept s0 (stageLinks s) := by
  unfold stageLinks
  (try dsimp only); repeat' (first
      | with_reducible assumption | intro _ | with_reducible apply kept_wr | with_reducible apply kept_portDown
      | with_reducible refine Kept.foldl ?_ ?_ | with_reducible refine Kept.foldlFst ?_ ?_ | split | dsimp only)

theorem kept_stageReady {s0 : State} {s : State} (h : Kept s0 s) : Kept s0 (stageReady s) := by
  unfold stageReady
  (try dsimp only); repeat' (first
      | with_reducible assumption | intro _ | with_reducible apply kept_signQuote | with_reducible apply kept_wr
      | with_reducible apply kept_scrubStart | simp only [kept_upd] | split | dsimp only)

theorem kept_execBringupStageComplete {ms : BitVec 32} {uf mohm : BitVec 16} {failing : List Nat} {images : List FwImage} {s : State} {v0 : State} (hu : execBringupStageComplete ms uf mohm failing images s = .next v0) : Kept s v0 := by
  have h := Kept.refl s
  unfold execBringupStageComplete at hu
  (repeat' split at hu) <;> first
    | (injection hu with hu; subst hu; (try dsimp only); repeat' (first
        | with_reducible assumption | intro _ | with_reducible apply kept_wr | with_reducible apply kept_stagePower
        | with_reducible apply kept_stageBoot | with_reducible apply kept_stageDies | with_reducible apply kept_stageTest
        | with_reducible apply kept_stageMemory | with_reducible apply kept_stageLinks | with_reducible apply kept_stageReady
        | simp only [kept_upd] | simp only [keptR_done, keptR_jump, keptR_wait, keptR_halt]
        | (with_reducible refine Kept.fst (by assumption) ?_) | (with_reducible refine Kept.snd (by assumption) ?_)
        | (with_reducible refine KeptE.get (by assumption) ?_) | split | dsimp only))
    | (cases hu; done)

theorem kept_execBringupTimeout {d : Die} {s : State} {v0 : State} (hu : execBringupTimeout d s = .next v0) : Kept s v0 := by
  have h := Kept.refl s
  unfold execBringupTimeout at hu
  (repeat' split at hu) <;> first
    | (injection hu with hu; subst hu; (try dsimp only); repeat' (first
        | with_reducible assumption | intro _ | with_reducible apply kept_holdReset | with_reducible apply kept_setDie
        | with_reducible apply kept_dieLost | with_reducible apply kept_logFault | split | dsimp only))
    | (cases hu; done)

theorem kept_opTargetWrite {s0 : State} {s : State} {v : Nat} (h : Kept s0 s) : KeptE s0 (opTargetWrite s v) := by
  unfold opTargetWrite
  (try dsimp only); repeat' (first
      | with_reducible assumption | intro _ | with_reducible apply kept_wrHost | simp only [kept_upd]
      | with_reducible exact KeptE.error | with_reducible apply KeptE.ok | split | dsimp only)

theorem kept_execSynthLocked {s : State} {v0 : State} (hu : execSynthLocked s = .next v0) : Kept s v0 := by
  have h := Kept.refl s
  unfold execSynthLocked at hu
  (repeat' split at hu) <;> first
    | (injection hu with hu; subst hu; (try dsimp only); repeat' (first
        | with_reducible assumption | intro _ | with_reducible apply kept_settleOp | with_reducible apply kept_switchTargets
        | simp only [kept_upd] | (with_reducible refine Kept.fst (by assumption) ?_)
        | (with_reducible refine Kept.snd (by assumption) ?_) | (with_reducible refine KeptE.get (by assumption) ?_) | split
        | dsimp only))
    | (cases hu; done)

theorem kept_powerCapWrite {s0 : State} {s : State} {v : Nat} (h : Kept s0 s) : KeptE s0 (powerCapWrite s v) := by
  unfold powerCapWrite
  (try dsimp only); repeat' (first
      | with_reducible assumption | intro _ | with_reducible apply kept_wrHost | with_reducible exact KeptE.error
      | with_reducible apply KeptE.ok | split | dsimp only)

theorem kept_execGovernorSample {watts : Nat} {s : State} {v0 : State} (hu : execGovernorSample watts s = .next v0) : Kept s v0 := by
  have h := Kept.refl s
  unfold execGovernorSample at hu
  (repeat' split at hu) <;> first
    | (injection hu with hu; subst hu; (try dsimp only); repeat' (first
        | with_reducible assumption | intro _ | with_reducible apply kept_wr | simp only [kept_upd]
        | with_reducible refine Kept.foldl ?_ ?_ | with_reducible refine Kept.foldlFst ?_ ?_ | split | dsimp only))
    | (cases hu; done)

theorem kept_execGovernorDutyUpdate {d : Fin 16} {s : State} {v0 : State} (hu : execGovernorDutyUpdate d s = .next v0) : Kept s v0 := by
  have h := Kept.refl s
  unfold execGovernorDutyUpdate at hu
  (repeat' split at hu) <;> first
    | (injection hu with hu; subst hu; (try dsimp only); repeat' (first
        | with_reducible assumption | intro _ | with_reducible apply kept_modC | with_reducible apply kept_wr
        | simp only [kept_upd] | (with_reducible refine Kept.fst (by assumption) ?_)
        | (with_reducible refine Kept.snd (by assumption) ?_) | (with_reducible refine KeptE.get (by assumption) ?_) | split
        | dsimp only))
    | (cases hu; done)

theorem kept_applyHalt {s0 : State} {s : State} {id code : Nat} {stream : Option Nat} (h : Kept s0 s) : Kept s0 (applyHalt s id code stream) := by
  unfold applyHalt
  (try dsimp only); repeat' (first
      | with_reducible assumption | intro _ | with_reducible apply kept_modC | with_reducible apply kept_endBusy
      | with_reducible apply kept_settleOp | simp only [kept_upd] | (with_reducible refine Kept.fst (by assumption) ?_)
      | (with_reducible refine Kept.snd (by assumption) ?_) | (with_reducible refine KeptE.get (by assumption) ?_) | split
      | dsimp only)

theorem kept_fenceEnds {s0 : State} {s : State} (h : Kept s0 s) : Kept s0 (fenceEnds s) := by
  unfold fenceEnds
  (try dsimp only); repeat' (first
      | with_reducible assumption | intro _ | with_reducible apply kept_applyRoutes | with_reducible apply kept_flushSieves | with_reducible apply kept_applySwap
      | with_reducible apply kept_haltCtx | with_reducible apply kept_applyHalt | with_reducible apply kept_applyRemap
      | simp only [kept_upd] | (with_reducible refine Kept.fst (by assumption) ?_)
      | (with_reducible refine Kept.snd (by assumption) ?_) | (with_reducible refine KeptE.get (by assumption) ?_) | split
      | dsimp only)

end Sys2Proof.Laws
end

