-- ==== Sys2Proof/Laws/KeptHost.lean ====
section
/-! SUPPORT. `kept_<operation>` and `kept_exec<Row>` for the dictionary, its entry writes, the loader and the host transport. -/

namespace Sys2Proof.Laws

open Sys2Proof Sys2Proof.Machine

set_option linter.all false
set_option linter.unusedSimpArgs false
set_option linter.unnecessarySeqFocus false
set_option linter.unusedTactic false
set_option linter.unreachableTactic false

/-! ### Dict -/

theorem kept_afterWrite {s0 : State} {s : State} {r : DRec} {e : EDesc} {value : List Byte} (h : Kept s0 s) : Kept s0 (afterWrite s r e value) := by
  unfold afterWrite
  (try dsimp only); repeat' (first
      | with_reducible assumption | intro _ | with_reducible apply kept_closeWindow | with_reducible apply kept_extendMrs
      | simp only [kept_upd] | split | dsimp only)

theorem kept_takeSegment {s0 : State} {s : State} {p : Path} {r : DRec} (h : Kept s0 s) : Kept s0 (takeSegment s p r).1 := by
  unfold takeSegment
  (try dsimp only); repeat' (first
      | with_reducible assumption | intro _ | simp only [kept_upd] | (with_reducible refine Kept.fst (by assumption) ?_)
      | (with_reducible refine Kept.snd (by assumption) ?_) | (with_reducible refine KeptE.get (by assumption) ?_) | split
      | dsimp only)

theorem kept_perform {s0 : State} {s : State} {p : Path} {r : DRec} {e : EDesc} {eff : State → List Byte → Except Nat State} (hf : ∀ t bs, Kept s0 t → KeptE s0 (eff t bs)) (h : Kept s0 s) : Kept s0 (perform s p r e eff).1 := by
  unfold perform
  (try dsimp only); repeat' (first
      | with_reducible assumption | intro _ | with_reducible apply kept_takeSegment | with_reducible apply kept_afterWrite
      | with_reducible apply hf | simp only [kept_upd] | (with_reducible refine Kept.fst (by assumption) ?_)
      | (with_reducible refine Kept.snd (by assumption) ?_) | (with_reducible refine KeptE.get (by assumption) ?_) | split
      | dsimp only)

theorem kept_refuse {s0 : State} {s : State} {p : Path} {r : DRec} {code : Nat} (h : Kept s0 s) : Kept s0 (refuse s p r code).1 := by
  unfold refuse
  (try dsimp only); repeat' (first
      | with_reducible assumption | intro _ | with_reducible apply kept_drawNat | simp only [kept_upd]
      | (with_reducible refine Kept.fst (by assumption) ?_) | (with_reducible refine Kept.snd (by assumption) ?_)
      | (with_reducible refine KeptE.get (by assumption) ?_) | split | dsimp only)

theorem kept_answerReq {s0 : State} {s : State} {p : Path} {r : DRec} {eff : State → List Byte → Except Nat State} (hf : ∀ t bs, Kept s0 t → KeptE s0 (eff t bs)) (h : Kept s0 s) : Kept s0 (answerReq s p r eff).1 := by
  unfold answerReq
  (try dsimp only); repeat' (first
      | with_reducible assumption | intro _ | with_reducible apply kept_refuse | with_reducible apply kept_drawNat
      | with_reducible apply kept_perform | with_reducible apply hf | simp only [kept_upd]
      | (with_reducible refine Kept.fst (by assumption) ?_) | (with_reducible refine Kept.snd (by assumption) ?_)
      | (with_reducible refine KeptE.get (by assumption) ?_) | split | dsimp only)

theorem kept_dictServe {s0 : State} {s : State} {p : Path} {r : DRec} {eff : State → List Byte → Except Nat State} (hf : ∀ t bs, Kept s0 t → KeptE s0 (eff t bs)) (h : Kept s0 s) : Kept s0 (dictServe s p r eff).1 := by
  unfold dictServe
  (try dsimp only); repeat' (first
      | with_reducible assumption | intro _ | with_reducible apply kept_answerReq | with_reducible apply kept_incr
      | with_reducible apply hf | split | dsimp only)

theorem kept_sendReply {s0 : State} {s : State} {p : Path} {bs : List Byte} (h : Kept s0 s) : Kept s0 (sendReply s p bs) := by
  unfold sendReply
  (try dsimp only); repeat' (first | with_reducible assumption | intro _ | simp only [kept_upd] | split | dsimp only)

theorem kept_dictRequest {s0 : State} {s : State} {p : Path} {r : DRec} {eff : State → List Byte → Except Nat State} (hf : ∀ t bs, Kept s0 t → KeptE s0 (eff t bs)) (h : Kept s0 s) : Kept s0 (dictRequest s p r eff) := by
  unfold dictRequest
  (try dsimp only); repeat' (first
      | with_reducible assumption | intro _ | with_reducible apply kept_refuse | with_reducible apply kept_sendReply
      | with_reducible apply kept_incr | with_reducible apply kept_dictServe | with_reducible apply hf | split | dsimp only)

/-! ### Writes -/

theorem kept_drawKey {s0 : State} {s : State} (h : Kept s0 s) : Kept s0 (drawKey s).1 := by
  unfold drawKey
  (try dsimp only); repeat' (first | with_reducible assumption | intro _ | with_reducible apply kept_drawNat | split | dsimp only)

theorem kept_flushWrite {s0 : State} {s : State} {v : Nat} (h : Kept s0 s) : KeptE s0 (flushWrite s v) := by
  unfold flushWrite
  (try dsimp only); repeat' (first
      | with_reducible assumption | intro _ | with_reducible apply kept_bumpSnap | with_reducible apply kept_wr
      | simp only [kept_upd] | with_reducible exact KeptE.error | with_reducible apply KeptE.ok | split | dsimp only)

theorem kept_arbWrite {s0 : State} {s : State} {v : Nat} (h : Kept s0 s) : KeptE s0 (arbWrite s v) := by
  unfold arbWrite
  (try dsimp only); repeat' (first
      | with_reducible assumption | intro _ | with_reducible apply kept_wrHost | with_reducible exact KeptE.error
      | with_reducible apply KeptE.ok | split | dsimp only)

theorem kept_loanLost {s0 : State} {s : State} (h : Kept s0 s) : Kept s0 (loanLost s) := by
  unfold loanLost
  (try dsimp only); repeat' (first
      | with_reducible assumption | intro _ | with_reducible apply kept_modC | with_reducible apply kept_endJob
      | simp only [kept_upd] | with_reducible refine Kept.foldl ?_ ?_ | with_reducible refine Kept.foldlFst ?_ ?_ | split
      | dsimp only)

theorem kept_loanWrite {s0 : State} {s : State} {sub v : Nat} (h : Kept s0 s) : KeptE s0 (loanWrite s sub v) := by
  unfold loanWrite
  (try dsimp only); repeat' (first
      | with_reducible assumption | intro _ | with_reducible apply kept_wrHost | with_reducible apply kept_loanLost
      | with_reducible apply kept_drawNat | with_reducible apply kept_lendPages | simp only [kept_upd]
      | with_reducible exact KeptE.error | with_reducible apply KeptE.ok | split | dsimp only)

theorem kept_portEntryWrite {s0 : State} {s : State} {k v : Nat} (h : Kept s0 s) : KeptE s0 (portEntryWrite s k v) := by
  unfold portEntryWrite
  (try dsimp only); repeat' (first
      | with_reducible assumption | intro _ | with_reducible apply kept_wrHost | with_reducible exact KeptE.error
      | with_reducible apply KeptE.ok | split | dsimp only)

theorem kept_replayWrite {s0 : State} {s : State} {k v : Nat} (h : Kept s0 s) : KeptE s0 (replayWrite s k v) := by
  unfold replayWrite
  (try dsimp only); repeat' (first
      | with_reducible assumption | intro _ | with_reducible apply kept_wrHost | with_reducible exact KeptE.error
      | with_reducible apply KeptE.ok | split | dsimp only)

theorem kept_ctxWrite {s0 : State} {s : State} {id k v : Nat} (h : Kept s0 s) : KeptE s0 (ctxWrite s id k v) := by
  unfold ctxWrite
  (try dsimp only); repeat' (first
      | with_reducible assumption | intro _ | with_reducible apply kept_modC | simp only [kept_upd]
      | with_reducible exact KeptE.error | with_reducible apply KeptE.ok | split | dsimp only)

theorem kept_relayWrite {s0 : State} {s : State} {target tag res length : Nat} {bytes : List Byte} (h : Kept s0 s) : KeptE s0 (relayWrite s target tag res length bytes) := by
  unfold relayWrite
  (try dsimp only); repeat' (first
      | with_reducible assumption | intro _ | with_reducible apply kept_sendCtl | with_reducible apply kept_bumpSnap
      | with_reducible exact KeptE.error | with_reducible apply KeptE.ok | split | dsimp only)

theorem kept_restoreWrite {s0 : State} {s : State} {target next : Nat} {cands : List Nat} {held : List (Nat × Nat × Nat × Nat)} (h : Kept s0 s) : KeptE s0 (restoreWrite s target next cands held) := by
  unfold restoreWrite
  (try dsimp only); repeat' (first
      | with_reducible assumption | intro _ | with_reducible apply kept_bumpSnap | with_reducible apply kept_restoreStart
      | with_reducible exact KeptE.error | with_reducible apply KeptE.ok | split | dsimp only)

theorem kept_plainWrite {s0 : State} {s : State} {k v : Nat} (h : Kept s0 s) : KeptE s0 (plainWrite s k v) := by
  unfold plainWrite
  (try dsimp only); repeat' (first
      | with_reducible assumption | intro _ | with_reducible apply kept_wrHost | simp only [kept_upd]
      | with_reducible exact KeptE.error | with_reducible apply KeptE.ok | (with_reducible refine Kept.fst (by assumption) ?_)
      | (with_reducible refine Kept.snd (by assumption) ?_) | (with_reducible refine KeptE.get (by assumption) ?_) | split
      | dsimp only)

theorem kept_writeLow {s0 : State} {s : State} {k v : Nat} {bs : List Byte} (h : Kept s0 s) : KeptE s0 (writeLow s k v bs) := by
  unfold writeLow
  (try dsimp only); repeat' (first
      | with_reducible assumption | intro _ | with_reducible apply kept_wenedCmd | with_reducible apply kept_stageWrite
      | with_reducible apply kept_drawNat | with_reducible apply kept_activateWrite | with_reducible apply kept_recoveryWrite
      | with_reducible apply kept_relayWrite | with_reducible apply kept_opTargetWrite | with_reducible apply kept_powerCapWrite
      | with_reducible apply kept_arbWrite | with_reducible apply kept_portEntryWrite | with_reducible apply kept_loanWrite
      | with_reducible apply kept_plainWrite | simp only [kept_upd] | with_reducible exact KeptE.error
      | with_reducible apply KeptE.ok | (with_reducible refine Kept.fst (by assumption) ?_)
      | (with_reducible refine Kept.snd (by assumption) ?_) | (with_reducible refine KeptE.get (by assumption) ?_) | split
      | dsimp only)

theorem kept_writeMid {s0 : State} {s : State} {k v : Nat} (h : Kept s0 s) : KeptE s0 (writeMid s k v) := by
  unfold writeMid
  (try dsimp only); repeat' (first
      | with_reducible assumption | intro _ | with_reducible apply kept_deviceIdWrite | with_reducible apply kept_routeCommitWrite
      | with_reducible apply kept_systemShapeWrite | with_reducible apply kept_vcArbWrite | with_reducible apply kept_bypassWrite
      | with_reducible apply kept_deadNoticeWrite | with_reducible apply kept_flushWrite | with_reducible apply kept_sdModeWrite
      | with_reducible apply kept_compatWrite | with_reducible apply kept_portCtrlWrite | with_reducible apply kept_routeWrite
      | with_reducible apply kept_plainWrite | simp only [kept_upd] | with_reducible exact KeptE.error
      | with_reducible apply KeptE.ok | (with_reducible refine Kept.fst (by assumption) ?_)
      | (with_reducible refine Kept.snd (by assumption) ?_) | (with_reducible refine KeptE.get (by assumption) ?_) | split
      | dsimp only)

theorem kept_writeHigh {s0 : State} {s : State} {k v : Nat} {who : Option Nat} (h : Kept s0 s) : KeptE s0 (writeHigh s k v who) := by
  unfold writeHigh
  (try dsimp only); repeat' (first
      | with_reducible assumption | intro _ | with_reducible apply kept_rollbackWrite | with_reducible apply kept_quoteNonceWrite
      | with_reducible apply kept_keyWrite | with_reducible apply kept_mgmtEnrolWrite | with_reducible apply kept_drawKey
      | with_reducible apply kept_mgmtNextWrite | with_reducible apply kept_tamperClearWrite
      | with_reducible apply kept_debugWrite | with_reducible apply kept_zeroiseWrite
      | with_reducible apply kept_decommissionWrite | with_reducible apply kept_jobIdWrite
      | with_reducible apply kept_ckptKeyWrite | with_reducible apply kept_buddyDeviceWrite | with_reducible apply kept_drawNat
      | with_reducible apply kept_buddyPartnerWrite | with_reducible apply kept_ckptRequestWrite
      | with_reducible apply kept_restoreWrite | with_reducible apply kept_reclaimWrite | with_reducible apply kept_plainWrite
      | simp only [kept_upd] | with_reducible exact KeptE.error | with_reducible apply KeptE.ok
      | (with_reducible refine Kept.fst (by assumption) ?_) | (with_reducible refine Kept.snd (by assumption) ?_)
      | (with_reducible refine KeptE.get (by assumption) ?_) | split | dsimp only)

theorem kept_writeTop {s0 : State} {s : State} {k v id : Nat} {bs : List Byte} (h : Kept s0 s) : KeptE s0 (writeTop s k v id bs) := by
  unfold writeTop
  (try dsimp only); repeat' (first
      | with_reducible assumption | intro _ | with_reducible apply kept_replayWrite | with_reducible apply kept_ctxWrite
      | with_reducible apply kept_tasterWrite | with_reducible apply kept_psEntryWrite | with_reducible apply kept_psCtrlWrite
      | with_reducible apply kept_plainWrite | with_reducible exact KeptE.error | with_reducible apply KeptE.ok | split
      | dsimp only)

theorem kept_writeEntry {s0 : State} {k id : Nat} {who : Option Nat} {s : State} {bs : List Byte} (h : Kept s0 s) : KeptE s0 (writeEntry k id who s bs) := by
  unfold writeEntry
  (try dsimp only); repeat' (first
      | with_reducible assumption | intro _ | with_reducible apply kept_writeLow | with_reducible apply kept_writeMid
      | with_reducible apply kept_writeHigh | with_reducible apply kept_writeTop | with_reducible exact KeptE.error
      | with_reducible apply KeptE.ok | split | dsimp only)

/-- The effect of the write that a record asks for. -/
theorem kept_recEffect {s0 s : State} {p : Path} {r : DRec} {bs : List Byte} (h : Kept s0 s) : KeptE s0 (recEffect p r s bs) :=
  kept_writeEntry h

theorem kept_execDictRead {p : Path} {rec : DRec} {s : State} {v0 : State} (hu : execDictRead p rec s = .next v0) : Kept s v0 := by
  have h := Kept.refl s
  unfold execDictRead at hu
  (repeat' split at hu) <;> first
    | (injection hu with hu; subst hu; (try dsimp only); repeat' (first
        | with_reducible assumption | intro _ | with_reducible apply kept_dictRequest | with_reducible apply kept_recEffect
        | split | dsimp only))
    | (cases hu; done)

theorem kept_execDictWrite {p : Path} {rec : DRec} {s : State} {v0 : State} (hu : execDictWrite p rec s = .next v0) : Kept s v0 := by
  have h := Kept.refl s
  unfold execDictWrite at hu
  (repeat' split at hu) <;> first
    | (injection hu with hu; subst hu; (try dsimp only); repeat' (first
        | with_reducible assumption | intro _ | with_reducible apply kept_dictRequest | with_reducible apply kept_recEffect
        | split | dsimp only))
    | (cases hu; done)

theorem kept_execDictWriteSegment {p : Path} {rec : DRec} {s : State} {v0 : State} (hu : execDictWriteSegment p rec s = .next v0) : Kept s v0 := by
  have h := Kept.refl s
  unfold execDictWriteSegment at hu
  (repeat' split at hu) <;> first
    | (injection hu with hu; subst hu; (try dsimp only); repeat' (first
        | with_reducible assumption | intro _ | with_reducible apply kept_dictRequest | with_reducible apply kept_recEffect
        | split | dsimp only))
    | (cases hu; done)

theorem kept_execDictDescribe {p : Path} {rec : DRec} {s : State} {v0 : State} (hu : execDictDescribe p rec s = .next v0) : Kept s v0 := by
  have h := Kept.refl s
  unfold execDictDescribe at hu
  (repeat' split at hu) <;> first
    | (injection hu with hu; subst hu; (try dsimp only); repeat' (first
        | with_reducible assumption | intro _ | with_reducible apply kept_dictRequest | with_reducible apply kept_recEffect
        | split | dsimp only))
    | (cases hu; done)

theorem kept_execDictNext {p : Path} {rec : DRec} {s : State} {v0 : State} (hu : execDictNext p rec s = .next v0) : Kept s v0 := by
  have h := Kept.refl s
  unfold execDictNext at hu
  (repeat' split at hu) <;> first
    | (injection hu with hu; subst hu; (try dsimp only); repeat' (first
        | with_reducible assumption | intro _ | with_reducible apply kept_dictRequest | with_reducible apply kept_recEffect
        | split | dsimp only))
    | (cases hu; done)

theorem kept_execSegmentTimeout {s : State} {v0 : State} (hu : execSegmentTimeout s = .next v0) : Kept s v0 := by
  have h := Kept.refl s
  unfold execSegmentTimeout at hu
  (repeat' split at hu) <;> first
    | (injection hu with hu; subst hu; (try dsimp only); repeat' (first
        | with_reducible assumption | intro _ | simp only [kept_upd] | split | dsimp only))
    | (cases hu; done)

theorem kept_rowWrite {s0 : State} {s : State} {r : Req} {k : Nat} {bs : List Byte} {eff : State → Except Nat State} (hf : ∀ t, Kept s0 t → KeptE s0 (eff t)) (h : Kept s0 s) : Kept s0 (rowWrite s r k bs eff) := by
  unfold rowWrite
  (try dsimp only); repeat' (first
      | with_reducible assumption | intro _ | with_reducible apply kept_dictRequest | with_reducible apply hf | split | dsimp only)

theorem kept_execRemoteDeadNotice {r : Req} {v : BitVec 16} {s : State} {v0 : State} (hu : execRemoteDeadNotice r v s = .next v0) : Kept s v0 := by
  have h := Kept.refl s
  unfold execRemoteDeadNotice at hu
  (repeat' split at hu) <;> first
    | (injection hu with hu; subst hu; (try dsimp only); repeat' (first
        | with_reducible assumption | intro _ | with_reducible apply kept_rowWrite | with_reducible apply kept_deadNoticeWrite
        | split | dsimp only))
    | (cases hu; done)

theorem kept_execRouteCommit {r : Req} {e : BitVec 32} {s : State} {v0 : State} (hu : execRouteCommit r e s = .next v0) : Kept s v0 := by
  have h := Kept.refl s
  unfold execRouteCommit at hu
  (repeat' split at hu) <;> first
    | (injection hu with hu; subst hu; (try dsimp only); repeat' (first
        | with_reducible assumption | intro _ | with_reducible apply kept_rowWrite | with_reducible apply kept_routeCommitWrite
        | split | dsimp only))
    | (cases hu; done)

theorem kept_execDeviceId {r : Req} {v : BitVec 16} {s : State} {v0 : State} (hu : execDeviceId r v s = .next v0) : Kept s v0 := by
  have h := Kept.refl s
  unfold execDeviceId at hu
  (repeat' split at hu) <;> first
    | (injection hu with hu; subst hu; (try dsimp only); repeat' (first
        | with_reducible assumption | intro _ | with_reducible apply kept_rowWrite | with_reducible apply kept_deviceIdWrite
        | split | dsimp only))
    | (cases hu; done)

theorem kept_execSystemShape {r : Req} {v : BitVec 32} {s : State} {v0 : State} (hu : execSystemShape r v s = .next v0) : Kept s v0 := by
  have h := Kept.refl s
  unfold execSystemShape at hu
  (repeat' split at hu) <;> first
    | (injection hu with hu; subst hu; (try dsimp only); repeat' (first
        | with_reducible assumption | intro _ | with_reducible apply kept_rowWrite | with_reducible apply kept_systemShapeWrite
        | split | dsimp only))
    | (cases hu; done)

theorem kept_execVcArbSet {r : Req} {v : BitVec 64} {s : State} {v0 : State} (hu : execVcArbSet r v s = .next v0) : Kept s v0 := by
  have h := Kept.refl s
  unfold execVcArbSet at hu
  (repeat' split at hu) <;> first
    | (injection hu with hu; subst hu; (try dsimp only); repeat' (first
        | with_reducible assumption | intro _ | with_reducible apply kept_rowWrite | with_reducible apply kept_vcArbWrite | split
        | dsimp only))
    | (cases hu; done)

theorem kept_execPortDrain {r : Req} {p : Port} {s : State} {v0 : State} (hu : execPortDrain r p s = .next v0) : Kept s v0 := by
  have h := Kept.refl s
  unfold execPortDrain at hu
  (repeat' split at hu) <;> first
    | (injection hu with hu; subst hu; (try dsimp only); repeat' (first
        | with_reducible assumption | intro _ | with_reducible apply kept_rowWrite | with_reducible apply kept_portCtrlWrite
        | split | dsimp only))
    | (cases hu; done)

theorem kept_execPortForceDrain {r : Req} {p : Port} {s : State} {v0 : State} (hu : execPortForceDrain r p s = .next v0) : Kept s v0 := by
  have h := Kept.refl s
  unfold execPortForceDrain at hu
  (repeat' split at hu) <;> first
    | (injection hu with hu; subst hu; (try dsimp only); repeat' (first
        | with_reducible assumption | intro _ | with_reducible apply kept_rowWrite | with_reducible apply kept_portCtrlWrite
        | split | dsimp only))
    | (cases hu; done)

theorem kept_execPortRecal {r : Req} {p : Port} {s : State} {v0 : State} (hu : execPortRecal r p s = .next v0) : Kept s v0 := by
  have h := Kept.refl s
  unfold execPortRecal at hu
  (repeat' split at hu) <;> first
    | (injection hu with hu; subst hu; (try dsimp only); repeat' (first
        | with_reducible assumption | intro _ | with_reducible apply kept_rowWrite | with_reducible apply kept_portCtrlWrite
        | split | dsimp only))
    | (cases hu; done)

theorem kept_execPortReturn {r : Req} {p : Port} {s : State} {v0 : State} (hu : execPortReturn r p s = .next v0) : Kept s v0 := by
  have h := Kept.refl s
  unfold execPortReturn at hu
  (repeat' split at hu) <;> first
    | (injection hu with hu; subst hu; (try dsimp only); repeat' (first
        | with_reducible assumption | intro _ | with_reducible apply kept_rowWrite | with_reducible apply kept_portCtrlWrite
        | split | dsimp only))
    | (cases hu; done)

theorem kept_execPortTest {r : Req} {p : Port} {s : State} {v0 : State} (hu : execPortTest r p s = .next v0) : Kept s v0 := by
  have h := Kept.refl s
  unfold execPortTest at hu
  (repeat' split at hu) <;> first
    | (injection hu with hu; subst hu; (try dsimp only); repeat' (first
        | with_reducible assumption | intro _ | with_reducible apply kept_rowWrite | with_reducible apply kept_portCtrlWrite
        | split | dsimp only))
    | (cases hu; done)

theorem kept_execBypassClose {r : Req} {s : State} {v0 : State} (hu : execBypassClose r s = .next v0) : Kept s v0 := by
  have h := Kept.refl s
  unfold execBypassClose at hu
  (repeat' split at hu) <;> first
    | (injection hu with hu; subst hu; (try dsimp only); repeat' (first
        | with_reducible assumption | intro _ | with_reducible apply kept_rowWrite | with_reducible apply kept_bypassWrite | split
        | dsimp only))
    | (cases hu; done)

theorem kept_execBypassOpen {r : Req} {s : State} {v0 : State} (hu : execBypassOpen r s = .next v0) : Kept s v0 := by
  have h := Kept.refl s
  unfold execBypassOpen at hu
  (repeat' split at hu) <;> first
    | (injection hu with hu; subst hu; (try dsimp only); repeat' (first
        | with_reducible assumption | intro _ | with_reducible apply kept_rowWrite | with_reducible apply kept_bypassWrite | split
        | dsimp only))
    | (cases hu; done)

theorem kept_execPsArm {r : Req} {n : PlantNo} {s : State} {v0 : State} (hu : execPsArm r n s = .next v0) : Kept s v0 := by
  have h := Kept.refl s
  unfold execPsArm at hu
  (repeat' split at hu) <;> first
    | (injection hu with hu; subst hu; (try dsimp only); repeat' (first
        | with_reducible assumption | intro _ | with_reducible apply kept_rowWrite | with_reducible apply kept_psCtrlWrite | split
        | dsimp only))
    | (cases hu; done)

theorem kept_execPsResume {r : Req} {n : PlantNo} {s : State} {v0 : State} (hu : execPsResume r n s = .next v0) : Kept s v0 := by
  have h := Kept.refl s
  unfold execPsResume at hu
  (repeat' split at hu) <;> first
    | (injection hu with hu; subst hu; (try dsimp only); repeat' (first
        | with_reducible assumption | intro _ | with_reducible apply kept_rowWrite | with_reducible apply kept_psCtrlWrite | split
        | dsimp only))
    | (cases hu; done)

theorem kept_execPsStop {r : Req} {n : PlantNo} {s : State} {v0 : State} (hu : execPsStop r n s = .next v0) : Kept s v0 := by
  have h := Kept.refl s
  unfold execPsStop at hu
  (repeat' split at hu) <;> first
    | (injection hu with hu; subst hu; (try dsimp only); repeat' (first
        | with_reducible assumption | intro _ | with_reducible apply kept_rowWrite | with_reducible apply kept_psCtrlWrite | split
        | dsimp only))
    | (cases hu; done)

theorem kept_execXlateCacheFlush {r : Req} {v : BitVec 8} {s : State} {v0 : State} (hu : execXlateCacheFlush r v s = .next v0) : Kept s v0 := by
  have h := Kept.refl s
  unfold execXlateCacheFlush at hu
  (repeat' split at hu) <;> first
    | (injection hu with hu; subst hu; (try dsimp only); repeat' (first
        | with_reducible assumption | intro _ | with_reducible apply kept_rowWrite | with_reducible apply kept_flushWrite | split
        | dsimp only))
    | (cases hu; done)

theorem kept_execArbWeightSet {r : Req} {v : BitVec 32} {s : State} {v0 : State} (hu : execArbWeightSet r v s = .next v0) : Kept s v0 := by
  have h := Kept.refl s
  unfold execArbWeightSet at hu
  (repeat' split at hu) <;> first
    | (injection hu with hu; subst hu; (try dsimp only); repeat' (first
        | with_reducible assumption | intro _ | with_reducible apply kept_rowWrite | with_reducible apply kept_arbWrite | split
        | dsimp only))
    | (cases hu; done)

theorem kept_execSrSeed {r : Req} {v : BitVec 64} {s : State} {v0 : State} (hu : execSrSeed r v s = .next v0) : Kept s v0 := by
  have h := Kept.refl s
  unfold execSrSeed at hu
  (repeat' split at hu) <;> first
    | (injection hu with hu; subst hu; (try dsimp only); repeat' (first
        | with_reducible assumption | intro _ | with_reducible apply kept_rowWrite | with_reducible apply kept_ctxWrite | split
        | dsimp only))
    | (cases hu; done)

theorem kept_execSdMode {r : Req} {die : Fin 2} {v : BitVec 8} {s : State} {v0 : State} (hu : execSdMode r die v s = .next v0) : Kept s v0 := by
  have h := Kept.refl s
  unfold execSdMode at hu
  (repeat' split at hu) <;> first
    | (injection hu with hu; subst hu; (try dsimp only); repeat' (first
        | with_reducible assumption | intro _ | with_reducible apply kept_rowWrite | with_reducible apply kept_sdModeWrite | split
        | dsimp only))
    | (cases hu; done)

theorem kept_execCompatJsn16 {r : Req} {v : BitVec 8} {s : State} {v0 : State} (hu : execCompatJsn16 r v s = .next v0) : Kept s v0 := by
  have h := Kept.refl s
  unfold execCompatJsn16 at hu
  (repeat' split at hu) <;> first
    | (injection hu with hu; subst hu; (try dsimp only); repeat' (first
        | with_reducible assumption | intro _ | with_reducible apply kept_rowWrite | with_reducible apply kept_compatWrite | split
        | dsimp only))
    | (cases hu; done)

theorem kept_execJobId {r : Req} {v : BitVec 64} {s : State} {v0 : State} (hu : execJobId r v s = .next v0) : Kept s v0 := by
  have h := Kept.refl s
  unfold execJobId at hu
  (repeat' split at hu) <;> first
    | (injection hu with hu; subst hu; (try dsimp only); repeat' (first
        | with_reducible assumption | intro _ | with_reducible apply kept_rowWrite | with_reducible apply kept_jobIdWrite | split
        | dsimp only))
    | (cases hu; done)

theorem kept_execBuddyDevice {r : Req} {v : BitVec 16} {s : State} {v0 : State} (hu : execBuddyDevice r v s = .next v0) : Kept s v0 := by
  have h := Kept.refl s
  unfold execBuddyDevice at hu
  (repeat' split at hu) <;> first
    | (injection hu with hu; subst hu; (try dsimp only); repeat' (first
        | with_reducible assumption | intro _ | with_reducible apply kept_rowWrite | with_reducible apply kept_buddyDeviceWrite
        | split | dsimp only))
    | (cases hu; done)

theorem kept_execBuddyPartner {r : Req} {v : BitVec 16} {gradeA : Bool} {job : Nat} {rank : Nat} {s : State} {v0 : State} (hu : execBuddyPartner r v gradeA job rank s = .next v0) : Kept s v0 := by
  have h := Kept.refl s
  unfold execBuddyPartner at hu
  (repeat' split at hu) <;> first
    | (injection hu with hu; subst hu; (try dsimp only); repeat' (first
        | with_reducible assumption | intro _ | with_reducible apply kept_rowWrite | with_reducible apply kept_buddyPartnerWrite
        | split | dsimp only))
    | (cases hu; done)

theorem kept_execCkptRequest {r : Req} {v : BitVec 32} {s : State} {v0 : State} (hu : execCkptRequest r v s = .next v0) : Kept s v0 := by
  have h := Kept.refl s
  unfold execCkptRequest at hu
  (repeat' split at hu) <;> first
    | (injection hu with hu; subst hu; (try dsimp only); repeat' (first
        | with_reducible assumption | intro _ | with_reducible apply kept_rowWrite | with_reducible apply kept_ckptRequestWrite
        | split | dsimp only))
    | (cases hu; done)

theorem kept_execRestoreCmd {r : Req} {target next : BitVec 32} {cands : List Nat} {held : List (Nat × Nat × Nat × Nat)} {s : State} {v0 : State} (hu : execRestoreCmd r target next cands held s = .next v0) : Kept s v0 := by
  have h := Kept.refl s
  unfold execRestoreCmd at hu
  (repeat' split at hu) <;> first
    | (injection hu with hu; subst hu; (try dsimp only); repeat' (first
        | with_reducible assumption | intro _ | with_reducible apply kept_rowWrite | with_reducible apply kept_restoreWrite
        | split | dsimp only))
    | (cases hu; done)

theorem kept_execReclaimStart {r : Req} {v : BitVec 8} {s : State} {v0 : State} (hu : execReclaimStart r v s = .next v0) : Kept s v0 := by
  have h := Kept.refl s
  unfold execReclaimStart at hu
  (repeat' split at hu) <;> first
    | (injection hu with hu; subst hu; (try dsimp only); repeat' (first
        | with_reducible assumption | intro _ | with_reducible apply kept_rowWrite | with_reducible apply kept_reclaimWrite
        | split | dsimp only))
    | (cases hu; done)

theorem kept_execLoanRevoke {r : Req} {sub : Fin 4} {v : BitVec 16} {s : State} {v0 : State} (hu : execLoanRevoke r sub v s = .next v0) : Kept s v0 := by
  have h := Kept.refl s
  unfold execLoanRevoke at hu
  (repeat' split at hu) <;> first
    | (injection hu with hu; subst hu; (try dsimp only); repeat' (first
        | with_reducible assumption | intro _ | with_reducible apply kept_rowWrite | with_reducible apply kept_loanWrite | split
        | dsimp only))
    | (cases hu; done)

theorem kept_execQuoteNonce {r : Req} {nonce : BitVec 512} {s : State} {v0 : State} (hu : execQuoteNonce r nonce s = .next v0) : Kept s v0 := by
  have h := Kept.refl s
  unfold execQuoteNonce at hu
  (repeat' split at hu) <;> first
    | (injection hu with hu; subst hu; (try dsimp only); repeat' (first
        | with_reducible assumption | intro _ | with_reducible apply kept_rowWrite | with_reducible apply kept_quoteNonceWrite
        | split | dsimp only))
    | (cases hu; done)

theorem kept_execOwnerKey {r : Req} {key : Nat} {s : State} {v0 : State} (hu : execOwnerKey r key s = .next v0) : Kept s v0 := by
  have h := Kept.refl s
  unfold execOwnerKey at hu
  (repeat' split at hu) <;> first
    | (injection hu with hu; subst hu; (try dsimp only); repeat' (first
        | with_reducible assumption | intro _ | with_reducible apply kept_rowWrite | with_reducible apply kept_keyWrite | split
        | dsimp only))
    | (cases hu; done)

theorem kept_execFmKey {r : Req} {key : Nat} {s : State} {v0 : State} (hu : execFmKey r key s = .next v0) : Kept s v0 := by
  have h := Kept.refl s
  unfold execFmKey at hu
  (repeat' split at hu) <;> first
    | (injection hu with hu; subst hu; (try dsimp only); repeat' (first
        | with_reducible assumption | intro _ | with_reducible apply kept_rowWrite | with_reducible apply kept_keyWrite | split
        | dsimp only))
    | (cases hu; done)

theorem kept_execMgmtKeyEnrol {r : Req} {key : Option Nat} {s : State} {v0 : State} (hu : execMgmtKeyEnrol r key s = .next v0) : Kept s v0 := by
  have h := Kept.refl s
  unfold execMgmtKeyEnrol at hu
  (repeat' split at hu) <;> first
    | (injection hu with hu; subst hu; (try dsimp only); repeat' (first
        | with_reducible assumption | intro _ | with_reducible apply kept_rowWrite | with_reducible apply kept_drawBytes
        | with_reducible apply kept_mgmtEnrolWrite | split | dsimp only))
    | (cases hu; done)

theorem kept_execMgmtKeyNext {r : Req} {key : Option Nat} {s : State} {v0 : State} (hu : execMgmtKeyNext r key s = .next v0) : Kept s v0 := by
  have h := Kept.refl s
  unfold execMgmtKeyNext at hu
  (repeat' split at hu) <;> first
    | (injection hu with hu; subst hu; (try dsimp only); repeat' (first
        | with_reducible assumption | intro _ | with_reducible apply kept_rowWrite | with_reducible apply kept_drawBytes
        | with_reducible apply kept_mgmtNextWrite | split | dsimp only))
    | (cases hu; done)

theorem kept_execTamperClear {r : Req} {v : BitVec 8} {s : State} {v0 : State} (hu : execTamperClear r v s = .next v0) : Kept s v0 := by
  have h := Kept.refl s
  unfold execTamperClear at hu
  (repeat' split at hu) <;> first
    | (injection hu with hu; subst hu; (try dsimp only); repeat' (first
        | with_reducible assumption | intro _ | with_reducible apply kept_rowWrite | with_reducible apply kept_tamperClearWrite
        | split | dsimp only))
    | (cases hu; done)

theorem kept_execDebugUnlock {r : Req} {v : BitVec 8} {s : State} {v0 : State} (hu : execDebugUnlock r v s = .next v0) : Kept s v0 := by
  have h := Kept.refl s
  unfold execDebugUnlock at hu
  (repeat' split at hu) <;> first
    | (injection hu with hu; subst hu; (try dsimp only); repeat' (first
        | with_reducible assumption | intro _ | with_reducible apply kept_rowWrite | with_reducible apply kept_debugWrite | split
        | dsimp only))
    | (cases hu; done)

theorem kept_execZeroise {r : Req} {v : BitVec 8} {s : State} {v0 : State} (hu : execZeroise r v s = .next v0) : Kept s v0 := by
  have h := Kept.refl s
  unfold execZeroise at hu
  (repeat' split at hu) <;> first
    | (injection hu with hu; subst hu; (try dsimp only); repeat' (first
        | with_reducible assumption | intro _ | with_reducible apply kept_rowWrite | with_reducible apply kept_zeroiseWrite
        | split | dsimp only))
    | (cases hu; done)

theorem kept_execDecommission {r : Req} {v : BitVec 8} {s : State} {v0 : State} (hu : execDecommission r v s = .next v0) : Kept s v0 := by
  have h := Kept.refl s
  unfold execDecommission at hu
  (repeat' split at hu) <;> first
    | (injection hu with hu; subst hu; (try dsimp only); repeat' (first
        | with_reducible assumption | intro _ | with_reducible apply kept_rowWrite | with_reducible apply kept_decommissionWrite
        | split | dsimp only))
    | (cases hu; done)

theorem kept_execRollbackOverride {r : Req} {v : BitVec 8} {s : State} {v0 : State} (hu : execRollbackOverride r v s = .next v0) : Kept s v0 := by
  have h := Kept.refl s
  unfold execRollbackOverride at hu
  (repeat' split at hu) <;> first
    | (injection hu with hu; subst hu; (try dsimp only); repeat' (first
        | with_reducible assumption | intro _ | with_reducible apply kept_rowWrite | with_reducible apply kept_rollbackWrite
        | split | dsimp only))
    | (cases hu; done)

theorem kept_execFwStageSrc {r : Req} {v : BitVec 192} {type : BitVec 8} {s : State} {v0 : State} (hu : execFwStageSrc r v type s = .next v0) : Kept s v0 := by
  have h := Kept.refl s
  unfold execFwStageSrc at hu
  (repeat' split at hu) <;> first
    | (injection hu with hu; subst hu; (try dsimp only); repeat' (first
        | with_reducible assumption | intro _ | with_reducible apply kept_rowWrite | with_reducible apply kept_stageWrite | split
        | dsimp only))
    | (cases hu; done)

theorem kept_execFwActivate {r : Req} {type : BitVec 8} {s : State} {v0 : State} (hu : execFwActivate r type s = .next v0) : Kept s v0 := by
  have h := Kept.refl s
  unfold execFwActivate at hu
  (repeat' split at hu) <;> first
    | (injection hu with hu; subst hu; (try dsimp only); repeat' (first
        | with_reducible assumption | intro _ | with_reducible apply kept_rowWrite | with_reducible apply kept_activateWrite
        | split | dsimp only))
    | (cases hu; done)

theorem kept_execFwRecovery {r : Req} {img : FwImage} {length : Nat} {s : State} {v0 : State} (hu : execFwRecovery r img length s = .next v0) : Kept s v0 := by
  have h := Kept.refl s
  unfold execFwRecovery at hu
  (repeat' split at hu) <;> first
    | (injection hu with hu; subst hu; (try dsimp only); repeat' (first
        | with_reducible assumption | intro _ | with_reducible apply kept_rowWrite | with_reducible apply kept_drawBytes
        | with_reducible apply kept_recoveryWrite | split | dsimp only))
    | (cases hu; done)

theorem kept_cmdWrite {s0 : State} {s : State} {r : Req} {service : Bool} {v : Nat} (h : Kept s0 s) : Kept s0 (cmdWrite s r service v) := by
  unfold cmdWrite
  (try dsimp only); repeat' (first
      | with_reducible assumption | intro _ | with_reducible apply kept_rowWrite | with_reducible apply kept_wenedCmd | split
      | dsimp only)

theorem kept_execWarmReset {r : Req} {service : Bool} {s : State} {v0 : State} (hu : execWarmReset r service s = .next v0) : Kept s v0 := by
  have h := Kept.refl s
  unfold execWarmReset at hu
  (repeat' split at hu) <;> first
    | (injection hu with hu; subst hu; (try dsimp only); repeat' (first
        | with_reducible assumption | intro _ | with_reducible apply kept_cmdWrite | split | dsimp only))
    | (cases hu; done)

theorem kept_execColdReset {r : Req} {service : Bool} {s : State} {v0 : State} (hu : execColdReset r service s = .next v0) : Kept s v0 := by
  have h := Kept.refl s
  unfold execColdReset at hu
  (repeat' split at hu) <;> first
    | (injection hu with hu; subst hu; (try dsimp only); repeat' (first
        | with_reducible assumption | intro _ | with_reducible apply kept_cmdWrite | split | dsimp only))
    | (cases hu; done)

theorem kept_execPowerDown {r : Req} {service : Bool} {s : State} {v0 : State} (hu : execPowerDown r service s = .next v0) : Kept s v0 := by
  have h := Kept.refl s
  unfold execPowerDown at hu
  (repeat' split at hu) <;> first
    | (injection hu with hu; subst hu; (try dsimp only); repeat' (first
        | with_reducible assumption | intro _ | with_reducible apply kept_cmdWrite | split | dsimp only))
    | (cases hu; done)

theorem kept_execServiceBypassClose {r : Req} {s : State} {v0 : State} (hu : execServiceBypassClose r s = .next v0) : Kept s v0 := by
  have h := Kept.refl s
  unfold execServiceBypassClose at hu
  (repeat' split at hu) <;> first
    | (injection hu with hu; subst hu; (try dsimp only); repeat' (first
        | with_reducible assumption | intro _ | with_reducible apply kept_cmdWrite | split | dsimp only))
    | (cases hu; done)

theorem kept_tasterRow {s0 : State} {s : State} {r : Req} {die kind unit : Nat} {raise : Bool} {res : Nat} (h : Kept s0 s) : Kept s0 (tasterRow s r die kind unit raise res) := by
  unfold tasterRow
  (try dsimp only); repeat' (first
      | with_reducible assumption | intro _ | with_reducible apply kept_rowWrite | with_reducible apply kept_tasterWrite | split
      | dsimp only)

theorem kept_execTasterReqCluster {r : Req} {die unit : Nat} {raise : Bool} {res : Nat} {s : State} {v0 : State} (hu : execTasterReqCluster r die unit raise res s = .next v0) : Kept s v0 := by
  have h := Kept.refl s
  unfold execTasterReqCluster at hu
  (repeat' split at hu) <;> first
    | (injection hu with hu; subst hu; (try dsimp only); repeat' (first
        | with_reducible assumption | intro _ | with_reducible apply kept_tasterRow | split | dsimp only))
    | (cases hu; done)

theorem kept_execTasterReqPantry {r : Req} {die unit : Nat} {raise : Bool} {res : Nat} {s : State} {v0 : State} (hu : execTasterReqPantry r die unit raise res s = .next v0) : Kept s v0 := by
  have h := Kept.refl s
  unfold execTasterReqPantry at hu
  (repeat' split at hu) <;> first
    | (injection hu with hu; subst hu; (try dsimp only); repeat' (first
        | with_reducible assumption | intro _ | with_reducible apply kept_tasterRow | split | dsimp only))
    | (cases hu; done)

theorem kept_execTasterReqStack {r : Req} {die unit : Nat} {raise : Bool} {res : Nat} {s : State} {v0 : State} (hu : execTasterReqStack r die unit raise res s = .next v0) : Kept s v0 := by
  have h := Kept.refl s
  unfold execTasterReqStack at hu
  (repeat' split at hu) <;> first
    | (injection hu with hu; subst hu; (try dsimp only); repeat' (first
        | with_reducible assumption | intro _ | with_reducible apply kept_tasterRow | split | dsimp only))
    | (cases hu; done)

theorem kept_execTasterReqSolver {r : Req} {die unit : Nat} {raise : Bool} {res : Nat} {s : State} {v0 : State} (hu : execTasterReqSolver r die unit raise res s = .next v0) : Kept s v0 := by
  have h := Kept.refl s
  unfold execTasterReqSolver at hu
  (repeat' split at hu) <;> first
    | (injection hu with hu; subst hu; (try dsimp only); repeat' (first
        | with_reducible assumption | intro _ | with_reducible apply kept_tasterRow | split | dsimp only))
    | (cases hu; done)

theorem kept_execTasterReqRecal {r : Req} {die unit : Nat} {raise : Bool} {res : Nat} {s : State} {v0 : State} (hu : execTasterReqRecal r die unit raise res s = .next v0) : Kept s v0 := by
  have h := Kept.refl s
  unfold execTasterReqRecal at hu
  (repeat' split at hu) <;> first
    | (injection hu with hu; subst hu; (try dsimp only); repeat' (first
        | with_reducible assumption | intro _ | with_reducible apply kept_tasterRow | split | dsimp only))
    | (cases hu; done)

theorem kept_execTasterReqFullTest {r : Req} {die unit : Nat} {raise : Bool} {res : Nat} {s : State} {v0 : State} (hu : execTasterReqFullTest r die unit raise res s = .next v0) : Kept s v0 := by
  have h := Kept.refl s
  unfold execTasterReqFullTest at hu
  (repeat' split at hu) <;> first
    | (injection hu with hu; subst hu; (try dsimp only); repeat' (first
        | with_reducible assumption | intro _ | with_reducible apply kept_tasterRow | split | dsimp only))
    | (cases hu; done)

theorem kept_execOpTarget {r : Req} {v : BitVec 8} {s : State} {v0 : State} (hu : execOpTarget r v s = .next v0) : Kept s v0 := by
  have h := Kept.refl s
  unfold execOpTarget at hu
  (repeat' split at hu) <;> first
    | (injection hu with hu; subst hu; (try dsimp only); repeat' (first
        | with_reducible assumption | intro _ | with_reducible apply kept_rowWrite | with_reducible apply kept_opTargetWrite
        | split | dsimp only))
    | (cases hu; done)

theorem kept_execRelayTx {r : Req} {target tag res : Nat} {length : Nat} {bytes : List Byte} {s : State} {v0 : State} (hu : execRelayTx r target tag res length bytes s = .next v0) : Kept s v0 := by
  have h := Kept.refl s
  unfold execRelayTx at hu
  (repeat' split at hu) <;> first
    | (injection hu with hu; subst hu; (try dsimp only); repeat' (first
        | with_reducible assumption | intro _ | with_reducible apply kept_rowWrite | with_reducible apply kept_relayWrite | split
        | dsimp only))
    | (cases hu; done)

theorem kept_execRelayReply {src : BitVec 16} {tag : Fin 8} {bytes : List Byte} {s : State} {v0 : State} (hu : execRelayReply src tag bytes s = .next v0) : Kept s v0 := by
  have h := Kept.refl s
  unfold execRelayReply at hu
  (repeat' split at hu) <;> first
    | (injection hu with hu; subst hu; (try dsimp only); repeat' (first
        | with_reducible assumption | intro _ | with_reducible apply kept_wrHost | split | dsimp only))
    | (cases hu; done)

theorem kept_canServe {s0 : State} {s : State} {bs : List Byte} (h : Kept s0 s) : Kept s0 (canServe s bs) := by
  unfold canServe
  (try dsimp only); repeat' (first
      | with_reducible assumption | intro _ | with_reducible apply kept_drawNat | with_reducible apply kept_dictRequest
      | with_reducible apply kept_recEffect | simp only [kept_upd] | split | dsimp only)

theorem kept_canTake {s0 : State} {s : State} {n : Nat} {bs : List Byte} {last : Bool} (h : Kept s0 s) : Kept s0 (canTake s n bs last) := by
  unfold canTake
  (try dsimp only); repeat' (first
      | with_reducible assumption | intro _ | with_reducible apply kept_canServe | simp only [kept_upd] | split | dsimp only)

theorem kept_execCanFrame {ident : Nat} {first last : Bool} {counter : Fin 64} {bytes : List Byte} {s : State} {v0 : State} (hu : execCanFrame ident first last counter bytes s = .next v0) : Kept s v0 := by
  have h := Kept.refl s
  unfold execCanFrame at hu
  (repeat' split at hu) <;> first
    | (injection hu with hu; subst hu; (try dsimp only); repeat' (first
        | with_reducible assumption | intro _ | with_reducible apply kept_incr | with_reducible apply kept_canTake
        | simp only [kept_upd] | (with_reducible refine Kept.fst (by assumption) ?_)
        | (with_reducible refine Kept.snd (by assumption) ?_) | (with_reducible refine KeptE.get (by assumption) ?_) | split
        | dsimp only))
    | (cases hu; done)

theorem kept_execCanGapTimeout {s : State} {v0 : State} (hu : execCanGapTimeout s = .next v0) : Kept s v0 := by
  have h := Kept.refl s
  unfold execCanGapTimeout at hu
  (repeat' split at hu) <;> first
    | (injection hu with hu; subst hu; (try dsimp only); repeat' (first
        | with_reducible assumption | intro _ | with_reducible apply kept_incr | simp only [kept_upd] | split | dsimp only))
    | (cases hu; done)

/-! ### Loader -/

/-! ### Load -/

theorem kept_useCache {s0 : State} {s : State} {id key : Nat} (h : Kept s0 s) : Kept s0 (useCache s id key) := by
  unfold useCache
  (try dsimp only); repeat' (first
      | with_reducible assumption | intro _ | with_reducible apply kept_incr | with_reducible apply kept_setXcache
      | with_reducible apply kept_drawNat | simp only [kept_upd] | (with_reducible refine Kept.fst (by assumption) ?_)
      | (with_reducible refine Kept.snd (by assumption) ?_) | (with_reducible refine KeptE.get (by assumption) ?_) | split
      | dsimp only)

theorem kept_loadCmd {s0 : State} {s : State} {id : Nat} {a : LoadArgs} (h : Kept s0 s) : Kept s0 (loadCmd s id a).1 := by
  unfold loadCmd
  (try dsimp only); repeat' (first
      | with_reducible assumption | intro _ | with_reducible apply kept_dropRemote | with_reducible apply kept_dropFences
      | with_reducible apply kept_dropLadle | with_reducible apply kept_dropSieves | with_reducible apply kept_dropPages
      | with_reducible apply kept_mapContext | with_reducible apply kept_setC | with_reducible apply kept_useCache
      | simp only [kept_upd] | (with_reducible refine Kept.fst (by assumption) ?_)
      | (with_reducible refine Kept.snd (by assumption) ?_) | (with_reducible refine KeptE.get (by assumption) ?_) | split
      | dsimp only)

theorem kept_freshStart {s0 : State} {s : State} {id : Nat} (h : Kept s0 s) : Kept s0 (freshStart s id) := by
  unfold freshStart
  (try dsimp only); repeat' (first
      | with_reducible assumption | intro _ | with_reducible apply kept_storeRange | with_reducible apply kept_setC
      | with_reducible refine Kept.foldl ?_ ?_ | with_reducible refine Kept.foldlFst ?_ ?_ | split | dsimp only)

theorem kept_brownGap {s0 : State} {s : State} {id : Nat} (h : Kept s0 s) : Kept s0 (brownGap s id) := by
  unfold brownGap
  (try dsimp only); repeat' (first
      | with_reducible assumption | intro _ | with_reducible apply kept_drawNat | with_reducible apply kept_incr
      | with_reducible apply kept_putReplay | simp only [kept_upd] | (with_reducible refine Kept.fst (by assumption) ?_)
      | (with_reducible refine Kept.snd (by assumption) ?_) | (with_reducible refine KeptE.get (by assumption) ?_) | split
      | dsimp only)

theorem kept_beginEpoch {s0 : State} {s : State} {id : Nat} (h : Kept s0 s) : Kept s0 (beginEpoch s id) := by
  unfold beginEpoch
  (try dsimp only); repeat' (first
      | with_reducible assumption | intro _ | with_reducible apply kept_wr | with_reducible apply kept_incr
      | with_reducible apply kept_putReplay | with_reducible apply kept_brownGap | simp only [kept_upd] | split | dsimp only)

theorem kept_startRun {s0 : State} {s : State} {id stream : Nat} (h : Kept s0 s) : Kept s0 (startRun s id stream) := by
  unfold startRun
  (try dsimp only); repeat' (first
      | with_reducible assumption | intro _ | with_reducible apply kept_modC | with_reducible apply kept_freshStart
      | with_reducible apply kept_fetchInputs | with_reducible apply kept_beginEpoch | simp only [kept_upd] | split | dsimp only)

theorem kept_launch {s0 : State} {s : State} {id stream : Nat} (h : Kept s0 s) : Kept s0 (launch s id stream).1 := by
  unfold launch
  (try dsimp only); repeat' (first
      | with_reducible assumption | intro _ | with_reducible apply kept_holdRange | with_reducible apply kept_startRun
      | simp only [kept_upd] | (with_reducible refine Kept.fst (by assumption) ?_)
      | (with_reducible refine Kept.snd (by assumption) ?_) | (with_reducible refine KeptE.get (by assumption) ?_) | split
      | dsimp only)

theorem kept_runCmd {s0 : State} {s : State} {id stream : Nat} (h : Kept s0 s) : Kept s0 (runCmd s id stream).1 := by
  unfold runCmd
  (try dsimp only); repeat' (first
      | with_reducible assumption | intro _ | with_reducible apply kept_launch | simp only [kept_upd] | split | dsimp only)

theorem kept_replaySeed {s0 : State} {s : State} {id seed : Nat} (h : Kept s0 s) : Kept s0 (replaySeed s id seed) := by
  unfold replaySeed
  (try dsimp only); repeat' (first
      | with_reducible assumption | intro _ | with_reducible apply kept_modC | simp only [kept_upd] | split | dsimp only)

theorem kept_tryReplay {s0 : State} {s : State} {id stream : Nat} (h : Kept s0 s) : Kept s0 (tryReplay s id stream).1 := by
  unfold tryReplay
  (try dsimp only); repeat' (first
      | with_reducible assumption | intro _ | with_reducible apply kept_launch | with_reducible apply kept_replaySeed
      | simp only [kept_upd] | (with_reducible refine Kept.fst (by assumption) ?_)
      | (with_reducible refine Kept.snd (by assumption) ?_) | (with_reducible refine KeptE.get (by assumption) ?_) | split
      | dsimp only)

theorem kept_haltCmd {s0 : State} {s : State} {id stream mode : Nat} (h : Kept s0 s) : Kept s0 (haltCmd s id stream mode).1 := by
  unfold haltCmd
  (try dsimp only); repeat' (first
      | with_reducible assumption | intro _ | with_reducible apply kept_modC | with_reducible apply kept_haltCtx
      | with_reducible apply kept_drawNat | simp only [kept_upd] | split | dsimp only)

theorem kept_inputCmd {s0 : State} {s : State} {id : Nat} {a : InputArgs} (h : Kept s0 s) : Kept s0 (inputCmd s id a).1 := by
  unfold inputCmd
  (try dsimp only); repeat' (first
      | with_reducible assumption | intro _ | with_reducible apply kept_setC | with_reducible apply kept_fetchInput
      | simp only [kept_upd] | (with_reducible refine Kept.fst (by assumption) ?_)
      | (with_reducible refine Kept.snd (by assumption) ?_) | (with_reducible refine KeptE.get (by assumption) ?_) | split
      | dsimp only)

theorem kept_resendCmd {s0 : State} {s : State} {id decl step : Nat} (h : Kept s0 s) : Kept s0 (resendCmd s id decl step).1 := by
  unfold resendCmd
  (try dsimp only); repeat' (first
      | with_reducible assumption | intro _ | with_reducible apply kept_sendOutput | simp only [kept_upd]
      | (with_reducible refine Kept.fst (by assumption) ?_) | (with_reducible refine Kept.snd (by assumption) ?_)
      | (with_reducible refine KeptE.get (by assumption) ?_) | split | dsimp only)

theorem kept_newKey {s0 : State} {s : State} (h : Kept s0 s) : Kept s0 (newKey s).1 := by
  unfold newKey
  (try dsimp only); repeat' (first | with_reducible assumption | intro _ | with_reducible apply kept_drawNat | split | dsimp only)

theorem kept_regCmd {s0 : State} {s : State} {id : Nat} {a : RegMemArgs} (h : Kept s0 s) : Kept s0 (regCmd s id a).1 := by
  unfold regCmd
  (try dsimp only); repeat' (first
      | with_reducible assumption | intro _ | with_reducible apply kept_newKey | with_reducible apply kept_modC
      | simp only [kept_upd] | (with_reducible refine Kept.fst (by assumption) ?_)
      | (with_reducible refine Kept.snd (by assumption) ?_) | (with_reducible refine KeptE.get (by assumption) ?_) | split
      | dsimp only)

theorem kept_deregCmd {s0 : State} {s : State} {id key : Nat} (h : Kept s0 s) : Kept s0 (deregCmd s id key).1 := by
  unfold deregCmd
  (try dsimp only); repeat' (first
      | with_reducible assumption | intro _ | with_reducible apply kept_modC | simp only [kept_upd]
      | (with_reducible refine Kept.fst (by assumption) ?_) | (with_reducible refine Kept.snd (by assumption) ?_)
      | (with_reducible refine KeptE.get (by assumption) ?_) | split | dsimp only)

theorem kept_bulkCmd {s0 : State} {s : State} {id : Nat} {a : BulkArgs} (h : Kept s0 s) : Kept s0 (bulkCmd s id a).1 := by
  unfold bulkCmd
  (try dsimp only); repeat' (first
      | with_reducible assumption | intro _ | with_reducible apply kept_localDenied | with_reducible apply kept_stackFault
      | with_reducible apply kept_sendRoce | simp only [kept_upd] | (with_reducible refine Kept.fst (by assumption) ?_)
      | (with_reducible refine Kept.snd (by assumption) ?_) | (with_reducible refine KeptE.get (by assumption) ?_) | split
      | dsimp only)

theorem kept_bulkTake {s0 : State} {s : State} {id : Nat} {b : BusyCmd} {a : BulkArgs} {data : List Byte} (h : Kept s0 s) : Kept s0 (bulkTake s id b a data) := by
  unfold bulkTake
  (try dsimp only); repeat' (first
      | with_reducible assumption | intro _ | with_reducible apply kept_logInput | with_reducible apply kept_modC
      | with_reducible apply kept_storeRange | simp only [kept_upd] | split | dsimp only)

theorem kept_entryCmd {s0 : State} {s : State} {p : Path} {r : DRec} (h : Kept s0 s) : Kept s0 (entryCmd s p r).1 := by
  unfold entryCmd
  (try dsimp only); repeat' (first
      | with_reducible assumption | intro _ | with_reducible apply kept_dictServe | with_reducible apply kept_recEffect | split
      | dsimp only)

theorem kept_openCmd {s0 : State} {s : State} {a : OpenArgs} (h : Kept s0 s) : Kept s0 (openCmd s a).1 := by
  unfold openCmd
  (try dsimp only); repeat' (first
      | with_reducible assumption | intro _ | with_reducible apply kept_setStream | simp only [kept_upd]
      | with_reducible refine Kept.foldl ?_ ?_ | with_reducible refine Kept.foldlFst ?_ ?_ | split | dsimp only)

theorem kept_closeCmd {s0 : State} {s : State} {a : CloseArgs} (h : Kept s0 s) : Kept s0 (closeCmd s a).1 := by
  unfold closeCmd
  (try dsimp only); repeat' (first
      | with_reducible assumption | intro _ | with_reducible apply kept_flushStream | with_reducible apply kept_setStream
      | simp only [kept_upd] | with_reducible refine Kept.foldl ?_ ?_ | with_reducible refine Kept.foldlFst ?_ ?_ | split
      | dsimp only)

/-! ### Eth -/

theorem kept_ctxCommand {s0 : State} {s : State} {id : Nat} {c : CtxCmd} (h : Kept s0 s) : KeptC s0 (ctxCommand s id c) := by
  unfold ctxCommand
  (try dsimp only); repeat' (first
      | with_reducible assumption | intro _ | with_reducible apply kept_ctxCreate | with_reducible apply kept_ctxSessionKey
      | with_reducible apply kept_ctxMembers | with_reducible apply kept_ctxBind | with_reducible apply kept_ctxSchedule
      | with_reducible apply kept_ctxBundleOpen | with_reducible apply kept_ctxTeardown | with_reducible apply kept_ctxScrub
      | with_reducible apply kept_ctxPartition | with_reducible apply kept_ctxUnbind | simp only [kept_upd]
      | with_reducible exact True.intro | simp only [keptC_done, keptC_fail, keptC_long]
      | (with_reducible refine Kept.fst (by assumption) ?_) | (with_reducible refine Kept.snd (by assumption) ?_)
      | (with_reducible refine KeptE.get (by assumption) ?_) | split | dsimp only)

/-- The answer to a context command. -/
theorem kept_ofCmdRes {s0 s : State} {r : CmdRes} (h : Kept s0 s) (hr : KeptC s0 r) : Kept s0 (ofCmdRes s r).1 := by
  cases r
  · exact hr
  · exact h
  · exact hr

theorem kept_performCmd {s0 : State} {s : State} {h0 : DgHdr} {c : TCmd} (h : Kept s0 s) : Kept s0 (performCmd s h0 c).1 := by
  unfold performCmd
  (try dsimp only); repeat' (first
      | with_reducible assumption | intro _ | with_reducible apply kept_loadCmd | with_reducible apply kept_runCmd
      | with_reducible apply kept_haltCmd | with_reducible apply kept_inputCmd | with_reducible apply kept_resendCmd
      | with_reducible apply kept_regCmd | with_reducible apply kept_deregCmd | with_reducible apply kept_bulkCmd
      | with_reducible apply kept_entryCmd | with_reducible apply kept_openCmd | with_reducible apply kept_closeCmd
      | with_reducible apply kept_ofCmdRes | with_reducible apply kept_ctxCommand | simp only [kept_upd]
      | (with_reducible refine Kept.fst (by assumption) ?_) | (with_reducible refine Kept.snd (by assumption) ?_)
      | (with_reducible refine KeptE.get (by assumption) ?_) | split | dsimp only)

theorem kept_runSteps {s0 : State} {s : State} {h0 : DgHdr} {c : TCmd} (h : Kept s0 s) : Kept s0 (runSteps s h0 c).1 := by
  unfold runSteps
  (try dsimp only); repeat' (first | with_reducible assumption | intro _ | with_reducible apply kept_performCmd | split | dsimp only)

theorem kept_logCommand {s0 : State} {s : State} {h0 : DgHdr} {c : TCmd} {status : Nat} (h : Kept s0 s) : Kept s0 (logCommand s h0 c status) := by
  unfold logCommand
  (try dsimp only); repeat' (first
      | with_reducible assumption | intro _ | with_reducible apply kept_logInput | simp only [kept_upd] | split | dsimp only)

theorem kept_finishCmd {s0 : State} {s : State} {h0 : DgHdr} {c : TCmd} {e : Nat × Nat × List Byte} (h : Kept s0 s) : Kept s0 (finishCmd s h0 c e) := by
  unfold finishCmd
  (try dsimp only); repeat' (first
      | with_reducible assumption | intro _ | with_reducible apply kept_logCommand | with_reducible apply kept_complete | split
      | dsimp only)

theorem kept_takeSeq {s0 : State} {s : State} {h0 : DgHdr} (h : Kept s0 s) : Kept s0 (takeSeq s h0) := by
  unfold takeSeq
  (try dsimp only); repeat' (first
      | with_reducible assumption | intro _ | with_reducible apply kept_setStream | simp only [kept_upd] | split | dsimp only)

theorem kept_startCmd {s0 : State} {s : State} {h0 : DgHdr} {c : TCmd} (h : Kept s0 s) : Kept s0 (startCmd s h0 c) := by
  unfold startCmd
  (try dsimp only); repeat' (first
      | with_reducible assumption | intro _ | with_reducible apply kept_takeSeq | with_reducible apply kept_complete
      | with_reducible apply kept_runSteps | with_reducible apply kept_finishCmd | simp only [kept_upd]
      | (with_reducible refine Kept.fst (by assumption) ?_) | (with_reducible refine Kept.snd (by assumption) ?_)
      | (with_reducible refine KeptE.get (by assumption) ?_) | split | dsimp only)

/-- A stream takes up the commands that waited. -/
theorem kept_drainStream {s0 s : State} {fuel : Nat} {m : Bool} {id : Nat} (h : Kept s0 s) : Kept s0 (drainStream fuel s m id) := by
  induction fuel generalizing s with
  | zero => exact h
  | succ n ih =>
    unfold drainStream
    split
    · exact h
    · split
      · exact h
      · exact ih (kept_startCmd h)

theorem kept_holdCmd {s0 : State} {s : State} {h0 : DgHdr} {c : TCmd} {pool : Bool} (h : Kept s0 s) : Kept s0 (holdCmd s h0 c pool) := by
  unfold holdCmd
  (try dsimp only); repeat' (first | with_reducible assumption | intro _ | simp only [kept_upd] | split | dsimp only)

theorem kept_resendStored {s0 : State} {s : State} {h0 : DgHdr} (h : Kept s0 s) : Kept s0 (resendStored s h0) := by
  unfold resendStored
  (try dsimp only); repeat' (first
      | with_reducible assumption | intro _ | simp only [kept_upd] | (with_reducible refine Kept.fst (by assumption) ?_)
      | (with_reducible refine Kept.snd (by assumption) ?_) | (with_reducible refine KeptE.get (by assumption) ?_) | split
      | dsimp only)

theorem kept_sequenceCmd {s0 : State} {s : State} {h0 : DgHdr} {c : TCmd} (h : Kept s0 s) : Kept s0 (sequenceCmd s h0 c) := by
  unfold sequenceCmd
  (try dsimp only); repeat' (first
      | with_reducible assumption | intro _ | with_reducible apply kept_incr | with_reducible apply kept_holdCmd
      | with_reducible apply kept_drainStream | with_reducible apply kept_startCmd | with_reducible apply kept_resendStored
      | split | dsimp only)

theorem kept_flushRelay {s0 : State} {s : State} (h : Kept s0 s) : Kept s0 (flushRelay s) := by
  unfold flushRelay
  (try dsimp only); repeat' (first
      | with_reducible assumption | intro _ | with_reducible apply kept_sendCtl | simp only [kept_upd]
      | with_reducible refine Kept.foldl ?_ ?_ | with_reducible refine Kept.foldlFst ?_ ?_
      | (with_reducible refine Kept.fst (by assumption) ?_) | (with_reducible refine Kept.snd (by assumption) ?_)
      | (with_reducible refine KeptE.get (by assumption) ?_) | split | dsimp only)

theorem kept_bootCmd {s0 : State} {s : State} {h0 : DgHdr} {c : TCmd} (h : Kept s0 s) : Kept s0 (bootCmd s h0 c) := by
  unfold bootCmd
  (try dsimp only); repeat' (first
      | with_reducible assumption | intro _ | with_reducible apply kept_runSteps | with_reducible apply kept_finishCmd
      | simp only [kept_upd] | (with_reducible refine Kept.fst (by assumption) ?_)
      | (with_reducible refine Kept.snd (by assumption) ?_) | (with_reducible refine KeptE.get (by assumption) ?_) | split
      | dsimp only)

theorem kept_dgram {s0 : State} {s : State} {h0 : DgHdr} {c : TCmd} (h : Kept s0 s) : Kept s0 (dgram s h0 c) := by
  unfold dgram
  (try dsimp only); repeat' (first
      | with_reducible assumption | intro _ | with_reducible apply kept_flushRelay | with_reducible apply kept_bootCmd
      | with_reducible apply kept_arrive | with_reducible apply kept_sequenceCmd | split | dsimp only)

theorem kept_execCmdNop {h0 : DgHdr} {s : State} {v0 : State} (hu : execCmdNop h0 s = .next v0) : Kept s v0 := by
  have h := Kept.refl s
  unfold execCmdNop at hu
  (repeat' split at hu) <;> first
    | (injection hu with hu; subst hu; (try dsimp only); repeat' (first
        | with_reducible assumption | intro _ | with_reducible apply kept_dgram | split | dsimp only))
    | (cases hu; done)

theorem kept_execLoad {h0 : DgHdr} {a : LoadArgs} {s : State} {v0 : State} (hu : execLoad h0 a s = .next v0) : Kept s v0 := by
  have h := Kept.refl s
  unfold execLoad at hu
  (repeat' split at hu) <;> first
    | (injection hu with hu; subst hu; (try dsimp only); repeat' (first
        | with_reducible assumption | intro _ | with_reducible apply kept_dgram | split | dsimp only))
    | (cases hu; done)

theorem kept_execRun {h0 : DgHdr} {s : State} {v0 : State} (hu : execRun h0 s = .next v0) : Kept s v0 := by
  have h := Kept.refl s
  unfold execRun at hu
  (repeat' split at hu) <;> first
    | (injection hu with hu; subst hu; (try dsimp only); repeat' (first
        | with_reducible assumption | intro _ | with_reducible apply kept_dgram | split | dsimp only))
    | (cases hu; done)

theorem kept_execHaltAtStepPoint {h0 : DgHdr} {res : Nat} {s : State} {v0 : State} (hu : execHaltAtStepPoint h0 res s = .next v0) : Kept s v0 := by
  have h := Kept.refl s
  unfold execHaltAtStepPoint at hu
  (repeat' split at hu) <;> first
    | (injection hu with hu; subst hu; (try dsimp only); repeat' (first
        | with_reducible assumption | intro _ | with_reducible apply kept_dgram | split | dsimp only))
    | (cases hu; done)

theorem kept_execHaltAtOnce {h0 : DgHdr} {res : Nat} {s : State} {v0 : State} (hu : execHaltAtOnce h0 res s = .next v0) : Kept s v0 := by
  have h := Kept.refl s
  unfold execHaltAtOnce at hu
  (repeat' split at hu) <;> first
    | (injection hu with hu; subst hu; (try dsimp only); repeat' (first
        | with_reducible assumption | intro _ | with_reducible apply kept_dgram | split | dsimp only))
    | (cases hu; done)

theorem kept_execInput {h0 : DgHdr} {a : InputArgs} {s : State} {v0 : State} (hu : execInput h0 a s = .next v0) : Kept s v0 := by
  have h := Kept.refl s
  unfold execInput at hu
  (repeat' split at hu) <;> first
    | (injection hu with hu; subst hu; (try dsimp only); repeat' (first
        | with_reducible assumption | intro _ | with_reducible apply kept_dgram | split | dsimp only))
    | (cases hu; done)

theorem kept_execOutputResend {h0 : DgHdr} {decl res step : Nat} {s : State} {v0 : State} (hu : execOutputResend h0 decl res step s = .next v0) : Kept s v0 := by
  have h := Kept.refl s
  unfold execOutputResend at hu
  (repeat' split at hu) <;> first
    | (injection hu with hu; subst hu; (try dsimp only); repeat' (first
        | with_reducible assumption | intro _ | with_reducible apply kept_dgram | split | dsimp only))
    | (cases hu; done)

theorem kept_execRegMem {h0 : DgHdr} {a : RegMemArgs} {s : State} {v0 : State} (hu : execRegMem h0 a s = .next v0) : Kept s v0 := by
  have h := Kept.refl s
  unfold execRegMem at hu
  (repeat' split at hu) <;> first
    | (injection hu with hu; subst hu; (try dsimp only); repeat' (first
        | with_reducible assumption | intro _ | with_reducible apply kept_dgram | split | dsimp only))
    | (cases hu; done)

theorem kept_execDeregMem {h0 : DgHdr} {rKey res : Nat} {s : State} {v0 : State} (hu : execDeregMem h0 rKey res s = .next v0) : Kept s v0 := by
  have h := Kept.refl s
  unfold execDeregMem at hu
  (repeat' split at hu) <;> first
    | (injection hu with hu; subst hu; (try dsimp only); repeat' (first
        | with_reducible assumption | intro _ | with_reducible apply kept_dgram | split | dsimp only))
    | (cases hu; done)

theorem kept_execBulk {h0 : DgHdr} {a : BulkArgs} {s : State} {v0 : State} (hu : execBulk h0 a s = .next v0) : Kept s v0 := by
  have h := Kept.refl s
  unfold execBulk at hu
  (repeat' split at hu) <;> first
    | (injection hu with hu; subst hu; (try dsimp only); repeat' (first
        | with_reducible assumption | intro _ | with_reducible apply kept_dgram | split | dsimp only))
    | (cases hu; done)

theorem kept_execEntryRead {h0 : DgHdr} {r : DRec} {s : State} {v0 : State} (hu : execEntryRead h0 r s = .next v0) : Kept s v0 := by
  have h := Kept.refl s
  unfold execEntryRead at hu
  (repeat' split at hu) <;> first
    | (injection hu with hu; subst hu; (try dsimp only); repeat' (first
        | with_reducible assumption | intro _ | with_reducible apply kept_dgram | split | dsimp only))
    | (cases hu; done)

theorem kept_execEntryWrite {h0 : DgHdr} {r : DRec} {s : State} {v0 : State} (hu : execEntryWrite h0 r s = .next v0) : Kept s v0 := by
  have h := Kept.refl s
  unfold execEntryWrite at hu
  (repeat' split at hu) <;> first
    | (injection hu with hu; subst hu; (try dsimp only); repeat' (first
        | with_reducible assumption | intro _ | with_reducible apply kept_dgram | split | dsimp only))
    | (cases hu; done)

theorem kept_execMgmtEntryRead {h0 : DgHdr} {r : DRec} {s : State} {v0 : State} (hu : execMgmtEntryRead h0 r s = .next v0) : Kept s v0 := by
  have h := Kept.refl s
  unfold execMgmtEntryRead at hu
  (repeat' split at hu) <;> first
    | (injection hu with hu; subst hu; (try dsimp only); repeat' (first
        | with_reducible assumption | intro _ | with_reducible apply kept_dgram | split | dsimp only))
    | (cases hu; done)

theorem kept_execMgmtEntryWrite {h0 : DgHdr} {r : DRec} {s : State} {v0 : State} (hu : execMgmtEntryWrite h0 r s = .next v0) : Kept s v0 := by
  have h := Kept.refl s
  unfold execMgmtEntryWrite at hu
  (repeat' split at hu) <;> first
    | (injection hu with hu; subst hu; (try dsimp only); repeat' (first
        | with_reducible assumption | intro _ | with_reducible apply kept_dgram | split | dsimp only))
    | (cases hu; done)

theorem kept_execStreamOpen {h0 : DgHdr} {a : OpenArgs} {s : State} {v0 : State} (hu : execStreamOpen h0 a s = .next v0) : Kept s v0 := by
  have h := Kept.refl s
  unfold execStreamOpen at hu
  (repeat' split at hu) <;> first
    | (injection hu with hu; subst hu; (try dsimp only); repeat' (first
        | with_reducible assumption | intro _ | with_reducible apply kept_dgram | split | dsimp only))
    | (cases hu; done)

theorem kept_execStreamClose {h0 : DgHdr} {a : CloseArgs} {s : State} {v0 : State} (hu : execStreamClose h0 a s = .next v0) : Kept s v0 := by
  have h := Kept.refl s
  unfold execStreamClose at hu
  (repeat' split at hu) <;> first
    | (injection hu with hu; subst hu; (try dsimp only); repeat' (first
        | with_reducible assumption | intro _ | with_reducible apply kept_dgram | split | dsimp only))
    | (cases hu; done)

theorem kept_execCreate {h0 : DgHdr} {ctx res : Nat} {s : State} {v0 : State} (hu : execCreate h0 ctx res s = .next v0) : Kept s v0 := by
  have h := Kept.refl s
  unfold execCreate at hu
  (repeat' split at hu) <;> first
    | (injection hu with hu; subst hu; (try dsimp only); repeat' (first
        | with_reducible assumption | intro _ | with_reducible apply kept_dgram | split | dsimp only))
    | (cases hu; done)

theorem kept_execSessionKey {h0 : DgHdr} {ctx res : Nat} {key : Option Nat} {s : State} {v0 : State} (hu : execSessionKey h0 ctx res key s = .next v0) : Kept s v0 := by
  have h := Kept.refl s
  unfold execSessionKey at hu
  (repeat' split at hu) <;> first
    | (injection hu with hu; subst hu; (try dsimp only); repeat' (first
        | with_reducible assumption | intro _ | with_reducible apply kept_dgram | split | dsimp only))
    | (cases hu; done)

theorem kept_execMembers {h0 : DgHdr} {ctx res n rank : Nat} {ids : List Nat} {s : State} {v0 : State} (hu : execMembers h0 ctx res n rank ids s = .next v0) : Kept s v0 := by
  have h := Kept.refl s
  unfold execMembers at hu
  (repeat' split at hu) <;> first
    | (injection hu with hu; subst hu; (try dsimp only); repeat' (first
        | with_reducible assumption | intro _ | with_reducible apply kept_dgram | split | dsimp only))
    | (cases hu; done)

theorem kept_execBind {h0 : DgHdr} {ctx res num kind die half : Nat} {s : State} {v0 : State} (hu : execBind h0 ctx res num kind die half s = .next v0) : Kept s v0 := by
  have h := Kept.refl s
  unfold execBind at hu
  (repeat' split at hu) <;> first
    | (injection hu with hu; subst hu; (try dsimp only); repeat' (first
        | with_reducible assumption | intro _ | with_reducible apply kept_dgram | split | dsimp only))
    | (cases hu; done)

theorem kept_execUnbind {h0 : DgHdr} {ctx res num : Nat} {s : State} {v0 : State} (hu : execUnbind h0 ctx res num s = .next v0) : Kept s v0 := by
  have h := Kept.refl s
  unfold execUnbind at hu
  (repeat' split at hu) <;> first
    | (injection hu with hu; subst hu; (try dsimp only); repeat' (first
        | with_reducible assumption | intro _ | with_reducible apply kept_dgram | split | dsimp only))
    | (cases hu; done)

theorem kept_execSchedule {h0 : DgHdr} {ctx res : Nat} {s : State} {v0 : State} (hu : execSchedule h0 ctx res s = .next v0) : Kept s v0 := by
  have h := Kept.refl s
  unfold execSchedule at hu
  (repeat' split at hu) <;> first
    | (injection hu with hu; subst hu; (try dsimp only); repeat' (first
        | with_reducible assumption | intro _ | with_reducible apply kept_dgram | split | dsimp only))
    | (cases hu; done)

theorem kept_execBundleOpen {h0 : DgHdr} {ctx res src dst off : Nat} {s : State} {v0 : State} (hu : execBundleOpen h0 ctx res src dst off s = .next v0) : Kept s v0 := by
  have h := Kept.refl s
  unfold execBundleOpen at hu
  (repeat' split at hu) <;> first
    | (injection hu with hu; subst hu; (try dsimp only); repeat' (first
        | with_reducible assumption | intro _ | with_reducible apply kept_dgram | split | dsimp only))
    | (cases hu; done)

theorem kept_execTeardown {h0 : DgHdr} {ctx res : Nat} {s : State} {v0 : State} (hu : execTeardown h0 ctx res s = .next v0) : Kept s v0 := by
  have h := Kept.refl s
  unfold execTeardown at hu
  (repeat' split at hu) <;> first
    | (injection hu with hu; subst hu; (try dsimp only); repeat' (first
        | with_reducible assumption | intro _ | with_reducible apply kept_dgram | split | dsimp only))
    | (cases hu; done)

theorem kept_execScrub {h0 : DgHdr} {res : Nat} {s : State} {v0 : State} (hu : execScrub h0 res s = .next v0) : Kept s v0 := by
  have h := Kept.refl s
  unfold execScrub at hu
  (repeat' split at hu) <;> first
    | (injection hu with hu; subst hu; (try dsimp only); repeat' (first
        | with_reducible assumption | intro _ | with_reducible apply kept_dgram | split | dsimp only))
    | (cases hu; done)

theorem kept_execPartition {h0 : DgHdr} {res p : Nat} {units : List Nat} {s : State} {v0 : State} (hu : execPartition h0 res p units s = .next v0) : Kept s v0 := by
  have h := Kept.refl s
  unfold execPartition at hu
  (repeat' split at hu) <;> first
    | (injection hu with hu; subst hu; (try dsimp only); repeat' (first
        | with_reducible assumption | intro _ | with_reducible apply kept_dgram | split | dsimp only))
    | (cases hu; done)

theorem kept_execUnassignedOpcode {h0 : DgHdr} {opcode : Nat} {s : State} {v0 : State} (hu : execUnassignedOpcode h0 opcode s = .next v0) : Kept s v0 := by
  have h := Kept.refl s
  unfold execUnassignedOpcode at hu
  (repeat' split at hu) <;> first
    | (injection hu with hu; subst hu; (try dsimp only); repeat' (first
        | with_reducible assumption | intro _ | with_reducible apply kept_dgram | split | dsimp only))
    | (cases hu; done)

theorem kept_execRelayDatagram {h0 : DgHdr} {c : TCmd} {s : State} {v0 : State} (hu : execRelayDatagram h0 c s = .next v0) : Kept s v0 := by
  have h := Kept.refl s
  unfold execRelayDatagram at hu
  (repeat' split at hu) <;> first
    | (injection hu with hu; subst hu; (try dsimp only); repeat' (first
        | with_reducible assumption | intro _ | with_reducible apply kept_dgram | split | dsimp only))
    | (cases hu; done)

theorem kept_execPlantMeas {h0 : DgHdr} {ts : BitVec 64} {count : Nat} {entries : List (Nat × BitVec 64)} {resv : Bool} {s : State} {v0 : State} (hu : execPlantMeas h0 ts count entries resv s = .next v0) : Kept s v0 := by
  have h := Kept.refl s
  unfold execPlantMeas at hu
  (repeat' split at hu) <;> first
    | (injection hu with hu; subst hu; (try dsimp only); repeat' (first
        | with_reducible assumption | intro _ | with_reducible apply kept_arrive | with_reducible apply kept_plantArrive
        | with_reducible apply kept_flushRelay | with_reducible apply kept_sequenceCmd | split | dsimp only))
    | (cases hu; done)

theorem kept_endLong {s0 : State} {s : State} {p : BusyCmd → Bool} {e : Nat × Nat × List Byte} (h : Kept s0 s) : Kept s0 (endLong s p e) := by
  unfold endLong
  (try dsimp only); repeat' (first
      | with_reducible assumption | intro _ | with_reducible apply kept_finishCmd | with_reducible apply kept_flushRelay
      | with_reducible apply kept_drainStream | simp only [kept_upd] | (with_reducible refine Kept.fst (by assumption) ?_)
      | (with_reducible refine Kept.snd (by assumption) ?_) | (with_reducible refine KeptE.get (by assumption) ?_) | split
      | dsimp only)

theorem kept_execTranslationDone {ctx : Fin 4096} {s : State} {v0 : State} (hu : execTranslationDone ctx s = .next v0) : Kept s v0 := by
  have h := Kept.refl s
  unfold execTranslationDone at hu
  (repeat' split at hu) <;> first
    | (injection hu with hu; subst hu; (try dsimp only); repeat' (first
        | with_reducible assumption | intro _ | with_reducible apply kept_endLong | with_reducible apply kept_modC
        | simp only [kept_upd] | split | dsimp only))
    | (cases hu; done)

theorem kept_execBulkDone {stream : Nat} {syndrome : Nat} {data : List Byte} {s : State} {v0 : State} (hu : execBulkDone stream syndrome data s = .next v0) : Kept s v0 := by
  have h := Kept.refl s
  unfold execBulkDone at hu
  (repeat' split at hu) <;> first
    | (injection hu with hu; subst hu; (try dsimp only); repeat' (first
        | with_reducible assumption | intro _ | with_reducible apply kept_endLong | with_reducible apply kept_localDenied
        | with_reducible apply kept_holdRange | with_reducible apply kept_bulkTake | simp only [kept_upd]
        | (with_reducible refine Kept.fst (by assumption) ?_) | (with_reducible refine Kept.snd (by assumption) ?_)
        | (with_reducible refine KeptE.get (by assumption) ?_) | split | dsimp only))
    | (cases hu; done)

theorem kept_retryRun {s0 : State} {s : State} (h : Kept s0 s) : Kept s0 (retryRun s) := by
  unfold retryRun
  (try dsimp only); repeat' (first
      | with_reducible assumption | intro _ | with_reducible apply kept_launch | with_reducible apply kept_endLong
      | simp only [kept_upd] | (with_reducible refine Kept.fst (by assumption) ?_)
      | (with_reducible refine Kept.snd (by assumption) ?_) | (with_reducible refine KeptE.get (by assumption) ?_) | split
      | dsimp only)

theorem kept_execLadleLocalCopy {die : Fin 8} {fault : Bool} {s : State} {v0 : State} (hu : execLadleLocalCopy die fault s = .next v0) : Kept s v0 := by
  have h := Kept.refl s
  unfold execLadleLocalCopy at hu
  (repeat' split at hu) <;> first
    | (injection hu with hu; subst hu; (try dsimp only); repeat' (first
        | with_reducible assumption | intro _ | with_reducible apply kept_retryRun | with_reducible apply kept_ladleCopy | split
        | dsimp only))
    | (cases hu; done)

theorem kept_execQuiesceFenceDone {s : State} {v0 : State} (hu : execQuiesceFenceDone s = .next v0) : Kept s v0 := by
  have h := Kept.refl s
  unfold execQuiesceFenceDone at hu
  (repeat' split at hu) <;> first
    | (injection hu with hu; subst hu; (try dsimp only); repeat' (first
        | with_reducible assumption | intro _ | with_reducible apply kept_retryRun | with_reducible apply kept_fenceEnds | split
        | dsimp only))
    | (cases hu; done)

theorem kept_retryTeardown {s0 : State} {s : State} (h : Kept s0 s) : Kept s0 (retryTeardown s) := by
  unfold retryTeardown
  (try dsimp only); repeat' (first
      | with_reducible assumption | intro _ | with_reducible apply kept_endLong | with_reducible apply kept_teardownCtx
      | with_reducible apply kept_drawNat | simp only [kept_upd] | (with_reducible refine Kept.fst (by assumption) ?_)
      | (with_reducible refine Kept.snd (by assumption) ?_) | (with_reducible refine KeptE.get (by assumption) ?_) | split
      | dsimp only)

theorem kept_execSliceBistDone {d : Die} {pass : Bool} {failing : List Nat} {s : State} {v0 : State} (hu : execSliceBistDone d pass failing s = .next v0) : Kept s v0 := by
  have h := Kept.refl s
  unfold execSliceBistDone at hu
  (repeat' split at hu) <;> first
    | (injection hu with hu; subst hu; (try dsimp only); repeat' (first
        | with_reducible assumption | intro _ | with_reducible apply kept_retryTeardown | with_reducible apply kept_sliceEnds
        | split | dsimp only))
    | (cases hu; done)

theorem kept_execContextSwitchDone {s : State} {v0 : State} (hu : execContextSwitchDone s = .next v0) : Kept s v0 := by
  have h := Kept.refl s
  unfold execContextSwitchDone at hu
  (repeat' split at hu) <;> first
    | (injection hu with hu; subst hu; (try dsimp only); repeat' (first
        | with_reducible assumption | intro _ | with_reducible apply kept_endLong | with_reducible apply kept_applySwitch
        | simp only [kept_upd] | (with_reducible refine Kept.fst (by assumption) ?_)
        | (with_reducible refine Kept.snd (by assumption) ?_) | (with_reducible refine KeptE.get (by assumption) ?_) | split
        | dsimp only))
    | (cases hu; done)

theorem kept_execBundleDecryptDone {member unwrapOk tagOk : Bool} {plain : List Byte} {s : State} {v0 : State} (hu : execBundleDecryptDone member unwrapOk tagOk plain s = .next v0) : Kept s v0 := by
  have h := Kept.refl s
  unfold execBundleDecryptDone at hu
  (repeat' split at hu) <;> first
    | (injection hu with hu; subst hu; (try dsimp only); repeat' (first
        | with_reducible assumption | intro _ | with_reducible apply kept_holdRange | with_reducible apply kept_bundleEnd
        | with_reducible apply kept_endLong | simp only [kept_upd] | (with_reducible refine Kept.fst (by assumption) ?_)
        | (with_reducible refine Kept.snd (by assumption) ?_) | (with_reducible refine KeptE.get (by assumption) ?_) | split
        | dsimp only))
    | (cases hu; done)

theorem kept_execScrubComplete {us : BitVec 32} {s : State} {v0 : State} (hu : execScrubComplete us s = .next v0) : Kept s v0 := by
  have h := Kept.refl s
  unfold execScrubComplete at hu
  (repeat' split at hu) <;> first
    | (injection hu with hu; subst hu; (try dsimp only); repeat' (first
        | with_reducible assumption | intro _ | with_reducible apply kept_endLong | with_reducible apply kept_scrubEnd | split
        | dsimp only))
    | (cases hu; done)

theorem kept_portAnswer {s0 : State} {s : State} {kind v : Nat} (h : Kept s0 s) : Kept s0 (portAnswer s kind v) := by
  unfold portAnswer
  (try dsimp only); repeat' (first | with_reducible assumption | intro _ | simp only [kept_upd] | split | dsimp only)

theorem kept_portFrame {s0 : State} {s : State} {f : State → State} (hf : ∀ t, Kept s0 t → Kept s0 (f t)) (h : Kept s0 s) : Kept s0 (portFrame s f) := by
  unfold portFrame
  (try dsimp only); repeat' (first
      | with_reducible assumption | intro _ | with_reducible apply kept_incr | with_reducible apply hf | split | dsimp only)

theorem kept_setRegBusy {s0 : State} {s : State} {id key : Nat} {b : Bool} (h : Kept s0 s) : Kept s0 (setRegBusy s id key b) := by
  unfold setRegBusy
  (try dsimp only); repeat' (first
      | with_reducible assumption | intro _ | with_reducible apply kept_modC | simp only [kept_upd] | split | dsimp only)

theorem kept_roceWrite {s0 : State} {s : State} {id : Nat} {r : Registration} {offset : Nat} {data : List Byte} (h : Kept s0 s) : Kept s0 (roceWrite s id r offset data) := by
  unfold roceWrite
  (try dsimp only); repeat' (first
      | with_reducible assumption | intro _ | with_reducible apply kept_portAnswer | with_reducible apply kept_localDenied
      | with_reducible apply kept_setRegBusy | with_reducible apply kept_holdRange | with_reducible apply kept_storeRange | split
      | dsimp only)

theorem kept_roceRead {s0 : State} {s : State} {id : Nat} {r : Registration} {offset length : Nat} (h : Kept s0 s) : Kept s0 (roceRead s id r offset length) := by
  unfold roceRead
  (try dsimp only); repeat' (first
      | with_reducible assumption | intro _ | with_reducible apply kept_portAnswer | with_reducible apply kept_localDenied
      | with_reducible apply kept_stackFault | with_reducible apply kept_sendRoce | split | dsimp only)

theorem kept_execRoceRequest {rKey : Nat} {write : Bool} {offset length : Nat} {data : List Byte} {s : State} {v0 : State} (hu : execRoceRequest rKey write offset length data s = .next v0) : Kept s v0 := by
  have h := Kept.refl s
  unfold execRoceRequest at hu
  (repeat' split at hu) <;> first
    | (injection hu with hu; subst hu; (try dsimp only); repeat' (first
        | with_reducible assumption | intro _ | with_reducible apply kept_portFrame | with_reducible apply kept_portAnswer
        | with_reducible apply kept_roceWrite | with_reducible apply kept_roceRead | simp only [kept_upd]
        | (with_reducible refine Kept.fst (by assumption) ?_) | (with_reducible refine Kept.snd (by assumption) ?_)
        | (with_reducible refine KeptE.get (by assumption) ?_) | split | dsimp only))
    | (cases hu; done)

theorem kept_execRoceAtomic {_qp : Nat} {s : State} {v0 : State} (hu : execRoceAtomic _qp s = .next v0) : Kept s v0 := by
  have h := Kept.refl s
  unfold execRoceAtomic at hu
  (repeat' split at hu) <;> first
    | (injection hu with hu; subst hu; (try dsimp only); repeat' (first
        | with_reducible assumption | intro _ | with_reducible apply kept_portFrame | with_reducible apply kept_portAnswer | split
        | dsimp only))
    | (cases hu; done)

theorem kept_execRoceCnp {qp : Nat} {s : State} {v0 : State} (hu : execRoceCnp qp s = .next v0) : Kept s v0 := by
  have h := Kept.refl s
  unfold execRoceCnp at hu
  (repeat' split at hu) <;> first
    | (injection hu with hu; subst hu; (try dsimp only); repeat' (first
        | with_reducible assumption | intro _ | with_reducible apply kept_portFrame | with_reducible apply kept_drawNat
        | simp only [kept_upd] | split | dsimp only))
    | (cases hu; done)

theorem kept_execArpRequest {addr : BitVec 32} {s : State} {v0 : State} (hu : execArpRequest addr s = .next v0) : Kept s v0 := by
  have h := Kept.refl s
  unfold execArpRequest at hu
  (repeat' split at hu) <;> first
    | (injection hu with hu; subst hu; (try dsimp only); repeat' (first
        | with_reducible assumption | intro _ | with_reducible apply kept_portFrame | with_reducible apply kept_portAnswer | split
        | dsimp only))
    | (cases hu; done)

theorem kept_execNeighbourSolicit {addr : BitVec 128} {s : State} {v0 : State} (hu : execNeighbourSolicit addr s = .next v0) : Kept s v0 := by
  have h := Kept.refl s
  unfold execNeighbourSolicit at hu
  (repeat' split at hu) <;> first
    | (injection hu with hu; subst hu; (try dsimp only); repeat' (first
        | with_reducible assumption | intro _ | with_reducible apply kept_portFrame | with_reducible apply kept_portAnswer | split
        | dsimp only))
    | (cases hu; done)

theorem kept_execIcmpEcho {v6 : Bool} {addr : BitVec 128} {ident : Nat} {s : State} {v0 : State} (hu : execIcmpEcho v6 addr ident s = .next v0) : Kept s v0 := by
  have h := Kept.refl s
  unfold execIcmpEcho at hu
  (repeat' split at hu) <;> first
    | (injection hu with hu; subst hu; (try dsimp only); repeat' (first
        | with_reducible assumption | intro _ | with_reducible apply kept_portFrame | with_reducible apply kept_portAnswer | split
        | dsimp only))
    | (cases hu; done)

theorem kept_execEthFrameDiscard {s : State} {v0 : State} (hu : execEthFrameDiscard s = .next v0) : Kept s v0 := by
  have h := Kept.refl s
  unfold execEthFrameDiscard at hu
  (repeat' split at hu) <;> first
    | (injection hu with hu; subst hu; (try dsimp only); repeat' (first
        | with_reducible assumption | intro _ | with_reducible apply kept_portFrame | split | dsimp only))
    | (cases hu; done)

theorem kept_execEthLinkChange {up : Bool} {s : State} {v0 : State} (hu : execEthLinkChange up s = .next v0) : Kept s v0 := by
  have h := Kept.refl s
  unfold execEthLinkChange at hu
  (repeat' split at hu) <;> first
    | (injection hu with hu; subst hu; (try dsimp only); repeat' (first
        | with_reducible assumption | intro _ | with_reducible apply kept_wr | split | dsimp only))
    | (cases hu; done)

theorem kept_execPfcPause {prio : Fin 8} {quanta : BitVec 16} {s : State} {v0 : State} (hu : execPfcPause prio quanta s = .next v0) : Kept s v0 := by
  have h := Kept.refl s
  unfold execPfcPause at hu
  (repeat' split at hu) <;> first
    | (injection hu with hu; subst hu; (try dsimp only); repeat' (first
        | with_reducible assumption | intro _ | simp only [kept_upd] | split | dsimp only))
    | (cases hu; done)

theorem kept_execReplaySegmentAck {s : State} {v0 : State} (hu : execReplaySegmentAck s = .next v0) : Kept s v0 := by
  have h := Kept.refl s
  unfold execReplaySegmentAck at hu
  (repeat' split at hu) <;> first
    | (injection hu with hu; subst hu; (try dsimp only); repeat' (first
        | with_reducible assumption | intro _ | with_reducible apply kept_incr | with_reducible apply kept_putReplay
        | simp only [kept_upd] | (with_reducible refine Kept.fst (by assumption) ?_)
        | (with_reducible refine Kept.snd (by assumption) ?_) | (with_reducible refine KeptE.get (by assumption) ?_) | split
        | dsimp only))
    | (cases hu; done)

theorem kept_execReplayLogReadDone {records : List (Nat × Nat × Nat × Nat × List Byte)} {last : Bool} {s : State} {v0 : State} (hu : execReplayLogReadDone records last s = .next v0) : Kept s v0 := by
  have h := Kept.refl s
  unfold execReplayLogReadDone at hu
  (repeat' split at hu) <;> first
    | (injection hu with hu; subst hu; (try dsimp only); repeat' (first
        | with_reducible assumption | intro _ | with_reducible apply kept_fetchInputs | with_reducible apply kept_tryReplay
        | with_reducible apply kept_endLong | simp only [kept_upd] | (with_reducible refine Kept.fst (by assumption) ?_)
        | (with_reducible refine Kept.snd (by assumption) ?_) | (with_reducible refine KeptE.get (by assumption) ?_) | split
        | dsimp only))
    | (cases hu; done)

/-! ### Tick -/

theorem kept_newWeights {s0 : State} {s : State} (h : Kept s0 s) : Kept s0 (newWeights s) := by
  unfold newWeights
  (try dsimp only); repeat' (first
      | with_reducible assumption | intro _ | with_reducible apply kept_wr | with_reducible refine Kept.foldl ?_ ?_
      | with_reducible refine Kept.foldlFst ?_ ?_ | split | dsimp only)

theorem kept_idleTick {s0 : State} {s : State} (h : Kept s0 s) : Kept s0 (idleTick s) := by
  unfold idleTick
  (try dsimp only); repeat' (first
      | with_reducible assumption | intro _ | with_reducible apply kept_scrubTick | with_reducible apply kept_newWeights
      | with_reducible apply kept_portTick | with_reducible apply kept_fabricTick | simp only [kept_upd] | split | dsimp only)

end Sys2Proof.Laws
end

