-- ==== Sys2Proof/Laws/Ops.lean ====
section
/-! SUPPORT. What the shared operations do: contexts and workers read back, registers, entries, presenting an op. -/

namespace Sys2Proof.Laws

open Sys2Proof Sys2Proof.Machine

/-! ### Contexts and workers -/

/-- A context read after one was replaced. -/
theorem getC_setC (s : State) (id j : Nat) (c : Context) : getC (setC s id c) j = if j = id then c else getC s j :=
  tget_tset Context.dead s.ctxs id j c

@[simp] theorem getC_setC_self (s : State) (id : Nat) (c : Context) : getC (setC s id c) id = c := by simp [getC_setC]

theorem getC_setC_ne (s : State) (id j : Nat) (c : Context) (h : j ≠ id) : getC (setC s id c) j = getC s j := by
  simp [getC_setC, h]

/-- A worker read after one was replaced. -/
theorem getW_setW (c : Context) (cl j : Nat) (k : Worker) : getW (setW c cl k) j = if j = cl then k else getW c j :=
  tget_tset Worker.initial c.workers cl j k

@[simp] theorem getW_setW_self (c : Context) (cl : Nat) (k : Worker) : getW (setW c cl k) cl = k := by simp [getW_setW]

theorem getW_setW_ne (c : Context) (cl j : Nat) (k : Worker) (h : j ≠ cl) : getW (setW c cl k) j = getW c j := by
  simp [getW_setW, h]

/-- The workers of a context do not depend on its entries. -/
@[simp] theorem getW_ewr (c : Context) (k v cl : Nat) : getW (ewr c k v) cl = getW c cl := by simp [getW]

@[simp] theorem getW_eincr (c : Context) (k n cl : Nat) : getW (eincr c k n) cl = getW c cl := by simp [getW]

@[simp] theorem getW_endWait (s : State) (c : Context) (k : Worker) (cl : Nat) : getW (endWait s c k) cl = getW c cl := by
  unfold endWait; split <;> simp

@[simp] theorem endWait_vmem (s : State) (c : Context) (k : Worker) : (endWait s c k).vmem = c.vmem := by
  unfold endWait; split <;> simp

@[simp] theorem endWait_mod (s : State) (c : Context) (k : Worker) : (endWait s c k).mod = c.mod := by
  unfold endWait; split <;> simp

/-! ### Scalar registers -/

@[simp] theorem getS_zero (k : Worker) : getS k 0 = 0 := by simp [getS]

@[simp] theorem setS_zero (k : Worker) (x : BitVec 64) : setS k 0 x = k := by simp [setS]

/-- A scalar register read after one was written. -/
theorem getS_setS (k : Worker) (r q : SReg) (x : BitVec 64) (hr : r ≠ 0) : getS (setS k r x) q = if q = r then x else getS k q := by
  have hr' : r.val ≠ 0 := fun h => hr (Fin.ext h)
  by_cases hq : q = r
  · subst hq; simp [getS, setS, hr']
  · have hv : q.val ≠ r.val := fun h => hq (Fin.ext h)
    simp [getS, setS, hr', hq, tget_tset_ne, hv]

/-! ### The pc and the loops -/

/-- What follows an op leaves everything but the pc, the loops and a pass index. -/
theorem closeLoops_spec (k : Worker) (pc : Nat) (fs : List LoopFrame) :
    ∃ x, closeLoops k pc fs = { k with pc := (closeLoops k pc fs).pc, loops := (closeLoops k pc fs).loops, s := x } := by
  induction fs with
  | nil => exact ⟨k.s, rfl⟩
  | cons f fs ih =>
    unfold closeLoops
    split
    · split
      · refine ⟨(setS { k with pc := f.start, loops := { f with pass := f.pass + 1 } :: fs } f.d (BitVec.ofNat 64 (f.pass + 1))).s, ?_⟩
        unfold setS; split <;> rfl
      · exact ih
    · exact ⟨k.s, rfl⟩

theorem advance_spec (k : Worker) (ext : Nat) :
    ∃ x, advance k ext = { k with pc := (advance k ext).pc, loops := (advance k ext).loops, s := x } :=
  closeLoops_spec k _ k.loops

/-! ### Presenting an op -/

/-- An op presented to a worker that may issue meets the outcome of its meaning. -/
theorem issue_ready (s : State) (id : Nat) (w : Cluster) (ext : Nat) (f : State → Nat → Context → Worker → OpRes)
    (h : Ready s id w) : issue s w.val ext f = applyRes id w.val ext (f s id (ctxAt s id w) (workAt s id w)) := by
  simp [issue, h.1, h.2.1, h.2.2, ctxAt, workAt]

/-- An op presented where no worker may issue leaves the machine as it is. -/
theorem issue_not_ready (s : State) (w : Cluster) (ext : Nat) (f : State → Nat → Context → Worker → OpRes)
    (h : ∀ id, ¬ Ready s id w) : issue s w.val ext f = s := by
  unfold issue
  split
  · rfl
  · next id hid =>
    split
    · next hm =>
      simp only [Bool.and_eq_true, Bool.not_eq_true'] at hm
      exact absurd ⟨hid, hm.1, hm.2⟩ (h id)
    · rfl

/-! ### Entries -/

theorem rd_wrHost (s : State) (k q v : Nat) : rd (wrHost s k v) q = if q = k then fitEntry k v else rd s q := by
  by_cases h : q = k
  · subst h; simp [rd, wrHost, bumpSnap]
  · simp [rd, wrHost, bumpSnap, h, tget_tset_other]

/-- An entry read after the device changed one. -/
theorem rd_wr (s : State) (k q v : Nat) : rd (wr s k v) q = if q = k then fitEntry k v else rd s q := by
  unfold wr
  split
  · next h => by_cases hq : q = k
              · subst hq; simpa using h
              · simp [hq]
  · exact rd_wrHost s k q v

@[simp] theorem rd_setC (s : State) (id q : Nat) (c : Context) : rd (setC s id c) q = rd s q := rfl

end Sys2Proof.Laws
end

