-- ==== Sys2Proof/Laws/Rows.lean ====
section
/-! SUPPORT. What a row that writes one entry does, and what a command datagram does, said once for every row. -/

namespace Sys2Proof.Laws

open Sys2Proof Sys2Proof.Machine

/-! ### Rows that write one entry -/

theorem padTo_length (n : Nat) (l : List Byte) : (padTo n l).length = n := by
  simp [padTo]

theorem reqRec_size (r : Req) (k : Nat) (bs : List Byte) : (reqRec r k bs).size = recLen (reqRec r k bs) := by
  cases h : r.auth <;> simp [reqRec, recLen, recFlag, bit, h]

theorem reqRec_key (r : Req) (k : Nat) (bs : List Byte) : recKey (reqRec r k bs) = k := by
  simp [reqRec, recKey]; omega

theorem reqRec_whole (r : Req) (k : Nat) (bs : List Byte) : recFlag (reqRec r k bs) 1 = false := by
  cases h : r.auth <;> simp [reqRec, recFlag, bit, h]

theorem answerReq_row (s : State) (r : Req) (k : Nat) (bs : List Byte) (eff : State → Except Nat State) (h : Admits s r k bs) :
    answerReq s r.path (reqRec r k bs) (fun s _ => eff s) =
      (match entryOf k with
      | none => refuse s r.path (reqRec r k bs) 5
      | some e =>
        match eff s with
        | .error c => refuse s r.path (reqRec r k bs) c
        | .ok t =>
          let t := afterWrite t (reqRec r k bs) e (padTo bs.length bs)
          (t, ⟨0, typeCode e.type, typeSize e.type, 0, snapOf t (pathCtx r.path).isSome (targetCtx r.path (reqRec r k bs)) k, []⟩)) := by
  obtain ⟨h1, h2, e, he, h3⟩ := h
  have hrec : (deviceState s = 5 && !recoveryServes (reqRec r k bs)) = false := by
    rcases h2 with h2 | h2 <;> simp [h2]
  have hk := reqRec_key r k bs
  have ho : (reqRec r k bs).op = 2 := rfl
  have hw := reqRec_whole r k bs
  simp only [answerReq, h1, hrec, ho, hk, he, h3, perform, hw]
  simp only [reqRec]
  cases eff s <;> simp

/-- A row's effect on an admitted write. -/
theorem rowWrite_ok (s t : State) (r : Req) (k : Nat) (bs : List Byte) (eff : State → Except Nat State) (h : Admits s r k bs)
    (he : eff s = .ok t) : rowWrite s r k bs eff = accepted t r k bs := by
  have h' := answerReq_row s r k bs eff h
  obtain ⟨_, _, e, hk, _⟩ := h
  rw [hk, he] at h'
  simp only [rowWrite, dictRequest, reqRec_size, dictServe, h', accepted, hk]
  simp

/-- An admitted write that the entry's rule refuses has no effect. -/
theorem rowWrite_error (s : State) (r : Req) (k code : Nat) (bs : List Byte) (eff : State → Except Nat State) (h : Admits s r k bs)
    (hc : code ≠ 0) (he : eff s = .error code) : rowWrite s r k bs eff = rejected s r k bs code := by
  have h' := answerReq_row s r k bs eff h
  have hk' := reqRec_key r k bs
  obtain ⟨_, _, e, hk, _⟩ := h
  rw [hk, he] at h'
  simp only [refuse, hk', hk] at h'
  simp only [rowWrite, dictRequest, reqRec_size, dictServe, h', rejected, hk]
  simp [hc, reqRec]

/-! ### Command datagrams -/

theorem touchEntry_eth (s : State) (id : Nat) : ∃ cs, (touchEntry s id).eth = { s.eth with cache := cs } := by
  refine ⟨(id :: s.eth.cache.filter (fun x => decide (x ≠ id))).take cacheSize, ?_⟩
  by_cases hit : id ∈ s.eth.cache <;> simp [touchEntry, hit]

/-- Arrival changes nothing of the port but the entry cache. -/
theorem arrive_eth (s : State) (h : DgHdr) : ∃ cs, (arrive s h).1.eth = { s.eth with cache := cs } := by
  obtain ⟨cs, ht⟩ := touchEntry_eth s h.stream
  have h0 : ∃ cs, (if h.mgmt then s else touchEntry s h.stream).eth = { s.eth with cache := cs } := by
    split
    · exact ⟨s.eth.cache, rfl⟩
    · exact ⟨cs, ht⟩
  simp only [arrive]
  generalize (if h.mgmt then s else touchEntry s h.stream) = s0 at h0
  repeat' split
  all_goals first | exact h0 | simpa using h0 | exact ⟨s.eth.cache, by simp⟩

theorem arrive_getStream (s : State) (h : DgHdr) (m : Bool) (i : Nat) : getStream (arrive s h).1 m i = getStream s m i := by
  obtain ⟨cs, hc⟩ := arrive_eth s h
  simp only [getStream, hc]

theorem getStream_takeSeq (s : State) (h : DgHdr) : getStream (takeSeq s h) h.mgmt h.stream =
    { getStream s h.mgmt h.stream with rxNext := (getStream s h.mgmt h.stream).rxNext + 1 } := by
  cases hm : h.mgmt <;> simp [takeSeq, getStream, setStream, hm]

theorem takeSeq_held (s : State) (h : DgHdr) : (takeSeq s h).eth.held = s.eth.held := by
  cases hm : h.mgmt <;> simp [takeSeq, setStream, hm]

theorem takeSeq_busy (s : State) (h : DgHdr) : (takeSeq s h).eth.busy = s.eth.busy := by
  cases hm : h.mgmt <;> simp [takeSeq, setStream, hm]

theorem tget_default_or_mem {α : Type} (d : α) (m : Tbl α) (k : Nat) : tget d m k = d ∨ (k, tget d m k) ∈ m := by
  induction m with
  | nil => exact .inl rfl
  | cons p m ih =>
    by_cases h : p.1 = k
    · subst h; simp [tget]
    · rcases ih with ih | ih <;> simp [tget, h, ih]

theorem bootOpen_open (s : State) (h : DgHdr) (c : TCmd) (ho : (getStream s h.mgmt h.stream).state = 1) : bootOpen s h c = false := by
  cases hm : h.mgmt
  · simp [bootOpen, hm]
  · have : s.eth.mstreams.all (fun p => decide (p.2.state ≠ 1)) = false := by
      simp only [getStream, hm, if_true] at ho
      rcases tget_default_or_mem Stream.free s.eth.mstreams h.stream with h1 | h1
      · rw [h1] at ho; simp [Stream.free] at ho
      · rw [List.all_eq_false]; exact ⟨_, h1, by simp [ho]⟩
    unfold bootOpen; rw [this]; simp only [Bool.and_false, Bool.false_and]

/-- A datagram in order reaches the start of its command. -/
theorem dgram_start (s : State) (h : DgHdr) (c : TCmd) (hi : InOrder s h) :
    dgram s h c = flushRelay (drainStream 1 (startCmd (arrive s h).1 h c) h.mgmt h.stream) := by
  obtain ⟨hr, ha, ho, hk, hseq, -, hb, hh⟩ := hi
  obtain ⟨cs, he⟩ := arrive_eth s h
  have h1 : (h.relay.isNone && !edUp s) = false := by
    rcases hr with hr | hr
    · cases hx : h.relay <;> simp_all
    · simp [hr]
  have hb' : streamBusy (arrive s h).1 h.mgmt h.stream = false := by simpa [streamBusy, he] using hb
  simp only [dgram, h1, bootOpen_open s h c ho, ha, arrive_getStream, hk, sequenceCmd, hseq, hb']
  simp [he, hh]

theorem startCmd_run (s : State) (h : DgHdr) (c : TCmd) (ho : (getStream s h.mgmt h.stream).state = 1) (hs : h.seq < 0xFFFFFF00) :
    startCmd s h c = (match runSteps (takeSeq s h) h c with
      | (t, some e) => finishCmd t h c e
      | (t, none) => { t with eth := { t.eth with busy := t.eth.busy ++ [⟨h.mgmt, h.stream, h, c⟩] } }) := by
  have h1 : ¬ 0xFFFFFF00 ≤ h.seq := by omega
  simp only [startCmd, h1, getStream_takeSeq, ho]
  rfl

theorem touchEntry_rest (s : State) (id : Nat) : (touchEntry s id).ckpt = s.ckpt ∧ (touchEntry s id).ctxs = s.ctxs ∧
    (touchEntry s id).wen = s.wen ∧ (touchEntry s id).pkg = s.pkg ∧ ∀ k, k ≠ 0x102300 → rd (touchEntry s id) k = rd s k := by
  by_cases hit : id ∈ s.eth.cache
  · simp [touchEntry, hit, rd]
  · refine ⟨?_, ?_, ?_, ?_, fun k hk => ?_⟩ <;> simp [touchEntry, hit]
    have : rd (incr s 0x102300 1) k = rd s k := by rw [incr, rd_wr, if_neg hk]
    simpa [rd] using this

/-- Entries that arrival counts in. -/
def arrivalKeys : List Nat := [0x102200, 0x102201, 0x102202, 0x102206, 0x102300]

theorem arrive_rest (s : State) (h : DgHdr) : (arrive s h).1.ckpt = s.ckpt ∧ (arrive s h).1.ctxs = s.ctxs ∧
    (arrive s h).1.wen = s.wen ∧ (arrive s h).1.pkg = s.pkg ∧ ∀ k, k ∉ arrivalKeys → rd (arrive s h).1 k = rd s k := by
  obtain ⟨t1, t2, t3, t4, t5⟩ := touchEntry_rest s h.stream
  have h0 : ∀ s0 k, k ∈ arrivalKeys → s0.ckpt = s.ckpt ∧ s0.ctxs = s.ctxs ∧ s0.wen = s.wen ∧ s0.pkg = s.pkg ∧
      (∀ q, q ∉ arrivalKeys → rd s0 q = rd s q) → (incr s0 k 1).ckpt = s.ckpt ∧ (incr s0 k 1).ctxs = s.ctxs ∧ (incr s0 k 1).wen = s.wen ∧
      (incr s0 k 1).pkg = s.pkg ∧ ∀ q, q ∉ arrivalKeys → rd (incr s0 k 1) q = rd s q := by
    intro s0 k hk ⟨a, b, c, d, e⟩
    refine ⟨by simpa using a, by simpa using b, by simpa using c, by simpa using d, fun q hq => ?_⟩
    rw [incr, rd_wr, if_neg (fun hqk : q = k => hq (by rw [hqk]; exact hk))]
    exact e q hq
  have h1 : (if h.mgmt then s else touchEntry s h.stream).ckpt = s.ckpt ∧ (if h.mgmt then s else touchEntry s h.stream).ctxs = s.ctxs ∧
      (if h.mgmt then s else touchEntry s h.stream).wen = s.wen ∧ (if h.mgmt then s else touchEntry s h.stream).pkg = s.pkg ∧
      ∀ q, q ∉ arrivalKeys → rd (if h.mgmt then s else touchEntry s h.stream) q = rd s q := by
    split
    · exact ⟨rfl, rfl, rfl, rfl, fun _ _ => rfl⟩
    · exact ⟨t1, t2, t3, t4, fun q hq => t5 q (fun hq' => hq (hq' ▸ by decide))⟩
  have h2 := h0 s 0x102206 (by decide) ⟨rfl, rfl, rfl, rfl, fun _ _ => rfl⟩
  have h3 := h0 s 0x102200 (by decide) ⟨rfl, rfl, rfl, rfl, fun _ _ => rfl⟩
  simp only [arrive]
  generalize (if h.mgmt then s else touchEntry s h.stream) = s0 at h1
  have h4 := h0 s0 0x102201 (by decide) h1
  have h5 := h0 s0 0x102202 (by decide) h1
  repeat' split
  all_goals assumption

theorem runSteps_pass (s : State) (h : DgHdr) (c : TCmd) (hp : Passes s h c) : runSteps (taken s h) h c = performCmd (taken s h) h c := by
  obtain ⟨-, h1, h2, h3, h4⟩ := hp
  have h5 : (!h.mgmt && replaying (taken s h) h.ctx && !replayAccepts c) = false := by
    have : replaying (taken s h) h.ctx = replaying s h.ctx := by
      have ht : (taken s h).ckpt = (arrive s h).1.ckpt ∧ (taken s h).ent = (arrive s h).1.ent := by
        cases hm : h.mgmt <;> simp [taken, takeSeq, setStream, hm]
      have hr : rd (taken s h) 0x900101 = rd (arrive s h).1 0x900101 := by simp [rd, ht.2]
      simp only [replaying, replayCtx, hr, ht.1, (arrive_rest s h).1, (arrive_rest s h).2.2.2.2 0x900101 (by decide)]
      rfl
    rcases h4 with h4 | h4 | h4 <;> simp [h4, this]
  simp [runSteps, h1, h2, h3, h5]

theorem logCommand_off (s : State) (h : DgHdr) (c : TCmd) (st : Nat) (hr : h.mgmt = true ∨ recording s h.ctx = false) :
    logCommand s h c st = s := by
  rcases hr with hr | hr <;> simp [logCommand, hr]

theorem sendVia_rest (s : State) (m : Bool) (id op : Nat) (bs : List Byte) (r : Option (Nat × Nat)) :
    (sendVia s m id op bs r).1.eth.held = s.eth.held ∧ (sendVia s m id op bs r).1.eth.busy = s.eth.busy ∧
    (sendVia s m id op bs r).1.ckpt = s.ckpt ∧ (sendVia s m id op bs r).1.ent = s.ent := by
  cases m <;> simp [sendVia, setStream]

theorem complete_rest (s : State) (m : Bool) (id : Nat) (h : DgHdr) (st d : Nat) (x : List Byte) :
    (complete s m id h st d x).eth.held = s.eth.held ∧ (complete s m id h st d x).eth.busy = s.eth.busy ∧
    (complete s m id h st d x).ckpt = s.ckpt ∧ (complete s m id h st d x).ent = s.ent := by
  cases m <;> simp [complete, sendVia, setStream]

theorem recording_complete (s : State) (m : Bool) (id : Nat) (h : DgHdr) (st d : Nat) (x : List Byte) (ctx : Nat) :
    recording (complete s m id h st d x) ctx = recording s ctx := by
  obtain ⟨-, -, h1, h2⟩ := complete_rest s m id h st d x
  simp only [recording, replayCtx, rd, h1, h2]
  rfl

/-- A command that ends at once. -/
theorem dgram_done (s : State) (h : DgHdr) (c : TCmd) (t : State) (st d : Nat) (x : List Byte) (hp : Passes s h c)
    (hc : performCmd (taken s h) h c = (t, some (st, d, x))) (hh : t.eth.held = []) (hr : h.mgmt = true ∨ recording t h.ctx = false) :
    dgram s h c = answered t h st d x := by
  have hi := hp.1
  have ho : (getStream (arrive s h).1 h.mgmt h.stream).state = 1 := by rw [arrive_getStream]; exact hi.2.2.1
  have hf : finishCmd t h c (st, d, x) = complete t h.mgmt h.stream h st d x := by
    simp only [finishCmd]; rw [logCommand_off]; rw [recording_complete]; exact hr
  have hd : drainStream 1 (complete t h.mgmt h.stream h st d x) h.mgmt h.stream = complete t h.mgmt h.stream h st d x := by
    have h1 := (complete_rest t h.mgmt h.stream h st d x).1
    simp only [drainStream, h1, hh]
    split <;> rfl
  rw [dgram_start s h c hi, startCmd_run _ _ _ ho hi.2.2.2.2.2.1]
  have hq := runSteps_pass s h c hp
  rw [taken] at hq hc
  simp only [hq, hc, hf, hd, answered]

/-- A command that goes on. -/
theorem dgram_begun (s : State) (h : DgHdr) (c : TCmd) (t : State) (hp : Passes s h c)
    (hc : performCmd (taken s h) h c = (t, none)) : dgram s h c = begun t h c := by
  have hi := hp.1
  have ho : (getStream (arrive s h).1 h.mgmt h.stream).state = 1 := by rw [arrive_getStream]; exact hi.2.2.1
  rw [dgram_start s h c hi, startCmd_run _ _ _ ho hi.2.2.2.2.2.1]
  have hq := runSteps_pass s h c hp
  rw [taken] at hq hc
  simp only [hq, hc, begun]
  congr 1
  simp [drainStream, streamBusy]

/-- The end of a long command with nothing held behind it. -/
theorem endLong_ended (t : State) (p : BusyCmd → Bool) (b : BusyCmd) (st d : Nat) (hr : Runs t p b) :
    endLong t p (st, d, []) = ended t b st d := by
  obtain ⟨hb, hm, hs, hh, hn⟩ := hr
  simp only [endLong, hb, ended, answered, finishCmd]
  rw [logCommand_off]
  · congr 1
    have h1 : (complete { t with eth := { t.eth with busy := t.eth.busy.erase b } } b.hdr.mgmt b.hdr.stream b.hdr st d []).eth.held = [] :=
      (complete_rest { t with eth := { t.eth with busy := t.eth.busy.erase b } } b.hdr.mgmt b.hdr.stream b.hdr st d []).1.trans hh
    rw [h1]
    simp only [List.length_nil, drainStream, h1]
    split <;> rfl
  · right; rw [recording_complete]; exact hn

end Sys2Proof.Laws
end

