-- ==== Sys2Proof/Laws/Whisk.lean ====
section
/-! SUPPORT. What presenting a Whisk op does where nothing holds it back. -/

namespace Sys2Proof.Laws

open Sys2Proof Sys2Proof.Machine

/-- An element-wise op that nothing holds back walks to its end. -/
theorem whiskIssue_free (s : State) (id : Nat) (w : Cluster) (op : WOp) (hk : ∀ m r, op.kind ≠ .red m r) (h : whiskFree s id w op) :
    applyRes id w.val op.ext (whiskIssue s w.val (ctxAt s id w) (workAt s id w) op) = whiskRan s id w op := by
  obtain ⟨h1, h2, h3, h4⟩ := h
  simp only [whiskWalk] at h4
  simp only [whiskIssue, h1, h2, h3, whiskRun, Bool.false_eq_true, if_false]
  cases hkind : op.kind <;> first
    | exact absurd hkind (hk _ _)
    | (simp only [h4]; rfl)

/-- A source element that can be read. -/
theorem readSrc_fine (c : Context) (cl : Nat) (k : Worker) (op : WOp) (v : View) (i o : Nat) (h : srcFine c cl k op v i o) :
    readSrc c cl k op v i o = .ok (readElem c cl k v i) := by
  rcases h with h | ⟨h1, h2⟩
  · simp [readSrc, h, readElem]
  · simp [readSrc, h1, h2, readElem]

/-- A destination element that can be written. -/
theorem checkDest_open (c : Context) (k : Worker) (p : Place) : checkDest c k p = .ok () ↔ destOpen c k p := by
  unfold checkDest destOpen
  cases placeDead c p <;> cases writeBad c k p <;> cases placeProtected c p <;> simp

/-- The terms of a reduction whose unmasked elements can all be read. -/
theorem redTerms_ok (c : Context) (cl : Nat) (k : Worker) (op : WOp) (is : List Nat)
    (h : ∀ i ∈ is, whiskMasked k op i = false → srcFine c cl k op op.a i 0) :
    redTerms c cl k op is = .ok ((is.filter (fun i => !whiskMasked k op i)).map (readElem c cl k op.a)) := by
  induction is with
  | nil => rfl
  | cons i is ih =>
    have ih := ih (fun j hj => h j (by simp [hj]))
    by_cases hm : whiskMasked k op i = true
    · simp [redTerms, hm, ih]
    · have hm' : whiskMasked k op i = false := by simpa using hm
      simp [redTerms, hm', readSrc_fine c cl k op op.a i 0 (h i (by simp) hm'), ih]

end Sys2Proof.Laws
end

