-- ==== Sys2Proof/Tests/Slice0.lean ====
section
/-! SUPPORT. The model's own tests: ill-formed commands that WellFormed refuses; for every obligation with hypotheses, a concrete state
and operands that meet them (test_witness_…); and single steps whose expected results come from the rules of the spec. -/

namespace Sys2Proof.Tests

set_option Elab.async false

open Sys2Proof Sys2Proof.Machine

/-! ### Small states -/

/-- A module: tensors FP32 4 x 4 in scratchpads, INT32 and FP32 of 64 in the pool, and an input and an output declaration. -/
def tMod : Module :=
  { digest := 1, features := 8, minDev := 1, maxDev := 8,
    tensors := [⟨.fp32, 0, 0, false, false, false, 2, [4, 4], 0⟩, ⟨.int32, 2, 0, false, false, false, 1, [64], 0⟩,
      ⟨.fp32, 2, 0, false, false, false, 1, [64], 0⟩],
    streams := [⟨1, 2, 7⟩, ⟨2, 2, 8⟩], consts := [], code := [], sflags := 0 }

/-- A running worker: s1 = 5, s2 = 7, s3 = 8, s4 = 4,000; v1 one scratchpad element, v2 one FP32 element and v3 one INT32 element of the
pool, v4 all 64 INT32 elements, v5 two FP32 elements. -/
def tWork : Worker :=
  { Worker.initial with
    run := .running, s := [(1, 5), (2, 7), (3, 8), (4, 4000)],
    v := [(1, ⟨0, 1, 1, 1, 1, 0⟩), (2, ⟨2, 1, 1, 1, 1, 0⟩), (3, ⟨1, 1, 1, 1, 1, 0⟩), (4, ⟨1, 1, 64, 64, 1, 0⟩), (5, ⟨2, 1, 2, 2, 1, 8⟩)] }

/-- A running context of two devices whose worker 0 and worker 3,999 are `k`. -/
def tCtx (k : Worker) : Context :=
  { Context.dead with
    live := true, serial := 1, memKey := some 1, n := 2, ids := [8, 9], mod := some tMod, modState := .running,
    workers := [(0, k), (3999, k)] }

/-- A device in service that runs context 0. -/
def tDev (c : Context) : State := { State.reset with ent := [(0x100300, 2), (0x703001, 0)], ctxs := [(0, c)] }

/-- The device of one worker. -/
def tRun (k : Worker) : State := tDev (tCtx k)

/-- What a step leaves, seen through `f`. -/
def after {α : Type} (d : α) (o : Host.Outcome State Fault Refusal) (f : State → α) : α :=
  match o with
  | .next t => f t
  | _ => d
/-! ### Ill-formed commands, one per check -/

/-- A header, a record, a requester, a flit and packets with every field zero. -/
def hdr0 : DgHdr := ⟨1, false, false, 0, 0, 0, 0, 0, 32, 0, 0, 0, true, none, 0⟩
def rec0 : DRec := ⟨1, 0, 0x1003, 0, 0, 0, 0, 0, [], true, none, 16⟩
def req0 : Req := ⟨.mgmt, none, false, 0⟩
def flit0 : Flit := ⟨0, 1, 8, 0, 8, 0, 1, 0, false⟩
def rpkt0 : RPkt := ⟨0, 0, 0, 0, 0, 0, 0, 0⟩
def cpkt0 : CPkt := ⟨0, 0, 0, 0, 0, 0, 0, 0, 0, 0, 0⟩

theorem test_wf_op_forms :
    [Instr.gzero 0 .fp16 0, .gmma 0 .int32 .int8 false 0 0 0 0, .gmma 0 .int8 .int32 false 0 0 0 0, .wbin 0 .int8 .add none 0 0 0,
      .wfma 0 .int32 none 0 0 0, .wun 0 .int8 .sqrt none 0 0, .wact 0 .int32 .exp none 0 0, .wred 0 .int8 .plain .sum none 0 0,
      .pref 0 false 0 3, .rrepl 0 0 0, .rrepl 0 0 9, .callred 0 .fp32 .plain .sum 100 0 0, .callred 0 .int8 .plain .sum 4096 0 0,
      .crscat 0 .fp32 .plain .sum 266240 0 0, .crscat 0 .int8 .plain .sum 4096 0 0, .cagth 0 .fp32 1 0 0, .cbcst 0 .fp32 1 0 0 0,
      .ca2a 0 .fp32 1 0 0, .rwritef 0 0 0 0 4000 0 1, .rwritef 0 0 0 0 3999 0 0].all (fun i => !i.wf) = true := by decide +kernel

theorem test_wf_headers :
    [{ hdr0 with version := 256 }, { hdr0 with flagsRes := 64 }, { hdr0 with ctx := 4096 }, { hdr0 with stream := 2 ^ 20 },
      { hdr0 with seq := 2 ^ 32 }, { hdr0 with length := 65536 }, { hdr0 with udpLen := 65536 }, { hdr0 with gen := 65536 },
      { hdr0 with src := 2 ^ 128 }, { hdr0 with port := 65536 }, { hdr0 with ts := 2 ^ 64 }, { hdr0 with relay := some (65536, 0) },
      { hdr0 with relay := some (0, 8) }].all (fun h => !(Instr.cmdNop h).wf && !(Instr.run h).wf && !(Instr.haltAtOnce h 0).wf
        && !(Instr.haltAtStepPoint h 0).wf && !(Instr.plantMeas h 0 0 [] false).wf) = true := by decide +kernel

theorem test_wf_records :
    [{ rec0 with flags := 256 }, { rec0 with index := 65536 }, { rec0 with sub := 256 }, { rec0 with res := 256 }, { rec0 with ctx := 65536 },
      { rec0 with offset := 2 ^ 32 }, { rec0 with length := 2 ^ 32 }, { rec0 with op := 256 }, { rec0 with auth := some ⟨2 ^ 64, true⟩ }].all
        (fun r => !(Instr.entryRead hdr0 r).wf && !(Instr.mgmtEntryWrite hdr0 r).wf && !(Instr.dictRead .mgmt r).wf) = true
      ∧ ({ rec0 with op := 2, length := 1 } : DRec).wf = false
      ∧ (Instr.dictRead .mgmt { rec0 with op := 2 }).wf = false ∧ (Instr.dictWrite .mgmt rec0).wf = false
      ∧ (Instr.dictWriteSegment .mgmt rec0).wf = false ∧ (Instr.dictDescribe .mgmt rec0).wf = false
      ∧ (Instr.dictNext .mgmt rec0).wf = false := by decide +kernel

theorem test_wf_requesters :
    [{ req0 with ctx := 4096 }, { req0 with path := .tenant 4096 }, { req0 with path := .relay 65536 },
      { req0 with auth := some ⟨2 ^ 64, true⟩ }].all (fun r => !(Instr.relayTx r 0 0 0 0 (List.replicate 32 0)).wf) = true
      ∧ (Instr.relayTx req0 65536 0 0 0 (List.replicate 32 0)).wf = false ∧ (Instr.relayTx req0 0 256 0 0 (List.replicate 32 0)).wf = false
      ∧ (Instr.relayTx req0 0 0 0 65536 (List.replicate 65568 0)).wf = false ∧ (Instr.relayTx req0 0 0 0 1 (List.replicate 32 0)).wf = false
      ∧ (Instr.canFrame 2048 true true 0 (List.replicate 63 0)).wf = false ∧ (Instr.canFrame 0 true true 0 []).wf = false
      ∧ (Instr.plantMeas hdr0 0 65536 [] false).wf = false := by decide +kernel

theorem test_wf_packets :
    [{ flit0 with vc := 8 }, { flit0 with kind := 32 }, { flit0 with dest := 65536 }, { flit0 with src := 65536 },
      { flit0 with epoch := 65536 }, { flit0 with hops := 16 }, { flit0 with flow := 16 }].all (fun f => !(Instr.readReq f rpkt0).wf
        && !(Instr.collUp f cpkt0).wf && !(Instr.flitForward f ⟨0, 0, 0, 0, 0⟩ true).wf) = true
      ∧ [Instr.flitForward flit0 ⟨4096, 0, 0, 0, 0⟩ true, .flitForward flit0 ⟨0, 4096, 0, 0, 0⟩ true, .flitForward flit0 ⟨0, 0, 8, 0, 0⟩ true,
        .flitForward flit0 ⟨0, 0, 0, 32, 0⟩ true, .nak 0 ⟨4096, false⟩, .stewardEvent 0 1024 none].all (fun i => !i.wf) = true
      ∧ [{ rpkt0 with ctx := 65536 }, { rpkt0 with master := 65536 }, { rpkt0 with tag := 65536 }, { rpkt0 with status := 256 },
        { rpkt0 with inc := 256 }].all (fun p => !(Instr.writeAck flit0 p).wf) = true
      ∧ [{ cpkt0 with step := 2 ^ 32 }, { cpkt0 with chunk := 2 ^ 32 }, { cpkt0 with seq := 65536 }, { cpkt0 with flit := 65536 },
        { cpkt0 with origin := 65536 }, { cpkt0 with form := 256 }, { cpkt0 with tier := 256 }, { cpkt0 with res := 65536 },
        { cpkt0 with count := 2 ^ 32 }].all (fun p => !(Instr.collDown flit0 p).wf) = true := by decide +kernel

theorem test_wf_payloads :
    [Instr.load hdr0 ⟨2 ^ 32, 0, 0, 0, none⟩, .load hdr0 ⟨0, 0, 2 ^ 64, 0, none⟩, .load hdr0 ⟨0, 0, 0, 2 ^ 64, none⟩,
      .input hdr0 ⟨65536, false, 0, 0, 0, []⟩, .input hdr0 ⟨0, false, 0, 2 ^ 32, 0, []⟩, .input hdr0 ⟨0, false, 0, 0, 2 ^ 64, []⟩,
      .outputResend hdr0 65536 0 0, .outputResend hdr0 0 0 (2 ^ 32), .regMem hdr0 ⟨65536, 0, 0, 0, 0⟩, .regMem hdr0 ⟨0, 256, 0, 0, 0⟩,
      .regMem hdr0 ⟨0, 0, 0, 2 ^ 64, 0⟩, .regMem hdr0 ⟨0, 0, 0, 0, 2 ^ 64⟩, .deregMem hdr0 (2 ^ 32) 0, .bulk hdr0 ⟨0, 256, 0, 0, 0, 0, 0, 0⟩,
      .bulk hdr0 ⟨0, 0, 0, 65536, 0, 0, 0, 0⟩, .bulk hdr0 ⟨0, 0, 0, 0, 2 ^ 64, 0, 0, 0⟩, .bulk hdr0 ⟨0, 0, 0, 0, 0, 0, 0, 2 ^ 64⟩,
      .streamOpen hdr0 ⟨256, 0, 0, 0, 0, 0, 0, 0⟩, .streamOpen hdr0 ⟨0, 256, 0, 0, 0, 0, 0, 0⟩, .streamOpen hdr0 ⟨0, 0, 65536, 0, 0, 0, 0, 0⟩,
      .streamOpen hdr0 ⟨0, 0, 0, 2 ^ 32, 0, 0, 0, 0⟩, .streamOpen hdr0 ⟨0, 0, 0, 0, 2 ^ 32, 0, 0, 0⟩, .streamOpen hdr0 ⟨0, 0, 0, 0, 0, 0, 2 ^ 128, 0⟩,
      .streamClose hdr0 ⟨256, 0, 0, 0⟩, .streamClose hdr0 ⟨0, 2 ^ 32, 0, 0⟩, .streamClose hdr0 ⟨0, 0, 2 ^ 32, 0⟩, .members hdr0 65536 0 0 0 [],
      .members hdr0 0 0 2 0 [8], .unassignedOpcode hdr0 65536, .relayDatagram hdr0 .nop,
      .relayDatagram { hdr0 with relay := some (8, 0) } (.halt 256 0), .relayDatagram { hdr0 with relay := some (8, 0) } (.unassigned 65536)].all
        (fun i => !i.wf) = true := by decide +kernel

/-- The same shapes with their fields in range are well formed. -/
theorem test_wf_accepts :
    [Instr.gzero 0 .fp32 0, .wbin 0 .fp32 .add none 0 0 0, .rrepl 0 0 8, .cagth 0 .fp32 262144 0 0, .rwritef 0 0 0 0 3999 0 1, .cmdNop hdr0,
      .dictRead .mgmt rec0, .relayTx req0 0 0 0 0 (List.replicate 32 0), .canFrame 2047 true true 0 (List.replicate 63 0), .readReq flit0 rpkt0,
      .collUp flit0 cpkt0, .members hdr0 0 0 2 0 [8, 9], .relayDatagram { hdr0 with relay := some (8, 7) } .nop].all Instr.wf = true := by
  decide +kernel
/-! ### The machine and numbers -/

theorem test_witness_step_sound :
    Sound (tDev Context.dead) ∧ step (tDev Context.dead) = .next (idleTick (tDev Context.dead)) := by
  refine ⟨?_, rfl⟩; unfold Sound; decide +kernel

/-- An idle step lets time pass. -/
theorem test_idle_step : State.reset.pending = [] ∧ after 0 (step State.reset) (fun t => t.ptpNs) = 1 := by decide +kernel

theorem test_front_command :
    step { tRun tWork with pending := [.sli 0 5 7, .nop 0] } = exec (.sli 0 5 7) { tRun tWork with pending := [.nop 0] } := rfl

theorem test_witness_formats :
    (0x8000 < 2 ^ 16 ∧ 0x8000 / 2 ^ 7 % 2 ^ 8 = 0) ∧ (0x007F < 2 ^ 16 ∧ 0x007F / 2 ^ 7 % 2 ^ 8 = 0) ∧ Fmt.fp32 ≠ .jf16 ∧
    (0x7E < 256 ∧ 0x7E / 8 % 16 = 15 ∧ 0x7E % 8 ≠ 7) ∧ (0xF8 < 256 ∧ 0xF8 / 8 % 16 = 15 ∧ 0xF8 % 8 ≠ 7) := by decide

/-- R121 at both ends of the range. -/
theorem test_int32_ends :
    binElem .int32 .add .rne 0x7FFFFFFE 1 = (0x7FFFFFFF, 0) ∧ binElem .int32 .add .rne 0x7FFFFFFF 1 = (0x7FFFFFFF, fAccSat) ∧
    binElem .int32 .sub .rne 0x80000000 0 = (0x80000000, 0) ∧ binElem .int32 .sub .rne 0x80000000 1 = (0x80000000, fAccSat) ∧
    (0x7FFFFFFF : BitVec 32).toInt + 1 = 2 ^ 31 ∧ (0x80000000 : BitVec 32).toInt - 1 < -2 ^ 31 := by decide +kernel

/-- R35: 0x7F and 0xFF are the only NaN of JF8M; 0x7E is 14 times 2 to the 4. -/
theorem test_jf8m : (decode .jf8m 0x7F).isNaN = true ∧ (decode .jf8m 0xFF).isNaN = true ∧ decode .jf8m 0x7E = .fin false 14 4 := by decide +kernel

/-! ### Worker ops -/

theorem test_witness_ready : Ready (tRun tWork) 0 0 ∧ Ready (tRun tWork) 0 3999 := by unfold Ready; decide +kernel

theorem test_witness_scalar :
    Ready (tRun tWork) 0 0 ∧
    (let c := ctxAt (tRun tWork) 0 0; let k := workAt (tRun tWork) 0 0
     k.gq = [] ∧ k.gf = [] ∧ (getS k 2).toNat < 2 ^ 3 ∧ (getS k 2).getLsbD 2 = true ∧ (modOf c).features.testBit 3 = true ∧
     (getS k 3).toNat < 2 ^ 8 ∧ 2 ^ 3 ≤ (getS k 3).toNat ∧ 2 ^ 8 ≤ (getS k 4).toNat ∧ (2 : SReg) ≠ 0 ∧ (2 : SReg) ≠ 3) := by
  unfold Ready; decide +kernel

theorem test_salu_sra : saluVal .sra (-8) 66 = -2 ∧ saluVal .shl 1 64 = 1 ∧ saluVal .lt (-1) 0 = 1 ∧ saluVal .ltu (-1) 0 = 0 := by decide +kernel

theorem test_s0_discards : after 1 (exec (.sli 0 0 7) (tRun tWork)) (fun t => (getS (getW (getC t 0) 0) 0).toNat) = 0 := by decide +kernel

theorem test_sli_signs : after 0 (exec (.sli 0 5 0xFFFFFFFF) (tRun tWork)) (fun t => (getS (getW (getC t 0) 0) 5).toNat) = 2 ^ 64 - 1 := by
  decide +kernel

theorem test_slih_high : after 0 (exec (.slih 0 1 2) (tRun tWork)) (fun t => (getS (getW (getC t 0) 0) 1).toNat) = 2 * 2 ^ 32 + 5 := by decide +kernel

/-- Word 2 under a loop of words 1 and 2 in its first pass of two. -/
def tLoop : Worker := { tWork with pc := 2, loops := [⟨1, 3, 5, 0, 2⟩] }

theorem test_witness_control :
    let c := ctxAt (tRun tWork) 0 0; let k := workAt (tRun tWork) 0 0
    Ready (tRun tWork) 0 0 ∧ getS k 0 = 0 ∧ getS k 1 ≠ 0 ∧
    (∃ t, tensorOf c 2 = some t ∧ viewInside t ⟨2, 8, 8, 8, 1, 0⟩ = true ∧ viewInside t ⟨2, 8, 8, 8, 1, 1⟩ = false) ∧ replaying (tRun tWork) 0 = false ∧
    (tLoop.loops = [⟨1, 3, 5, 0, 2⟩] ∧ tLoop.pc + 1 + 0 = 3 ∧ 0 + 1 < 2 ∧ tLoop.pc + 1 + 1 ≠ 3 ∧ 1 ≤ 0 + 1) := by
  refine ⟨⟨by decide +kernel, by decide +kernel, by decide +kernel⟩, by decide +kernel, by decide +kernel,
    ⟨_, rfl, by decide +kernel, by decide +kernel⟩, by decide +kernel, by decide +kernel⟩

theorem test_loop_pass :
    after (0, 0) (exec (.nop 0) (tRun tLoop)) (fun t => ((getW (getC t 0) 0).pc, (getS (getW (getC t 0) 0) 5).toNat)) = (1, 1) := by decide +kernel

theorem test_brnz_back : after 9 (exec (.brnz 0 1 0xFFFFFFFF) (tRun { tWork with pc := 4 })) (fun t => (getW (getC t 0) 0).pc) = 4 := by decide +kernel

/-- VL saturates at 1 and 4,096 (Table 3.13). -/
theorem test_wvl_saturates :
    after 0 (exec (.wvl 0 5 0) (tRun tWork)) (fun t => (getW (getC t 0) 0).vl) = 1 ∧
    after 0 (exec (.wvl 0 5 6) (tRun { tWork with s := [(6, 4097)] })) (fun t => (getW (getC t 0) 0).vl) = 4096 := by decide +kernel

theorem test_rdtime_rounds : after 0 (exec (.rdtime 0 5) { tRun tWork with ptpNs := 1999 }) (fun t => (getS (getW (getC t 0) 0) 5).toNat) = 1000 := by
  decide +kernel

theorem test_witness_frame_scalar :
    Ready (tRun tWork) 0 0 ∧ after false (exec (.fwait 0 1 3) (tRun tWork)) (fun _ => true) = true ∧
    after false (exec (.loop 0 5 1 1) (tRun tWork)) (fun _ => true) = true ∧ (1 : Cluster) ≠ 0 := by
  unfold Ready; decide +kernel

theorem test_witness_moves :
    let s := tRun tWork; let c := ctxAt s 0 0; let k := workAt s 0 0
    Ready s 0 0 ∧ moveFree c 0 k true [getV k 1] (getV k 2) 0 ∧ moveFree c 0 k false [getV k 2] (getV k 1) 2 ∧
    moveFree c 0 k true [getV k 1, getV k 3] (getV k 2) 0 ∧ moveFree c 0 k false [] (getV k 2) 0 ∧
    (∀ lu wr ix, moveTrouble c 0 k [(getV k 3, [0], lu, wr), (getV k 1, [0], lu, ix), (getV k 2, [0], !lu, ix)] = none) ∧
    viewIs c .fp32 (getV k 1) = true ∧ viewIs c .fp32 (getV k 2) = true ∧ viewIs c .int32 (getV k 3) = true ∧
    viewCount (getV k 1) = 1 ∧ viewCount (getV k 2) = 1 ∧ viewCount (getV k 3) = 1 ∧ indexAt c 0 k (getV k 3) 0 = 0 := by
  simp only [Ready, moveFree]; decide +kernel

theorem test_witness_empty_moves :
    let s := tRun tWork; let c := ctxAt s 0 0; let k := workAt s 0 0
    Ready s 0 0 ∧ viewCount (getV k 9) = 0 ∧ (2 : Fin 4) ≠ 3 ∧ viewCount (getV k 1) ≠ 0 ∧ lifeHeld c 0 0 = false ∧ viewClash c k [] [getV k 1] = none ∧
    (∃ x, tensorOf c 0 = some x ∧ 63 < tensorBytes x) ∧ (∃ x, tensorOf c 2 = some x ∧ 255 < tensorBytes x) ∧
    tensorLevel c 0 = 0 ∧ tensorLevel c 2 ≠ 0 := by
  refine ⟨⟨by decide +kernel, by decide +kernel, by decide +kernel⟩, by decide +kernel, by decide +kernel, by decide +kernel, by decide +kernel, by decide +kernel,
    ⟨_, rfl, by decide +kernel⟩, ⟨_, rfl, by decide +kernel⟩, by decide +kernel, by decide +kernel⟩

/-- FILL writes the low bits of s[A], little-endian. -/
theorem test_fill :
    after 0 (exec (.fill 0 .fp32 5 1) (tRun tWork)) (fun t => (rdByte (getC t 0).vmem (tensorBase (tCtx tWork) 0 2 + 36)).toNat) = 5 := by decide +kernel

theorem test_movs_lu_zeroes :
    after 1 (exec (.movs 0 .fp32 true 2 1) (tRun { tWork with l0 := [(tensorBase (tCtx tWork) 0 0, 9)] }))
      (fun t => (rdByte (getW (getC t 0) 0).l0 (tensorBase (tCtx tWork) 0 0)).toNat) = 0 ∧
    after 0 (exec (.movs 0 .fp32 true 2 1) (tRun { tWork with l0 := [(tensorBase (tCtx tWork) 0 0, 9)] }))
      (fun t => (rdByte (getC t 0).vmem (tensorBase (tCtx tWork) 0 2)).toNat) = 9 := by decide +kernel

theorem test_witness_move_frame :
    let s := tRun tWork; let c := ctxAt s 0 0; let k := workAt s 0 0
    viewLevel c (getV k 1) = 0 ∧ viewLevel c (getV k 2) ≠ 0 ∧
    ¬ inPlace (viewPlace c 0 (getV k 2) 0) (tensorBase c 0 2 + 4) ∧ inPlace (viewPlace c 0 (getV k 2) 0) (tensorBase c 0 2 + 3) := by
  simp only [inPlace]; decide +kernel

theorem test_witness_turned_away :
    let r := fun (k : Worker) => Ready (tRun k) 0 0
    (r { tWork with gq := [⟨.zero .fp32 0, none⟩] } ∧ griddleBusy { tWork with gq := [⟨.zero .fp32 0, none⟩] } = true) ∧
    (r { tWork with gf := [⟨0, ⟨.fp32, 0⟩, 0, none⟩] }) ∧ ((getF tWork 3).toNat < (getS tWork 1).toNat) ∧
    (r { tWork with slots := [(0, some ⟨.read, 0, 1, 9, 9, 0, 0, 0, ⟨2, 1, 1, 1, 1, 0⟩, ⟨2, 1, 1, 1, 1, 0⟩, false, 0⟩)] } ∧
      linesOut { tWork with slots := [(0, some ⟨.read, 0, 1, 9, 9, 0, 0, 0, ⟨2, 1, 1, 1, 1, 0⟩, ⟨2, 1, 1, 1, 1, 0⟩, false, 0⟩)] } = true ∧
      (getS tWork 1).toNat < 4000 ∧ tWork.replBits = []) ∧
    (r { tWork with wf := [⟨2, 2, 0, 3⟩] } ∧ viewClash (tCtx tWork) { tWork with wf := [⟨2, 2, 0, 3⟩] } [getV tWork 1] [getV tWork 2] = some .whisk ∧
      viewCount (getV tWork 2) ≠ 0) ∧
    (r { tWork with tickets := [⟨5, none⟩] } ∧ ([⟨5, none⟩] : List Ticket).find? (fun x => decide (x.num = (getS tWork 1).toNat)) = some ⟨5, none⟩) := by
  simp only [Ready]; decide +kernel

theorem test_witness_halts :
    let s := tRun tWork; let c := ctxAt s 0 0; let k := workAt s 0 0
    Ready s 0 0 ∧ (4000 ≤ (getS k 4).toNat ∧ k.replBits = []) ∧
    (viewCount (getV k 3) ≠ 0 ∧ viewClash c k [getV k 1] [getV k 3] = none ∧ destHeld c 0 (getV k 3) (viewCount (getV k 3)) = false ∧
      viewIs c .fp32 (getV k 3) = false ∧ viewIs c .int32 (getV k 1) = false ∧ viewCount (getV k 1) < viewCount (getV k 4)) ∧
    (let o : WOp := ⟨.bin .add, 0x0C1, .fp32, none, getV k 2, getV k 1, getV k 3, 0, 0⟩
     binAccepts .add .fp32 = true ∧ whiskEmpty k o = false ∧ whiskWait c 0 k o = none ∧ whiskBad c k o = true) ∧
    c.n ≤ (getS k 1).toNat ∧ (∀ t ∈ k.tickets, t.num ≠ (getS k 1).toNat) ∧ c.modState = .running ∧ (tget [] s.pkg.stew (dieOf 0)).length < 64 := by
  simp only [Ready]; decide +kernel

theorem test_fset_out_of_range_halts :
    after .idle (exec (.fset 0 4 1 0) (tRun tWork)) (fun t => (getW (getC t 0) 0).run) = .halted 0x0101 ∧
    after .none (exec (.fset 0 4 1 0) (tRun tWork)) (fun t => (getC t 0).modState) = .halting := by decide +kernel
/-- A worker whose Griddle has `g` to issue. -/
def tGrid (g : GOp) : Worker := { tWork with gq := [⟨g, none⟩], gf := [⟨1, ⟨.fp32, 0⟩, 0, none⟩] }

/-- The worker's state as the Griddle's issue finds it, its latch sets filled: what `griddleOp` answers for the op that stands first. -/
def tStaged (k : Worker) : Option (Option Nat × GIssue) :=
  let r := stage (tRun k) (tCtx k) 0 k
  r.2.2.gq.head?.map (fun g => (g.set, griddleOp r.2.1 r.2.2 g))

/-- A load that is staged into set 0 and flies; an op whose operands fail; one of no elements; and one that waits for a Whisk write. -/
theorem test_witness_griddle :
    Ready (tRun tWork) 0 0 ∧ Fmt.int8 ≠ .int32 ∧ runningId (tRun (tGrid (.zero .fp32 0))) = some 0 ∧
    griddleMay (tRun tWork) (tCtx tWork) 0 (tGrid (.zero .fp32 0)) = true ∧ (tGrid (.zero .fp32 0)).gf = ⟨1, ⟨.fp32, 0⟩, 0, none⟩ :: [] ∧
    (match tStaged (tGrid (.ld 0 ⟨0, 1, 1, 1, 1, 0⟩)) with | some (some 0, .flight _ 1 0 0) => true | _ => false) = true ∧
    (match tStaged (tGrid (.ld 0 ⟨3, 1, 1, 1, 1, 0⟩)) with | some (none, .operand) => true | _ => false) = true ∧
    (match tStaged (tGrid (.mma .int8 .int8 true 0 View.empty View.empty 1)) with | some (none, .nothing) => true | _ => false) = true ∧
    (let k := { tGrid (.ld 0 ⟨2, 1, 1, 1, 1, 0⟩) with wf := [⟨2, 2, 0, 3⟩] }
     (match tStaged k with | some (none, .flight _ _ _ _) => true | _ => false) = true ∧ gopStages (.ld 0 ⟨2, 1, 1, 1, 1, 0⟩) = true ∧
     gopTrouble (tCtx k) 0 k (.ld 0 ⟨2, 1, 1, 1, 1, 0⟩) = none) := by
  unfold Ready; decide +kernel

theorem test_witness_griddle_results :
    (tileTypeOf .fp32 = some .fp32 ∧ griddleOp (tCtx tWork) tWork ⟨.zero .fp32 0, none⟩ = .flight ⟨0, ⟨.fp32, 0⟩, 0, none⟩ 1 0 0) ∧
    griddleOp (tCtx tWork) tWork ⟨.ld 0 ⟨3, 1, 1, 1, 1, 0⟩, none⟩ = .operand ∧
    (let k := tGrid (.ld 0 ⟨0, 1, 1, 1, 1, 0⟩)
     (k.gq.find? (fun g => gopStages g.op && g.set.isNone)).isSome = true ∧ setFree k k.nextSet = true ∧
     gopShapeBad (tCtx k) (.ld 0 ⟨0, 1, 1, 1, 1, 0⟩) = false ∧ fillBlocked (tCtx k) k (.ld 0 ⟨0, 1, 1, 1, 1, 0⟩) = false ∧
     gopTrouble (tCtx k) 0 k (.ld 0 ⟨0, 1, 1, 1, 1, 0⟩) = none) := ⟨⟨rfl, rfl⟩, rfl, by decide +kernel⟩

/-- R100: the sets take turns; the third load has to wait until one is free. -/
theorem test_latch_sets_take_turns :
    let g : GWait := ⟨.ld 0 ⟨0, 1, 1, 1, 1, 0⟩, none⟩
    let k := { tWork with gq := [g, g, g] }
    (stage (tRun k) (tCtx k) 0 k).2.2.gq.map (·.set) = [some 0, some 1, none] := by decide +kernel

/-- GZERO joins the issue order, issues, and on completion leaves +0 of its type. -/
theorem test_gzero_issues :
    after 9 (exec (.gzero 0 .fp64 2) (tRun tWork)) (fun t => (getW (getC t 0) 0).gq.length) = 1 ∧
    after [] (exec (.griddleIssue 0 0 0 false) (tRun { tWork with gq := [⟨.zero .fp64 2, none⟩] })) (fun t => (getW (getC t 0) 0).gf.map (·.tile.type)) = [.fp64] ∧
    after .fp32 (exec (.griddleComplete 0 false) (tRun { tWork with gf := [⟨2, ⟨.int32, 0⟩, 0, none⟩] })) (fun t => (getT (getW (getC t 0) 0) 2).type) = .int32 := by
  decide +kernel

theorem test_witness_tiles :
    tileTypeOf .int32 = some .int32 ∧ viewCount (getV tWork 1) ≠ 0 ∧ viewFmt (tCtx tWork) (getV tWork 1) = some (tileFmt .fp32) ∧
    (getV tWork 1).rows ≤ tileRows .fp32 ∧ (getV tWork 1).cols ≤ 4 ∧ 3 < tileRows .fp32 ∧
    gmmaElem .int8 .int8 .rne (fun _ _ => 0x80) (fun _ _ => 0x80) 8 8 1 0 0 5 = (131077, 0) := by decide +kernel

/-- A worker whose views hold 32 elements of the pool, more than a register group holds, one of them under VL: v1 and v2 of FP32, v3 of INT32. -/
def tWide : Worker :=
  { tWork with vl := 1, v := [(1, ⟨2, 1, 32, 32, 1, 0⟩), (2, ⟨2, 1, 32, 32, 1, 32⟩), (3, ⟨1, 1, 32, 32, 1, 0⟩)] }

/-- v1 + v1 into v2, and the other element-wise shapes on one element. -/
theorem test_witness_whisk :
    let s := tRun tWide; let k := workAt s 0 0; let E := View.empty
    whiskFree s 0 0 ⟨.bin .add, 0x0C1, .fp32, none, getV k 2, getV k 1, getV k 1, 0, 0⟩ ∧
    whiskFree s 0 0 ⟨.fma, 0x0C2, .fp32, none, getV k 2, getV k 1, getV k 1, 0, 0⟩ ∧
    whiskFree s 0 0 ⟨.un .neg, 0x0C3, .fp32, none, getV k 2, getV k 1, E, 0, 0⟩ ∧
    whiskFree s 0 0 ⟨.act .relu, 0x0C4, .fp32, none, getV k 2, getV k 1, E, 0, 0⟩ ∧
    whiskFree s 0 0 ⟨.cvt, 0x0C5, .fp32, none, getV k 2, getV k 3, E, 0, 0⟩ ∧
    whiskFree s 0 0 ⟨.cmp .lt, 0x0C6, .fp32, none, E, getV k 1, getV k 1, 0, 0⟩ ∧
    whiskFree s 0 0 ⟨.sel 1, 0x0C7, .fp32, none, getV k 2, getV k 1, getV k 1, 0, 0⟩ ∧
    whiskFree s 0 0 ⟨.gth, 0x0CA, .fp32, none, getV k 2, getV k 1, getV k 3, 0, 0⟩ ∧
    whiskFree s 0 0 ⟨.sct, 0x0CB, .fp32, none, getV k 2, getV k 1, getV k 3, 0, 0⟩ ∧
    (let s := tRun tWork
     whiskFree s 0 0 ⟨.acc none 0 0, 0x0C8, .fp32, none, getV (workAt s 0 0) 2, E, E, 0, 1⟩) ∧
    binAccepts .add .fp32 = true ∧ isLong .fp32 = true ∧ unAccepts .neg .fp32 = true := by
  simp only [whiskFree]; decide +kernel

/-- 1.0 + 1.0 = 2.0 in FP32. -/
theorem test_wbin_add :
    let c : Context := { tCtx tWide with vmem := [(tensorBase (tCtx tWork) 0 2 + 2, 0x80), (tensorBase (tCtx tWork) 0 2 + 3, 0x3F)] }
    after 0 (exec (.wbin 0 .fp32 .add none 2 1 1) (tDev c))
      (fun t => readElem (getC t 0) 0 (getW (getC t 0) 0) (getV tWide 2) 0) = 0x40000000 := by decide +kernel

theorem test_wcmp_sets_mask :
    after false (exec (.wcmp 0 .fp32 .eq none 3 1 2) (tRun tWide)) (fun t => (getM (getW (getC t 0) 0) 3).getLsbD 0) = true := by decide +kernel

theorem test_witness_elements :
    let c := tCtx tWide; let k := tWide
    let op : WOp := ⟨.bin .add, 0x0C1, .fp32, none, getV k 2, getV k 1, getV k 3, 0, 0⟩
    (∀ o : Fin 3, srcFine c 0 k op (getV k 1) 0 o.val) ∧ srcFine c 0 k { op with kind := .gth } (getV k 3) 0 1 ∧
    destOpen c k (viewPlace c 0 (getV k 2) 0) ∧
    viewFmt c (getV k 1) = some .fp32 ∧ srOp k ⟨.cvt, 0x0C5, .fp32, none, getV k 2, getV k 1, View.empty, 0, 0⟩ = false ∧
    srOp { k with acw := 4 } ⟨.cvt, 0x0C5, .jf16, none, getV k 2, getV k 1, View.empty, 0, 0⟩ = true ∧
    0 ≤ indexAt c 0 k (getV k 3) 0 ∧ indexAt c 0 k (getV k 3) 0 < viewCount (getV k 1) ∧
    (let c' : Context := { c with vmem := [(tensorBase c 0 1, 32)] }
     ((viewCount (getV k 1) : Nat) : Int) ≤ indexAt c' 0 k (getV k 3) 0) ∧
    (let c' : Context := { c with vmem := [(tensorBase c 0 1 + 3, 0x80)] }
     indexAt c' 0 k (getV k 3) 0 < 0) := by simp only [srcFine, destOpen]; decide +kernel

theorem test_witness_walk :
    let op : WOp := ⟨.bin .add, 0x0C1, .fp32, some 1, getV tWide 2, getV tWide 1, getV tWide 1, 0, 0⟩
    let cmp : WOp := ⟨.cmp .eq, 0x0C6, .fp32, none, View.empty, getV tWide 1, getV tWide 1, 3, 0⟩
    let gth : WOp := ⟨.gth, 0x0CA, .fp32, none, getV tWide 2, getV tWide 1, getV tWide 3, 0, 0⟩
    let c' : Context := { tCtx tWide with vmem := [(tensorBase (tCtx tWork) 0 1, 32)] }
    whiskMasked tWide op 0 = true ∧ whiskMasked { tWide with m := [(1, 1)] } op 0 = false ∧ whiskMasked tWide cmp 4095 = false ∧
    elemStep (tCtx tWide) 0 tWide op 0 = .ok (.elem (viewPlace (tCtx tWide) 0 (getV tWide 2) 0) 0, 0) ∧
    elemStep (tCtx tWide) 0 tWide cmp 0 = .ok (.mask true, 0) ∧
    elemStep c' 0 tWide gth 0 = .error ⟨0x01, 1, 2, 32, 0⟩ ∧
    viewLevel (tCtx tWide) op.d ≠ 0 ∧ op.kind.isCmp = false ∧ viewLevel (tCtx tWork) (getV tWork 1) = 0 ∧ (2 : MReg) ≠ cmp.dm := by decide +kernel

theorem test_witness_reduction :
    let s := tRun tWide; let c := ctxAt s 0 0; let k := workAt s 0 0
    let op : WOp := ⟨.red .plain .sum, 0x0C9, .fp32, none, getV k 2, getV k 1, View.empty, 0, 0⟩
    let none' : WOp := { op with msk := some 1 }
    Ready s 0 0 ∧ redAccepts .plain .sum .fp32 = true ∧ redAccepts .exact .sum .fp32 = true ∧ whiskWait c 0 k op = none ∧
    whiskBad c k op = false ∧ destOpen c k (viewPlace c 0 (getV k 2) 0) ∧ (∀ i : Fin 32, srcFine c 0 k op (getV k 1) i.val 0) ∧
    viewCount (getV k 1) = 32 ∧ (∀ i : Fin 32, whiskMasked k none' i.val = true) ∧
    redValue .plain .sum .fp32 .fp32 (rmOf k.acw) [0x3F800000, 0x3F800000] = .value 0x40000000 0 ∧
    (exactSum ([0x3F800000, 0x40000000].map (decode .fp32))).isSome = true := by
  simp only [Ready, srcFine, destOpen]; decide +kernel

theorem test_witness_resume :
    let op : WOp := ⟨.un .neg, 0x0C3, .fp32, none, getV tWork 2, getV tWork 1, View.empty, 0, 0⟩
    let held : Context := { tCtx tWork with pages := [(tensorBase (tCtx tWork) 0 2 / 65536, 0x2000)] }
    runningId (tRun { tWork with stopped := some op }) = some 0 ∧ stopGoesOn (tCtx tWork) { tWork with stopped := some op } = true ∧
    resumeReady (tCtx tWork) 0 tWork op = true ∧ resumeReady held 0 tWork op = false ∧
    ([⟨2, 2, 0, 3⟩] : List Extent) = ⟨2, 2, 0, 3⟩ :: [] := by decide +kernel

theorem test_whisk_complete : after 9 (exec (.whiskComplete 0) (tRun { tWork with wf := [⟨2, 2, 0, 3⟩] })) (fun t => (getW (getC t 0) 0).wf.length) = 0 := by
  decide +kernel

/-! ### Flags, tickets, barriers, streams, step points -/

/-- A dense problem of order 1 in the resident area. -/
def tDesc : Desc := BitVec.ofNat 2048 (1 + 2 ^ 64 + 2 ^ (8 * 0x18) + 2 ^ 63 * 2 ^ (8 * 0x40) + (2 ^ 63 + 8) * 2 ^ (8 * 0x68) + (2 ^ 63 + 16) * 2 ^ (8 * 0x70))

/-- The same with its matrix in tensor 2 of the pool. -/
def tDescL2 : Desc := tDesc - BitVec.ofNat 2048 (2 ^ 63 * 2 ^ (8 * 0x40)) + BitVec.ofNat 2048 ((2 ^ 62 + 2 * 2 ^ 50) * 2 ^ (8 * 0x40))

theorem test_witness_flags :
    let k : Worker := { tWork with s := [(1, 5), (5, 3999)], tickets := [⟨5, some 3⟩] }
    let s := tDev { tCtx k with binds := [⟨0, 0, 0, 0⟩] }
    let c := ctxAt s 0 0; let k := workAt s 0 0
    Ready s 0 0 ∧ k.replBits = [] ∧ linesOut k = false ∧ (getS k 0).toNat = 0 ∧ (getS k 5).toNat = 3999 ∧ (getS k 5).toNat < 4000 ∧
    (getS k 0).toNat ≤ (getF k 63).toNat ∧ k.tickets.find? (fun x => decide (x.num = (getS k 1).toNat)) = some ⟨5, some 3⟩ ∧
    viewIs c .int32 (getV k 4) = true ∧ unitStride (getV k 4) = true ∧ viewCount (getV k 4) = 64 ∧ homeLevel c (getV k 4) ≠ 1 ∧
    c.binds.find? (fun x => decide (x.num = 0)) = some ⟨0, 0, 0, 0⟩ ∧ k.tickets.length < 16 ∧ (getQ s 0).waiting.length < 32 ∧
    viewClash c k [getV k 4] [] = none ∧ moveTrouble c 0 k [(getV k 4, List.range 64, false, false)] = none := by
  unfold Ready; decide +kernel

theorem test_fset_adds :
    after 0 (exec (.fset 0 0 200 3) (tRun { tWork with f := [(3, 100)] })) (fun t => (getF (getW (getC t 0) 0) 3).toNat) = 300 := by decide +kernel

theorem test_swait_takes :
    after (0, 9) (exec (.swait 0 6 1) (tRun { tWork with tickets := [⟨5, some 0x20⟩] }))
      (fun t => ((getS (getW (getC t 0) 0) 6).toNat, (getW (getC t 0) 0).tickets.length)) = (0x20, 0) := by decide +kernel

/-- What a check of a descriptor answers: 0 where it passes, else its code. -/
def tCode {α : Type} (x : Except Nat α) : Nat :=
  match x with
  | .ok _ => 0
  | .error e => e

/-- Descriptors that pass the accept stage, on either path, and one that fails it. -/
theorem test_witness_solve :
    tCode (acceptDesc (tRun tWork) (tCtx tWork) 0 0 tDesc) = 0 ∧ pathOk (tRun tWork) 0 0 tDesc false = true ∧
    tCode (acceptDesc (tRun tWork) (tCtx tWork) 0 0 (tDesc + 256)) = 0 ∧ pathOk (tRun tWork) 0 0 (tDesc + 256) false = false ∧
    tCode (acceptDesc (tRun tWork) (tCtx tWork) 0 0 0) = 0x0010 := by decide +kernel
/-- A context whose workers of the list `l` are all `k`. -/
def tAll (l : List Nat) (k : Worker) : Context := { tCtx k with workers := l.map (fun i => (i, k)) }

theorem getW_tAll (l : List Nat) (k : Worker) (i : Nat) (hi : i ∈ l) : getW (tAll l k) i = k := by
  show tget Worker.initial (l.map (fun i => (i, k))) i = k
  induction l with
  | nil => cases hi
  | cons a l ih =>
    by_cases e : a = i
    · simp [tget, e]
    · rcases List.mem_cons.1 hi with rfl | hi
      · exact absurd rfl e
      · simpa [tget, e] using ih hi

theorem test_witness_barriers :
    (let s := tRun tWork; let c := ctxAt s 0 0; let k := workAt s 0 0
     Ready s 0 0 ∧ k.replBits = [] ∧ k.wf = [] ∧ remoteBusy k = false ∧ k.gq = [] ∧ k.gf = [] ∧ (∀ p ∈ c.workers, p.2.run ≠ .ended) ∧
     (1 ∈ barScope 0 .die ∧ 1 ≠ 0 ∧ (getW c 1).run ≠ .atBar .die)) ∧
    (∀ i ∈ barScope 0 .device, i ≠ 0 → (getW (tAll (List.range 4000) { tWork with run := .atBar .device }) i).run = .atBar .device) ∧ Scope.device ≠ .job := by
  refine ⟨by unfold Ready; decide +kernel, fun i hi _ => ?_, by decide⟩
  rw [getW_tAll (List.range 4000) _ i hi]

/-- An input that has come for the step in progress, and an open output stream of the context. -/
def tStreams : State :=
  { tDev { tCtx tWork with inputs := [(0, 0)] } with eth := { EthState.reset with streams := [(8, ⟨1, 1, 0, 1, 4, 0, 0, 0, 0, []⟩)] } }

theorem test_witness_streams :
    let s := tStreams; let c := ctxAt s 0 0; let k := workAt s 0 0
    Ready s 0 0 ∧ (modOf c).streams[0]? = some ⟨1, 2, 7⟩ ∧ (0, c.step) ∈ c.inputs ∧ viewCount (getV k 1) ≠ 0 ∧
    viewFmt c (getV k 1) = (tensorOf c 2).map (·.fmt) ∧ viewClash c k [wholeView c 2] [getV k 1] = none ∧
    destHeld c 0 (getV k 1) (min (viewCount (getV k 1)) (viewCount (wholeView c 2))) = false ∧ moveTrouble c 0 k [(wholeView c 2, [0], false, false), (getV k 1, [0], true, false)] = none ∧ min (viewCount (getV k 1)) (viewCount (wholeView c 2)) = 1 ∧
    (modOf c).streams[1]? = some ⟨2, 2, 8⟩ ∧ viewFmt c (getV k 1) = some .fp32 ∧ (tensorOf c 2).map (·.fmt) = some .fp32 ∧
    viewCount (getV k 1) ≤ viewCount (wholeView c 2) ∧ viewClash c k [getV k 1] [wholeView c 2] = none ∧
    destHeld c 0 (wholeView c 2) (viewCount (getV k 1)) = false ∧
    moveTrouble c 0 k [(getV k 1, [0], false, false), (wholeView c 2, [0], true, false)] = none ∧
    (getStream s false 8).state ≠ 0 ∧ (getStream s false 8).ctx = 0 := by
  unfold Ready; decide +kernel

/-- Every worker of a module without streams stands at STEP. -/
def tStand (l : List Nat) : Context := { tAll l { tWork with run := .atStep false } with mod := some { tMod with streams := [] } }

theorem tStand_all (l : List Nat) : ∀ p ∈ (tStand l).workers, p.2 = { tWork with run := .atStep false } := fun p hp => by
  obtain ⟨i, _, rfl⟩ := List.mem_map.1 hp; rfl

theorem tStand_get (l : List Nat) (i : Nat) (hi : i ∈ l) : getW (tStand l) i = { tWork with run := .atStep false } :=
  getW_tAll l { tWork with run := .atStep false } i hi

theorem test_witness_step_point :
    let c := tStand (List.range 4000)
    let s := tDev c
    runningId s = some 0 ∧ getC s 0 = c ∧ isRunning c = true ∧ (∀ i, i < 4000 → atStepPoint (getW c i) = true) ∧
    (∀ p ∈ c.workers, p.2.run ≠ .ended) ∧ sliceHolds s = false ∧ capturePoint s c (c.step + 1) = false ∧ erd c 0x900300 = 0 ∧
    s.ckpt.rplay = false ∧ s.ckpt.rrec = false ∧ c.replDecl = [] ∧ c.haltStream = none ∧ s.pkg.switchTo = none ∧ s.pkg.opNext = none ∧
    (modOf c).streams = [] ∧ c.bulkIn = [] ∧ (∃ i, i < 4000 ∧ (getW c i).run ≠ .atEnd) := by
  have all := tStand_all (List.range 4000)
  have each : ∀ i, i < 4000 → getW (tStand (List.range 4000)) i = { tWork with run := .atStep false } := fun i hi =>
    tStand_get (List.range 4000) i (List.mem_range.2 hi)
  generalize List.range 4000 = l at all each ⊢
  refine ⟨rfl, rfl, rfl, fun i hi => ?_, fun p hp => ?_, rfl, ?_, rfl, rfl, rfl, rfl, rfl, rfl, rfl, rfl, rfl, 0, by decide, ?_⟩
  · rw [each i hi]; rfl
  · rw [all p hp]; decide
  · have hc : (tStand l).workers.any (fun p => decide (p.2.run = .atStep true)) = false := by
      rw [List.any_eq_false]; intro p hp; rw [all p hp]; decide
    exact (Bool.or_eq_false_iff.2 ⟨hc, rfl⟩)
  · rw [each 0 (by decide)]; decide

/-- A step point waits for a worker that has not reached it. -/
theorem test_step_point_waits : after 9 (exec (.stepPointRelease 0 0) (tRun tWork)) (fun t => (getC t 0).step) = 0 := by decide +kernel

theorem test_end_stands : after .idle (exec (.endOp 0) (tRun tWork)) (fun t => (getW (getC t 0) 0).run) = .atEnd := by decide +kernel

/-! ### Remote ops and collectives -/

/-- Device 8 with a route to device 9 by port 0, whose page targets admit what the access tables admit at reset. -/
def tTarget (c : Context) : State :=
  { tDev c with
    ent := [(0x100300, 2), (0x400100, 8), (0x400200, 1), (0x401000, 3), (0x402001, 0x80), (0x703001, 0)],
    pkg := { PkgState.reset with access := accessReset } }

theorem test_witness_remote :
    let s := tRun { tWork with s := [(1, 1)] }; let c := ctxAt s 0 0; let k := workAt s 0 0
    Ready s 0 0 ∧ (getS k 1).toNat < c.n ∧ (getS k 1).toNat ≠ c.rank ∧ remoteL0 c (getV k 2) = false ∧
    min (viewCount (getV k 2)) (viewCount (getV k 1)) = 1 ∧ viewClash c k [] [getV k 1] = none ∧ destHeld c 0 (getV k 1) 1 = false ∧
    replicaOf c 2 = none ∧ viewClash c k [getV k 1] [] = none ∧ moveTrouble c 0 k [(getV k 1, [0], false, false)] = none ∧ (3999 : Fin 4096).val < 4000 ∧
    k.replBits = [] ∧ (k.flags.filter (fun h => !h.sent)).length < 8 ∧ getS k 1 ≠ BitVec.allOnes 64 ∧
    ((tensorOf c 2).map (·.level)) = some 2 ∧ 1 ≤ (8 : Fin 16).val ∧ (8 : Fin 16).val ≤ 8 := by
  unfold Ready; decide +kernel

/-- RWRITE of one element takes slot 0 and leaves on VC1 as a WRITE_REQ of four bytes. -/
theorem test_rwrite_sends :
    after (0, 0) (exec (.rwrite 0 2 1 1) (tTarget (tCtx { tWork with s := [(1, 1)] })))
      (fun t => ((getW (getC t 0) 0).slots.length, ((getLink t 0).queue.map (fun f => (f.rp.map (fun p => p.mask.toNat)).getD 0)).foldl (· + ·) 0)) = (1, 15) := by
  decide +kernel

theorem test_witness_collective_ops :
    let s := tRun tWork; let c := ctxAt s 0 0; let k := workAt s 0 0
    Ready s 0 0 ∧ redAccepts .plain .sum .fp32 = true ∧ redAccepts .exact .sum .fp32 = true ∧ (getS k 0).toNat < c.n ∧
    collFree c k 0 2 1 (collRequest c k 0 .allred .fp32 .plain .sum (redField .plain .sum) 4096 2 1 0) ∧
    collFree c k 0 9 8 (collRequest c k 0 .rscat .fp32 .exact .sum (redField .exact .sum) 4096 9 8 0) ∧
    collFree c k 0 9 8 (collRequest c k 0 .agth .fp32 .plain .sum 0 0 9 8 0) ∧
    collFree c k 0 2 1 (collRequest c k 0 .bcst .fp32 .plain .sum 0 262144 2 1 0) ∧
    collFree c k 0 9 8 (collRequest c k 0 .a2a .fp32 .plain .sum 0 0 9 8 0) := by
  simp only [Ready, collFree]; decide +kernel

/-- A request of worker 0, and a collective of such requests, the second of them with signature `x`. -/
def tReq (x : BitVec 64) : CollReq := ⟨0, .bcst, .fp32, .plain, .sum, 0, 0, 0, ⟨2, 1, 1, 1, 1, 0⟩, ⟨0, 1, 1, 1, 1, 0⟩, .fp32, x⟩
def tColl (x : BitVec 64) (more : List CollReq) : Coll := { Coll.fresh with reqs := tReq 0 :: tReq x :: more }

theorem test_witness_device_entry :
    let more := List.replicate 3998 (tReq 0)
    (∀ x, let c := { tCtx tWork with coll := some (tColl x more) }
      runningId (tDev c) = some 0 ∧ isRunning c = true ∧ c.coll = some (tColl x more) ∧ (tColl x more).entered = false ∧
      (tColl x more).reqs = tReq 0 :: tReq x :: more ∧ (tColl x more).reqs.length = 4000) ∧
    (∃ r ∈ tReq 1 :: more, r.sig ≠ (tReq 0).sig) ∧ (∀ r ∈ tReq 0 :: more, r.sig = (tReq 0).sig) ∧
    entryTrouble (tCtx tWork) (tColl 0 more).reqs = none ∧ 1 < (tCtx tWork).n := by
  have len : (List.replicate 3998 (tReq 0)).length + 2 = 4000 := by rw [List.length_replicate]
  have eq : ∀ r ∈ List.replicate 3998 (tReq 0), r = tReq 0 := fun r hr => (List.mem_replicate.1 hr).2
  generalize List.replicate 3998 (tReq 0) = more at len eq ⊢
  have all : ∀ r ∈ tReq 0 :: tReq 0 :: more, r = tReq 0 := fun r hr => by
    rcases List.mem_cons.1 hr with h | hr
    · exact h
    · rcases List.mem_cons.1 hr with h | hr
      · exact h
      · exact eq r hr
  refine ⟨fun x => ⟨rfl, rfl, rfl, rfl, rfl, len⟩, ⟨tReq 1, List.mem_cons_self, by decide⟩, fun r hr => ?_, ?_, by decide⟩
  · rw [all r (List.mem_cons_of_mem _ hr)]
  · exact List.findSome?_eq_none_iff.2 (fun r hr => by rw [all r hr]; decide +kernel)

/-! ### Packets -/

def tFlit : Flit := ⟨0, 1, 1, 8, 9, 1, 1, 0, false⟩
def tPkt (a : BitVec 64) : RPkt := ⟨a, 0, 0, 0, 0, 0, 0, 0⟩

/-- A replica of device 9's region and the partner's memory (R244, R249). -/
theorem test_witness_spaces :
    let s := tTarget (tCtx tWork)
    let f := tFlit
    let on := fun (v : Nat) => { f with vc := v }
    (let s := tTarget { tCtx tWork with replicas := [⟨2, 1⟩], replLines := [⟨1, 0x10000, 7⟩] }
     let c := getC s 0
     Admitted s (on 4) (tPkt 0x3000000000010000) [4] [3] false false false ∧ rankOf c 9 = some 1 ∧ regionAt c 0x10000 = some ⟨2, 1⟩ ∧
     Admitted s f (tPkt 0x3000900000010000) [1, 4] [0, 1, 3] false false false ∧ addrDevice 0x3000900000010000 ≠ ownId s ∧
     c.replLines.find? (fun l => decide (some l.home = rankOf c (addrDevice 0x3000900000010000) ∧ l.line = 0x10000)) = some ⟨1, 0x10000, 7⟩) ∧
    (let s := wr s 0x800201 9
     let a := BitVec.ofNat 64 (buddyBase s)
     Admitted s f (tPkt a) [1, 4] [0, 1, 3] false false false ∧ Admitted s f (tPkt a) [1, 4] [0, 1, 3] true true false ∧ addrSpace a = 0) := by
  simp only [Admitted]; decide +kernel

theorem test_witness_requests :
    let s := tTarget (tCtx tWork)
    let f := tFlit
    let on := fun (v : Nat) => { f with vc := v }
    Admitted s f (tPkt 0x1000000000000000) [1, 4] [0, 1, 3] false false false ∧ Admitted s (on 4) (tPkt 0x1000000000000000) [1, 4] [0, 1, 3] false false false ∧
    addrSpace 0x1000000000000000 = 1 ∧ rangeBad (getC s 0) 0 128 = false ∧
    Admitted s f (tPkt 0x1000000000010080) [1, 4] [0, 1, 3] true true false ∧ sieveHolds s 0 0x10080 = false ∧ pageWaits (getC s 0) 1 = false ∧
    Admitted s f (tPkt 0x1000000000000080) [1] [1, 3] true true false ∧ Admitted s (on 6) (tPkt 0x200000000003E7FF) [6] [2] true false true ∧
    Admitted s f (tPkt 0x3000000000000000) [1] [3] false false false := by
  simp only [Admitted]; decide +kernel

/-- A write of the bytes under its mask, at the first and the last byte of its line. -/
theorem test_write_req :
    after [] (exec (.writeReq tFlit { tPkt 0x1000000000010080 with mask := 1 + 2 ^ 127, data := 0xAB + 0xCD * 2 ^ 1016 }) (tTarget (tCtx tWork)))
      (fun t => (getC t 0).vmem) = [(0x10080, 0xAB), (0x100FF, 0xCD)] := by decide +kernel

theorem test_flag_inc :
    after 0 (exec (.flagInc { tFlit with vc := 6 } { tPkt 0x2000000000000003 with inc := 7 }) (tTarget (tCtx tWork)))
      (fun t => (getF (getW (getC t 0) 0) 3).toNat) = 7 := by decide +kernel

theorem test_witness_refused :
    let s := tTarget (tCtx tWork)
    packetArrives s tFlit [1, 4] = true ∧ packetArrives s { tFlit with vc := 2 } [1, 4] = false ∧
    ({ tFlit with resv := true }).resv = true ∧ reqReserved (tPkt 0x1000000000000000) true false = false ∧ (0 : Nat) ≠ rd s 0x400200 % 65536 ∧
    tFlit.epoch = rd s 0x400200 % 65536 ∧ layoutPages (modOf (getC s 0)) * pageBytes ≤ addrOffset 0x1000000000020000 ∧ addrSpace 0x1000000000020000 = 1 ∧
    addrOffset 0x100000000001FF80 < layoutPages (modOf (getC s 0)) * pageBytes ∧ addrOffset 0x100000000001FF80 % 128 = 0 ∧
    (getC s 1).live = false ∧ 10 ∉ (getC s 0).ids := by decide +kernel

theorem test_bad_address_status :
    after [] (exec (.writeReq tFlit (tPkt 0x1000000000020000)) (tTarget (tCtx tWork))) (fun t => (getLink t 0).queue.map (fun f => (f.rp.map (·.status)).getD 0)) = [2] := by
  decide +kernel

/-- An outstanding request of kind `k` in slot `i`. -/
def tSlot (k : RKind) (alloc : Bool) : RReq := ⟨k, 0, 1, 9, 9, 0, 0, 0, ⟨2, 1, 1, 1, 1, 0⟩, ⟨0, 1, 1, 1, 1, 0⟩, alloc, 0⟩

theorem test_witness_answers :
    let k : Worker := { tWork with
      slots := [(0, some (tSlot .read false)), (1, some (tSlot .read true)), (2, some (tSlot .write false)), (3, some (tSlot .writec false)),
        (63, some (tSlot .inv false))], flags := [⟨0, 9, 0, 0, 1, true⟩] }
    let s := tTarget (tCtx k)
    Answers s { tFlit with vc := 2 } (tPkt 0) 2 ∧ Answers s { tFlit with vc := 2 } { tPkt 0 with tag := 63 } 2 ∧
    ¬ Answers s { tFlit with vc := 2 } { tPkt 0 with tag := 64 } 2 ∧ Answers s { tFlit with vc := 6 } (tPkt 0) 6 ∧
    masterCluster 0 = 0 ∧ masterCluster (7 * 1024 + 499) = 3999 ∧
    tget none k.slots 0 = some (tSlot .read false) ∧ tget none k.slots 1 = some (tSlot .read true) ∧ tget none k.slots 2 = some (tSlot .write false) ∧
    tget none k.slots 3 = some (tSlot .writec false) ∧ tget none k.slots 63 = some (tSlot .inv false) ∧
    k.flags = ⟨0, 9, 0, 0, 1, true⟩ :: [] ∧ ({ tPkt 0 with status := 3 }).status ≠ 0 ∧ addrSpace 0 ≠ 2 ∧ runningId s = some 0 := by
  simp only [Answers]; decide +kernel

theorem test_write_ack_frees_slot :
    after 9 (exec (.writeAck { tFlit with vc := 2 } { tPkt 0 with tag := 2 }) (tTarget (tCtx { tWork with slots := [(2, some (tSlot .write false))] })))
      (fun t => (getW (getC t 0) 0).slots.length) = 0 := by decide +kernel

theorem test_witness_failed : (tCtx tWork).modState = .running := rfl

/-- A store at a slice's queue, and an entry that has merged. -/
def tSieve : State :=
  { tDev (tCtx tWork) with fab := { FabState.reset with sieves := [(0, ⟨[⟨63, 0, 0x10000, 1, 0, true, 0⟩], [⟨0, 0x10000, 1, 0xAB, none, none⟩, ⟨0, 0x20000, 1, 0, none, none⟩]⟩)] } }

theorem test_witness_sieve :
    (sieveOf tSieve 0).queue = ⟨0, 0x10000, 1, 0xAB, none, none⟩ :: [⟨0, 0x20000, 1, 0, none, none⟩] ∧
    (∃ y ∈ (sieveOf tSieve 0).entries, y.ctx = 0 ∧ y.line = 0x10000) ∧ (∀ y ∈ (sieveOf tSieve 0).entries, y.idx ≠ 0) ∧
    entryAt tSieve 0 63 = some ⟨63, 0, 0x10000, 1, 0, true, 0⟩ ∧ pageProtected (getC tSieve 0) (0x10000 / pageBytes) = false := by decide +kernel

theorem test_sieve_merge : after 0 (exec (.sieveMerge 0 0) tSieve) (fun t => (rdByte (getC t 0).vmem 0x10000).toNat) = 0xAB := by decide +kernel

theorem test_witness_collective_packets :
    let s := tTarget { tCtx tWork with checks := [(false, 3, 0)], coll := some { tColl 0 [] with entered := true } }
    packetArrives s { tFlit with vc := 3 } [3] = true ∧ packetArrives s tFlit [3] = false ∧ runningId s = some 0 ∧ tFlit.resv = false ∧ tFlit.epoch = rd s 0x400200 % 65536 ∧ (getC s 0).step < 1 ∧ (getC s 0).collSeq ≤ 0 ∧
    (0 : Nat) ≠ rd s 0x400200 % 65536 ∧ (s.ctxs.find? (fun p => !p.2.checks.isEmpty)).map (·.1) = some 0 ∧
    (getC s 0).checks = (false, 3, 0) :: [] ∧ ((getC s 0).coll.map (·.entered)) = some true ∧ (getC s 0).live = true := by decide +kernel
/-! ### Entry writes -/

/-- Whether a write of `bs` to entry `k` passes the dictionary's checks. -/
def tAdmits (s : State) (r : Req) (k : Nat) (bs : List Byte) : Bool :=
  decide (checkHead r.path (reqRec r k bs) = none) && (decide (deviceState s ≠ 5) || recoveryServes (reqRec r k bs))
    && (match entryOf k with | some e => decide (checkEntry s r.path (reqRec r k bs) e = none) | none => false)

theorem tAdmits_admits (s : State) (r : Req) (k : Nat) (bs : List Byte) (h : tAdmits s r k bs = true) : Admits s r k bs := by
  unfold tAdmits at h
  simp only [Bool.and_eq_true, Bool.or_eq_true, decide_eq_true_eq] at h
  refine ⟨h.1.1, h.1.2, ?_⟩
  cases e : entryOf k with
  | none => rw [e] at h; exact absurd h.2 (by simp)
  | some x => rw [e] at h; exact ⟨x, rfl, of_decide_eq_true h.2⟩

/-- Device 8 with an enrolled owner key, a presence window and its expert entries unlocked, and its owner's requests. -/
def tOwned : State :=
  { tDev (tCtx tWork) with
    ent := [(0x100300, 2), (0x100800, 1), (0x400100, 8), (0x701000, 5), (0x703001, 0)],
    wen := { WenState.reset with window := true, powered := true, sealOk := true } }
def tOwner : Req := ⟨.mgmt, some ⟨1, true⟩, false, 0⟩
def tHost : Req := ⟨.mgmt, none, false, 0⟩

/-- The requests of the rows that write an entry are admitted, each with its value's length. -/
theorem test_witness_admitted :
    [(0x400100, natLe 2 8), (0x400300, natLe 4 65792), (0x403008, natLe 8 0), (0x400201, natLe 4 1), (0x401300, natLe 1 1), (0x40131F, natLe 1 5),
      (0x404001, natLe 1 1), (0x407001, natLe 2 9), (0x501003, natLe 1 1), (0x301004, natLe 4 0), (0x601001, natLe 1 1), (0x601002, natLe 1 0),
      (0x602000, natLe 1 15), (0x200101, natLe 1 2), (0x303000, natLe 2 0), (0x303003, natLe 2 0), (0x800100, natLe 8 1), (0x800200, natLe 2 9),
      (0x800201, natLe 2 9), (0x800400, natLe 4 1), (0x801200, natLe 8 0), (0x802000, natLe 1 1), (0x700400, natLe 64 1), (0x701000, natLe 516 1),
      (0x701100, natLe 516 1), (0x702002, natLe 1 1), (0x702100, natLe 1 1), (0x702200, natLe 1 0x5A), (0x702201, natLe 1 0xA5), (0x700210, natLe 1 7),
      (0x103000, natLe 24 0), (0x103002, natLe 1 0), (0x100500, natLe 1 1), (0x100501, natLe 1 4), (0xA00200, natLe 8 0), (0xC01D00, natLe 1 1),
      (0xC01DFF, natLe 1 3)].all (fun x => tAdmits tOwned tOwner x.1 x.2) = true ∧
    tAdmits tOwned { tOwner with sel := true } 0x901000 (natLe 8 1) = true ∧
    tAdmits tOwned tHost 0x106000 (padTo 8176 []) = true ∧
    tAdmits (drawBytes tOwned 512).2 tOwner 0x701200 (List.replicate 512 0) = true ∧
    tAdmits (drawBytes tOwned 1024).2 tOwner 0x701201 (List.replicate 1024 0) = true := by decide +kernel
/-! ### Fabric -/

theorem test_witness_flits :
    let s := tTarget (tCtx tWork)
    let f : Flit := ⟨0, 1, 1, 9, 10, 1, 8, 0, false⟩
    portCarries s 0 1 1 = true ∧ portCarries s 0 0 1 = true ∧ bufferRoom s 0 1 8 = true ∧ bufferRoom s 0 0 8 = true ∧ f.kind ≠ 0x1E ∧ (getLink s 0).rxSeq = 0 ∧
    f.resv = false ∧ s.pkg.scrubbing = false ∧ f.dest ≠ ownId s ∧ f.hops < 9 ∧ f.vc ≤ 6 ∧ f.vc ≠ 0 ∧ rd s 0x400200 ≠ 0 ∧ (1 : Nat) ≠ (getLink s 0).rxSeq ∧
    (1 + 4096 - (getLink s 0).rxSeq) % 4096 < 2048 ∧ 2048 ≤ (4095 + 4096 - (getLink s 0).rxSeq) % 4096 ∧ (getLink s 0).nakked = none ∧
    (let g : TxFlit := { flitOf 0 0x1B 9 8 1 1 0 with seq := 1 }
     let l : PortLink := { PortLink.initial with nakked := some 1, replay := [(0, g), (1, g)], replays := 7, queue := [g], frame := 100 }
     let s := { s with fab := { s.fab with links := [(0, l)] } }
     (getLink s 0).nakked = some 1 ∧ (1 : Nat) < 2 ∧ l.replay.dropWhile (fun x => decide (x.1 ≠ 0)) ≠ [] ∧
     (l.replay.dropWhile (fun x => decide (x.1 ≠ 1))).length < l.replay.length ∧ 3 ≤ portState s 0 ∧ l.replays < 8 ∧
     (getLink s 0).queue = g :: [] ∧ (getLink s 0).frame ≠ 0 ∧ g.vc = 0 ∧ underCap s (getLink s 0) 0 = true ∧ flitReady s 0 g = true) ∧
    (getLink s 0).queue = [] ∧ portState s 0 ≠ 5 := by decide +kernel

/-- A flit in transit leaves with HOPS raised by one; one out of sequence leaves a NAK instead. -/
theorem test_flit_forward :
    after [] (exec (.flitForward ⟨0, 1, 1, 9, 10, 1, 8, 0, false⟩ ⟨0, 0, 0, 0, 7⟩ true) (tTarget (tCtx tWork)))
      (fun t => (getLink t 0).queue.map (fun x => (x.kind, x.hops, x.raw.map (·.toNat)))) = [(1, 9, some 7)] ∧
    after [] (exec (.flitForward ⟨0, 1, 1, 9, 10, 1, 8, 0, false⟩ ⟨1, 0, 0, 0, 0⟩ true) (tTarget (tCtx tWork))) (fun t => t.fab.tx.map (fun x => (x.kind, x.dest))) = [(0x1D, 0)] := by
  decide +kernel

/-- Port 31 in PORT_STATE `v` with link state `l`. -/
def tPort (v : Nat) (l : PortLink) : State := { State.reset with ent := [(0x40101F, v), (0x405007, 0)], fab := { FabState.reset with links := [(31, l)] } }

theorem test_witness_ports :
    portState (tPort 2 PortLink.initial) 31 = 2 ∧ 2 ≤ portState (tPort 6 PortLink.initial) 31 ∧
    (portState (tPort 3 { PortLink.initial with drain := true }) 31 = 3 ∧ (getLink (tPort 3 { PortLink.initial with drain := true }) 31).drain = true) ∧
    portDrained (tPort 3 { PortLink.initial with drain := true }) 31 = true ∧ laserLow (tPort 2 PortLink.initial) 31 = false ∧
    portDrained (tPort 3 { PortLink.initial with replay := [(0, flitOf 1 1 9 8 1 1 0)] }) 31 = false ∧
    (let s : State := { State.reset with ent := [(0x40101F, 2), (0x405007, 1)] }
     portState s 31 = 2 ∧ laserLow s 31 = true) ∧
    portState (tPort 4 PortLink.initial) 31 = 4 ∧ (getLink (tPort 3 PortLink.initial) 31).drain = false ∧
    (∀ x ∈ (getLink (tPort 3 { PortLink.initial with samples := [0, 256] }) 31).samples, x ≤ 256) := by decide +kernel

theorem test_port_lifecycle :
    after 9 (exec (.portTrained 31) (tPort 2 PortLink.initial)) (fun t => portState t 31) = 3 ∧
    after 9 (exec (.portLossOfLock 31) (tPort 3 PortLink.initial)) (fun t => portState t 31) = 1 ∧
    after 9 (exec (.portDrained 31) (tPort 3 { PortLink.initial with drain := true })) (fun t => portState t 31) = 4 ∧
    after 9 (exec (.recalDone 31) (tPort 4 PortLink.initial)) (fun t => portState t 31) = 2 := by decide +kernel

/-- The tenth sample gives the metric, the mean of ten (R219). -/
theorem test_congestion_mean :
    after 0 (exec (.congestionSample 31 256) (tPort 3 { PortLink.initial with samples := [0, 0, 0, 0, 0, 0, 0, 0, 0] })) (fun t => rd t 0x40141F) = 25 := by
  decide +kernel

theorem test_witness_probes :
    let s : State := { State.reset with ent := [(0x400100, 8), (0x400300, 65792), (0x401000, 3)] }
    placed s = true ∧ expectedPeers s 0 ≠ [] ∧ 2 ≤ portState s 0 ∧ (0xFFFF, 0xFF) ∉ expectedPeers s 0 ∧
    (∃ x, x ∈ expectedPeers s 0 ∧ x.1 < 65536 ∧ x.2 < 256) ∧ (∃ p, p < 32 ∧ expectedPeers s p = []) ∧ portState s 0 ≠ 0 ∧
    (0xFF : BitVec 8).getLsbD 7 = true ∧
    (let s := { s with fab := { s.fab with moving := [1 + 2 * 1] } }
     s.fab.moving = [(1 : Fin 2).val + 2 * 1] ∧ bypassState s < 4) := by
  refine ⟨by decide +kernel, by decide +kernel, by decide +kernel, by decide +kernel, ⟨_, List.head_mem (l := expectedPeers
    { State.reset with ent := [(0x400100, 8), (0x400300, 65792), (0x401000, 3)] } 0) (by decide +kernel), by decide +kernel, by decide +kernel⟩, by decide +kernel,
    by decide +kernel, by decide +kernel, by decide +kernel⟩

theorem test_witness_fabric_writes :
    let s := tOwned
    let t := tTarget (tCtx tWork)
    rd s 0x400200 = 0 ∧ rd t 0x400200 ≠ 0 ∧ (16777216 + 8192 : Nat) = 256 * 65536 + 32 * 256 ∧
    (let b := fun i => (leNat [20, 1, 1, 1, 1, 250, 96, 0]) / 2 ^ (8 * i) % 256
     1 ≤ b 0 ∧ b 0 ≤ 20 ∧ (∀ i ∈ [1, 2, 3, 4, 6], 1 ≤ b i ∧ b i ≤ 96) ∧ b 1 + b 2 + b 3 + b 4 + b 6 = 100 ∧ 1 ≤ b 5 ∧ b 5 ≤ 250 ∧ b 7 = 0) ∧
    (rd s 0x400200 < 1 ∧ ∀ k ∈ routeKeys, routeEntryOk k (tget 0 s.fab.shadow k) = true) ∧ (1 : BitVec 32).toNat ≤ rd t 0x400200 ∧
    (portState t 0 = 3 ∧ solePath t 0 = true) ∧
    (let u : State := { t with ent := [(0x400100, 8), (0x400200, 1), (0x401000, 3), (0x401001, 3), (0x402001, 0x8180)] }
     portState u 0 = 3 ∧ solePath u 0 = false) ∧
    portState (tPort 6 PortLink.initial) 31 ∈ [1, 4, 5, 6] ∧ portState (tPort 6 PortLink.initial) 31 ≠ 0 ∧
    (let u : State := { s with ent := [(0x10101F, 2), (0x405000, 0)] }
     rd u 0x10101F = 2 ∧ rd u 0x405000 = 0) ∧ rd s 0x10101F ≠ 2 := by decide +kernel

/-- DEVICE_ID is refused with ROUTES_COMMITTED once an epoch is set, and the count of refusals rises. -/
theorem test_device_id_committed :
    after (0, 0) (exec (.deviceId tOwner 9) { tOwned with ent := [(0x100300, 2), (0x400100, 8), (0x400200, 1), (0x701000, 5)] })
      (fun t => (rd t 0x400100, rd t 0x100901)) = (8, 1) := by decide +kernel

theorem test_device_id_taken : after 0 (exec (.deviceId tOwner 9) tOwned) (fun t => rd t 0x400100) = 9 := by decide +kernel

/-! ### Configuration, security, maintenance -/

/-- A context that has captured generation 3 at step 5. -/
def tCap : Capture := ⟨3, 5, 0, false, false, false, 2, [], [], [], 0, [], 0, false, false⟩
def tCapDev (rank : Nat) (g : Capture) : State := tDev { tCtx tWork with rank := rank, step := 5, capture := some g }

theorem test_witness_configuration :
    let s := tOwned
    let bound : State := { s with ctxs := [(0, { tCtx tWork with binds := [⟨0, 0, 1, 1⟩] })] }
    (let w := fun i => (0x0101010D : BitVec 32).toNat / 2 ^ (8 * i) % 256
     (∀ i, i < 4 → 1 ≤ w i ∧ w i ≤ 13) ∧ w 0 + w 1 + w 2 + w 3 = 16) ∧
    ((∀ id ∈ liveIds s, ∀ b ∈ (getC s id).binds, ∀ h ∈ bindHalves b, h / 2 ≠ 1) ∧
      (∃ id ∈ liveIds bound, ∃ b ∈ (getC bound id).binds, ∃ h ∈ bindHalves b, h / 2 = 1)) ∧
    ((15 : BitVec 8).toNat < 16 ∧ ∀ h, h < 4 → halfBusy s h = false) ∧
    ((2 : BitVec 8).toNat ≤ 2 ∧ s.pkg.opNext = none ∧ plantsFit { s with ent := (List.range 256).map (fun i => (0xC01E00 + i, 0)) } 280 = true) ∧
    (∀ id ∈ liveIds s, usesLoan (getC s id) = false) ∧
    (let c := { tCtx tWork with lower := [(2, 3)] }
     let u : State := { s with ctxs := [(0, c)], ent := [(0x303000, 9), (0x303001, 1), (0x303002, 9), (0x703001, 0)] }
     0 ∈ liveIds u ∧ usesLoan (getC u 0) = true ∧ rd u 0x303000 ≠ 0xFFFF ∧ rd u 0x303001 ≠ 0 ∧ rd u 0x303002 ≠ 0xFFFF ∧ rd u 0x303000 ≠ 10) ∧
    genInFlight s = false ∧ genInFlight (tCapDev 1 tCap) = true ∧ (getC s 0).live = true ∧ (9 : BitVec 16) ≠ 0xFFFF ∧ gradeA s = true ∧
    s.ckpt.buddy.job = 0 ∧ s.ckpt.buddy.rank = 0 ∧ s.ckpt.buddy.inFlight = false ∧
    ((getC s 0).step = 0 ∧ jobCtx s = some 0 ∧ 1 ∉ s.ckpt.pending ∧ s.ckpt.pending.length < 8 ∧
      ([2, 3, 4, 5, 6, 7, 8, 9] : List Nat).length = 8 ∧ 1 ∉ [2, 3, 4, 5, 6, 7, 8, 9]) ∧
    rd s 0x802001 ∉ [1, 2, 3] ∧ (7 : Nat) < 8 ∧ (8136 : Nat) ≤ 8136 := by decide +kernel

/-- Every rank of the job can restore generation 3 from its buddy, or none can. -/
theorem test_witness_restore_choices :
    restoreChoices 2 3 [3] [(0, 3, 5, 1), (1, 3, 5, 1)] = [(3, 1, 5)] ∧ restoreChoices 2 3 [3] [] = [] := by
  constructor
  · simp [restoreChoices]; rfl
  · simp [restoreChoices]; exact ⟨0, by decide⟩

theorem test_arb_weights :
    after [] (exec (.arbWeightSet tOwner 0x0101010D) tOwned) (fun t => let u := newWeights t; [rd t 0x301000, rd u 0x301000, rd u 0x301001, rd u 0x301002, rd u 0x301003]) = [8, 13, 1, 1, 1] := by
  decide +kernel

theorem test_witness_security :
    let s := tOwned
    rd (wrHost s 0x701100 5) 0x701100 ≠ 0 ∧ s.wen.sealOk = true ∧ ({ s with wen := { s.wen with sealOk := false } } : State).wen.sealOk = false ∧
    (getC s 0).live = true ∧ (0x5B : BitVec 8) ≠ 0x5A ∧ (0xA4 : BitVec 8) ≠ 0xA5 ∧ (7 : BitVec 8).toNat < 8 := by decide +kernel

theorem test_zeroise_magic :
    after 9 (exec (.zeroise tOwner 0x5B) tOwned) (fun t => rd t 0x701000) = 5 ∧ after 9 (exec (.zeroise tOwner 0x5A) tOwned) (fun t => rd t 0x701000) = 0 := by
  decide +kernel

theorem test_witness_maintenance :
    let s := tOwned
    1024 ≤ (1024 * 2 ^ 128 : Nat) / 2 ^ 128 ∧ (67108864 * 2 ^ 128 : Nat) / 2 ^ 128 ≤ 67108864 ∧ (7 : BitVec 8).toNat < 8 ∧ s.wen.staged = none ∧
    liveIds State.reset = [] ∧ (0 : Nat) ∉ [3, 4] ∧ (0 : Nat) ∉ s.wen.stagedOk ∧ s.wen.powered = true ∧ s.wen.guar = [] ∧ s.wen.heldSag = false ∧
    deviceState s ∉ [4, 5] ∧ (getTaster s 0).reqs.length < 64 ∧ 1 ≤ stackRegions s ∧ portState s 0 ≠ 3 ∧
    (let u : State := { s with ent := [(0x101001, 3)] }
     dieState u 0 = 3) ∧
    (let u : State := setTaster s 0 { getTaster s 0 with reqs := List.replicate 64 ⟨2, 5, false⟩ }
     (getTaster u 0).reqs.length = 64 ∧ ∀ q ∈ (getTaster u 0).reqs, q.kind ≠ 1 ∨ q.unit ≠ 5) := by decide +kernel

/-- An image of the device's family whose digest and signature verify. -/
def tImg : FwImage := { type := 0, svn := 0, numUcode := 0, version := 1, family := 1, resv := false, digest := 7, digestOk := true, sigOk := true }
theorem test_witness_images : imageBad tOwned 0 tImg = none ∧ 1024 ≤ 1024 ∧ imageBad tOwned 1 tImg = some 0x070A := by decide +kernel

/-! ### Checkpoint -/

/-- Rank 0's device with its capture, and generation votes `v`. -/
def tVotes (rank : Nat) (v : GenVotes) : State := { tCapDev rank tCap with ckpt := { CkptState.reset with gens := [v] } }
def tShard (rank : Nat) (dirty : Bool) : Shard := ⟨rank, 8, 9, 0, dirty, bit dirty, 2, 0, 0, 0, 0⟩

theorem test_witness_votes :
    (let s := tCapDev 1 tCap
     unvoted s = some (0, tCap) ∧ shardStored s 0 tCap = true ∧ isNewest (getC s 0) 3 = true ∧ (∀ x ∈ (getC s 0).checks, tCap.step ≤ x.2.1) ∧ (getC s 0).rank ≠ 0 ∧
     capturedCtx s 3 = some 0 ∧ capOf (getC s 0) 3 = some tCap ∧ tCap.decided = false ∧ (getC s 0).noCommit = false ∧ recording s 0 = false) ∧
    (let s := tVotes 0 ⟨3, [tShard 0 false], [], 0⟩
     jobCtx s = some 0 ∧ (getC s 0).rank = 0 ∧ (tShard 1 false).rank < (getC s 0).n ∧ (votesOf s 3).state = 0 ∧
     (∀ x ∈ (votesOf s 3).votes, x.rank ≠ 1) ∧ (votesOf s 3).votes.length + 1 = (getC s 0).n ∧
     (∀ x ∈ (votesOf s 3).votes ++ [tShard 1 false], x.dirty = false) ∧
     ((votesOf s 3).votes ++ [tShard 1 true]).find? (fun y => y.dirty) = some (tShard 1 true) ∧ capturedCtx s 3 = some 0 ∧
     (∀ x ∈ (votesOf s 3).votes, x.dirty = false)) ∧
    (let s := tVotes 0 ⟨3, [], [], 0⟩
     (votesOf s 3).votes.length + 1 < (getC s 0).n) ∧
    (let s := tVotes 0 ⟨3, [], [], 1⟩
     (votesOf s 3).state = 1 ∧ 1 < (getC s 0).n ∧ 1 ∉ (votesOf s 3).acks ∧ (votesOf s 3).acks.length + 1 < (getC s 0).n) := by decide +kernel

theorem test_vote_held :
    after [] (exec (.ckptVote 3 (tShard 1 false)) (tVotes 0 ⟨3, [], [], 0⟩)) (fun t => (votesOf t 3).votes.map (·.rank)) = [1] := by decide +kernel

theorem test_abort_restores_written_pages :
    after none (exec (.abort 3 false) (tCapDev 1 tCap)) (fun t => ((getC t 0).capture.map (·.decided))) = some true := by decide +kernel

theorem test_witness_copies :
    (let s := { tDev { tCtx tWork with pages := [(0x80000000, 0x2000)] } with ckpt := { CkptState.reset with heldPages := [(0, 0x80000000)] } }
     nextPage s 0 = some (0, 0x80000000, true) ∧ (tget [] s.ckpt.spool 0).length < 992 ∧ 0x7FFFFFFF < 0x80000000) ∧
    (let s := { tCapDev 1 tCap with ckpt := { CkptState.reset with spool := [(7, [⟨0, 1, 0, false, false, 0, 3⟩])] } }
     tget [] s.ckpt.spool 7 = ⟨0, 1, 0, false, false, 0, 3⟩ :: [] ∧ (getC s 0).capture = some tCap ∧ tCap.reason = 0) ∧
    (let s := { tDev (tCtx tWork) with ckpt := { CkptState.reset with restoreCands := [(3, 1, 5)] }, ent := [(0x703001, 0), (0x802001, 1)] }
     s.ckpt.restoreCands = (3, 1, 5) :: [] ∧ jobCtx s = some 0 ∧ ([(2, 1, 4)] : List (Nat × Nat × Nat)) ≠ [] ∧ rd s 0x802001 = 1 ∧ runningId s = some 0 ∧
     (getC s 0).modState = .running ∧ rd s 0x802001 ∈ [1, 2] ∧ unvoted s = none ∧ s.ckpt.rgapFrom = none) ∧
    ({ tDev (tCtx tWork) with ckpt := { CkptState.reset with rplay := true } } : State).ckpt.rplay = true := by decide +kernel

theorem test_restore_pull_fails :
    after 0 (exec (.restorePullDone false []) { tDev (tCtx tWork) with ckpt := { CkptState.reset with restoreCands := [(3, 1, 5)] } })
      (fun t => rd t 0x801201) = 3 := by decide +kernel

/-! ### Package and tests -/

/-- Context 0 with `n` ops in worker 0's Griddle. -/
def tFlight (n : Nat) : State := tRun { tWork with gf := List.replicate n default }

theorem test_witness_package :
    State.reset.pkg.breaks = [] ∧ (38 : Die).val < 39 ∧
    (let s := { State.reset with pkg := { PkgState.reset with breaks := [(3, 0)] } }
     s.pkg.breaks = [((3 : Die).val, 0)] ∧ dieState s 4 ≠ 5 ∧ (3 : Die).val ≤ (5 : Die).val) ∧
    (let f : FaultRec := ⟨0, 0, 0, 1, 0, 0x0A01, 0, 0, 0⟩
     let s := { State.reset with pkg := { PkgState.reset with stew := [(39, [⟨f, none, false, false⟩])] } }
     tget [] s.pkg.stew 39 = ⟨f, none, false, false⟩ :: []) ∧
    (2 ^ 32 - 1 < 2 ^ 32 ∧ ([.routeCommit 1 []] : List FenceAct) = .routeCommit 1 [] :: [] ∧ ([.haltCtx 0 3 none] : List FenceAct) = .haltCtx 0 3 none :: []) ∧
    (fenceClear State.reset (.routeCommit 1 []) = true ∧ fenceClear (tFlight 1) (.haltCtx 0 3 none) = false ∧ fenceClear (tFlight 0) (.haltCtx 0 3 none) = true) ∧
    (let s := tTarget (tCtx tWork)
     let held := { s with fab := { s.fab with sieves := [(0, ⟨[], [⟨0, 0, 1, 0, none, none⟩]⟩)] }, pkg := { s.pkg with access := [(0, accessCtx 0)] } }
     accWaits s ⟨none, 0⟩ = false ∧ accWaits held ⟨none, 0⟩ = true ∧ 0 ∈ accMasters ⟨none, 0⟩ ∧ accMasters ⟨some 1, 5⟩ = [1]) ∧
    (rd State.reset 0x300310 < 256 ∧ 1050 < (1051 : BitVec 16).toInt ∧ (0xFFFF : BitVec 16).toInt < 1000 ∧ (820 : BitVec 16).toInt ≤ 820 ∧
      1000 ≤ (1000 : BitVec 16).toInt ∧ (1050 : BitVec 16).toInt ≤ 1050) ∧
    State.reset.ckpt.pred.length < 59 ∧
    (let s := { State.reset with wen := { WenState.reset with quotePending := [(none, 1)], idKeys := true } }
     s.wen.quotePending = (none, 1) :: [] ∧ s.wen.idKeys = true) ∧
    (100 ≤ 100 ∧ 5000 ≤ 5000 ∧ tOwned.wen.sealOk = true ∧ (99 < 100 ∧ 5000 < 5001) ∧ 100 < 101 ∧ 100 ≤ 100) := by decide +kernel

/-- A stack above 105 degrees is throttled and refreshes four times as often; at 82 it refreshes at the base rate (R155). -/
theorem test_stack_temperature :
    after (0, 0) (exec (.stackTempReading 0 1051) State.reset) (fun t => (rd t 0x300401, rd t 0x300301)) = (1, 4) ∧
    after 9 (exec (.stackTempReading 0 820) State.reset) (fun t => rd t 0x300301) = 1 := by decide +kernel

theorem test_presence_window :
    after false (exec (.presNRelease 99 true) tOwned) (fun t => t.wen.ownerEn) = tOwned.wen.ownerEn ∧
    after false (exec (.presNRelease 100 true) tOwned) (fun t => t.wen.ownerEn) = true := by decide +kernel

/-- Die 28 with a waiting request, or with a slice in progress. -/
def tTaste (t : Taster) : State := setTaster { tDev (tCtx tWork) with ent := [(0x10101D, 2), (0x703001, 0)] } 28 t

theorem test_witness_tests :
    let t0 := getTaster State.reset 28
    (let t := { t0 with reqs := [⟨2, 31, true⟩] }
     let s := tTaste t
     (getTaster s 28).slice = none ∧ (getTaster s 28).last = none ∧ (getTaster s 28).reqs = ⟨2, 31, true⟩ :: [] ∧ (2 : Nat) ∈ [1, 2, 3, 4] ∧
     mayTaste s 28 t 2 31 = true) ∧
    (getTaster (tTaste { t0 with slice := some (3, 0, 0) }) 28).slice = some (3, 0, 0) ∧
    ((getTaster (tTaste { t0 with slice := some (4, 31, 0) }) 28).slice = some (4, 31, 0) ∧ 28 ≤ 28 ∧ 29 < 30 ∧ 31 < 32) ∧
    (let s := { State.reset with pkg := { PkgState.reset with full := [28] } }
     28 ∈ s.pkg.full) ∧
    (let s := { State.reset with wen := { WenState.reset with staged := some (7, 1), slots := [] } }
     s.wen.staged = some (7, 1) ∧ imageBad s 7 { tImg with type := 7 } = none ∧ imageBad s 7 { tImg with type := 7, sigOk := false } = some 0x070A) := by
  decide +kernel
/-! ### Solver and plant streams -/

/-- The dense problem of context 0's ticket 5, and half `h` with `q` queued. -/
def tProb (fail : Option Nat) : Problem := ⟨tDesc, 0, 0, 3, .ticket 0 0 5, 1152, 0, fail, 0, 0, [], [], []⟩
def tQueue (f : Nat) (q : SolverQ) (ps : Tbl Plant) : State :=
  { tDev (tCtx { tWork with tickets := [⟨5, none⟩] }) with solv := { SolvState.reset with queues := [(f, q)] }, plants := ps }

theorem test_witness_stages :
    (let s := tQueue 3 ⟨some (.stageIn, tProb none), []⟩ []
     getQ s 3 = ⟨some (.stageIn, tProb none), []⟩ ∧ (tProb none).fail = none ∧
     (match acceptDesc s (getC s 0) 0 3 tDescL2 with
      | .ok x => decide (stageBad s (getC s 0) tDescL2 x false = none ∧ ∃ r ∈ stagedRefs tDescL2 x, 0 < r.2)
      | .error _ => false) = true ∧
     (let c := { getC s 0 with gBad := [tensorBase (getC s 0) 0 2 / 32] }
      match acceptDesc s c 0 3 tDescL2 with | .ok x => (stageBad s c tDescL2 x false).isSome | .error _ => false) = true ∧ tCode (acceptDesc s (getC s 0) 0 3 tDesc) = 0 ∧
     refSpace (dRef tDesc 0x40) = 2 ∧ refSpace (dRef tDesc 0x48) = 0) ∧
    (let s := tQueue 3 ⟨some (.execute, tProb none), [tProb none]⟩ []
     (getQ s (plantQ 3)).running = none ∧ getQ s 3 = ⟨some (.execute, tProb none), [tProb none]⟩ ∧ (tProb (some 0x20)).fail = some 0x20) ∧
    (let p := { tProb none with by' := .plant 255 }
     let s := tQueue 7 ⟨some (.execute, p), []⟩ [(255, { Plant.off with run := .running })]
     (getQ s (plantQ 3)).running = some (.execute, p) ∧ p.by' = .plant 255 ∧ p.fail = none ∧ (tget Plant.off s.plants 255).run = .running) ∧
    (let s := tQueue 3 ⟨some (.writeBack, tProb none), []⟩ []
     getQ s 3 = ⟨some (.writeBack, tProb none), []⟩ ∧ (tProb none).by' = .ticket 0 0 5 ∧ rangesPages (writeRanges (getC s 0) (tProb none)) = []) := by decide +kernel

theorem test_writeback_completes_ticket :
    after [] (exec (.solverWritebackDone 3 10) (tQueue 3 ⟨some (.writeBack, { tProb none with status := 0x20 }), []⟩ []))
      (fun t => (getW (getC t 0) 0).tickets) = [⟨5, some 0x20⟩] := by decide +kernel

theorem test_solver_fault_offline :
    after [] (exec (.solverFault 3 true) State.reset) (fun t => (List.range 4).map (fun h => rd t (0x601201 + h))) = [0, 0, 2, 2] := by decide +kernel

/-- A problem of order 1 whose right-hand side is measured: MEAS at 24, one word. -/
def tPlantDesc : Desc := tDesc + BitVec.ofNat 2048 ((2 ^ 63 + 24) * 2 ^ (8 * 0x98) + 2 ^ (8 * 0xC0))

/-- Stream 0 of half 0 of context 0 in state `st`, with its descriptor at 4,096 of the resident area. -/
def tPlant (st : Nat) (p : Plant) : State :=
  { tDev { tCtx tWork with binds := [⟨0, 0, 0, 0⟩] } with
    ent := (List.range 256).map (fun i => (0xC01E00 + i, if i = 0 then st else 0)) ++ [(0x703001, 0), (0x101027, 2), (0xC01000, 1000000), (0xC01100, 0),
      (0xC01200, 1000 * 2 ^ 32 + 20000), (0xC01300, 30000), (0xC01400, 500000), (0xC01500, 0), (0xC01600, 0), (0xC01700, 4096),
      (0xC01800, 1 + 256), (0xC01900, 1), (0xC00100, 0)]
    solv := { SolvState.reset with resident := [(0, wrBytes [] 4096 (natLe 256 tPlantDesc.toNat))] }
    eth := { EthState.reset with streams := [(0xFFF00, ⟨1, 2, 0, 1, 0, 0, 0, 0, 0, []⟩)] }
    plants := [(0, p)] }

theorem test_witness_arm :
    let s := tPlant 0 Plant.off
    psState s 0 = 0 ∧ armBad s 0 = none ∧ plantDescAt s 0 = some tPlantDesc ∧
    (match plantDesc s 0 tPlantDesc with | some x => decide (slotBad s 0 (texec tPlantDesc 0 x) = none) | none => false) = true ∧
    (getStream s false (plantStream 0)).gen < 0xFFFF := by decide +kernel

theorem test_witness_plants :
    psState (tPlant 1 Plant.off) 0 = 1 ∧ psState (tPlant 3 Plant.off) 0 = 3 ∧ 2 ≤ psState (tPlant 2 Plant.off) 0 ∧
    armBad { tPlant 0 Plant.off with ctxs := [] } 0 = some 0x0C02 ∧ Plant.off.serving = false ∧
    (let p : Plant := { Plant.off with serving := true, window := true, period := 1, queued := some 0, run := .done 0 }
     let s := tPlant 2 p
     (getP s 0).serving = true ∧ (getP s 0).window = true ∧ replaying s (psCtx s 0) = false ∧ (getP s 0).stopping = false ∧ (getP s 0).missing = false ∧
     (getQ s (plantQ (psHalf s 0))).running = none ∧ psState s 0 = 2 ∧ rd s 0xC00100 ≠ 2 ∧ (getP s 0).run = .done 0 ∧ (0 : BitVec 32).toNat % 65536 = 0 ∧
     (getP s 0).queued = some 0 ∧ (∀ d ∈ s.eth.tx, ¬(d.queue = 1 ∧ d.stream = plantStream 0 ∧ d.seq = 0)) ∧
     (let d : TxDg := ⟨1, false, 0, plantStream 0, 0, 1, 0, 0x8200, [], none⟩
      ∃ x ∈ [d], x.queue = 1 ∧ x.stream = plantStream 0 ∧ x.seq = 0)) ∧
    (({ Plant.off with stopping := true } : Plant).stopping = true ∧ (50 : BitVec 32).toInt.natAbs ≤ 50 ∧ 50 < (-51 : BitVec 32).toInt.natAbs) ∧
    rd (tPlant 2 Plant.off) 0xC00100 = 0 ∧ rd { State.reset with ent := [(0xC00100, 1)] } 0xC00100 = 1 := by decide +kernel

/-- A measurement of period 1 by its time stamp; its header. -/
def tMeasHdr : DgHdr := ⟨1, false, false, 0, 0, 0xFFF00, 0, 28, 60, 1, 0, 0, true, none, 1002000⟩

theorem test_witness_measurement :
    let s := { tPlant 2 { Plant.off with serving := true, window := true, period := 1 } with
      ctxs := [(0, { tCtx tWork with sessKey := some 1, binds := [⟨0, 0, 0, 0⟩] })] }
    edUp s = true ∧ (arrive s tMeasHdr).2 = true ∧ (getStream s false 0xFFF00).kind = 2 ∧ 0xFFF00 = plantStream 0 ∧ tMeasHdr.flagsRes = 0 ∧
    (plantSeq (getStream s false 0xFFF00) 0).isSome = true ∧ replaying s (psCtx s 0) = false ∧ recording s (psCtx s 0) = false ∧
    (measOutcome s 0 tMeasHdr 1001000 1 [(0, 7)] false).1 = 0 ∧ (measOutcome s 0 { tMeasHdr with ts := 1020000 } 1019999 1 [(0, 7)] false).1 = 1 ∧
    (measOutcome s 0 tMeasHdr 1000999 1 [(0, 7)] false).1 = 2 ∧ (measOutcome s 0 tMeasHdr 1001000 1 [(1, 7)] false).1 = 3 := by decide +kernel

theorem test_plant_period : after 9 (exec (.plantPeriodStart 0) (tPlant 1 Plant.off)) (fun t => rd t 0xC01E00) = 2 := by decide +kernel

theorem test_ptp_holdover : after 9 (exec .ptpHoldoverExpiry { State.reset with ent := (0xC00100, 1) :: (List.range 256).map (fun i => (0xC01E00 + i, 0)) })
    (fun t => rd t 0xC00100) = 2 := by decide +kernel
/-! ### Datagrams -/

/-- A device with context 0 `c`, its command stream 7, management stream 3 and all their keys. -/
def tNet (c : Context) : State :=
  { tDev { c with sessKey := some 1 } with
    ent := [(0x100300, 2), (0x101027, 2), (0x300101, 1), (0x703001, 0)]
    eth := { EthState.reset with streams := [(7, ⟨1, 1, 0, 1, 4, 5, 9, 0, 0, []⟩)], mstreams := [(3, ⟨1, 1, 0, 1, 4, 0, 0, 0, 0, []⟩)] }
    pkg := { PkgState.reset with access := accessReset }
    wen := { WenState.reset with mgmtKey := some 2, powered := true } }

/-- The next datagram of stream 7, or of management stream 3, with `n` bytes of payload. -/
def tHdr (n : Nat) : DgHdr := ⟨1, false, false, 0, 0, 7, 5, n, 32 + n, 1, 0, 0, true, none, 0⟩
def tMgmt (n : Nat) : DgHdr := ⟨1, false, true, 0, 0, 3, 0, n, 32 + n, 1, 0, 0, true, none, 0⟩

/-- A loaded context that holds no module's run. -/
def tIdle : Context := { tCtx tWork with modState := .loaded, shadows := [⟨0, 3, true, []⟩, ⟨0, 4, true, []⟩], outs := [⟨1, 2, [7]⟩], regs := [⟨6, 2, 3, 0, 64, false⟩, ⟨8, 2, 0, 0, 64, true⟩] }

theorem test_witness_passes :
    let s := tNet tIdle
    Passes s (tHdr 0) .nop ∧ (tHdr 0).relay = none ∧ recording s 0 = false ∧ (∀ d ∈ s.eth.tx, d.relay = none) ∧
    Passes s (tHdr 24) (.load ⟨6, 0, 0, 64, none⟩) ∧ Passes s (tHdr 0) .run ∧ Passes s (tHdr 8) (.halt 0 0) ∧ Passes s (tHdr 8) (.halt 1 0) ∧
    Passes s (tHdr 17) (.input ⟨0, true, 0, 1, 0, [7]⟩) ∧ Passes s (tHdr 8) (.outputResend 1 0 2) ∧ Passes s (tHdr 24) (.regMem ⟨2, 3, 0, 0, 64⟩) ∧
    Passes s (tHdr 8) (.deregMem 6 0) ∧ Passes s (tHdr 48) (.bulk ⟨1, 1, 0, 2, 0, 0, 0, 64⟩) ∧
    Passes s (tHdr 16) (.entryRead ⟨1, 0, 0x5020, 0, 0, 0, 0, 8, [], true, none, 16⟩) ∧
    Passes s (tHdr 24) (.entryWrite ⟨2, 0, 0x9010, 0, 0, 0, 0, 8, natLe 8 1, true, none, 24⟩) ∧
    InOrder s (tHdr 0) ∧ reservedBad (tHdr 0) (.unassigned 0x0999) = false := by
  simp only [Passes, InOrder]
  repeat' apply And.intro
  all_goals decide +kernel

theorem test_witness_management :
    let s := tNet tIdle
    Passes s (tMgmt 16) (.mgmtRead ⟨1, 0, 0x1003, 0, 0, 0, 0, 8, [], true, none, 16⟩) ∧
    Passes s (tMgmt 24) (.mgmtWrite ⟨2, 0, 0x1003, 0, 0, 0, 0, 8, natLe 8 1, true, none, 24⟩) ∧
    Passes s (tMgmt 32) (.streamOpen ⟨0, 64, 0, 9, 1, 0, 0, 0⟩) ∧ Passes s (tMgmt 16) (.streamClose ⟨0, 7, 1, 0⟩) ∧
    [CtxCmd.create, .sessionKey none, .members 2 1 [8, 9], .bind 7 0 1 1, .schedule, .bundleOpen 1 2 0, .teardown, .scrub, .partition 15 [0], .unbind 7].all
      (fun c => decide (cmdMgmt (.context 0 0 c) = some true) && !(reservedBad (tMgmt (ctxLength c)) (.context 0 0 c))) = true ∧
    Passes s (tMgmt (ctxLength .create)) (.context 1 0 .create) := by
  simp only [Passes, InOrder]
  repeat' apply And.intro
  all_goals decide +kernel

/-- A NOP completes: one COMPLETION, and RX_NEXT moves on by one. -/
theorem test_cmd_nop :
    after ([], 0) (exec (.cmdNop (tHdr 0)) (tNet tIdle)) (fun t => (t.eth.tx.map (fun d => (d.opcode, d.stream, d.seq)), (getStream t false 7).rxNext)) =
      ([(0x8000, 7, 9)], 6) := by decide +kernel

/-- The smallest container: no tensor, one END, its summary. -/
def tBody (digest : List Byte) : List Byte :=
  natLe 4 0x4E454F4E ++ natLe 2 1 ++ natLe 1 1 ++ natLe 1 0 ++ natLe 8 0 ++ natLe 8 (224 + 8 + 16) ++ natLe 4 3 ++ natLe 4 1 ++ natLe 4 8 ++ natLe 28 0
    ++ digest ++ (natLe 2 1 ++ natLe 2 0 ++ natLe 4 0 ++ natLe 8 224 ++ natLe 8 0 ++ natLe 8 0)
    ++ (natLe 2 4 ++ natLe 2 0 ++ natLe 4 1 ++ natLe 8 224 ++ natLe 8 8 ++ natLe 8 0)
    ++ (natLe 2 5 ++ natLe 2 0 ++ natLe 4 1 ++ natLe 8 232 ++ natLe 8 16 ++ natLe 8 0)
    ++ natLe 8 (2 ^ 54) ++ natLe 16 1

/-- A container that LOAD's checks pass, and what they refuse first in an empty one. -/
theorem test_witness_load :
    loadCheck (tNet tIdle) (tBody (natLe 64 (containerDigest (tBody (natLe 64 0))))) 2 0 = none ∧ loadCheck (tNet tIdle) [] 2 0 = some 1 := by
  decide +kernel

theorem test_witness_host_commands :
    let s := tNet tIdle; let u := taken s (tHdr 0); let c := getC u 0
    let run := tNet (tCtx tWork)
    moduleRuns c = false ∧ c.modState ≠ .translating ∧ c.modState = .loaded ∧ deviceState u ≠ 3 ∧ replayCtx u = 0 ∧ rd u 0x900100 = 0 ∧ runningId u = some 0 ∧
    resumes u 0 = false ∧ (getC (taken run (tHdr 0)) 0).modState = .running ∧
    (let v := { s with ent := [(0x100300, 3), (0x101027, 2), (0x703001, 0), (0x900101, 1)] }
     deviceState (taken v (tHdr 0)) = 3 ∧ replayCtx (taken v (tHdr 0)) ≠ 0) ∧
    declOf c 0 [1] = some ⟨1, 2, 7⟩ ∧ (tensorOf c 2).isSome = true ∧ 0 + 256 ≤ 256 ∧ c.step < 1 ∧ (∀ y ∈ c.shadows, y.decl ≠ 1) ∧
    (∀ y ∈ c.shadows, y.step ≠ 1) ∧ 2 ≤ (c.shadows.filter (fun y => decide (y.decl = 0))).length ∧
    declOf c 1 [2] = some ⟨2, 2, 8⟩ ∧ c.outs.find? (fun o => decide (o.decl = 1 ∧ o.step = 2)) = some ⟨1, 2, [7]⟩ ∧
    c.outs.find? (fun o => decide (o.decl = 1 ∧ o.step = 3)) = none ∧ (getStream u false 7).state ≠ 0 ∧ (getStream u false 7).ctx = 0 ∧
    (l2Tensor c 2).isSome = true ∧ c.regs.length < 4096 ∧ (usedKeys u).length < 2 ^ 32 ∧
    c.regs.find? (fun g => decide (g.rKey = 6)) = some ⟨6, 2, 3, 0, 64, false⟩ ∧ c.regs.find? (fun g => decide (g.rKey = 8)) = some ⟨8, 2, 0, 0, 64, true⟩ ∧
    rangeBad c (tensorBase c 0 2) 256 = false ∧ (getC u 0).live = true ∧ (getStream u false 0xFFEFF).state = 0 ∧
    (getStream u false 0xFFEFF).gen < 0xFFFF ∧ (getStream u false 7).state ≠ 0 ∧ u.eth.busy = [] := by decide +kernel

/-- Long commands in progress on stream 7 and management stream 3. -/
theorem test_witness_long_commands :
    let b : BusyCmd := ⟨false, 7, tHdr 24, .load ⟨6, 0, 0, 64, none⟩⟩
    let k : BusyCmd := ⟨false, 7, tHdr 48, .bulk ⟨1, 0, 0, 2, 0, 0, 0, 64⟩⟩
    let m := fun (c : CtxCmd) => (⟨true, 3, tMgmt (ctxLength c), .context 0 0 c⟩ : BusyCmd)
    let on := fun (x : BusyCmd) => { tNet { tIdle with modState := .translating } with eth := { (tNet tIdle).eth with busy := [x] } }
    (getC (on b) 0).modState = .translating ∧ Runs (on b) (isLoadOf 0) b ∧ Runs (on k) (isBulkOn 7) k ∧
    Runs (on (m .schedule)) (isScheduleOf 0) (m .schedule) ∧ Runs (on (m .scrub)) isScrub (m .scrub) ∧
    Runs (on (m (.bundleOpen 1 2 0))) isBundle (m (.bundleOpen 1 2 0)) ∧ (on b).eth.busy.find? isScrub = none ∧ (on b).eth.busy.find? (isRunOf 0) = none := by
  simp only [Runs]
  repeat' apply And.intro
  all_goals decide +kernel

theorem test_witness_contexts :
    let u := tNet { tIdle with binds := [⟨7, 0, 1, 1⟩] }; let c := getC u 0
    u.pkg.scrubbing = false ∧ u.wen.debug = false ∧ deviceState u ≠ 3 ∧ c.live = true ∧ (getC u 1).live = false ∧ (liveIds u).length < 4096 ∧
    (getC (tDev (tCtx tWork)) 0).sessKey = none ∧ moduleRuns c = false ∧ moduleRuns (tCtx tWork) = true ∧ (65535 < 65536 ∧ 65536 ≤ 65536) ∧
    (rd u 0x601002 ≠ 1 ∧ (∀ x ∈ c.binds, x.num ≠ 0) ∧ 3 ∈ bindHalves ⟨0, 0, 1, 1⟩ ∧ 3 ∈ boundHalves u ∧
      (∀ x ∈ bindHalves ⟨0, 0, 0, 0⟩, x ∉ boundHalves u) ∧ targetOffline u 0 0 = false) ∧
    (let v := { u with ent := [(0x601001, 1), (0x601002, 1)] }
     rd v 0x601001 = 1 ∧ rd v 0x601002 = 1) ∧
    (c.binds.find? (fun x => decide (x.num = 7)) = some ⟨7, 0, 1, 1⟩ ∧ halfBusy u 3 = false) ∧
    (let v := { u with solv := { SolvState.reset with queues := [(3, ⟨some (.execute, tProb none), []⟩)] } }
     halfBusy v 3 = true) ∧
    runningId u = some 0 ∧ u.pkg.switchTo = none ∧ u.pkg.bundle = none ∧ (liveIds u).any (fun i => moduleRuns (getC u i)) = false ∧
    (liveIds (tDev (tCtx tWork))).any (fun i => moduleRuns (getC (tDev (tCtx tWork)) i)) = true ∧
    (unitExists 0 = true ∧ unitBusy u 0 = false ∧ unitBusy (tDev (tCtx tWork)) 0 = true ∧ (15 : Nat) < 16) ∧
    plantOn { u with ent := (List.range 256).map (fun i => (0xC01E00 + i, 0)) } 3 = false := by decide +kernel

/-- Published vectors: the tag of an empty message under the zero key and IV (the GCM submission's test case 13), and the digest of "abc" (FIPS 180-4). -/
theorem test_published_vectors :
    beNat (gcmSeal 0 (List.replicate 12 0) [] []) = 0x530F8AFBC74536B9A963B4F1C4CB738B ∧
    beNat ((sha512Bytes [0x61, 0x62, 0x63]).take 8) = 0xDDAF35A193617ABA := by decide +kernel

/-- What holds a command back, and what lets it go on. -/
theorem test_witness_waits :
    let s := tNet tIdle
    let m := { tMod with tensors := tMod.tensors ++ [⟨.fp32, 2, 0, false, false, true, 1, [64], 0⟩], consts := List.replicate 256 7 }
    let held := tNet { tIdle with mod := some m, pages := (List.range 4).map (fun i => (i, 0x2000)) }
    (runWaits held 0).isSome = true ∧
    runWaits s 0 = none ∧ engineAdmits s 0 0 = true ∧ engineAdmits s 0 1 = true ∧ sliceHoldsCtx s 0 = false ∧
    (let u := setTaster (tNet { tIdle with binds := [⟨7, 0, 1, 1⟩] }) 29 { getTaster s 29 with slice := some (4, 16, 0) }
     sliceHoldsCtx u 0 = true) ∧
    (bundleWaits { tIdle with pages := (List.range 4).map (fun i => (i, 0x2000)) } 2 2 0 true false []).isSome = true ∧
    bundleWaits (getC s 0) 2 2 0 false true [] = none ∧ bundleWaits (getC s 0) 2 2 0 true true [7] = none ∧ opReady s 0 = true ∧ opReady s 1 = false ∧
    (let u := { State.reset with solv := { SolvState.reset with clock := [(0, 1), (1, 1), (2, 1), (3, 1)] } }
     opReady u 1 = true ∧ opReady u 0 = false ∧ runningOn u 0 = []) ∧
    runningOn (tQueue 3 ⟨some (.execute, tProb none), []⟩ []) 3 ≠ [] := by decide +kernel

theorem test_create :
    after (false, 0) (exec (.create (tMgmt (ctxLength .create)) 1 0) (tNet tIdle)) (fun t => ((getC t 1).live, rd t 0x703000)) = (true, 1) := by decide +kernel

theorem test_witness_context_ends :
    let s := tNet tIdle
    (let v := { s with pkg := { s.pkg with switchTo := some (0, 1) } }
     v.pkg.switchTo = some (0, 1) ∧ (getC v 0).live = true) ∧
    (let v := { s with pkg := { s.pkg with bundle := some (0, 1, 2, 0) } }
     v.pkg.bundle = some (0, 1, 2, 0) ∧ (getC v 0).live = true) ∧
    (let v := { s with pkg := { s.pkg with scrubbing := true } }
     v.pkg.scrubbing = true ∧ v.ckpt.reclaimCut = false) := by decide +kernel

theorem test_scrub_complete :
    after (true, 0) (exec (.scrubComplete 77) { State.reset with pkg := { PkgState.reset with scrubbing := true } })
      (fun t => (t.pkg.scrubbing, rd t 0x704001)) = (false, 77) := by decide +kernel

theorem test_witness_port_frames :
    let s := { tNet { tIdle with modState := .loaded } with
      ent := [(0x101027, 2), (0x102100, 0x0100000A), (0x102101, 9)] }
    edUp s = true ∧ s.pkg.scrubbing = false ∧ 0 < tget (2 ^ 32) s.eth.qpRate 7 ∧ ownIp4 s ≠ 0 ∧ ownIp4 s < 2 ^ 32 ∧ (0 : BitVec 32).toNat ≠ ownIp4 s ∧
    ownIp6 s ≠ 0 ∧ ownIp6 s < 2 ^ 128 ∧ linkLocal s < 2 ^ 128 ∧ linkLocal s ≠ 1 ∧ ownIp6 s ≠ 1 ∧ findReg s 99 = none ∧
    findReg s 6 = some (0, ⟨6, 2, 3, 0, 64, false⟩) ∧ (63 + [(7 : Byte)].length ≤ 64 ∧ 64 < 64 + [(7 : Byte)].length) ∧ (3 : Nat) / 2 % 2 = 1 ∧ (0 : Nat) / 2 % 2 = 0 ∧
    moduleRuns (getC s 0) = false ∧ moduleRuns (tCtx tWork) = true ∧ rangeHeld (getC s 0) (tensorBase (tCtx tWork) 0 2) 64 = false ∧
    rangeBad (getC s 0) (tensorBase (tCtx tWork) 0 2) 64 = false ∧ (3 : Fin 8).val = rd s 0x102104 ∧ (7 : Fin 8).val ≠ rd s 0x102104 ∧
    ({ s with pkg := { s.pkg with scrubbing := true } } : State).pkg.scrubbing = true := by decide +kernel

/-- A RoCEv2 write into a registered range lands at its tensor. -/
theorem test_roce_write :
    after [] (exec (.roceRequest 6 true 63 0 [7]) (tNet tIdle)) (fun t => (getC t 0).vmem) = [(tensorBase (tCtx tWork) 0 2 + 63, 7)] ∧
    after [] (exec (.roceRequest 6 true 64 0 [7]) (tNet tIdle)) (fun t => t.eth.answers) = [(4, 0x62)] := by decide +kernel

/-! ### The dictionary and its transports -/

/-- Records that read, describe, write and step, and ones that each check refuses. -/
def tRead (len : Nat) : DRec := ⟨1, 0, 0x1003, 0, 0, 0, 0, len, [], true, none, 16⟩
def tSeg (fl off : Nat) (bs : List Byte) : DRec := ⟨2, fl, 0x1030, 0x10, 0, 0, off, bs.length, bs, true, none, 16 + (bs.length + 7) / 8 * 8⟩

theorem test_witness_dictionary :
    let s := tOwned; let u := ({ State.reset with wen := { WenState.reset with window := true } } : State)
    (tRead 1).size = recLen (tRead 1) ∧ (entryOf (recKey (tRead 1))).isSome = true ∧ checkHead .mgmt (tRead 1) = none ∧ deviceState s ≠ 5 ∧
    (match entryOf (recKey (tRead 1)) with | some e => decide (checkEntry s .mgmt (tRead 1) e = none ∧ checkEntry s .mgmt (tRead 0) e = some 6) | none => false) = true ∧
    checkHead .mgmt { tRead 1 with flags := 8 } = some 2 ∧ checkHead .mgmt { tRead 1 with op := 3 } = none ∧
    (match entryOf (recKey (tSeg 2 0 [1])) with | some e => decide (checkEntry u .mgmt (tSeg 2 0 [1]) e = none ∧ checkEntry u .mgmt (tSeg 6 1 [2]) e = none) | none => false) = true ∧
    recFlag (tSeg 2 0 [1]) 1 = true ∧ recFlag (tSeg 2 0 [1]) 2 = false ∧ recFlag (tSeg 6 1 [2]) 2 = true ∧ checkHead .mgmt (tSeg 2 0 [1]) = none ∧
    checkHead .mgmt (tSeg 6 1 [2]) = none ∧ (tSeg 2 0 [1]).length ≠ 0 ∧ (tSeg 2 0 [1]).length ≤ segmentMax .mgmt (tSeg 2 0 [1]) ∧
    (tSeg 6 1 [2]).offset + (tSeg 6 1 [2]).length ≤ 67108864 ∧ s.wen.seg = none ∧ (tSeg 6 1 [2]).size = recLen (tSeg 6 1 [2]) ∧
    (nextEntry s .mgmt (rankOfReq s .mgmt { tRead 0 with op := 4 }) 0x100300).isSome = true ∧
    tCode (recEffect .mgmt ⟨2, 0, 0x4001, 0, 0, 0, 0, 2, natLe 2 9, true, none, 24⟩ s (natLe 2 9)) = 0 ∧
    tCode (recEffect .mgmt ⟨2, 0, 0x4001, 0, 0, 0, 0, 2, natLe 2 9, true, none, 24⟩ { s with ent := [(0x400200, 1)] } (natLe 2 9)) = 0x0D01 := by decide +kernel

theorem test_dict_read_counts :
    after (0, 0) (exec (.dictRead .mgmt (tRead 1)) tOwned) (fun t => (rd t 0x100900, rd t 0x100901)) = (1, 0) ∧
    after (0, 0) (exec (.dictRead .mgmt (tRead 0)) tOwned) (fun t => (rd t 0x100900, rd t 0x100901)) = (1, 1) := by decide +kernel

theorem test_witness_transports :
    let s := State.reset
    let v := { State.reset with wen := { WenState.reset with can := some (63, [1]) } }
    (0x7FF ≠ 0x640 + rd s 0x100700) ∧ s.wen.can = none ∧ v.wen.can = some (63, [1]) ∧ ((63 : Fin 64).val = 63 ∧ (0 : Fin 64).val ≠ 63) ∧ v.wen.can ≠ none ∧
    (tHdr 0).relay = none ∧
    (let h := { tMgmt 16 with relay := some (9, 0) }
     h.relay.isSome = true ∧ (performCmd (taken (tNet tIdle) h) h .nop).2.isSome = true ∧ (performCmd (taken (tNet tIdle) h) h .nop).1.eth.held = []) := by
  decide +kernel

theorem test_can_gap : after (0, none) (exec .canGapTimeout { State.reset with wen := { WenState.reset with can := some (1, []) } })
    (fun t => (rd t 0x100701, t.wen.can)) = (1, none) := by decide +kernel

/-! ### Power -/

theorem test_witness_power :
    let s := tOwned
    let b : Brownout := ⟨true, 4, 1, 0, 0, [], [], [], [], [], []⟩
    let g := fun (x : GuarOp) => ({ s with wen := { s.wen with saving := some b, guar := [x] } } : State)
    s.wen.powered = true ∧ State.reset.wen.powered = false ∧ s.wen.heldSag = false ∧ s.wen.guar = [] ∧ s.wen.marker = none ∧
    2 < rd { s with ent := [(0x200600, 3)] } 0x200600 ∧ rd { s with ent := [(0x200600, 2)] } 0x200600 ≤ 2 ∧ deviceState s ≠ 4 ∧
    (({ s with wen := { s.wen with marker := some true } } : State).wen.marker.isSome = true) ∧
    (let v : State := { s with pkg := { s.pkg with tripped := [(39, 1)] } }
     tget 0 v.pkg.tripped 39 = 1 ∧ (10 * tripLimit 39 : Int) < toSigned 16 (10 * tripLimit 39 + 1) ∧ toSigned 16 (10 * tripLimit 39) ≤ 10 * tripLimit 39) ∧
    s.pkg.waitCool = false ∧ (g .save).wen.saving = some b ∧ b.valid = true ∧ (g .save).wen.guar = [.save] ∧ (g .powerDown).wen.guar = [.powerDown] ∧
    (g (.coldReset 255)).wen.guar = [.coldReset 255] ∧ (g (.warmReset 0)).wen.guar = [.warmReset 0] ∧ s.wen.rstLow = false ∧
    ({ s with wen := { s.wen with heldSag := true } } : State).wen.heldSag = true ∧ (38 : Die).val ≠ 39 ∧
    ({ s with pkg := { s.pkg with pllLost := [3] } } : State).pkg.pllLost ≠ [] ∧
    ({ s with wen := { s.wen with rstLow := true } } : State).wen.rstLow = true ∧ rd s 0x200600 ≠ 1 := by decide +kernel

theorem test_held_exit :
    after false (exec (.heldExit false) { tOwned with wen := { tOwned.wen with heldSag := true } }) (fun t => t.wen.powered) = false ∧
    after true (exec (.heldExit false) { tOwned with wen := { tOwned.wen with heldSag := true } }) (fun t => t.wen.heldSag) = false := by decide +kernel

/-- Bring-up at stage `st`. -/
def tBring (st : Nat) : State :=
  { State.reset with ent := [(0x100300, if st ≤ 2 then 0 else 1), (0x200600, st)], wen := { WenState.reset with powered := true } }

theorem test_witness_bringup :
    ([1, 2, 3, 4, 5, 6, 7].all (fun st => bringing (tBring st) && decide (stageNow (tBring st) = st))) = true ∧ (tBring 1).pkg.waitCool = false ∧
    (let s := { tBring 1 with pkg := { PkgState.reset with waitCool := true } }
     s.pkg.waitCool = true ∧ bringing s = true) ∧
    (2200 ≤ (2200 : BitVec 16).toNat ∧ (25 : BitVec 16).toNat ≤ 25 ∧ ¬ 2200 ≤ (2199 : BitVec 16).toNat) ∧
    (bootType (tBring 2) 39 0 []).2 = none ∧ (bootType (tBring 2) 39 0 [tImg]).2 ≠ none ∧ (tBring 3).wen.warm = false ∧
    (({ tBring 3 with wen := { (tBring 3).wen with warm := true } } : State).wen.warm = true) ∧ (tBring 7).wen.scrubDue = false ∧
    dieState (tBring 3) 38 ≠ 5 ∧ (38 : Die).val ≠ 39 ∧
    (let s := { tOwned with pkg := { tOwned.pkg with opNext := some (2, false) } }
     s.pkg.opNext = some (2, false) ∧ runningId s = some 0 ∧ isRunning (getC s 0) = true) ∧
    State.reset.ptpNs / 1000000000 = State.reset.pkg.ptpSec ∧ rd { State.reset with ent := [(0x200401, 15)] } 0x200401 < 16 := by decide +kernel

/-- Stages 3 and 7 end in the next. -/
theorem test_bringup_stages :
    after 9 (exec (.bringupStageComplete 3 2200 25 [] []) (tBring 3)) (fun t => rd t 0x200600) = 4 ∧
    after 9 (exec (.bringupStageComplete 7 2200 25 [] []) (tBring 7)) (fun t => rd t 0x200600) = 8 := by decide +kernel

end Sys2Proof.Tests
end

section
/-! PROOFS. The package's control events: what the loss of a die and the end of a fence leave of the control state, then the events. -/

namespace Sys2Proof.PackageProofs

open Sys2Proof Sys2Proof.Machine Sys2Proof.Laws

/-! ### Entries by their width -/

/-- A value cut to an entry whose type is known. -/
theorem fitEntry_of_type {k : Nat} {ty : EType} (h : (entryOf k).map (·.type) = some ty) (v : Nat) :
    fitEntry k v = v % 2 ^ (8 * typeSize ty) := by
  obtain ⟨e, he, rfl⟩ := Option.map_eq_some_iff.mp h
  simp [fitEntry, he]

/-- An entry read after it was written a value that it can hold. -/
theorem rd_wr_fits {k v : Nat} {ty : EType} (s : State) (h : (entryOf k).map (·.type) = some ty) (hv : v < 2 ^ (8 * typeSize ty)) :
    rd (wr s k v) k = v := by
  rw [rd_wr, if_pos rfl, fitEntry_of_type h, Nat.mod_eq_of_lt hv]

theorem rd_wr_ne (s : State) {k q : Nat} (v : Nat) (h : q ≠ k) : rd (wr s k v) q = rd s q := by
  rw [rd_wr, if_neg h]

theorem dieState_type : ∀ d : Die, (entryOf (0x101001 + d.val)).map (·.type) = some .u8 := by decide +kernel

theorem ringState_type : (entryOf 0x101100).map (·.type) = some .u8 := by decide +kernel

theorem routeEpoch_type : (entryOf 0x400200).map (·.type) = some .u32 := by decide +kernel

theorem routeKeys_type : ∀ k ∈ routeKeys, (entryOf k).map (·.type) = some .u32 := by decide +kernel

theorem stackTemp_type : ∀ i : Fin 16, (entryOf (0x300201 + i.val)).map (·.type) = some .i16 := by decide +kernel

theorem refreshMult_type : ∀ i : Fin 16, (entryOf (0x300301 + i.val)).map (·.type) = some .u8 := by decide +kernel

theorem stackThrottled_type : ∀ i : Fin 16, (entryOf (0x300401 + i.val)).map (·.type) = some .bool := by decide +kernel

theorem predState_type : (entryOf 0x800501).map (·.type) = some .u8 := by decide +kernel

theorem sealOhms_type : (entryOf 0x20092A).map (·.type) = some .u32 := by decide +kernel

theorem tampered_type : (entryOf 0x702001).map (·.type) = some .bool := by decide +kernel

/-! ### What the loss of a die leaves of the package's control -/

/-- The entries of the dies' states and of the management ring. -/
def RingKey (k : Nat) : Prop := 0x101001 ≤ k ∧ k ≤ 0x101100

theorem not_ringKey_of_lt {k : Nat} (h : k < 0x101001) : ¬ RingKey k := fun hk => Nat.not_le.mpr h hk.1

theorem not_ringKey_of_gt {k : Nat} (h : 0x101100 < k) : ¬ RingKey k := fun hk => Nat.not_le.mpr h hk.2

/-- `t` comes from `s` by operations that leave the dies' states, the ring's, the reset lines and the fences reported alone. -/
structure ControlKept (s t : State) : Prop where
  ring      : ∀ k, RingKey k → rd t k = rd s k
  resetHeld : t.wen.resetHeld = s.wen.resetHeld
  fenceDone : t.pkg.fenceDone = s.pkg.fenceDone

theorem ControlKept.refl (s : State) : ControlKept s s := ⟨fun _ _ => rfl, rfl, rfl⟩

theorem ControlKept.trans {s t u : State} (h : ControlKept s t) (g : ControlKept t u) : ControlKept s u :=
  ⟨fun k hk => (g.ring k hk).trans (h.ring k hk), g.resetHeld.trans h.resetHeld, g.fenceDone.trans h.fenceDone⟩

/-- An update outside the entries, the reset lines and the fences reported. -/
theorem ControlKept.upd {s t u : State} (h : ControlKept s t) (he : u.ent = t.ent := by rfl)
    (hw : u.wen.resetHeld = t.wen.resetHeld := by rfl) (hf : u.pkg.fenceDone = t.pkg.fenceDone := by rfl) : ControlKept s u :=
  h.trans ⟨fun k _ => by simp only [rd, he], hw, hf⟩

theorem ControlKept.ite {s t u : State} {p : Prop} [Decidable p] (h : ControlKept s t) (g : ControlKept s u) :
    ControlKept s (if p then t else u) := by
  split <;> assumption

/-- A fold keeps what each of its steps keeps. -/
theorem ControlKept.foldl {α : Type} {s t : State} {f : State → α → State} {l : List α}
    (hf : ∀ u a, ControlKept s u → ControlKept s (f u a)) (h : ControlKept s t) : ControlKept s (l.foldl f t) := by
  induction l generalizing t with
  | nil => exact h
  | cons a l ih => exact ih (hf t a h)

section
variable {s t : State} (h : ControlKept s t)
include h

theorem controlKept_wr {k v : Nat} (hk : ¬ RingKey k) : ControlKept s (wr t k v) :=
  h.trans ⟨fun q hq => rd_wr_ne t v (fun e => hk (e ▸ hq)), by simp, by simp⟩

theorem controlKept_incr {k n : Nat} (hk : ¬ RingKey k) : ControlKept s (incr t k n) := controlKept_wr h hk

theorem controlKept_setC {id : Nat} {c : Context} : ControlKept s (setC t id c) := h.upd

theorem controlKept_modC {id : Nat} {f : Context → Context} : ControlKept s (modC t id f) := controlKept_setC h

theorem controlKept_bumpSnap {k : Nat} : ControlKept s (bumpSnap t k) := h.upd

theorem controlKept_logRec {r : FaultRec} {lost : Bool} : ControlKept s (logRec t r lost) := by
  unfold logRec
  exact controlKept_bumpSnap (controlKept_incr h.upd (not_ringKey_of_lt (by decide)))

theorem controlKept_logFault {die cls unit code ctx step : Nat} {detail : BitVec 256} :
    ControlKept s (logFault t die cls unit code ctx step detail) := controlKept_logRec h

theorem controlKept_raiseEvent {die : Nat} {r : FaultRec} {ev : Option UnitEvent} {j : Bool} :
    ControlKept s (raiseEvent t die r ev j) := by
  unfold raiseEvent
  exact .ite (h.upd) (controlKept_incr (h.upd) (not_ringKey_of_gt (by decide)))

theorem controlKept_raiseFree {die cls unit ctx step : Nat} {ev : Option UnitEvent} {j : Bool} :
    ControlKept s (raiseFree t die cls unit ctx step ev j) := by
  unfold raiseFree
  exact controlKept_raiseEvent (h.upd)

/-! Streams and commands. -/

theorem controlKept_setStream {mgmt : Bool} {id : Nat} {e : Stream} : ControlKept s (setStream t mgmt id e) := by
  cases mgmt <;> exact h.upd

theorem controlKept_sendVia {mgmt : Bool} {id op : Nat} {bs : List Byte} {r : Option (Nat × Nat)} :
    ControlKept s (sendVia t mgmt id op bs r).1 := by
  unfold sendVia
  exact (controlKept_setStream h).upd

theorem controlKept_sendNotice {id kind detail : Nat} : ControlKept s (sendNotice t id kind detail) := controlKept_sendVia h

theorem controlKept_complete {mgmt : Bool} {id : Nat} {d : DgHdr} {status detail : Nat} {extra : List Byte} :
    ControlKept s (complete t mgmt id d status detail extra) := by
  have hsent := controlKept_sendVia h (mgmt := mgmt) (id := id) (op := 0x8000)
    (bs := completionBytes (getStream t mgmt id) d.seq status detail d.ts ++ extra) (r := d.relay)
  exact hsent.upd

theorem controlKept_cutSegment : ControlKept s (cutSegment t) := by
  unfold cutSegment
  exact .ite h (h.upd)

theorem controlKept_appendRec {type step key ts : Nat} {data : List Byte} : ControlKept s (appendRec t type step key ts data).1 := by
  have hw : ControlKept s (wr t 0x900201 (rd t 0x900201 + 1)) := controlKept_wr h (not_ringKey_of_gt (by decide))
  unfold appendRec
  dsimp only
  split
  · exact hw
  · split
    · split
      · exact hw.upd
      · exact hw
    · exact controlKept_cutSegment (hw.upd)

theorem controlKept_recordEnded {b : BusyCmd} {status : Nat} : ControlKept s (recordEnded t b status) := by
  unfold recordEnded
  exact .ite (controlKept_appendRec (h.upd)) h

theorem controlKept_endBusy {bs : List BusyCmd} {status detail : Nat} : ControlKept s (endBusy t bs status detail) :=
  .foldl (fun _ _ hu => controlKept_recordEnded (controlKept_complete hu)) h

theorem controlKept_completeHeld {c : HeldCmd} {status detail : Nat} : ControlKept s (completeHeld t c status detail) := by
  unfold completeHeld
  exact controlKept_complete (.ite (controlKept_setStream h) h)

theorem controlKept_flushStream {mgmt : Bool} {id status detail : Nat} {keep : Bool} :
    ControlKept s (flushStream t mgmt id status detail keep) := by
  unfold flushStream
  exact .foldl (fun _ _ hu => controlKept_completeHeld hu) (controlKept_endBusy (h.upd))

theorem controlKept_haltStreams {ctx code : Nat} {keep : Option Nat} : ControlKept s (haltStreams t ctx code keep) := by
  unfold haltStreams
  exact .foldl (fun _ _ hu => .ite hu (controlKept_sendNotice (controlKept_flushStream (controlKept_setStream hu)))) h

theorem controlKept_haltCtx {ctx code : Nat} {stream : Option Nat} : ControlKept s (haltCtx t ctx code stream) := by
  unfold haltCtx
  refine .ite ?_ h
  exact (controlKept_modC (controlKept_haltStreams h)).upd

/-! Links and packets. -/

theorem controlKept_setLink {p : Nat} {l : PortLink} : ControlKept s (setLink t p l) := h.upd

theorem controlKept_freeBuffer {f : TxFlit} : ControlKept s (freeBuffer t f) := by
  unfold freeBuffer
  split
  · exact h
  · exact controlKept_setLink h

theorem controlKept_egress {u : State} {f : TxFlit} {p : Nat} {a : Option Nat} (e : egress t f = some (u, p, a)) : ControlKept s u := by
  unfold egress at e
  split at e <;> simp only [Option.map_eq_some_iff, Option.bind_eq_some_iff, Prod.mk.injEq] at e
  · obtain ⟨_, _, rfl, _⟩ := e; exact h
  · obtain ⟨_, _, _, _, rfl, _⟩ := e; exact h.upd

theorem controlKept_routeFlit {f : TxFlit} : ControlKept s (routeFlit t f) := by
  unfold routeFlit
  split
  · exact h.upd
  · split
    · exact controlKept_incr (controlKept_freeBuffer h) (not_ringKey_of_gt (by decide))
    · next he => exact controlKept_setLink (controlKept_egress h he)

theorem controlKept_sendPkt {vc kind dest flow : Nat} {rp : Option RPkt} {cp : Option CPkt} :
    ControlKept s (sendPkt t vc kind dest flow rp cp) := by
  unfold sendPkt launchFlit
  exact .ite (controlKept_incr h (not_ringKey_of_gt (by decide))) (controlKept_routeFlit h)

theorem controlKept_reroute {p : Nat} {stays : TxFlit → Bool} : ControlKept s (reroute t p stays) := by
  unfold reroute
  exact .foldl (fun _ _ hu => .ite hu (controlKept_routeFlit hu)) (controlKept_setLink h)

theorem controlKept_setPort {p v : Nat} : ControlKept s (setPort t p v) :=
  controlKept_wr h (not_ringKey_of_gt (by omega))

theorem controlKept_clearSamples {p : Nat} : ControlKept s (clearSamples t p) :=
  controlKept_wr (controlKept_setLink h) (not_ringKey_of_gt (by omega))

theorem controlKept_portDown {p : Nat} : ControlKept s (portDown t p) := by
  unfold portDown
  refine .ite h ?_
  exact controlKept_reroute (controlKept_raiseFree (controlKept_clearSamples (controlKept_setPort (controlKept_setLink h))))

theorem controlKept_moveSwitch {lane closed : Nat} : ControlKept s (moveSwitch t lane closed) := by
  unfold moveSwitch
  exact .ite h ((controlKept_portDown (controlKept_portDown h)).upd)

theorem controlKept_bypassClose : ControlKept s (bypassClose t) := controlKept_moveSwitch (controlKept_moveSwitch h)

/-! Solver halves, the device's state, the operating point. -/

theorem controlKept_faultHalf {half code : Nat} : ControlKept s (faultHalf t half code) := by
  unfold faultHalf
  exact .foldl (fun _ _ hu => hu.upd) (controlKept_wr h (not_ringKey_of_gt (by omega)))

theorem controlKept_degradeDevice : ControlKept s (degradeDevice t) := by
  unfold degradeDevice
  exact .ite (controlKept_wr h (not_ringKey_of_lt (by decide))) h

theorem controlKept_applyOp : ControlKept s (applyOp t) := by
  unfold applyOp
  split
  · refine .ite ?_ h
    exact controlKept_wr (controlKept_wr (h.upd) (not_ringKey_of_gt (by decide))) (not_ringKey_of_gt (by decide))
  · exact h

theorem controlKept_settleOp : ControlKept s (settleOp t) := by
  unfold settleOp
  split
  · exact .ite h (controlKept_applyOp h)
  · exact controlKept_applyOp h

/-- What the loss of a die ends (R397) leaves the control path alone. -/
theorem controlKept_dieLost {d : Nat} : ControlKept s (dieLost t d) := by
  have hroll : ControlKept s (match runningId t with | some id => haltCtx t id 0x0106 none | none => t) := by
    split
    · exact controlKept_haltCtx h
    · exact h
  unfold dieLost
  refine .ite ?_ (.ite hroll (.ite ?_ (.ite ?_ (controlKept_degradeDevice h))))
  · exact controlKept_degradeDevice (hroll.upd)
  · exact controlKept_faultHalf (controlKept_faultHalf h)
  · have hports : ControlKept s ((List.range 4).foldl (fun s i => portDown s (4 * (d - 30) + i)) t) :=
      .foldl (fun _ _ hu => controlKept_portDown hu) h
    exact .ite (controlKept_bypassClose hports) hports

/-! Accesses and pages. -/

theorem controlKept_remoteAccess {c : Context} {a : Nat} {write : Bool} : ControlKept s (remoteAccess t c a write).1 := h.upd

theorem controlKept_writeBack {e : SieveEnt} : ControlKept s (writeBack t e) :=
  controlKept_incr (controlKept_setC (controlKept_remoteAccess h)) (not_ringKey_of_gt (by decide))

theorem controlKept_flushSieves {hit : Nat → SieveEnt → Bool} : ControlKept s (flushSieves t hit) := by
  unfold flushSieves
  exact .foldl (fun _ _ hu => controlKept_writeBack hu) (h.upd)

theorem controlKept_releaseHeld {ctx page : Nat} : ControlKept s (releaseHeld t ctx page) := by
  unfold releaseHeld
  refine .foldl (fun u w hu => ?_) (h.upd)
  exact controlKept_sendPkt (controlKept_setC (controlKept_remoteAccess (controlKept_modC hu)))

end

/-! ### Failed dies and the management ring (R22) -/

theorem ringKey_die {x : Nat} (hx : x < 40) : RingKey (0x101001 + x) := ⟨by omega, by omega⟩

theorem ringKey_ring : RingKey 0x101100 := ⟨by decide, by decide⟩

theorem ControlKept.dieState {s t : State} (h : ControlKept s t) {x : Nat} (hx : x < 40) : dieState t x = dieState s x :=
  h.ring _ (ringKey_die hx)

/-- `t` comes from `s` by the failure of the dies of `ds` alone, as far as the ring's entries and the reset lines show. -/
structure DiesFailed (ds : List Nat) (s t : State) : Prop where
  failed : ∀ x ∈ ds, dieState t x = 5
  held   : ∀ x ∈ ds, dieState s x ≠ 5 → x ∈ t.wen.resetHeld
  still  : ∀ x ∈ s.wen.resetHeld, x ∈ t.wen.resetHeld
  others : ∀ k, RingKey k → (∀ x ∈ ds, k ≠ 0x101001 + x) → rd t k = rd s k

theorem mem_addOnce {xs : List Nat} {x y : Nat} : y ∈ addOnce xs x ↔ y ∈ xs ∨ y = x := by
  unfold addOnce
  split
  · next hx => exact ⟨.inl, fun h => h.elim id (fun e => e ▸ hx)⟩
  · simp

/-- One die fails. -/
theorem diesFailed_dieFail (s : State) {d : Nat} (hd : d < 40) : DiesFailed [d] s (dieFail s d) := by
  unfold dieFail
  split
  · next h5 =>
    exact ⟨fun x hx => by rwa [List.mem_singleton.mp hx], fun x hx hne => absurd h5 (List.mem_singleton.mp hx ▸ hne), fun _ hx => hx,
      fun _ _ _ => rfl⟩
  · have hkept : ControlKept (holdReset (setDie s d 5) d)
        (dieLost (logFault (drawNat (holdReset (setDie s d 5) d)).2 d 0x0C 0x200 ((drawNat (holdReset (setDie s d 5) d)).1 % 65536) 0xFFFF 0 0) d) :=
      controlKept_dieLost (controlKept_logFault (ControlKept.refl _).upd)
    have hheld (x : Nat) : x ∈ (holdReset (setDie s d 5) d).wen.resetHeld ↔ x ∈ s.wen.resetHeld ∨ x = d := by
      simp [holdReset, setDie, mem_addOnce]
    refine ⟨fun x hx => ?_, fun x hx _ => ?_, fun x hx => ?_, fun k hk hne => ?_⟩
    · obtain rfl := List.mem_singleton.mp hx
      exact (hkept.dieState hd).trans (rd_wr_fits s (dieState_type ⟨x, hd⟩) (by decide))
    · exact hkept.resetHeld ▸ (hheld x).mpr (.inr (List.mem_singleton.mp hx))
    · exact hkept.resetHeld ▸ (hheld x).mpr (.inl hx)
    · exact (hkept.ring k hk).trans (rd_wr_ne s 5 (hne d List.mem_cons_self))

/-- Dies fail one after another. -/
theorem diesFailed_foldl (ds : List Nat) (s : State) (hds : ∀ x ∈ ds, x < 40) : DiesFailed ds s (ds.foldl dieFail s) := by
  induction ds generalizing s with
  | nil => exact ⟨by simp, by simp, fun _ hx => hx, fun _ _ _ => rfl⟩
  | cons d ds ih =>
    have hd : d < 40 := hds d List.mem_cons_self
    have first := diesFailed_dieFail s hd
    have rest := ih (dieFail s d) (fun x hx => hds x (List.mem_cons_of_mem d hx))
    have hother (x : Nat) (hx : x < 40) (hne : x ≠ d) : dieState (dieFail s d) x = dieState s x :=
      first.others _ (ringKey_die hx) (fun y hy => by rw [List.mem_singleton.mp hy]; omega)
    rw [List.foldl_cons]
    refine ⟨fun x hx => ?_, fun x hx hne => ?_, fun x hx => rest.still x (first.still x hx), fun k hk hne => ?_⟩
    · by_cases hin : x ∈ ds
      · exact rest.failed x hin
      · obtain rfl : x = d := (List.mem_cons.mp hx).resolve_right hin
        refine (rest.others _ (ringKey_die hd) (fun y hy e => hin ?_)).trans (first.failed x List.mem_cons_self)
        obtain rfl : x = y := by omega
        exact hy
    · by_cases hxd : x = d
      · exact rest.still x (first.held x (List.mem_singleton.mpr hxd) hne)
      · exact rest.held x ((List.mem_cons.mp hx).resolve_left hxd) (by rwa [hother x (hds x hx) hxd])
    · refine (rest.others k hk (fun x hx => hne x (List.mem_cons_of_mem d hx))).trans (first.others k hk (fun x hx => ?_))
      exact hne x (List.mem_singleton.mp hx ▸ List.mem_cons_self)

theorem mem_cutOff {s : State} {x : Nat} : x ∈ cutOff s ↔ x < 39 ∧ reachable s.pkg.breaks x = false := by
  simp [cutOff]

/-- One break leaves every die reachable on the other lane. -/
theorem cutOff_one_break {s : State} {d : Nat} {lane : Fin 2} (hb : s.pkg.breaks = [(d, lane.val)]) : cutOff s = [] := by
  refine List.eq_nil_iff_forall_not_mem.mpr (fun x hx => ?_)
  have hr := (mem_cutOff.mp hx).2
  rw [hb] at hr
  match lane with
  | 0 => simp [reachable] at hr
  | 1 => simp [reachable] at hr

/-- A break on each lane cuts off the dies between the two. -/
theorem mem_cutOff_two_breaks {s : State} {a b x : Nat} (hb : s.pkg.breaks = [(a, 0), (b, 1)]) (hlt : b < 39) :
    x ∈ cutOff s ↔ a ≤ x ∧ x ≤ b := by
  rw [mem_cutOff, hb]
  simp only [reachable, Bool.decide_and, List.any_cons, decide_true, Bool.true_and, one_ne_zero, decide_false, Bool.false_and,
    List.any_nil, Bool.or_self, Bool.or_false, zero_ne_one, Bool.false_or, Bool.not_and, Bool.or_eq_false_iff,
    Bool.not_eq_eq_eq_not, Bool.not_false, decide_eq_true_eq]
  omega

/-- The ring with one more break. -/
def addBreak (s : State) (b : Nat × Nat) : State :=
  { s with pkg := { s.pkg with breaks := if b ∈ s.pkg.breaks then s.pkg.breaks else s.pkg.breaks ++ [b] } }

theorem exec_mgmtRingBreak (d : Die) (lane : Fin 2) (s : State) :
    exec (.mgmtRingBreak d lane) s =
      .next ((cutOff (addBreak s (d.val, lane.val))).foldl dieFail (senseRing (addBreak s (d.val, lane.val)))) := rfl

theorem rd_senseRing (s : State) : rd (senseRing s) 0x101100 = if s.pkg.breaks = [] then 0 else if cutOff s = [] then 1 else 2 := by
  refine rd_wr_fits s ringState_type ?_
  split
  · decide
  · split <;> decide

theorem dieState_senseRing (s : State) {x : Nat} (hx : x < 40) : dieState (senseRing s) x = dieState s x :=
  rd_wr_ne s _ (by omega)

/-- The first break of the ring loses no die. -/
theorem mgmtRingBreak_first (s : State) (d : Die) (lane : Fin 2) (hb : s.pkg.breaks = []) :
    ∃ t, exec (.mgmtRingBreak d lane) s = .next t ∧ rd t 0x101100 = 1 ∧ ∀ x, x < 40 → dieState t x = dieState s x := by
  have hbreaks : (addBreak s (d.val, lane.val)).pkg.breaks = [(d.val, lane.val)] := by simp [addBreak, hb]
  have hcut := cutOff_one_break hbreaks
  refine ⟨_, exec_mgmtRingBreak d lane s, ?_, fun x hx => ?_⟩ <;> rw [hcut, List.foldl_nil]
  · rw [rd_senseRing, hbreaks, hcut]; rfl
  · exact dieState_senseRing _ hx

/-- A break on the second lane fails the dies between the two breaks, and no other. -/
theorem mgmtRingBreak_second (s : State) (a b : Die) (hb : s.pkg.breaks = [(a.val, 0)]) (hlt : b.val < 39) :
    ∃ t, exec (.mgmtRingBreak b 1) s = .next t ∧ (a.val ≤ b.val → rd t 0x101100 = 2) ∧
      (∀ x, a.val ≤ x → x ≤ b.val → dieState t x = 5 ∧ (dieState s x ≠ 5 → x ∈ t.wen.resetHeld)) ∧
      (∀ x, x < 40 → x < a.val ∨ b.val < x → dieState t x = dieState s x) := by
  have hbreaks : (addBreak s (b.val, 1)).pkg.breaks = [(a.val, 0), (b.val, 1)] := by simp [addBreak, hb]
  have hcut (x : Nat) : x ∈ cutOff (addBreak s (b.val, 1)) ↔ a.val ≤ x ∧ x ≤ b.val := mem_cutOff_two_breaks hbreaks hlt
  have hfail := diesFailed_foldl (cutOff (addBreak s (b.val, 1))) (senseRing (addBreak s (b.val, 1)))
    (fun x hx => Nat.lt_succ_of_lt (mem_cutOff.mp hx).1)
  refine ⟨_, exec_mgmtRingBreak b 1 s, fun hab => ?_, fun x hax hxb => ?_, fun x hx hout => ?_⟩
  · have hne : cutOff (addBreak s (b.val, 1)) ≠ [] := List.ne_nil_of_mem ((hcut a.val).mpr ⟨Nat.le_refl _, hab⟩)
    refine (hfail.others _ ringKey_ring (fun x hx => ?_)).trans ?_
    · have := (mem_cutOff.mp hx).1; omega
    · rw [rd_senseRing, hbreaks, if_neg (by simp), if_neg hne]
  · refine ⟨hfail.failed x ((hcut x).mpr ⟨hax, hxb⟩), fun hne => hfail.held x ((hcut x).mpr ⟨hax, hxb⟩) ?_⟩
    rwa [dieState_senseRing _ (by omega)]
  · refine (hfail.others _ (ringKey_die hx) (fun y hy e => ?_)).trans (dieState_senseRing _ hx)
    have := (hcut y).mp hy
    omega

/-! ### Steward events (R25, R393) -/

/-- The log with the record written, cut to its last 1,024. -/
theorem logRec_faults (s : State) (r : FaultRec) (lost : Bool) :
    (logRec s r lost).pkg.faults = (s.pkg.faults ++ [{ r with time := s.ptpNs, seq := rd s 0x100400 }]).drop
      ((s.pkg.faults ++ [{ r with time := s.ptpNs, seq := rd s 0x100400 }]).length - 1024) := by
  simp [logRec]

theorem logRec_stew (s : State) (r : FaultRec) (lost : Bool) : (logRec s r lost).pkg.stew = s.pkg.stew := by simp [logRec]

theorem logRec_ctxs (s : State) (r : FaultRec) (lost : Bool) : (logRec s r lost).ctxs = s.ctxs := by simp [logRec]

/-- The last `n` elements of a list that ends in `x` end in `x`. -/
theorem getLast?_drop_append_singleton {α : Type} (xs : List α) (x : α) {n : Nat} (hn : 0 < n) :
    ((xs ++ [x]).drop ((xs ++ [x]).length - n)).getLast? = some x := by
  rw [List.getLast?_drop, if_neg (by simp only [List.length_append, List.length_singleton]; omega), List.getLast?_concat]

/-- The record written last stands last in the log. -/
theorem logRec_getLast? (s : State) (r : FaultRec) (lost : Bool) :
    (logRec s r lost).pkg.faults.getLast? = some { r with time := s.ptpNs, seq := rd s 0x100400 } := by
  rw [logRec_faults, getLast?_drop_append_singleton _ _ (by decide)]

theorem logRec_faults_length (s : State) (r : FaultRec) (lost : Bool) : (logRec s r lost).pkg.faults.length ≤ 1024 := by
  rw [logRec_faults, List.length_drop]
  omega

/-- An event has left its steward's queue, and the queue's lost-event bit with it. -/
def eventTaken (s : State) (d : Nat) (rest : List StewEvent) : State :=
  { s with pkg := { s.pkg with stew := tset [] s.pkg.stew d rest, lostBit := s.pkg.lostBit.filter (fun x => decide (x ≠ d)) } }

/-- The oldest event of a steward, where Wened has nothing to do about it, becomes the last record of the log. -/
theorem stewardEvent_logs (s : State) (d : Die) (unit : Nat) (e : StewEvent) (rest : List StewEvent)
    (hq : tget [] s.pkg.stew d.val = e :: rest) (hev : e.ev = none) :
    ∃ t, exec (.stewardEvent d unit none) s = .next t ∧ tget [] t.pkg.stew d.val = rest ∧ t.ctxs = s.ctxs ∧
      t.pkg.faults.getLast? = some { e.frec with time := s.ptpNs, seq := rd s 0x100400 } ∧ t.pkg.faults.length ≤ 1024 := by
  refine ⟨logRec (eventTaken s d.val rest) e.frec (e.lost || decide (d.val ∈ s.pkg.lostBit)), ?_, ?_⟩
  · show Host.Outcome.next (forwardEvent s d.val) = _
    simp only [forwardEvent, hq, hev, eventTaken]
  · refine ⟨?_, by rw [logRec_ctxs]; rfl, logRec_getLast? _ _ _, logRec_faults_length _ _ _⟩
    rw [logRec_stew]
    exact tget_tset_self _ _ _ _

/-! ### Quiesce fences (R23) -/

theorem exec_quiesceFenceDone (s : State) : exec .quiesceFenceDone s = .next (retryRun (fenceEnds s)) := rfl

/-- The oldest fence has left the queue and is reported. -/
def fencePopped (s : State) (f : FenceAct) (rest : List FenceAct) : State :=
  { s with pkg := { s.pkg with fences := rest, fenceDone := s.pkg.fenceDone ++ [f] } }

/-- The oldest fence is reported and its Sieve entries leave, its control change still to come. -/
def fenceReported (s : State) (f : FenceAct) (rest : List FenceAct) : State := flushSieves (fencePopped s f rest) (fun _ e => fenceEntry f e)

/-- The control change of a fence. -/
def fenceChange (s : State) : FenceAct → State
  | .routeCommit e table => applyRoutes s e table
  | .spareSwap cl => applySwap s cl
  | .haltCtx id code stream => applyHalt s id code stream
  | .pageRemap stack ctx p => applyRemap s stack ctx p

theorem fenceEnds_waits {s : State} {f : FenceAct} {rest : List FenceAct} (hf : s.pkg.fences = f :: rest) (hc : fenceClear s f = false) :
    fenceEnds s = s := by
  simp [fenceEnds, hf, hc]

theorem fenceEnds_clear {s : State} {f : FenceAct} {rest : List FenceAct} (hf : s.pkg.fences = f :: rest) (hc : fenceClear s f = true) :
    fenceEnds s = fenceChange (fenceReported s f rest) f := by
  simp only [fenceEnds, hf, hc, Bool.not_true, Bool.false_eq_true, if_false, fenceReported, fencePopped]
  cases f <;> rfl

theorem fenceReported_fenceDone (s : State) (f : FenceAct) (rest : List FenceAct) :
    (fenceReported s f rest).pkg.fenceDone = s.pkg.fenceDone ++ [f] := by
  unfold fenceReported
  exact (controlKept_flushSieves (ControlKept.refl (fencePopped s f rest))).fenceDone

theorem flushSieves_fences (s : State) (hit : Nat → SieveEnt → Bool) : (flushSieves s hit).pkg.fences = s.pkg.fences := by
  unfold flushSieves
  exact List.foldlRecOn (motive := fun (t : State) => t.pkg.fences = s.pkg.fences) _ _ rfl
    (fun t ht e _ => by simpa [writeBack, remoteAccess, lineAccess, setSet] using ht)

theorem writeBack_vmem (s : State) (e : SieveEnt) (id : Nat) : (getC (writeBack s e) id).vmem = (getC s id).vmem := by
  have hacc : Accessed s (getC s e.ctx) (remoteAccess s (getC s e.ctx) e.line true).1 (remoteAccess s (getC s e.ctx) e.line true).2 :=
    accessed_line s _ _ _ _
  have hctx : getC (writeBack s e) id = getC (setC (remoteAccess s (getC s e.ctx) e.line true).1 e.ctx
      (remoteAccess s (getC s e.ctx) e.line true).2) id := by
    simp only [writeBack, getC, incr_ctxs]
  rw [hctx, getC_setC]
  split
  · next h => rw [hacc.vmem, h]
  · rw [getC, hacc.ctxs]; rfl

theorem flushSieves_vmem (s : State) (hit : Nat → SieveEnt → Bool) (id : Nat) :
    (getC (flushSieves s hit) id).vmem = (getC s id).vmem := by
  unfold flushSieves
  exact List.foldlRecOn (motive := fun (t : State) => (getC t id).vmem = (getC s id).vmem) _ _ rfl
    (fun t ht e _ => (writeBack_vmem t e id).trans ht)

/-- A fence that affects no page writes no Sieve entry back. -/
theorem flushSieves_none_ctxs (s : State) (hit : Nat → SieveEnt → Bool) (h : ∀ j e, hit j e = false) :
    (flushSieves s hit).ctxs = s.ctxs := by
  have hes : s.fab.sieves.flatMap (fun p => p.2.entries.filter (fun e => hit p.1 e && e.fresh)) = [] := by simp [h]
  simp only [flushSieves, hes, List.foldl_nil]

/-! A route change. -/

/-- Entries that each take a value of their own key. -/
theorem rd_foldl_wr (f : Nat → Nat) (ks : List Nat) (s : State) (q : Nat) :
    rd (ks.foldl (fun s k => wr s k (f k)) s) q = if q ∈ ks then fitEntry q (f q) else rd s q := by
  induction ks generalizing s with
  | nil => simp
  | cons k ks ih =>
    rw [List.foldl_cons, ih, rd_wr]
    by_cases hq : q = k
    · subst hq; simp
    · simp [hq]

theorem foldl_wr_rest (f : Nat → Nat) (ks : List Nat) (s : State) :
    (ks.foldl (fun s k => wr s k (f k)) s).pkg = s.pkg ∧ (ks.foldl (fun s k => wr s k (f k)) s).ctxs = s.ctxs :=
  List.foldlRecOn (motive := fun (t : State) => t.pkg = s.pkg ∧ t.ctxs = s.ctxs) ks _ ⟨rfl, rfl⟩ (fun t ht k _ => by simpa using ht)

theorem applyRoutes_pkg (s : State) (e : Nat) (table : Tbl Nat) : (applyRoutes s e table).pkg = s.pkg := by
  rw [applyRoutes, wr_pkg, (foldl_wr_rest (fun k => tget 0 table k) routeKeys s).1]

theorem applyRoutes_ctxs (s : State) (e : Nat) (table : Tbl Nat) : (applyRoutes s e table).ctxs = s.ctxs := by
  rw [applyRoutes, wr_ctxs, (foldl_wr_rest (fun k => tget 0 table k) routeKeys s).2]

theorem rd_applyRoutes_epoch (s : State) {e : Nat} (table : Tbl Nat) (he : e < 2 ^ 32) : rd (applyRoutes s e table) 0x400200 = e :=
  rd_wr_fits _ routeEpoch_type he

theorem rd_applyRoutes (s : State) (e : Nat) (table : Tbl Nat) {k : Nat} (hk : k ∈ routeKeys) :
    rd (applyRoutes s e table) k = tget 0 table k % 2 ^ 32 := by
  have hne : k ≠ 0x400200 := by
    simp only [routeKeys, List.mem_append, List.mem_map, List.mem_range] at hk
    omega
  rw [applyRoutes, rd_wr_ne _ _ hne, rd_foldl_wr (fun k => tget 0 table k), if_pos hk, fitEntry_of_type (routeKeys_type k hk)]
  rfl

/-! A halt. -/

theorem settleOp_ctxs (s : State) : (settleOp s).ctxs = s.ctxs := by
  have happly : (applyOp s).ctxs = s.ctxs := by
    unfold applyOp
    split
    · split <;> simp
    · rfl
  unfold settleOp
  split
  · split
    · rfl
    · exact happly
  · exact happly

theorem settleOp_fences (s : State) : (settleOp s).pkg.fences = s.pkg.fences := by
  have happly : (applyOp s).pkg.fences = s.pkg.fences := by
    unfold applyOp
    split
    · split <;> simp
    · rfl
  unfold settleOp
  split
  · split
    · rfl
    · exact happly
  · exact happly

/-- A context whose module has stopped (R297). -/
def haltedCtx (s : State) (code : Nat) (c : Context) : Context :=
  { accountRun s c with
    workers := c.workers.map (fun p => (p.1,
      { p.2 with run := if p.2.run = .ended then .ended else .halted code, wait := none, gq := [], gf := [], wf := [], stopped := none })),
    coll := none, collIn := [], modState := .halted code }

/-- A switch that waited for a halt goes on. -/
def switchGoesOn (s : State) : State :=
  match s.pkg.switchTo with
  | some (t, 0) => { s with pkg := { s.pkg with switchTo := some (t, 1) } }
  | _ => s

theorem applyHalt_none (s : State) (id code : Nat) :
    applyHalt s id code none = switchGoesOn (settleOp (modC s id (haltedCtx s code))) := rfl

/-- The HALT in progress on stream `st` completes. -/
def haltCompletes (s : State) (st : Nat) : State :=
  endBusy { s with eth := { s.eth with busy := s.eth.busy.filter (fun (b : BusyCmd) => !decide (b.mgmt = false ∧ b.stream = st)) } }
    (s.eth.busy.filter (fun (b : BusyCmd) => decide (b.mgmt = false ∧ b.stream = st))) 0 0

theorem applyHalt_some (s : State) (id code st : Nat) :
    applyHalt s id code (some st) = switchGoesOn (settleOp (haltCompletes (modC s id (haltedCtx s code)) st)) := rfl

theorem switchGoesOn_rest (s : State) : (switchGoesOn s).ctxs = s.ctxs ∧ (switchGoesOn s).pkg.fences = s.pkg.fences := by
  unfold switchGoesOn
  split <;> exact ⟨rfl, rfl⟩

theorem getC_applyHalt (s : State) (id code : Nat) : getC (applyHalt s id code none) id = haltedCtx s code (getC s id) := by
  rw [applyHalt_none, getC, (switchGoesOn_rest _).1, settleOp_ctxs]
  exact getC_setC_self s id _

theorem applyHalt_fences (s : State) (id code : Nat) : (applyHalt s id code none).pkg.fences = s.pkg.fences := by
  rw [applyHalt_none, (switchGoesOn_rest _).2, settleOp_fences]
  rfl

theorem haltedCtx_vmem (s : State) (code : Nat) (c : Context) : (haltedCtx s code c).vmem = c.vmem := by
  simp [haltedCtx, accountRun]

/-! What every fence reports. -/

theorem degradeDie_fenceDone (s : State) (d : Nat) : (degradeDie s d).pkg.fenceDone = s.pkg.fenceDone := by
  unfold degradeDie
  refine (controlKept_degradeDevice (controlKept_logFault (ControlKept.refl _))).fenceDone.trans ?_
  split
  · simp [setDie]
  · rfl

theorem applySwap_fenceDone (s : State) (cl : Nat) : (applySwap s cl).pkg.fenceDone = s.pkg.fenceDone := by
  unfold applySwap
  dsimp only
  split
  · exact degradeDie_fenceDone s _
  · refine (controlKept_logFault (ControlKept.refl _)).fenceDone.trans ?_
    split <;> rfl

theorem applyRemap_fenceDone (s : State) (stack : Fin 16) (ctx p : Nat) : (applyRemap s stack ctx p).pkg.fenceDone = s.pkg.fenceDone := by
  unfold applyRemap
  dsimp only
  refine (controlKept_releaseHeld (ControlKept.refl _)).fenceDone.trans ?_
  generalize hu : (if (!(getC s ctx).live) = true then s else _) = u
  have hlog : ControlKept u (logFault (incr u (0xA00801 + stack.val) 1) (8 + stack.val) 0x0B 0x200 0x0A05 ctx 0 0) :=
    controlKept_logFault (controlKept_incr (ControlKept.refl u) (not_ringKey_of_gt (by omega)))
  have hsame : u.pkg.fenceDone = s.pkg.fenceDone := by
    subst hu
    split <;> rfl
  refine Eq.trans ?_ (hlog.fenceDone.trans hsame)
  split
  · rfl
  · exact degradeDie_fenceDone _ _

theorem applyHalt_fenceDone (s : State) (id code : Nat) (stream : Option Nat) :
    (applyHalt s id code stream).pkg.fenceDone = s.pkg.fenceDone := by
  have hgoes (u : State) : (switchGoesOn u).pkg.fenceDone = u.pkg.fenceDone := by
    unfold switchGoesOn
    split <;> rfl
  have hhalted : ControlKept s (modC s id (haltedCtx s code)) := controlKept_modC (ControlKept.refl s)
  cases stream with
  | none =>
    rw [applyHalt_none, hgoes]
    exact (controlKept_settleOp hhalted).fenceDone
  | some st =>
    rw [applyHalt_some, hgoes]
    exact (controlKept_settleOp (controlKept_endBusy hhalted.upd)).fenceDone

theorem fenceChange_fenceDone (s : State) (f : FenceAct) : (fenceChange s f).pkg.fenceDone = s.pkg.fenceDone := by
  cases f with
  | routeCommit e table => rw [fenceChange, applyRoutes_pkg]
  | spareSwap cl => rw [fenceChange, applySwap_fenceDone]
  | haltCtx id code stream => rw [fenceChange, applyHalt_fenceDone]
  | pageRemap stack ctx p => rw [fenceChange, applyRemap_fenceDone]

/-- The oldest fence ends once its ops have completed, and its control change is applied; before that the row starts at most a module. -/
theorem quiesceFenceDone_effect (s : State) (f : FenceAct) (rest : List FenceAct) (hf : s.pkg.fences = f :: rest) :
    (fenceClear s f = false → exec .quiesceFenceDone s = .next (retryRun s)) ∧
    (fenceClear s f = true → exec .quiesceFenceDone s = .next (retryRun (fenceEnds s)) ∧
      (fenceEnds s).pkg.fenceDone = s.pkg.fenceDone ++ [f] ∧
      (∀ e table, f = .routeCommit e table → e < 2 ^ 32 → (fenceEnds s).pkg.fences = rest ∧ rd (fenceEnds s) 0x400200 = e ∧
        (fenceEnds s).ctxs = s.ctxs ∧ ∀ k ∈ routeKeys, rd (fenceEnds s) k = tget 0 table k % 2 ^ 32) ∧
      (∀ id code, f = .haltCtx id code none → (fenceEnds s).pkg.fences = rest ∧ (getC (fenceEnds s) id).modState = .halted code ∧
        (getC (fenceEnds s) id).coll = none ∧ (getC (fenceEnds s) id).vmem = (getC s id).vmem)) := by
  refine ⟨fun hc => by rw [exec_quiesceFenceDone, fenceEnds_waits hf hc], fun hc => ⟨rfl, ?_⟩⟩
  have hfences : (fenceReported s f rest).pkg.fences = rest := flushSieves_fences _ _
  rw [fenceEnds_clear hf hc]
  refine ⟨(fenceChange_fenceDone _ f).trans (fenceReported_fenceDone s f rest), ?_, ?_⟩
  · rintro e table rfl he
    simp only [fenceChange]
    refine ⟨by rw [applyRoutes_pkg, hfences], rd_applyRoutes_epoch _ table he, ?_, fun k hk => rd_applyRoutes _ e table hk⟩
    rw [applyRoutes_ctxs]
    exact flushSieves_none_ctxs _ _ (fun _ _ => rfl)
  · rintro id code rfl
    simp only [fenceChange]
    rw [applyHalt_fences, hfences, getC_applyHalt, haltedCtx_vmem]
    exact ⟨rfl, rfl, rfl, flushSieves_vmem _ _ id⟩

/-! ### Access tables (R24) -/

/-- Keys that each take a value of their own. -/
theorem tget_foldl_tset {α : Type} [DecidableEq α] (d : α) (f : Nat → α) (ks : List Nat) (m : Tbl α) (q : Nat) :
    tget d (ks.foldl (fun t k => tset d t k (f k)) m) q = if q ∈ ks then f q else tget d m q := by
  induction ks generalizing m with
  | nil => simp
  | cons k ks ih =>
    rw [List.foldl_cons, ih, tget_tset]
    by_cases hq : q = k
    · subst hq; simp
    · simp [hq]

/-- An update has taken effect. -/
def accessUpdated (s : State) (u : AccUpdate) (rest : List AccUpdate) : State :=
  { s with pkg := { s.pkg with accPend := rest,
                               access := (accMasters u).foldl (fun t m => tset 0 t m (withPart s m u.entry)) s.pkg.access } }

/-- The oldest update replaces its masters' entries, whole, once nothing admitted under a right it removes is left. -/
theorem accessTableUpdateDone_effect (s : State) (u : AccUpdate) (rest : List AccUpdate) (hp : s.pkg.accPend = u :: rest) :
    (accWaits s u = true → exec .accessTableUpdateDone s = .next s) ∧
    (accWaits s u = false → ∃ t, exec .accessTableUpdateDone s = .next t ∧ t.pkg.accPend = rest ∧
      (∀ m ∈ accMasters u, tget 0 t.pkg.access m = withPart s m u.entry) ∧
      (∀ m, m ∉ accMasters u → tget 0 t.pkg.access m = tget 0 s.pkg.access m)) := by
  have hexec : exec .accessTableUpdateDone s = execAccessTableUpdateDone s := rfl
  rw [hexec]
  refine ⟨fun hw => by simp [execAccessTableUpdateDone, hp, hw], fun hw => ?_⟩
  refine ⟨accessUpdated s u rest, ?_, rfl, fun m hm => ?_, fun m hm => ?_⟩
  · simp [execAccessTableUpdateDone, accessUpdated, hp, hw]
  · exact (tget_foldl_tset 0 (fun m => withPart s m u.entry) _ _ m).trans (if_pos hm)
  · exact (tget_foldl_tset 0 (fun m => withPart s m u.entry) _ _ m).trans (if_neg hm)

/-! ### Stacks (R155, R156, R407) -/

/-- A number of `w` bits read as two's complement. -/
theorem toSigned_toNat {w : Nat} (v : BitVec w) : toSigned w v.toNat = v.toInt := by
  have hmod : v.toNat % 2 ^ w = v.toNat := Nat.mod_eq_of_lt v.isLt
  simp only [toSigned, hmod, BitVec.toInt_eq_toNat_cond]
  rcases lt_or_ge (2 * v.toNat) (2 ^ w) with hlt | hge
  · rw [if_pos hlt, if_neg (Nat.not_le.mpr hlt)]
  · rw [if_neg (Nat.not_lt.mpr hge), if_pos hge, Nat.cast_pow, Nat.cast_ofNat]

theorem countEvent_ent (s : State) (f : Context → Context) : (countEvent s f).ent = s.ent := by
  unfold countEvent
  split
  · split <;> rfl
  · rfl

theorem rd_countEvent (s : State) (f : Context → Context) (k : Nat) : rd (countEvent s f) k = rd s k := by
  simp only [rd, countEvent_ent]

theorem countEvent_pkg (s : State) (f : Context → Context) : (countEvent s f).pkg = s.pkg := by
  unfold countEvent
  split
  · split <;> rfl
  · rfl

/-- Raising an event changes one entry at most, the count of lost events. -/
theorem rd_raiseFree (s : State) (die cls unit ctx step : Nat) (ev : Option UnitEvent) (j : Bool) {k : Nat} (hk : k ≠ 0x101200) :
    rd (raiseFree s die cls unit ctx step ev j) k = rd s k := by
  unfold raiseFree raiseEvent
  dsimp only
  split
  · rfl
  · exact rd_wr_ne _ _ hk

/-- Refresh multiplier that a reading sets. -/
def readMult (s : State) (stack : Fin 16) (v : Int) : Nat :=
  if stack.val ∈ s.pkg.stackRead then nextMult (rd s (0x300301 + stack.val)) v else bandMult v

/-- A reading's temperature and multiplier are recorded, and count for the step. -/
def tempRecorded (s : State) (stack : Fin 16) (v : BitVec 16) : State :=
  let u := wr (wr s (0x300201 + stack.val) v.toNat) (0x300301 + stack.val) (readMult s stack v.toInt)
  countEvent { u with pkg := { u.pkg with stackRead := addOnce u.pkg.stackRead stack.val } }
    (fun c => { c with evRefresh := max c.evRefresh (readMult s stack v.toInt) })

/-- A stack above 105 °C is throttled; its event is raised when it was not. -/
def throttled (s : State) (stack : Fin 16) : State :=
  let u := countEvent s (fun c => { c with evHot := addOnce c.evHot stack.val })
  if rd u (0x300401 + stack.val) = 1 then u
  else raiseFree (wr u (0x300401 + stack.val) 1) (stack.val / 2) 0x08 (0x210 + stack.val % 2) 0xFFFF 0 none false

theorem exec_stackTempReading (s : State) (stack : Fin 16) (v : BitVec 16) :
    exec (.stackTempReading stack v) s =
      .next (if 1050 < v.toInt then throttled (tempRecorded s stack v) stack
        else if v.toInt < 1000 then wr (tempRecorded s stack v) (0x300401 + stack.val) 0
        else tempRecorded s stack v) := by
  show execStackTempReading stack v s = _
  simp only [execStackTempReading, toSigned_toNat]
  rfl

theorem bandMult_le (v : Int) : bandMult v ≤ 4 := by
  unfold bandMult
  split
  · decide
  · split <;> decide

theorem readMult_lt (s : State) (stack : Fin 16) (v : Int) (h : rd s (0x300301 + stack.val) < 256) : readMult s stack v < 256 := by
  have hb := bandMult_le v
  unfold readMult nextMult
  split
  · split
    · omega
    · split <;> omega
  · omega

theorem readMult_hot (s : State) (stack : Fin 16) {v : Int} (h : 1050 < v) : 4 ≤ readMult s stack v := by
  have hb : bandMult v = 4 := by
    rw [bandMult, if_neg (by omega), if_neg (by omega)]
  unfold readMult nextMult
  split <;> omega

theorem readMult_cool (s : State) (stack : Fin 16) {v : Int} (h : v ≤ 820) : readMult s stack v = 1 := by
  have hb : bandMult v = 1 := if_pos (by omega)
  simp [readMult, nextMult, hb, h]

theorem rd_tempRecorded_temp (s : State) (stack : Fin 16) (v : BitVec 16) :
    rd (tempRecorded s stack v) (0x300201 + stack.val) = v.toNat := by
  refine (rd_countEvent _ _ _).trans ((rd_wr_ne _ _ (by omega)).trans ?_)
  exact rd_wr_fits s (stackTemp_type stack) v.isLt

theorem rd_tempRecorded_mult (s : State) (stack : Fin 16) (v : BitVec 16) (h : rd s (0x300301 + stack.val) < 256) :
    rd (tempRecorded s stack v) (0x300301 + stack.val) = readMult s stack v.toInt :=
  (rd_countEvent _ _ _).trans (rd_wr_fits _ (refreshMult_type stack) (readMult_lt s stack _ h))

theorem rd_tempRecorded_throttled (s : State) (stack : Fin 16) (v : BitVec 16) :
    rd (tempRecorded s stack v) (0x300401 + stack.val) = rd s (0x300401 + stack.val) :=
  (rd_countEvent _ _ _).trans ((rd_wr_ne _ _ (by omega)).trans (rd_wr_ne _ _ (by omega)))

theorem rd_throttled_self (s : State) (stack : Fin 16) : rd (throttled s stack) (0x300401 + stack.val) = 1 := by
  unfold throttled
  dsimp only
  split
  · assumption
  · exact (rd_raiseFree _ _ _ _ _ _ _ _ (by omega)).trans (rd_wr_fits _ (stackThrottled_type stack) (by decide))

theorem rd_throttled_ne (s : State) (stack : Fin 16) {k : Nat} (hk : k ≠ 0x300401 + stack.val) (hl : k ≠ 0x101200) :
    rd (throttled s stack) k = rd s k := by
  unfold throttled
  dsimp only
  split
  · exact rd_countEvent _ _ _
  · exact (rd_raiseFree _ _ _ _ _ _ _ _ hl).trans ((rd_wr_ne _ _ hk).trans (rd_countEvent _ _ _))

/-- A reading sets its stack's temperature and refresh multiplier; above 105 °C it throttles the stack, below 100 °C it releases it. -/
theorem stackTempReading_effect (s : State) (stack : Fin 16) (v : BitVec 16) (h : rd s (0x300301 + stack.val) < 256) :
    ∃ t, exec (.stackTempReading stack v) s = .next t ∧ rd t (0x300201 + stack.val) = v.toNat ∧
      (1050 < v.toInt → rd t (0x300401 + stack.val) = 1 ∧ 4 ≤ rd t (0x300301 + stack.val)) ∧
      (v.toInt < 1000 → rd t (0x300401 + stack.val) = 0) ∧ (v.toInt ≤ 820 → rd t (0x300301 + stack.val) = 1) ∧
      (1000 ≤ v.toInt → v.toInt ≤ 1050 → rd t (0x300401 + stack.val) = rd s (0x300401 + stack.val)) := by
  have htemp := rd_tempRecorded_temp s stack v
  have hmult := rd_tempRecorded_mult s stack v h
  refine ⟨_, exec_stackTempReading s stack v, ?_⟩
  rcases lt_or_ge 1050 v.toInt with hot | hle
  · rw [if_pos hot, rd_throttled_self, rd_throttled_ne _ _ (by omega) (by omega), rd_throttled_ne _ _ (by omega) (by omega), htemp, hmult]
    exact ⟨rfl, fun _ => ⟨rfl, readMult_hot s stack hot⟩, fun _ => by omega, fun _ => by omega, fun _ _ => by omega⟩
  · rw [if_neg (by omega)]
    rcases lt_or_ge v.toInt 1000 with cool | hge
    · rw [if_pos cool, rd_wr_fits _ (stackThrottled_type stack) (by decide), rd_wr_ne _ _ (by omega), rd_wr_ne _ _ (by omega), htemp, hmult]
      exact ⟨rfl, fun _ => by omega, fun _ => rfl, fun hc => readMult_cool s stack hc, fun _ _ => by omega⟩
    · rw [if_neg (by omega), htemp, rd_tempRecorded_throttled]
      exact ⟨rfl, fun _ => by omega, fun _ => by omega, fun _ => by omega, fun _ _ => rfl⟩

/-- A retraining moves the stack's rotation to its next channel. -/
theorem stackRetrain_effect (s : State) (stack : Fin 16) :
    ∃ t, exec (.stackRetrain stack) s = .next t ∧ t.ent = s.ent ∧
      tget 0 t.pkg.retrain stack.val = (tget 0 s.pkg.retrain stack.val + 1) % 16 := by
  have hexec : exec (.stackRetrain stack) s = execStackRetrain stack s := rfl
  refine ⟨_, hexec, ?_⟩
  dsimp only
  split
  · exact ⟨rfl, tget_tset_self _ _ _ _⟩
  · rw [countEvent_ent, countEvent_pkg]
    exact ⟨rfl, tget_tset_self _ _ _ _⟩

/-! ### Rates (R321) -/

/-- Counts of the second that a sample ends. -/
def predDelta (s : State) : List Nat := ((predCounts s).zip (s.ckpt.predLast ++ List.replicate 48 0)).map (fun p => p.1 - p.2)

/-- A sample is kept; the last 60 stay. -/
def predKept (s : State) : State :=
  let h := s.ckpt.pred ++ [predDelta s]
  { s with ckpt := { s.ckpt with pred := h.drop (h.length - 60), predLast := predCounts s } }

/-- A sample that does not yet fill the 60 s warns of nothing. -/
theorem exec_predRateSample_filling (s : State) (h : s.ckpt.pred.length < 59) :
    exec .predRateSample s = .next (wr (predKept s) 0x800501 0) := by
  have hexec : exec .predRateSample s = execPredRateSample s := rfl
  have hfull : s.ckpt.pred.length ≠ 60 := by omega
  have hlen : s.ckpt.pred.length + 1 < 60 := by omega
  simp [hexec, execPredRateSample, hfull, hlen, predKept, predDelta]

theorem predRateSample_filling (s : State) (h : s.ckpt.pred.length < 59) :
    ∃ t, exec .predRateSample s = .next t ∧ rd t 0x800501 = 0 ∧ t.ckpt.predLast = predCounts s ∧
      t.ckpt.pred.length = s.ckpt.pred.length + 1 ∧ t.ctxs = s.ctxs := by
  refine ⟨_, exec_predRateSample_filling s h, rd_wr_fits _ predState_type (by decide), ?_, ?_, ?_⟩
  · rw [wr_ckpt]; rfl
  · rw [wr_ckpt]
    simp only [predKept, List.length_drop, List.length_append, List.length_singleton]
    omega
  · rw [wr_ctxs]; rfl

/-! ### Quotes (R348) -/

theorem leNat_append (as bs : List (BitVec 8)) : leNat (as ++ bs) = leNat as + 256 ^ as.length * leNat bs := by
  induction as with
  | nil => simp [leNat]
  | cons a as ih => simp only [List.cons_append, leNat, ih, List.length_cons]; ring

/-- A quote begins with its four magic bytes (Table 15.2). -/
theorem quoteBytes_magic (s : State) (who : Option Nat) (nonce : Nat) (sig : List Byte) :
    leNat (quoteBytes s who nonce sig) % 2 ^ 32 = 0x544F5551 := by
  obtain ⟨rest, hq⟩ : ∃ rest, quoteBytes s who nonce sig = natLe 4 0x544F5551 ++ rest := by
    simp only [quoteBytes, List.append_assoc]
    exact ⟨_, rfl⟩
  have hmagic : leNat (natLe 4 0x544F5551) = 0x544F5551 := by decide
  have hlen : (natLe 4 0x544F5551).length = 4 := rfl
  rw [hq, leNat_append, hmagic, hlen]
  omega

/-- The oldest quote of authority O is signed. -/
theorem quoteReady_signs (s : State) (nonce : Nat) (rest : List (Option Nat × Nat)) (hp : s.wen.quotePending = (none, nonce) :: rest)
    (hk : s.wen.idKeys = true) :
    ∃ t, exec .quoteReady s = .next t ∧ t.wen.quotePending = rest ∧ t.wen.quotesSigned = s.wen.quotesSigned + 1 ∧
      t.wen.quoteO % 2 ^ 32 = 0x544F5551 := by
  have hexec : exec .quoteReady s = .next (signQuote { s with wen := { s.wen with quotePending := rest } } none nonce) := by
    show execQuoteReady s = _
    simp only [execQuoteReady, hp]
  refine ⟨_, hexec, ?_⟩
  simp only [signQuote, hk, Bool.not_true, Bool.false_eq_true, if_false, bumpSnap_wen]
  exact ⟨rfl, rfl, quoteBytes_magic _ _ _ _⟩

/-! ### Presence and the seal (R351, R352, R437, R438) -/

/-- Only a held low period of 100 ms to 5 s with the seal closed opens the window; a release or the expiry closes it. -/
theorem presence_effect (s : State) :
    (∀ ms, 100 ≤ ms → ms ≤ 5000 → s.wen.sealOk = true →
      exec (.presNRelease ms true) s = .next { s with wen := { s.wen with window := true, ownerEn := true } }) ∧
    (∀ ms held, ms < 100 ∨ 5000 < ms ∨ held = false ∨ s.wen.sealOk = false → exec (.presNRelease ms held) s = .next s) ∧
    exec .ownerEnRelease s = .next { s with wen := { s.wen with ownerEn := false, window := false } } ∧
    exec .presenceWindowExpiry s = .next { s with wen := { s.wen with window := false } } := by
  have hexec (ms : Nat) (held : Bool) : exec (.presNRelease ms held) s = execPresNRelease ms held s := rfl
  refine ⟨fun ms h1 h2 hs => ?_, fun ms held h => ?_, rfl, rfl⟩
  · simp [hexec, execPresNRelease, h1, h2, hs]
  · rw [hexec, execPresNRelease]
    split
    · next hin =>
      obtain ⟨h1, h2, h3⟩ := hin
      have hopen : s.wen.sealOk = false := by
        rcases h with h | h | h | h
        · omega
        · omega
        · rw [h3] at h; cases h
        · exact h
      simp [hopen]
    · rfl

/-- The loop reads OPEN: TAMPERED is latched and the window closes. -/
def sealOpened (s : State) : State :=
  wr (wr (closeWindow { s with wen := { s.wen with sealOk := false } }) 0x20092A 0xFFFFFFFF) 0x702001 1

/-- A loop of 100 ohm or less is closed; any other reading opens it. -/
theorem sealReading_effect (s : State) :
    (∀ ohms, ohms = none ∨ (∃ x, ohms = some x ∧ 100 < x) → ∃ t, exec (.sealReading ohms) s = .next t ∧ t.wen.sealOk = false ∧
      t.wen.window = false ∧ rd t 0x702001 = 1 ∧ rd t 0x20092A = 0xFFFFFFFF) ∧
    (∀ x, x ≤ 100 → ∃ t, exec (.sealReading (some x)) s = .next t ∧ t.wen.sealOk = true ∧ rd t 0x20092A = x ∧
      rd t 0x702001 = rd s 0x702001) := by
  refine ⟨fun ohms h => ⟨sealOpened s, ?_, by simp [sealOpened, closeWindow], by simp [sealOpened, closeWindow], ?_, ?_⟩, fun x hx => ?_⟩
  · rcases h with rfl | ⟨x, rfl, hx⟩
    · rfl
    · show execSealReading (some x) s = _
      simp only [execSealReading, if_neg (Nat.not_le.mpr hx), sealOpened]
  · exact rd_wr_fits _ tampered_type (by decide)
  · exact (rd_wr_ne _ _ (by decide)).trans (rd_wr_fits _ sealOhms_type (by decide))
  · refine ⟨wr { s with wen := { s.wen with sealOk := true } } 0x20092A x, ?_, by simp, ?_, ?_⟩
    · show execSealReading (some x) s = _
      simp only [execSealReading, if_pos hx]
    · exact rd_wr_fits _ sealOhms_type (Nat.lt_of_le_of_lt hx (by decide))
    · exact rd_wr_ne _ _ (by decide)

/-- Settles O48: each clause is one event's effect; the two that reach far, a second ring break and a fence's end, rest on what the loss
of a die and a control change leave alone (`ControlKept`). -/
theorem packageEventsTakeEffect : Obligations.PackageEventsTakeEffect := fun s =>
  ⟨mgmtRingBreak_first s, mgmtRingBreak_second s, stewardEvent_logs s, quiesceFenceDone_effect s, accessTableUpdateDone_effect s,
    stackTempReading_effect s, stackRetrain_effect s, predRateSample_filling s, quoteReady_signs s, presence_effect s, sealReading_effect s⟩

end Sys2Proof.PackageProofs
end

section
/-! PROOFS. Number formats: the encodings of the short formats, the tiles of the Griddle, and what a reduction writes. -/

namespace Sys2Proof.FormatProofs

open Sys2Proof Sys2Proof.Machine Sys2Proof.Laws

/-! ### Decoding (R33 to R37) -/

/-- The sign bit of an element is its highest. -/
theorem signOf_of_lt {f : Fmt} {bits : Nat} (h : bits < 2 ^ fmtBits f) : signOf f bits = decide (signBit f ≤ bits) := by
  have hpow : 2 ^ fmtBits f = 2 * signBit f := by cases f <;> rfl
  have hpos : 0 < signBit f := Nat.two_pow_pos _
  rw [hpow] at h
  rw [signOf, decide_eq_decide]
  by_cases hb : signBit f ≤ bits
  · have hq : bits / signBit f = 1 := Nat.div_eq_of_lt_le (by omega) (by omega)
    simp [hq, hb]
  · simp [Nat.div_eq_of_lt (Nat.lt_of_not_le hb), hb]

/-- A JF8M pattern whose E and F are all ones is a quiet NaN (R35). -/
theorem decode_jf8m_nan {bits : Nat} (hE : bits / 8 % 16 = 15) (hF : bits % 8 = 7) : decode .jf8m bits = .nan false := by
  simp [decode, isFloat, fspec, hE, hF]

/-- With E = 15 and any other F it is a normal value (R35). -/
theorem decode_jf8m_top {bits : Nat} (hE : bits / 8 % 16 = 15) (hF : bits % 8 ≠ 7) :
    decode .jf8m bits = .fin (signOf .jf8m bits) (8 + bits % 8) (15 - 8 - 3) := by
  simp [decode, isFloat, fspec, signOf, hE, hF]

/-- Below E = 15 it is a zero or a finite value. -/
theorem decode_jf8m_below {bits : Nat} (hE : bits / 8 % 16 ≠ 15) : (decode .jf8m bits).isNaN = false := by
  by_cases h0 : bits / 8 % 16 = 0
  · by_cases hF : bits % 8 = 0 <;> simp [decode, isFloat, fspec, h0, hF, Num.isNaN]
  · simp [decode, isFloat, fspec, hE, h0, Num.isNaN]

theorem isSNaN_of_not_isNaN {x : Machine.Num} (h : x.isNaN = false) : x.isSNaN = false := by
  cases x with
  | nan s => cases h
  | _ => rfl

/-- A JF16 pattern with E = 0 reads as a zero, whatever its F (R34). -/
theorem decode_jf16_zero {bits : Nat} (hE : bits / 128 % 256 = 0) : decode .jf16 bits = .zero (signOf .jf16 bits) := by
  simp [decode, isFloat, fspec, signOf, hE]

/-- A finite value is not zero. -/
theorem decode_fin_ne_zero {f : Fmt} {bits s : Nat} {n : Bool} {e : Int} (h : decode f bits = .fin n s e) : s ≠ 0 := by
  unfold decode at h
  dsimp only at h
  split at h
  · repeat' split at h
    all_goals simp only [Num.fin.injEq, reduceCtorEq] at h
    · next hF => exact fun hs => hF (.inl (h.2.1.trans hs))
    · obtain ⟨-, rfl, -⟩ := h
      exact Nat.ne_of_gt (Nat.add_pos_left (Nat.two_pow_pos _) _)
  · unfold numOfInt at h
    split at h
    · cases h
    · next hv =>
      obtain ⟨-, rfl, -⟩ := Num.fin.inj h
      exact Int.natAbs_ne_zero.mpr hv

/-! ### A significand of `p + 1` bits before it is rounded -/

/-- Shifted up to `p + 1` bits, a significand has its leading bit at `p`. -/
theorem pow_le_shifted_up {sig : Nat} {exp : Int} {p : Nat} (hs : sig ≠ 0) (h : topExp sig exp - p ≤ exp) :
    2 ^ p ≤ sig * 2 ^ (exp - (topExp sig exp - p)).toNat := by
  simp only [topExp] at h ⊢
  calc 2 ^ p = 2 ^ Nat.log2 sig * 2 ^ (exp - (exp + Nat.log2 sig - p)).toNat := by rw [← Nat.pow_add]; congr 1; omega
    _ ≤ _ := Nat.mul_le_mul_right _ (Nat.log2_self_le hs)

/-- Shifted down to `p + 1` bits, too. -/
theorem pow_le_shifted_down {sig : Nat} {exp : Int} {p : Nat} (hs : sig ≠ 0) (h : ¬ topExp sig exp - p ≤ exp) :
    2 ^ p ≤ sig / 2 ^ (topExp sig exp - p - exp).toNat := by
  simp only [topExp] at h ⊢
  rw [Nat.le_div_iff_mul_le (Nat.two_pow_pos _), ← Nat.pow_add]
  calc 2 ^ (p + (exp + Nat.log2 sig - p - exp).toNat) = 2 ^ Nat.log2 sig := by congr 1; omega
    _ ≤ sig := Nat.log2_self_le hs

/-- Rounding does not go below the value without its low bits. -/
theorem div_le_roundShift (rm : RM) (neg : Bool) (sig shift : Nat) : sig / 2 ^ shift ≤ (roundShift rm neg sig shift).1 := by
  have hup (up : Bool) (q : Nat) : q ≤ if up then q + 1 else q := by cases up <;> simp
  exact hup _ _

/-- A value rounded to `p + 1` bits keeps its leading bit. -/
theorem pow_le_roundTo {sig : Nat} (rm : RM) (neg : Bool) (exp : Int) (p : Nat) (hs : sig ≠ 0) :
    2 ^ p ≤ (roundTo rm neg sig exp (topExp sig exp - p)).1 := by
  unfold roundTo
  split
  · next h => exact pow_le_shifted_up hs h
  · next h => exact (pow_le_shifted_down hs h).trans (div_le_roundShift _ _ _ _)

/-! ### JF16 results hold no subnormal (R34) -/

/-- A JF16 magnitude that is zero or has E not zero. -/
def FlushedMag (mag : Nat) : Prop := mag = 0 ∨ 2 ^ 7 ≤ mag ∧ mag < 2 ^ 15

/-- A JF16 element of either sign with such a magnitude. -/
def Flushed (bits : Nat) : Prop := ∃ neg mag, FlushedMag mag ∧ bits = withSign .jf16 neg mag

theorem Flushed.not_subnormal {bits : Nat} (h : Flushed bits) : isSubnormal .jf16 bits = false := by
  obtain ⟨neg, mag, hm, rfl⟩ := h
  rcases hm with rfl | ⟨hlo, hhi⟩
  · cases neg <;> rfl
  · have hE : withSign .jf16 neg mag / 128 % 256 ≠ 0 := by
      cases neg <;> simp only [withSign, signBit, fmtBits, if_true, Bool.false_eq_true, if_false] <;> omega
    simp [isSubnormal, fspec, hE]

theorem flushed_zero (neg : Bool) : Flushed (withSign .jf16 neg 0) := ⟨neg, 0, .inl rfl, rfl⟩

theorem flushed_inf (neg : Bool) : Flushed (infBits .jf16 neg) := ⟨neg, _, .inr (by decide), rfl⟩

theorem flushed_max (neg : Bool) : Flushed (maxBits .jf16 neg) := ⟨neg, _, .inr (by decide), rfl⟩

theorem flushed_nan : Flushed (canonicalNaN .jf16) := ⟨false, _, .inr (by decide), rfl⟩

theorem Flushed.ite {p : Prop} [Decidable p] {x y : Nat × Flags} (hx : Flushed x.1) (hy : Flushed y.1) :
    Flushed (if p then x else y).1 := by
  split <;> assumption

/-- A magnitude with a whole significand, cut where it exceeds the largest. -/
theorem Flushed.capped {neg : Bool} {o : Nat × Flags} {mag : Nat} {fl : Flags} (ho : Flushed o.1) (hm : 2 ^ 7 ≤ mag) :
    Flushed (if (fspec .jf16).maxMag < mag then o else (withSign .jf16 neg mag, fl)).1 := by
  split
  · exact ho
  · next h => exact ⟨neg, mag, .inr ⟨hm, Nat.lt_of_le_of_lt (Nat.le_of_not_lt h) (by decide)⟩, rfl⟩

theorem pow_le_magBits {q : Nat} (lsb : Int) (hq : 2 ^ 7 ≤ q) : 2 ^ 7 ≤ magBits (fspec .jf16) q lsb :=
  hq.trans (Nat.le_add_left _ _)

theorem flushed_roundFloat (rule : RRule) (rm : RM) (neg : Bool) {sig : Nat} (exp : Int) (hs : sig ≠ 0) :
    Flushed (roundFloat .jf16 rule rm neg sig exp).1 := by
  have hq : 2 ^ 7 ≤ (roundTo rm neg sig exp (topExp sig exp - (fspec .jf16).m)).1 := pow_le_roundTo rm neg exp 7 hs
  have hover : Flushed (if overflowToInf rm neg then infBits .jf16 neg else maxBits .jf16 neg) := by
    split
    · exact flushed_inf neg
    · exact flushed_max neg
  unfold roundFloat
  dsimp only
  split
  · rw [if_pos (.inr rfl)]
    exact flushed_zero neg
  · refine .capped (.ite (flushed_max neg) hover) ?_
    split
    · exact Nat.le_refl _
    · exact pow_le_magBits _ hq

theorem flushed_roundStochastic (neg : Bool) {sig : Nat} (exp : Int) (r : Nat) (hs : sig ≠ 0) :
    Flushed (roundStochastic .jf16 neg sig exp r).1 := by
  unfold roundStochastic
  dsimp only
  rw [if_neg (show ¬ (fspec .jf16).sub = true by decide)]
  split
  · next h => exact .ite (flushed_zero neg) (.capped (flushed_max neg) (pow_le_magBits _ (pow_le_shifted_up (p := 7) hs h)))
  · next h =>
    rw [if_neg (fun h => absurd h.2 (by decide))]
    exact .ite (flushed_zero neg) (.capped (flushed_max neg)
      (pow_le_magBits _ ((pow_le_shifted_down (p := 7) hs h).trans (Nat.le_add_right _ _))))

/-- Every conversion to JF16 from another format, rounded either way. -/
theorem flushed_convertElem {src : Fmt} (rm : RM) (r : Option Nat) (a : Nat) (hsrc : src ≠ .jf16) :
    Flushed (convertElem .jf16 src rm r a).1 := by
  unfold convertElem
  rw [if_neg hsrc.symm]
  cases hd : decode src a with
  | zero n => exact flushed_zero n
  | inf n => exact flushed_inf n
  | nan s => exact flushed_nan
  | fin n s e =>
    have hs := decode_fin_ne_zero hd
    cases r with
    | none => exact flushed_roundFloat _ rm n e hs
    | some k => exact flushed_roundStochastic n e k hs

/-- Every JF16 element read and encoded again. -/
theorem flushed_encodeNum_decode {f : Fmt} (rm : RM) (a : Nat) : Flushed (encodeNum .jf16 rm (decode f a)).1 := by
  cases hd : decode f a with
  | zero n => exact flushed_zero n
  | inf n => exact flushed_inf n
  | nan s => exact flushed_nan
  | fin n s e => exact flushed_roundFloat _ rm n e (decode_fin_ne_zero hd)

theorem flushed_maxMin (max : Bool) (a b : Nat) : Flushed (maxMin .jf16 max a b).1 := by
  unfold maxMin
  dsimp only
  split
  · exact flushed_nan
  · dsimp only
    rw [← apply_ite (decode .jf16)]
    exact flushed_encodeNum_decode .rne _

/-- Settles O7: JF8M's patterns with E = 15 by `decode_jf8m_top`, and every JF16 result is flushed. -/
theorem shortFormatsHaveTheirEncodings : Obligations.ShortFormatsHaveTheirEncodings := by
  refine ⟨⟨fun bits hb hE => ?_, fun src rm r a hsrc => (flushed_convertElem rm r a hsrc).not_subnormal,
    fun max a b => (flushed_maxMin max a b).not_subnormal⟩, fun bits hb => ?_⟩
  · rw [decode_jf16_zero hE, signOf_of_lt hb]
    rfl
  · by_cases hE : bits / 8 % 16 = 15
    · by_cases hF : bits % 8 = 7
      · rw [decode_jf8m_nan hE hF]
        exact ⟨⟨fun _ => by omega, fun _ => rfl⟩, rfl, fun _ h => absurd hF h⟩
      · rw [decode_jf8m_top hE hF]
        exact ⟨⟨nofun, fun h => by omega⟩, rfl, fun _ _ => by rw [signOf_of_lt hb]; rfl⟩
    · have hnan := decode_jf8m_below hE
      refine ⟨⟨fun h => ?_, fun h => by omega⟩, isSNaN_of_not_isNaN hnan, fun h => absurd h hE⟩
      rw [hnan] at h
      cases h

/-! ### Digits -/

/-- Digit `i` of a number written in base `b` from its lowest digit on. -/
theorem foldr_digits_div_mod {b : Nat} {xs : List Nat} (hx : ∀ x ∈ xs, x < b) (hb : 0 < b) (i : Nat) :
    xs.foldr (fun x n => x + b * n) 0 / b ^ i % b = xs.getD i 0 := by
  have hof : xs.foldr (fun x n => x + b * n) 0 = Nat.ofDigits b xs := by
    rw [Nat.ofDigits_eq_foldr]; rfl
  rw [hof, Nat.ofDigits_div_pow_eq_ofDigits_drop i hb xs hx]
  cases hd : xs.drop i with
  | nil => simp [List.getD_eq_getElem?_getD, List.drop_eq_nil_iff.mp hd]
  | cons d ds =>
    have hget : xs[i]? = some d := by rw [← List.head?_drop, hd]; rfl
    have hlt : d < b := hx d (List.mem_of_getElem? hget)
    simp [Nat.ofDigits_cons, List.getD_eq_getElem?_getD, hget, Nat.mod_eq_of_lt hlt]

/-! ### Tiles (R91) -/

/-- The elements of a tile fill its 2,048 bits. -/
theorem fmtBits_mul_tileRows (ty : TileType) : fmtBits (tileFmt ty) * (4 * tileRows ty) = 2048 := by
  cases ty <;> rfl

/-- An element of a tile is the element it was made of, in row-major order. -/
theorem tileGet_tileOf {ty : TileType} {xs : List Nat} {m n : Nat} (hlen : xs.length = 4 * tileRows ty)
    (hx : ∀ x ∈ xs, x < 2 ^ fmtBits (tileFmt ty)) : tileGet (tileOf ty xs) m n = xs.getD (4 * m + n) 0 := by
  have hlt : xs.foldr (fun x n => x + 2 ^ fmtBits (tileFmt ty) * n) 0 < 2 ^ (fmtBits (tileFmt ty) * (4 * tileRows ty)) := by
    have h := Nat.ofDigits_lt_base_pow_length (Nat.one_lt_two_pow (by cases ty <;> decide)) hx
    rw [Nat.ofDigits_eq_foldr, hlen, ← Nat.pow_mul] at h
    exact h
  unfold tileGet tileOf
  dsimp only
  rw [BitVec.toNat_ofNat, ← fmtBits_mul_tileRows ty, Nat.mod_eq_of_lt hlt, Nat.pow_mul]
  exact foldr_digits_div_mod hx (Nat.two_pow_pos _) _

/-! ### What a Griddle op computes (R50, R93 to R96) -/

theorem tileTypeOf_tileFmt (ty : TileType) : tileTypeOf (tileFmt ty) = some ty := by cases ty <;> rfl

/-- GZERO leaves a tile of zeros of its type (R93). -/
theorem griddleOp_zero (c : Context) (k : Worker) {fmt : Fmt} (d : TReg) {ty : TileType} (set : Option Nat) (h : tileTypeOf fmt = some ty) :
    griddleOp c k ⟨.zero fmt d, set⟩ = .flight ⟨d, ⟨ty, 0⟩, 0, none⟩ 1 0 0 := by
  simp [griddleOp, h, tileZero]

/-- GLD of a view that fits its tile leaves what its latch set holds (R94). -/
theorem griddleOp_ld (c : Context) (k : Worker) (d : TReg) {a : View} {ty : TileType} (i : Nat) (hn : viewCount a ≠ 0)
    (hf : viewFmt c a = some (tileFmt ty)) (hr : a.rows ≤ tileRows ty) (hc : a.cols ≤ 4) :
    griddleOp c k ⟨.ld d a, some i⟩ = .flight ⟨d, tileOf ty ((tileIndices ty).map (fun p =>
      if p.1 < a.rows ∧ p.2 < a.cols then (tget default k.latches i).a.getD (p.1 * a.cols + p.2) 0 else 0)), 0, some i⟩ 1 0 0 := by
  have hty : (viewFmt c a).bind tileTypeOf = some ty := by rw [hf]; exact tileTypeOf_tileFmt ty
  have hok : gldBad c a = false := by simp [gldBad, hty, Nat.not_lt.mpr hr, Nat.not_lt.mpr hc]
  simp only [griddleOp, if_neg hn, hok, Bool.false_eq_true, if_false, gldTile, hty, stagedOf]

/-- The INT8 pairs of one update are those of the inner length (R95). -/
theorem gmmaProds_one_update (A B : Nat → Nat → Nat) {L : Nat} (m n : Nat) (hL : L ≤ 8) :
    gmmaProds A B 8 L 0 m n = (List.range L).map (fun l => (A m l, B l n)) := by
  have hk : ∀ L ≤ 8, (List.range 8).filter (fun l => 0 * 8 + l < L) = List.range L := by decide
  rw [gmmaProds, hk L hL]
  simp only [Nat.zero_mul, Nat.zero_add]

theorem foldl_add_eq_sum {α : Type} (f : α → Int) (l : List α) (t : Int) :
    l.foldl (fun t a => t + f a) t = t + (l.map f).sum := by
  induction l generalizing t with
  | nil => simp
  | cons a l ih => rw [List.foldl_cons, ih, List.map_cons, List.sum_cons, add_assoc]

/-- One update of an INT32 element by INT8 pairs adds their products and holds the sum to the range (R50). -/
theorem gmmaElem_int8 (A B : Nat → Nat → Nat) {L : Nat} (m n x : Nat) (hL : L ≤ 8) :
    gmmaElem .int8 .int8 .rne A B 8 L 1 m n x =
      satInt32 (toSigned 32 x + ((List.range L).map (fun l => toSigned 8 (A m l) * toSigned 8 (B l n))).sum) := by
  have hacc : pairAcc .int8 .int8 = .int32 := rfl
  simp only [gmmaElem, List.range_one, List.foldl_cons, List.foldl_nil, hacc, if_true, gmmaProds_one_update A B m n hL,
    gUpdateInt, foldl_add_eq_sum, List.map_map]
  exact Prod.ext rfl BitVec.zero_or

/-! ### The loader (R100) -/

/-- What the loader does where nothing holds the next op's operands back: they stand in the set in turn, the op holds it, and of
the machine the accesses alone are seen. -/
theorem stageNext_stages (s : State) (c : Context) (cl : Nat) (k : Worker) {g : GWait}
    (hg : k.gq.find? (fun g => gopStages g.op && g.set.isNone) = some g) (hset : setFree k k.nextSet = true)
    (hshape : gopShapeBad c g.op = false) (hfill : fillBlocked c k g.op = false) (htrouble : gopTrouble c cl k g.op = none) :
    (stageNext s c cl k).2.2 = { k with
      gq := stageFirst k.nextSet k.gq
      latches := tset default k.latches k.nextSet ⟨readView c cl k ((gopViews g.op).getD 0 View.empty),
        readView c cl k ((gopViews g.op).getD 1 View.empty)⟩
      nextSet := 1 - k.nextSet } ∧
    Accessed s c (stageNext s c cl k).1 (stageNext s c cl k).2.1 := by
  simp only [stageNext, hg, hset, hshape, hfill, htrouble, Bool.not_false, Option.isNone_none, Bool.and_true, if_true, true_and]
  exact Accessed.fold (fun x v => (accessed_eincr _ _ _ _).trans (accessed_view _ _ _ _ _ _ _)) _ (s, c)

/-- Settles O19: the tile that each op leaves, the loader's turn, and the layout of a tile's elements. -/
theorem griddleTilesHoldTheirResults : Obligations.GriddleTilesHoldTheirResults := by
  intro c w k
  refine ⟨fun fmt d ty set => griddleOp_zero c k d set, fun d a ty i => griddleOp_ld c k d i, ?_,
    fun A B L m n x => gmmaElem_int8 A B m n x, fun ty xs m n _ _ => tileGet_tileOf⟩
  intro s g hg hset hshape hfill htrouble
  obtain ⟨hk, hacc⟩ := stageNext_stages s c w.val k hg hset hshape hfill htrouble
  dsimp only
  rw [hk]
  exact ⟨tget_tset_self _ _ _ _, rfl, rfl, hacc.vmem, hacc.workers, hacc.ctxs⟩

/-! ### Reductions (R58, R126) -/

/-- Loading the register groups changes nothing that a reduction reads. -/
theorem redTerms_loadGroups (c : Context) (cl : Nat) (k : Worker) (op : WOp) (is : List Nat) :
    redTerms c cl (loadGroups c cl k op) op is = redTerms c cl k op is := by
  obtain ⟨x, hx⟩ := loadGroups_spec c cl k op
  rw [hx]
  induction is with
  | nil => rfl
  | cons i is ih => simp only [redTerms, ih]; rfl

/-- A view's format does not depend on the counters. -/
theorem viewFmt_eincr (c : Context) (k n : Nat) (v : View) : viewFmt (eincr c k n) v = viewFmt c v := by
  simp only [viewFmt, tensorOf, modOf, eincr_mod]

theorem viewFmt_countBeats (s : State) (c : Context) (cl : Nat) (k : Worker) (op : WOp) (e n : Nat) (stop : Option Nat) (v : View) :
    viewFmt (countBeats s c cl k op e n stop) v = viewFmt c v := by
  simp only [countBeats, viewFmt_eincr]

/-- A reduction whose terms can be read and that has a value writes it at its destination. -/
theorem redRun_value (s : State) (c : Context) (cl : Nat) (k : Worker) (op : WOp) (mode : RedMode) (rop : RedOp) {xs : List Nat} {x : Nat} {fl : Flags}
    (hdest : destOpen c k (viewPlace c cl op.d 0)) (hterms : redTerms c cl k op (List.range (whiskCount k op)) = .ok xs)
    (hval : redValue mode rop op.fmt ((viewFmt c op.d).getD op.fmt) (rmOf k.acw) xs = .value x fl) :
    let n := whiskCount k op
    let k' := loadGroups c cl k op
    let sc := whiskAccess s (eincr (countBeats s c cl k' op 0 n none) 0x503001 xs.length) cl k' op (unmasked k op 0 n)
    let ck := writePlace sc.2 k' (viewPlace c cl op.d 0) x
    redRun s c cl k op mode rop = .done sc.1 ck.1 (whiskMark ck.1 (whiskFinish ck.1 (mergeAsw ck.2 fl) op) op 1) := by
  obtain ⟨r, hr⟩ := loadGroups_spec c cl k op
  have hacw : (loadGroups c cl k op).acw = k.acw := by rw [hr]
  have hun : ∀ n, unmasked (loadGroups c cl k op) op 0 n = unmasked k op 0 n := by rw [hr]; exact fun _ => rfl
  simp only [redRun, (checkDest_open c k _).mpr hdest, redTerms_loadGroups, hterms, hacw, hun, viewFmt_eincr,
    viewFmt_countBeats, hval]

/-- A reduction passes the checks of presenting it and runs. -/
theorem whiskIssue_red (s : State) (cl : Nat) (c : Context) (k : Worker) (op : WOp) {mode : RedMode} {rop : RedOp} (hop : op.kind = .red mode rop)
    (hwait : whiskWait c cl k op = none) (hbad : whiskBad c k op = false) : whiskIssue s cl c k op = redRun s c cl k op mode rop := by
  have hne : whiskEmpty k op = false := by simp only [whiskEmpty, hop]
  simp only [whiskIssue, hne, hwait, hbad, Bool.false_eq_true, if_false, whiskRun, hop]

/-- Settles O24: WRED is presented, its terms are the unmasked elements, and `redRun_value` says what it writes. -/
theorem reductionsWriteOneElement : Obligations.ReductionsWriteOneElement := by
  intro s id w fmt mode rop m d a hready c k op p hacc hwait hbad hdest hsrc n xs k' sc
  refine ⟨fun x fl hval => ?_, fun hmode hrop hxs => ?_, fun hmode e he df _ => ?_⟩
  · have hterms : redTerms c w.val k op (List.range n) = .ok xs :=
      redTerms_ok c w.val k op _ (fun i hi => hsrc i (List.mem_range.mp hi))
    have hexec : exec (.wred w fmt mode rop m d a) s = .next (applyRes id w.val 0 (whiskIssue s w.val c k op)) := by
      show execWred w fmt mode rop m d a s = _
      rw [execWred, if_pos hacc, whisk, issue_ready s id w 0 _ hready]
    rw [hexec, whiskIssue_red s w.val c k op rfl hwait hbad, redRun_value s c w.val k op mode rop hdest hterms hval]
    rfl
  · subst hmode hrop
    rw [hxs]
    rfl
  · subst hmode
    simp only [redValue, he]
    exact ⟨_, rfl⟩

end Sys2Proof.FormatProofs
end


section
/-! PROOFS. Control, scalar and move ops: what each presents, and what the op leaves (R69, R82, R147, R453). -/

namespace Sys2Proof.WorkerProofs

open Sys2Proof Sys2Proof.Machine Sys2Proof.Laws

/-! ### SALU (Table 3.13) -/

theorem saluVal_arith (a b : BitVec 64) :
    (saluVal .add a b).toNat = (a.toNat + b.toNat) % 2 ^ 64 ∧ (saluVal .sub a b).toNat = (2 ^ 64 + a.toNat - b.toNat) % 2 ^ 64 ∧
    (saluVal .mul a b).toNat = a.toNat * b.toNat % 2 ^ 64 := by
  refine ⟨BitVec.toNat_add a b, ?_, BitVec.toNat_mul a b⟩
  rw [saluVal, BitVec.toNat_sub]
  congr 1
  have := b.isLt
  omega

theorem saluVal_shift (a b : BitVec 64) :
    (saluVal .shl a b).toNat = a.toNat * 2 ^ (b.toNat % 64) % 2 ^ 64 ∧ (saluVal .shr a b).toNat = a.toNat / 2 ^ (b.toNat % 64) ∧
    (saluVal .sra a b).toInt = a.toInt / 2 ^ (b.toNat % 64) := by
  refine ⟨?_, ?_, ?_⟩
  · rw [saluVal, BitVec.toNat_shiftLeft, Nat.shiftLeft_eq]
  · rw [saluVal, BitVec.toNat_ushiftRight, Nat.shiftRight_eq_div_pow]
  · rw [saluVal, BitVec.toInt_sshiftRight, Int.shiftRight_eq_div_pow]; push_cast; rfl

theorem saluVal_extreme (a b : BitVec 64) :
    (saluVal .min a b).toInt = min a.toInt b.toInt ∧ (saluVal .max a b).toInt = max a.toInt b.toInt := by
  constructor <;> simp only [saluVal, BitVec.slt_iff_toInt_lt] <;> split <;> omega

theorem saluVal_compare (a b : BitVec 64) :
    saluVal .lt a b = (if a.toInt < b.toInt then 1 else 0) ∧ saluVal .ltu a b = (if a.toNat < b.toNat then 1 else 0) := by
  simp only [saluVal, BitVec.slt_iff_toInt_lt, BitVec.ult_iff_lt, BitVec.lt_def, and_self]

/-- A scalar register is not changed by a write of another. -/
theorem getS_setS_ne (k : Worker) {r q : SReg} (x : BitVec 64) (hq : q ≠ r) : getS (setS k r x) q = getS k q := by
  by_cases hr : r = 0
  · rw [hr, setS_zero]
  · rw [getS_setS k r q x hr, if_neg hq]

/-- Settles O9: s0 by its own lemmas, the others by what a write leaves, SALU by its four groups of results. -/
theorem scalarRegistersAndSalu : Obligations.ScalarRegistersAndSalu := by
  refine ⟨fun k r q x => ⟨getS_zero k, setS_zero k x, fun hr => ?_, getS_setS_ne k x⟩, fun a b => ?_⟩
  · rw [getS_setS k r r x hr, if_pos rfl]
  · obtain ⟨hadd, hsub, hmul⟩ := saluVal_arith a b
    obtain ⟨hshl, hshr, hsra⟩ := saluVal_shift a b
    obtain ⟨hmin, hmax⟩ := saluVal_extreme a b
    obtain ⟨hlt, hltu⟩ := saluVal_compare a b
    exact ⟨hadd, hsub, hmul, fun i => BitVec.getLsbD_and, fun i => BitVec.getLsbD_or, fun i => BitVec.getLsbD_xor, hshl, hshr, hsra,
      hmin, hmax, rfl, hlt, hltu⟩

section
variable {s t : State} {id : Nat} {w : Cluster} {ext : Nat} {f : State → Nat → Context → Worker → OpRes} {c : Context} {k : Worker}
variable (h : Ready s id w)
include h

/-- An op that completes: the next op follows. -/
theorem issue_done (hf : f s id (ctxAt s id w) (workAt s id w) = .done t c k) :
    (.next (issue s w.val ext f) : Out) = .next (ran t id w ext c k) := by
  rw [issue_ready s id w ext f h, hf]; rfl

/-- An op that sets the next code word itself. -/
theorem issue_jump (hf : f s id (ctxAt s id w) (workAt s id w) = .jump t c k) :
    (.next (issue s w.val ext f) : Out) = .next (jumped t id w c k) := by
  rw [issue_ready s id w ext f h, hf]; rfl

/-- An op that is turned away. -/
theorem issue_wait {why : WaitWhy} (hf : f s id (ctxAt s id w) (workAt s id w) = .wait t c k why) :
    (.next (issue s w.val ext f) : Out) = .next (turned t id w c k why) := by
  rw [issue_ready s id w ext f h, hf]; rfl

/-- An op that halts its worker. -/
theorem issue_halt {code cls rcode : Nat} {d : BitVec 256} {ev : Option UnitEvent}
    (hf : f s id (ctxAt s id w) (workAt s id w) = .halt t c k code cls rcode d ev) :
    (.next (issue s w.val ext f) : Out) = .next (haltWorker t id w.val c k code cls rcode d ev) := by
  rw [issue_ready s id w ext f h, hf]; rfl

end

theorem griddleBusy_eq_false (k : Worker) : griddleBusy k = false ↔ k.gq = [] ∧ k.gf = [] := by
  simp [griddleBusy]

theorem griddleBusy_eq_true (k : Worker) : griddleBusy k = true ↔ k.gq ≠ [] ∨ k.gf ≠ [] := by
  rw [← Bool.not_eq_false, griddleBusy_eq_false, not_and_or]

/-- The reserved bits of a control word are those from its width on. -/
theorem cwReserved_eq (asw : Bool) (x : BitVec 64) : cwReserved asw x = decide ((if asw then 2 ^ 8 else 2 ^ 3) ≤ x.toNat) := by
  cases asw <;> simp [cwReserved, BitVec.toNat_eq, Nat.shiftRight_eq_div_pow, Nat.div_eq_zero_iff]

/-- A value that fits is written. -/
theorem writeCw_fits {c : Context} {k : Worker} {asw : Bool} {x : BitVec 64} (hx : x.toNat < (if asw then 2 ^ 8 else 2 ^ 3))
    (hsr : asw = false → x.getLsbD 2 = true → (modOf c).features.testBit 3 = true) :
    writeCw c k asw x = if asw then { k with asw := x.setWidth 32 } else { k with acw := x.setWidth 32 } := by
  have hres : cwReserved asw x = false := by rw [cwReserved_eq]; exact decide_eq_false (Nat.not_le.mpr hx)
  have hen : (!asw && x.getLsbD 2 && !(modOf c).features.testBit 3) = false := by
    cases ha : asw
    · cases hb : x.getLsbD 2
      · rfl
      · rw [hsr ha hb]
        rfl
    · rfl
  rw [writeCw, hres, hen]
  rfl

/-- A value with reserved bits is not written; INVALID is raised. -/
theorem writeCw_reserved {c : Context} {k : Worker} {asw : Bool} {x : BitVec 64} (hx : (if asw then 2 ^ 8 else 2 ^ 3) ≤ x.toNat) :
    writeCw c k asw x = { k with asw := k.asw ||| fInvalid } := by
  rw [writeCw, cwReserved_eq, decide_eq_true hx]
  rfl

/-- The low word of a register. -/
theorem setWidth_eq_extractLsb' (x : BitVec 64) : x.setWidth 32 = x.extractLsb' 0 32 := by
  ext i hi; simp

/-- Settles O10: each op's row, by the outcome that it presents; the waiting forms once no Griddle op is left. -/
theorem scalarOpsComplete : Obligations.ScalarOpsComplete := by
  intro s id w h c k
  refine ⟨issue_done h rfl, fun d imm => issue_done h rfl, fun d imm => ?_, fun op d a b => issue_done h rfl, fun d => issue_done h rfl,
    fun d => issue_done h rfl, fun d => issue_done h rfl, fun d => issue_done h rfl, fun d => issue_done h rfl,
    fun d => issue_done h rfl, fun hq hf => ?_⟩
  · rw [← setWidth_eq_extractLsb']
    exact issue_done h rfl
  · have hidle : ¬ griddleBusy k = true := by rw [Bool.not_eq_true, griddleBusy_eq_false]; exact ⟨hq, hf⟩
    refine ⟨fun d => issue_done h (if_neg hidle), fun asw a hx hsr => ?_, fun asw a hx => ?_⟩
    · rw [← writeCw_fits hx hsr]
      exact issue_done h (if_neg hidle)
    · rw [← writeCw_reserved (c := c) hx]
      exact issue_done h (if_neg hidle)

/-! ### Loops, views and the time -/

theorem enterLoop_zero {k : Worker} {a : SReg} (d : SReg) (b : Nat) (ha : getS k a = 0) :
    enterLoop k d a b = closeLoops k (k.pc + 1 + (b + 1)) k.loops := by
  simp [enterLoop, ha]

theorem enterLoop_pos {k : Worker} {a : SReg} (d : SReg) (b : Nat) (ha : getS k a ≠ 0) :
    enterLoop k d a b =
      setS { k with pc := k.pc + 1, loops := ⟨k.pc + 1, k.pc + 1 + (b + 1), d, 0, (getS k a).toNat⟩ :: k.loops } d 0 := by
  have hn : (getS k a).toNat ≠ 0 := fun e => ha (BitVec.eq_of_toNat_eq e)
  simp [enterLoop, hn]

/-- VDEF of a declared tensor is judged by its window. -/
theorem issue_vdef {s : State} {id : Nat} {w : Cluster} (h : Ready s id w) (d : VReg) {tensor : Fin 4096} (sc : SReg)
    (rows cols rs cs : BitVec 32) (o : BitVec 64) {t : Tensor} (ht : tensorOf (ctxAt s id w) tensor.val = some t) :
    exec (.vdef w d tensor sc rows cols rs cs o) s = .next (applyRes id w.val 3
      (if viewInside t (vdefView (workAt s id w) tensor.val sc rows cols rs cs o) then
        .done s (ctxAt s id w) { workAt s id w with v := (tset View.empty (workAt s id w).v d.val
          (vdefView (workAt s id w) tensor.val sc rows cols rs cs o)) }
      else operandHalt s (ctxAt s id w) (workAt s id w) codeOperandRange)) := by
  show execVdef w d tensor sc rows cols rs cs o s = _
  simp only [execVdef, issue_ready s id w 3 _ h, ht]

/-- Settles O11: the ops by the outcome that they present, and the end of an op by the innermost loop's cases. -/
theorem controlAndViewOpsComplete : Obligations.ControlAndViewOpsComplete := by
  refine ⟨fun s id w h => ?_, fun k ext => ?_⟩
  · refine ⟨fun d a b ha => ?_, fun d a b ha => ?_, fun d off hd => issue_done h (if_pos hd), fun d off hd => issue_jump h (if_neg hd),
      fun d tensor sc rows cols rs cs o t ht hin => ?_, fun d a => issue_done h rfl, fun hr d => ?_⟩
    · rw [← enterLoop_zero d b.val ha]
      exact issue_jump h rfl
    · rw [← enterLoop_pos d b.val ha]
      exact issue_jump h rfl
    · rw [issue_vdef h d sc rows cols rs cs o ht, vdefView, if_pos hin]
      rfl
    · exact issue_done h (if_neg (by rw [hr]; decide))
  · refine ⟨fun hl => ?_, fun f fs hl hne => ?_, fun f fs hl heq hlt => ?_, fun f hl heq hge => ?_⟩
    · rw [advance, hl, closeLoops, ← hl]
    · rw [advance, hl, closeLoops, if_neg hne, ← hl]
    · rw [advance, hl, closeLoops, if_pos heq, if_pos hlt]
    · rw [advance, hl, closeLoops, if_pos heq, if_neg (Nat.not_lt.mpr hge), closeLoops, heq]

/-! ### Waiting -/

theorem drainWait_whisk {k : Worker} (hw : k.wf ≠ []) : drainWait k false = some .whisk := by
  simp [drainWait, hw]

theorem drainWait_griddle {k : Worker} (hg : griddleBusy k = true) : drainWait k true = some .griddle := by
  simp [drainWait, hg]

theorem drainWait_none {k : Worker} (griddle : Bool) (hg : griddle = true → griddleBusy k = false) (hw : k.wf = [])
    (hr : remoteBusy k = false) : drainWait k griddle = none := by
  cases griddle <;> simp [drainWait, hw, hr, hg]

/-- A worker with no replica bit set passes the guard of R252. -/
theorem replicaGuard_none (s : State) (c : Context) {k : Worker} (r : OpRes) (hb : k.replBits = []) : replicaGuard s c k r = r := if_pos hb

/-! ### Moves -/

/-- PREF without LU does nothing. -/
theorem exec_pref_stage {s : State} {id : Nat} {w : Cluster} (h : Ready s id w) (a : VReg) {l : Fin 4} (hl : l.val ≠ 3) :
    exec (.pref w false a l) s = .next (ran s id w 0 (ctxAt s id w) (workAt s id w)) := by
  show execPref w false a l s = _
  rw [execPref, if_neg hl]
  exact issue_done h rfl

/-- PREF with LU of a view that has elements ends the life of the view's tensor. -/
theorem exec_pref_lastUse {s : State} {id : Nat} {w : Cluster} (h : Ready s id w) {a : VReg} {l : Fin 4} (hl : l.val ≠ 3)
    (hn : viewCount (getV (workAt s id w) a) ≠ 0) (hlife : lifeHeld (ctxAt s id w) w.val (getV (workAt s id w) a).tensor = false)
    (hclash : viewClash (ctxAt s id w) (workAt s id w) [] [getV (workAt s id w) a] = none) :
    exec (.pref w true a l) s =
      .next (applyRes id w.val 0 (lifeEnd s (ctxAt s id w) w.val (workAt s id w) (getV (workAt s id w) a).tensor)) := by
  show execPref w true a l s = _
  simp only [execPref, if_neg hl, issue_ready s id w 0 _ h, Bool.true_and, decide_eq_true hn, if_true, hlife, hclash,
    Bool.false_eq_true, if_false]

/-- The end of a tensor's life clears every byte of it where it lies. -/
theorem endLife_zero {c : Context} (cl : Nat) (k : Worker) {t : Nat} {x : Tensor} (hx : tensorOf c t = some x) {i : Nat} (hi : i < tensorBytes x) :
    (tensorLevel c t = 0 → rdByte (endLife c cl k t).2.l0 (tensorBase c cl t + i) = 0) ∧
    (tensorLevel c t ≠ 0 → rdByte (endLife c cl k t).1.vmem (tensorBase c cl t + i) = 0) := by
  have hin : ¬ (tensorBase c cl t + i < tensorBase c cl t ∨ tensorBase c cl t + tensorBytes x ≤ tensorBase c cl t + i) := by omega
  refine ⟨fun hl => ?_, fun hl => ?_⟩
  · simp only [endLife, hx, hl, if_true, rdByte_zeroRange, if_neg hin]
  · simp only [endLife, hx, hl, if_false, rdByte_zeroRange, if_neg hin]

/-- Settles O14: a move with nothing to move, PREF with and without LU, and the bytes of a tensor whose life has ended. -/
theorem emptyMovesAndPrefetch : Obligations.EmptyMovesAndPrefetch := by
  intro s id w h c k
  refine ⟨fun fmt lu d a hn => issue_done h (if_pos hn), fun fmt lu d a b hn => issue_done h (if_pos hn),
    fun fmt lu d a b hn => issue_done h (if_pos hn), fun fmt d a hn => issue_done h (if_pos hn),
    fun a l hl => exec_pref_stage h a hl, fun a l hl hn hlife hclash => exec_pref_lastUse h hl hn hlife hclash,
    fun t x hx i hi => endLife_zero w.val k hx hi⟩

end Sys2Proof.WorkerProofs
end


section
/-! PROOFS. Barriers and step points: standing there, being turned away; the ops over flags and tickets (R84 to R86). -/

namespace Sys2Proof.WorkerProofs

open Sys2Proof Sys2Proof.Machine Sys2Proof.Laws

/-! ### Workers that may issue -/

theorem isRunning_of_ready {s : State} {id : Nat} {w : Cluster} (h : Ready s id w) : isRunning (getC s id) = true := by
  obtain ⟨-, hm, -⟩ := h
  simp only [mayIssue, Bool.and_eq_true] at hm
  exact hm.1.1

theorem run_of_ready {s : State} {id : Nat} {w : Cluster} (h : Ready s id w) : (getW (getC s id) w.val).run = .running := by
  obtain ⟨-, hm, -⟩ := h
  simp only [mayIssue, Bool.and_eq_true, decide_eq_true_eq] at hm
  exact hm.1.2

/-- The end of a wait counts in an entry and changes nothing else of the context. -/
theorem ctxAt_spec (s : State) (id : Nat) (w : Cluster) : ∃ e n, ctxAt s id w = { getC s id with ent := e, snap := n } := by
  unfold ctxAt endWait
  split
  · unfold eincr ewr
    split
    · exact ⟨_, _, rfl⟩
    · exact ⟨_, _, rfl⟩
  · exact ⟨_, _, rfl⟩

@[simp] theorem isRunning_setW (c : Context) (cl : Nat) (k : Worker) : isRunning (setW c cl k) = isRunning c := rfl

@[simp] theorem isRunning_ctxAt (s : State) (id : Nat) (w : Cluster) : isRunning (ctxAt s id w) = isRunning (getC s id) := by
  obtain ⟨e, n, hc⟩ := ctxAt_spec s id w
  rw [hc]; rfl

@[simp] theorem getW_ctxAt (s : State) (id : Nat) (w : Cluster) (cl : Nat) : getW (ctxAt s id w) cl = getW (getC s id) cl :=
  getW_endWait s _ _ cl

@[simp] theorem getC_jumped (s : State) (id : Nat) (w : Cluster) (c : Context) (k : Worker) : getC (jumped s id w c k) id = setW c w.val k :=
  getC_setC_self s id _

@[simp] theorem getC_turned (s : State) (id : Nat) (w : Cluster) (c : Context) (k : Worker) (why : WaitWhy) :
    getC (turned s id w c k why) id = setW c w.val { k with wait := some why } :=
  getC_setC_self s id _

/-! ### Barriers -/

/-- A worker that stands at no job barrier keeps the device from having arrived. -/
theorem allAtBar_eq_false {c : Context} {i : Nat} (hi : i < 4000) (h : (getW c i).run ≠ .atBar .job) : allAtBar c = false := by
  rw [allAtBar, List.all_eq_false]
  exact ⟨i, List.mem_range.mpr hi, by simpa using h⟩

theorem allAtStep_iff (c : Context) : allAtStep c = true ↔ ∀ i, i < 4000 → atStepPoint (getW c i) = true := by
  simp [allAtStep]

/-- A worker that stands at no step point keeps the device from having arrived. -/
theorem allAtStep_eq_false {c : Context} {i : Nat} (hi : i < 4000) (h : atStepPoint (getW c i) = false) : allAtStep c = false := by
  rw [← Bool.not_eq_true, allAtStep_iff]
  exact fun hall => Bool.eq_false_iff.mp h (hall i hi)

theorem atStepPoint_of_running {k : Worker} (h : k.run = .running) : atStepPoint k = false := by
  rw [atStepPoint, h]

/-- A worker that would stand at a barrier or a step point: it waits for its issued work, or stands there. -/
def stand (s : State) (c : Context) (k : Worker) (griddle : Bool) (r : RunState) : OpRes :=
  match drainWait k griddle with
  | some y => .wait s c k y
  | none => .jump s c { k with run := r }

theorem stand_wait {s : State} {c : Context} {k : Worker} {griddle : Bool} {r : RunState} {y : WaitWhy} (h : drainWait k griddle = some y) :
    stand s c k griddle r = .wait s c k y := by
  rw [stand, h]

theorem stand_jump {s : State} {c : Context} {k : Worker} {griddle : Bool} {r : RunState} (h : drainWait k griddle = none) :
    stand s c k griddle r = .jump s c { k with run := r } := by
  rw [stand, h]

/-- What BAR does once it has been presented: the members hear of the device, and the barrier may open. -/
def barPresented (c₀ : Context) (t : State) (id : Nat) (w : Cluster) (sc : Scope) : State :=
  let u := if allAtBar (getC t id) && !allAtBar c₀ then tellMembers t (getC t id) (.barrier id (getC t id).step) else t
  if isRunning (getC u id) && decide ((getW (getC u id) w).run = .atBar sc) then tryBar u id w sc else u

/-- What STEP, CKPT and END do once they have been presented: the members hear of the device; an ordinal that an ended worker never
reaches ends the job. -/
def stepPresented (c₀ : Context) (t : State) (id : Nat) (w : Cluster) (r : RunState) : State :=
  let u := if allAtStep (getC t id) && !allAtStep c₀ then tellMembers t (getC t id) (.stepReached id ((getC t id).step + 1)) else t
  if isRunning (getC u id) && decide ((getW (getC u id) w).run = r) && someEnded (getC u id) then endJobSealed u id 0x0F 0x0105 else u

section
variable {s : State} {id : Nat} {w : Cluster} (h : Ready s id w) (hb : (workAt s id w).replBits = [])
include h hb

theorem exec_bar (sc : Scope) : exec (.bar w sc) s = .next (barPresented (getC s id)
    (applyRes id w.val 0 (stand s (ctxAt s id w) (workAt s id w) false (.atBar sc))) id w sc) := by
  show execBar w sc s = _
  simp only [execBar, h.1, issue_ready s id w 0 _ h, replicaGuard_none _ _ _ hb]
  rfl

theorem reachStep_eq (r : RunState) : reachStep s w r = stepPresented (getC s id)
    (applyRes id w.val 0 (stand s (ctxAt s id w) (workAt s id w) true r)) id w r := by
  simp only [reachStep, h.1, issue_ready s id w 0 _ h, replicaGuard_none _ _ _ hb]
  rfl

/-- A worker that waits to stand at its barrier is looked at no further. -/
theorem exec_bar_waits {y : WaitWhy} (hy : drainWait (workAt s id w) false = some y) (sc : Scope) :
    exec (.bar w sc) s = .next (turned s id w (ctxAt s id w) (workAt s id w) y) := by
  have hrun : (workAt s id w).run = .running := run_of_ready h
  have hbar : ¬ (allAtBar (getC (turned s id w (ctxAt s id w) (workAt s id w) y) id) && !allAtBar (getC s id)) = true := by
    rw [allAtBar_eq_false w.isLt (by simp [hrun])]; simp
  rw [exec_bar h hb, stand_wait hy]
  show Host.Outcome.next (barPresented _ (turned s id w (ctxAt s id w) (workAt s id w) y) id w sc) = _
  rw [barPresented, if_neg hbar, if_neg (by simp [hrun])]

theorem reachStep_waits {y : WaitWhy} (hy : drainWait (workAt s id w) true = some y) {r : RunState} (hr : r ≠ .running) :
    reachStep s w r = turned s id w (ctxAt s id w) (workAt s id w) y := by
  have hrun : (workAt s id w).run = .running := run_of_ready h
  have hstep : ¬ (allAtStep (getC (turned s id w (ctxAt s id w) (workAt s id w) y) id) && !allAtStep (getC s id)) = true := by
    rw [allAtStep_eq_false w.isLt (by simp [atStepPoint, hrun])]; simp
  rw [reachStep_eq h hb, stand_wait hy]
  show stepPresented _ (turned s id w (ctxAt s id w) (workAt s id w) y) id w r = _
  rw [stepPresented, if_neg hstep, if_neg (by simp [hrun, hr.symm])]

end

/-! ### Standing at a barrier -/

theorem mem_barScope_job (cl i : Nat) : i ∈ barScope cl .job ↔ i < 4000 := List.mem_range

@[simp] theorem tellMembers_ctxs (s : State) (c : Context) (m : Ctl) : (tellMembers s c m).ctxs = s.ctxs := by
  unfold tellMembers
  exact List.foldlRecOn (motive := fun (t : State) => t.ctxs = s.ctxs) _ _ rfl (fun t ht r _ => by split <;> simp [ht])

theorem getC_tellMembers (s : State) (c : Context) (m : Ctl) (id : Nat) : getC (tellMembers s c m) id = getC s id := by
  simp only [getC, tellMembers_ctxs]

/-- A job of one device has no other member to tell. -/
theorem tellMembers_alone (s : State) {c : Context} (m : Ctl) (hn : c.n = 1) (hr : c.rank = 0) : tellMembers s c m = s := by
  simp [tellMembers, hn, hr]

/-- The workers of a scope stand at their barrier, but for one that comes last. -/
theorem barScope_all_setW (c : Context) (w : Cluster) (k : Worker) (sc : Scope) (hk : k.run = .atBar sc) :
    (barScope w.val sc).all (fun i => decide ((getW (setW c w.val k) i).run = .atBar sc)) = true ↔
      ∀ i ∈ barScope w.val sc, i ≠ w.val → (getW c i).run = .atBar sc := by
  simp only [List.all_eq_true, decide_eq_true_eq]
  refine forall₂_congr (fun i _ => ?_)
  by_cases hi : i = w.val
  · simp [hi, hk]
  · simp [getW_setW_ne _ _ _ _ hi, hi]

section
variable {s : State} {id : Nat} {w : Cluster} {k : Worker} (h : Ready s id w)
include h

theorem isRunning_jumped : isRunning (getC (jumped s id w (ctxAt s id w) k) id) = true := by
  simpa using isRunning_of_ready h

/-- No worker of the scope is missing: the barrier opens. -/
theorem barPresented_opens {sc : Scope} (hk : k.run = .atBar sc) (hjob : sc ≠ .job ∨ ((ctxAt s id w).n = 1 ∧ (ctxAt s id w).rank = 0))
    (hall : ∀ i ∈ barScope w.val sc, i ≠ w.val → (getW (ctxAt s id w) i).run = .atBar sc) :
    barPresented (getC s id) (jumped s id w (ctxAt s id w) k) id w sc = leaveBar (jumped s id w (ctxAt s id w) k) id w.val sc := by
  have htell : (if allAtBar (getC (jumped s id w (ctxAt s id w) k) id) && !allAtBar (getC s id) then
      tellMembers (jumped s id w (ctxAt s id w) k) (getC (jumped s id w (ctxAt s id w) k) id)
        (.barrier id (getC (jumped s id w (ctxAt s id w) k) id).step) else jumped s id w (ctxAt s id w) k)
      = jumped s id w (ctxAt s id w) k := by
    rcases hjob with hsc | ⟨hn, hr⟩
    · rw [if_neg]
      rw [allAtBar_eq_false w.isLt (by simpa [hk] using hsc)]; simp
    · rw [tellMembers_alone _ _ (by simpa using hn) (by simpa using hr), ite_self]
  have hone : ¬ (sc = .job ∧ 1 < (getC (jumped s id w (ctxAt s id w) k) id).n) := by
    rintro ⟨rfl, hlt⟩
    have hn := (hjob.resolve_left (fun h => h rfl)).1
    simp [hn] at hlt
  have hopen := (barScope_all_setW (ctxAt s id w) w k sc hk).mpr hall
  rw [← getC_jumped s id] at hopen
  have hlook : (isRunning (getC (jumped s id w (ctxAt s id w) k) id) &&
      decide ((getW (getC (jumped s id w (ctxAt s id w) k) id) w.val).run = .atBar sc)) = true := by
    simp [isRunning_of_ready h, hk]
  simp only [barPresented, htell, if_pos hlook, tryBar, if_pos hopen, if_neg hone]

omit h in
/-- A worker of the scope is missing: the barrier stays shut. -/
theorem barPresented_shut {sc : Scope} (hk : k.run = .atBar sc)
    (hmiss : ∃ i ∈ barScope w.val sc, i ≠ w.val ∧ (getW (ctxAt s id w) i).run ≠ .atBar sc) :
    barPresented (getC s id) (jumped s id w (ctxAt s id w) k) id w sc = jumped s id w (ctxAt s id w) k := by
  obtain ⟨i, hi, hne, hrun⟩ := hmiss
  have hbar : allAtBar (getC (jumped s id w (ctxAt s id w) k) id) = false := by
    by_cases hsc : sc = .job
    · subst hsc
      exact allAtBar_eq_false ((mem_barScope_job _ _).mp hi) (by simpa [getW_setW_ne _ _ _ _ hne] using hrun)
    · exact allAtBar_eq_false w.isLt (by simpa [hk] using hsc)
  have hshut : ¬ (barScope w.val sc).all (fun i => decide ((getW (getC (jumped s id w (ctxAt s id w) k) id) i).run = .atBar sc)) = true := by
    rw [getC_jumped, barScope_all_setW _ _ _ _ hk]
    exact fun hall => hrun (hall i hi hne)
  rw [barPresented, hbar]
  simp only [Bool.false_and, Bool.false_eq_true, if_false, tryBar, if_neg hshut, ite_self]

end

/-! ### Standing at a step point -/

/-- No worker has ended where one comes to stand and none had ended before. -/
theorem someEnded_setW_eq_false {c : Context} {cl : Nat} {k : Worker} (hk : k.run ≠ .ended) (hc : ∀ p ∈ c.workers, p.2.run ≠ .ended) :
    someEnded (setW c cl k) = false := by
  rw [someEnded, List.any_eq_false]
  intro p hp
  rcases mem_tset _ _ _ _ p hp with ⟨hp, -⟩ | ⟨hp, -⟩
  · simpa [hp] using hk
  · simpa using hc p hp

theorem allAtStep_setW (c : Context) (w : Cluster) {k : Worker} (hk : atStepPoint k = true) :
    allAtStep (setW c w.val k) = true ↔ ∀ i, i < 4000 → i ≠ w.val → atStepPoint (getW c i) = true := by
  rw [allAtStep_iff]
  refine forall₂_congr (fun i _ => ?_)
  by_cases hi : i = w.val
  · simp [hi, hk]
  · simp [getW_setW_ne _ _ _ _ hi, hi]

/-- The worker stands at its step point; with the device's last one the other members hear of it. -/
theorem stepPresented_stands {s : State} {id : Nat} {w : Cluster} {k : Worker} (h : Ready s id w) (hstep : atStepPoint k = true)
    (hr : k.run ≠ .ended) (hc : ∀ p ∈ (ctxAt s id w).workers, p.2.run ≠ .ended) :
    stepPresented (getC s id) (jumped s id w (ctxAt s id w) k) id w k.run =
      if (∀ i, i < 4000 → i ≠ w.val → atStepPoint (getW (ctxAt s id w) i) = true) then
        tellMembers (jumped s id w (ctxAt s id w) k) (getC (jumped s id w (ctxAt s id w) k) id) (.stepReached id ((ctxAt s id w).step + 1))
      else jumped s id w (ctxAt s id w) k := by
  have hbefore : allAtStep (getC s id) = false := allAtStep_eq_false w.isLt (atStepPoint_of_running (run_of_ready h))
  have hlast : (allAtStep (getC (jumped s id w (ctxAt s id w) k) id) && !allAtStep (getC s id)) = true ↔
      ∀ i, i < 4000 → i ≠ w.val → atStepPoint (getW (ctxAt s id w) i) = true := by
    rw [hbefore, Bool.not_false, Bool.and_true, getC_jumped]
    exact allAtStep_setW _ w hstep
  have hgoes (u : State) (hu : getC u id = setW (ctxAt s id w) w.val k) : (isRunning (getC u id) &&
      decide ((getW (getC u id) w).run = k.run) && someEnded (getC u id)) = false := by
    rw [hu, someEnded_setW_eq_false hr hc, Bool.and_false]
  rw [stepPresented]
  by_cases hall : ∀ i, i < 4000 → i ≠ w.val → atStepPoint (getW (ctxAt s id w) i) = true
  · simp only [if_pos (hlast.mpr hall), if_pos hall]
    rw [hgoes _ (by rw [getC_tellMembers, getC_jumped]), getC_jumped]
    rfl
  · simp only [if_neg (mt hlast.mp hall), if_neg hall]
    rw [hgoes _ (getC_jumped ..)]
    rfl

/-- Settles O28: the barrier by whether a worker of its scope is missing, the step points by `stepPresented_stands`. -/
theorem barriersAndStepPointsHoldTheWorker : Obligations.BarriersAndStepPointsHoldTheWorker := by
  intro s id w h
  dsimp only
  intro hb hw hr
  have hbar (sc : Scope) : exec (.bar w sc) s = .next (barPresented (getC s id)
      (jumped s id w (ctxAt s id w) { workAt s id w with run := .atBar sc }) id w sc) := by
    rw [exec_bar h hb, stand_jump (drainWait_none false nofun hw hr)]; rfl
  refine ⟨fun sc hmiss => ?_, fun sc hjob hall => ?_, fun hq hf hc => ?_⟩
  · rw [hbar, barPresented_shut rfl hmiss]
  · rw [hbar, barPresented_opens h rfl hjob hall]
  · have hidle : griddleBusy (workAt s id w) = false := (griddleBusy_eq_false _).mpr ⟨hq, hf⟩
    have hreach (r : RunState) (hstep : atStepPoint { workAt s id w with run := r } = true) (hne : r ≠ .ended) :=
      stepPresented_stands h hstep hne hc
    have hstands (r : RunState) : reachStep s w r =
        stepPresented (getC s id) (jumped s id w (ctxAt s id w) { workAt s id w with run := r }) id w r := by
      rw [reachStep_eq h hb r, stand_jump (drainWait_none true (fun _ => hidle) hw hr)]; rfl
    refine ⟨?_, ?_, ?_⟩
    · show execStepOp w s = _
      rw [execStepOp, hstands]
      exact congrArg _ (hreach _ rfl nofun)
    · show execCkptOp w s = _
      rw [execCkptOp, hstands]
      exact congrArg _ (hreach _ rfl nofun)
    · show execEndOp w s = _
      rw [execEndOp, hstands]
      exact congrArg _ (hreach _ rfl nofun)

/-! ### Moves, flags and tickets turned away -/

/-- A move whose elements give no trouble goes on, its accesses made. -/
theorem moveGo_free (s : State) (fmt : Fmt) (go : State → Context → OpRes) {c : Context} {cl : Nat} {k : Worker} {ts : List Touched}
    (h : moveTrouble c cl k ts = none) :
    moveGo s c cl k fmt ts go = go (moveAccess s c cl fmt ts).1 (moveAccess s c cl fmt ts).2 := by
  simp only [moveGo, h]

/-- Settles O16: the ops that present their wait, BAR and STEP by what they wait for. -/
theorem opsThatMustWaitAreTurnedAway : Obligations.OpsThatMustWaitAreTurnedAway := by
  intro s id w h
  dsimp only
  refine ⟨fun d hg => issue_wait h (if_pos ((griddleBusy_eq_true _).mpr hg)), fun x a hg => issue_wait h (if_pos ((griddleBusy_eq_true _).mpr hg)),
    fun a f hf => issue_wait h (if_pos hf), fun a inc f hb ha hl => issue_wait h ?_, fun fmt lu d a y hn hy => issue_wait h ?_,
    fun d a t ht hst => issue_wait h ?_, fun sc hb hw => exec_bar_waits h hb (drainWait_whisk hw) sc, fun hb hg => ?_⟩
  · rw [replicaGuard_none _ _ _ hb]
    simp only [if_neg (Nat.not_le.mpr ha), if_pos hl]
  · simp only [if_neg hn, moveWait, hy]
  · simp only [ht, hst]
  · show execStepOp w s = _
    rw [execStepOp, reachStep_waits h hb (drainWait_griddle hg) (by simp)]

/-- Settles O26: each op's row; SOLVE passes its checks and submits. -/
theorem flagAndTicketOpsComplete : Obligations.FlagAndTicketOpsComplete := by
  intro s id w h
  dsimp only
  refine ⟨fun a inc f hb hl ha => issue_done h ?_, fun a inc f n hb hl ha hn hne => issue_done h ?_,
    fun a f hf => issue_done h (if_neg (Nat.not_lt.mpr hf)), fun d f => issue_done h rfl, fun d a t st ht hst => issue_done h ?_,
    fun d a n b hint hunit hcount hhome hbind htick hwait hclash htrouble => issue_done h ?_⟩
  · have hlt : ¬ 4000 ≤ w.val := Nat.not_le.mpr w.isLt
    rw [replicaGuard_none _ _ _ hb]
    simp only [ha, if_neg hlt, hl, Bool.false_eq_true, if_false, if_true, addF]
  · rw [replicaGuard_none _ _ _ hb]
    simp only [ha, if_neg (Nat.not_le.mpr hn), hl, Bool.false_eq_true, if_false, if_neg hne, addF]
  · simp only [ht, hst]
  · have hchecks : (!(viewIs (ctxAt s id w) .int32 (getV (workAt s id w) a) && unitStride (getV (workAt s id w) a)
        && decide (viewCount (getV (workAt s id w) a) = 64) && decide (homeLevel (ctxAt s id w) (getV (workAt s id w) a) ≠ 1))) = false := by
      rw [hint, hunit, decide_eq_true hcount, decide_eq_true hhome]; rfl
    simp only [hchecks, Bool.false_eq_true, if_false, hbind, if_neg (Nat.not_le.mpr htick), if_neg (Nat.not_le.mpr hwait), hclash,
      moveGo_free _ _ _ htrouble]

end Sys2Proof.WorkerProofs
end


section
/-! PROOFS. Halts: what the halt of a worker leaves, and the operands that end in one (R83, R297). -/

namespace Sys2Proof.WorkerProofs

open Sys2Proof Sys2Proof.Machine Sys2Proof.Laws

/-! ### Halts (R83, R297) -/

/-- `t` comes from `s` by operations that leave the contexts and the package's part alone. -/
structure CtxsPkgKept (s t : State) : Prop where
  ctxs : t.ctxs = s.ctxs
  pkg  : t.pkg = s.pkg

theorem CtxsPkgKept.refl (s : State) : CtxsPkgKept s s := ⟨rfl, rfl⟩

/-- An update outside both parts. -/
theorem CtxsPkgKept.upd {s t u : State} (h : CtxsPkgKept s t) (hc : u.ctxs = t.ctxs := by rfl) (hp : u.pkg = t.pkg := by rfl) :
    CtxsPkgKept s u :=
  ⟨hc.trans h.ctxs, hp.trans h.pkg⟩

theorem CtxsPkgKept.ite {s t u : State} {p : Prop} [Decidable p] (h : CtxsPkgKept s t) (g : CtxsPkgKept s u) :
    CtxsPkgKept s (if p then t else u) := by
  split <;> assumption

/-- A fold keeps what each of its steps keeps. -/
theorem CtxsPkgKept.foldl {α : Type} {s t : State} {f : State → α → State} {l : List α}
    (hf : ∀ u a, CtxsPkgKept s u → CtxsPkgKept s (f u a)) (h : CtxsPkgKept s t) : CtxsPkgKept s (l.foldl f t) := by
  induction l generalizing t with
  | nil => exact h
  | cons a l ih => exact ih (hf t a h)

section
variable {s t : State} (h : CtxsPkgKept s t)
include h

theorem ctxsPkgKept_wr {k v : Nat} : CtxsPkgKept s (wr t k v) := h.upd (by simp) (by simp)

theorem ctxsPkgKept_setStream {mgmt : Bool} {id : Nat} {e : Stream} : CtxsPkgKept s (setStream t mgmt id e) := by
  cases mgmt <;> exact h.upd

theorem ctxsPkgKept_sendVia {mgmt : Bool} {id op : Nat} {bs : List Byte} {r : Option (Nat × Nat)} :
    CtxsPkgKept s (sendVia t mgmt id op bs r).1 := by
  unfold sendVia
  exact (ctxsPkgKept_setStream h).upd

theorem ctxsPkgKept_complete {mgmt : Bool} {id : Nat} {d : DgHdr} {status detail : Nat} {extra : List Byte} :
    CtxsPkgKept s (complete t mgmt id d status detail extra) := by
  have hsent := ctxsPkgKept_sendVia h (mgmt := mgmt) (id := id) (op := 0x8000)
    (bs := completionBytes (getStream t mgmt id) d.seq status detail d.ts ++ extra) (r := d.relay)
  exact hsent.upd

theorem ctxsPkgKept_cutSegment : CtxsPkgKept s (cutSegment t) := by
  unfold cutSegment
  exact .ite h h.upd

theorem ctxsPkgKept_appendRec {type step key ts : Nat} {data : List Byte} : CtxsPkgKept s (appendRec t type step key ts data).1 := by
  have hw : CtxsPkgKept s (wr t 0x900201 (rd t 0x900201 + 1)) := ctxsPkgKept_wr h
  unfold appendRec
  dsimp only
  split
  · exact hw
  · split
    · split
      · exact hw.upd
      · exact hw
    · exact ctxsPkgKept_cutSegment hw.upd

theorem ctxsPkgKept_recordEnded {b : BusyCmd} {status : Nat} : CtxsPkgKept s (recordEnded t b status) := by
  unfold recordEnded
  exact .ite (ctxsPkgKept_appendRec h.upd) h

theorem ctxsPkgKept_endBusy {bs : List BusyCmd} {status detail : Nat} : CtxsPkgKept s (endBusy t bs status detail) :=
  .foldl (fun _ _ hu => ctxsPkgKept_recordEnded (ctxsPkgKept_complete hu)) h

theorem ctxsPkgKept_completeHeld {c : HeldCmd} {status detail : Nat} : CtxsPkgKept s (completeHeld t c status detail) := by
  unfold completeHeld
  exact ctxsPkgKept_complete (.ite (ctxsPkgKept_setStream h) h)

theorem ctxsPkgKept_flushStream {mgmt : Bool} {id status detail : Nat} {keep : Bool} :
    CtxsPkgKept s (flushStream t mgmt id status detail keep) := by
  unfold flushStream
  exact .foldl (fun _ _ hu => ctxsPkgKept_completeHeld hu) (ctxsPkgKept_endBusy h.upd)

theorem ctxsPkgKept_haltStreams {ctx code : Nat} {keep : Option Nat} : CtxsPkgKept s (haltStreams t ctx code keep) := by
  unfold haltStreams
  exact .foldl (fun _ _ hu => .ite hu (ctxsPkgKept_sendVia (ctxsPkgKept_flushStream (ctxsPkgKept_setStream hu)))) h

end

theorem haltStreams_ctxs (s : State) (id code : Nat) (keep : Option Nat) : (haltStreams s id code keep).ctxs = s.ctxs :=
  (ctxsPkgKept_haltStreams (.refl s)).ctxs

theorem haltStreams_pkg (s : State) (id code : Nat) (keep : Option Nat) : (haltStreams s id code keep).pkg = s.pkg :=
  (ctxsPkgKept_haltStreams (.refl s)).pkg

/-- A context whose module runs halts: its module stops issuing and a fence waits. -/
theorem haltCtx_running {s : State} {id : Nat} (code : Nat) (stream : Option Nat)
    (h : (getC s id).modState = .running ∨ (getC s id).modState = .paused) :
    (haltCtx s id code stream).ctxs = (setC s id { getC s id with modState := .halting }).ctxs ∧
    (haltCtx s id code stream).pkg = { s.pkg with fences := s.pkg.fences ++ [.haltCtx id code stream] } := by
  have hc := haltStreams_ctxs s id code stream
  rw [haltCtx, if_pos h]
  constructor
  · simp only [addFence, modC, setC, getC, hc]
  · simp only [addFence, modC_pkg, haltStreams_pkg]

/-- An event that ends a job finds room in a queue that is not full. -/
theorem raiseEvent_ending {s : State} {die : Nat} (r : FaultRec) (ev : Option UnitEvent) (h : (tget [] s.pkg.stew die).length < 64) :
    raiseEvent s die r ev true = { s with pkg := { s.pkg with
      stew := tset [] s.pkg.stew die (tget [] s.pkg.stew die ++ [⟨{ r with die := die }, ev, true, false⟩]) } } := by
  simp [raiseEvent, h]

/-- A halt: the worker stops where it stands, its module stops issuing, the steward queues the record and a fence waits. -/
theorem haltWorker_effect (s : State) (id cl : Nat) (c : Context) (k : Worker) (code cls rcode : Nat) (d : BitVec 256) (ev : Option UnitEvent)
    (hc : c.modState = .running) (hq : (tget [] s.pkg.stew (dieOf cl)).length < 64) :
    let t := haltWorker s id cl c k code cls rcode d ev
    getW (getC t id) cl = { k with run := .halted code, wait := none } ∧ (getC t id).modState = .halting ∧
    (∀ a, rdByte (getC t id).vmem a = rdByte c.vmem a) ∧ t.pkg.fences = s.pkg.fences ++ [.haltCtx id code none] ∧
    (∃ e ∈ tget [] t.pkg.stew (dieOf cl), e.jobEnding = true ∧ e.frec.cls = cls ∧ e.frec.code = rcode ∧ e.frec.context = id ∧
      e.frec.step = c.step ∧ e.frec.detail = d ∧ e.frec.unit = cl % 500) := by
  intro t
  let r := mkRec 0 cls (cl % 500) rcode id c.step d
  let c' := setW c cl { k with run := .halted code, wait := none }
  have ht : t = haltCtx (raiseEvent (setC s id c') (dieOf cl) r ev true) id code none := rfl
  have hraised := raiseEvent_ending (s := setC s id c') r ev hq
  have hget : getC (raiseEvent (setC s id c') (dieOf cl) r ev true) id = c' := by
    rw [hraised]; exact getC_setC_self s id c'
  obtain ⟨hctxs, hpkg⟩ := haltCtx_running code none (Or.inl (congrArg (·.modState) hget |>.trans hc))
  have hctx : getC t id = { c' with modState := .halting } := by
    rw [ht, getC, hctxs, hget]
    exact getC_setC_self _ id _
  have hp : t.pkg = _ := ht ▸ hpkg
  rw [hctx, hp, hraised]
  refine ⟨getW_setW_self c cl { k with run := .halted code, wait := none }, rfl, fun _ => rfl, rfl, ⟨{ r with die := dieOf cl }, ev, true, false⟩, ?_, rfl, rfl, rfl, rfl, rfl, rfl, rfl⟩
  simp

/-- Settles O17: each refused operand by the halt that its op presents, and what a halt leaves by `haltWorker_effect`. -/
theorem operandChecksHaltTheWorker : Obligations.OperandChecksHaltTheWorker := by
  refine ⟨fun s id w h => ?_, haltWorker_effect⟩
  dsimp only
  refine ⟨fun d tensor sc rows cols rs cs o t ht hout => ?_, fun a inc f hb ha => issue_halt h ?_,
    fun fmt d a hn hclash hheld hbad => issue_halt h ?_, fun fmt op m d a b hacc => ?_, fun d a b hrank => ?_, fun d a hnone => issue_halt h ?_⟩
  · rw [issue_vdef h d sc rows cols rs cs o ht, vdefView, if_neg (Bool.eq_false_iff.mp hout)]
    rfl
  · rw [replicaGuard_none _ _ _ hb]
    exact if_pos ha
  · have hcheck : (!(viewIs (ctxAt s id w) fmt (getV (workAt s id w) a) && viewIs (ctxAt s id w) fmt (getV (workAt s id w) d)) ||
        decide (viewCount (getV (workAt s id w) a) < viewCount (getV (workAt s id w) d))) = true := by
      rcases hbad with hbad | hbad | hbad <;> simp [hbad]
    simp only [if_neg hn, moveWait, hclash, hheld, Bool.false_and, Bool.or_false, Bool.false_eq_true, if_false, if_pos hcheck, operandHalt,
      codeWhiskOperand]
  · intro hne hwait hbad
    show execWbin w fmt op m d a b s = _
    rw [execWbin, if_pos hacc, whisk]
    refine issue_halt h ?_
    simp only [whiskIssue, hne, hwait, hbad, Bool.false_eq_true, if_false, if_true, operandHalt, codeWhiskOperand]
  · show execRread w d a b s = _
    simp only [execRread, remoteOp, h.1, issue_ready s id w 0 _ h, if_pos (Or.inl hrank)]
    rfl
  · have hfind : (workAt s id w).tickets.find? (fun t => decide (t.num = (getS (workAt s id w) a).toNat)) = none :=
      List.find?_eq_none.mpr (fun t ht => by simpa using hnone t ht)
    simp only [hfind]
    rfl

end Sys2Proof.WorkerProofs
end


section
/-! PROOFS. The frame of control and scalar ops, and which commands are refused (R69, R82, R88). -/

namespace Sys2Proof.WorkerProofs

open Sys2Proof Sys2Proof.Machine Sys2Proof.Laws

/-! ### The frame of control and scalar ops (R69, R82) -/

/-- A worker without what control and scalar ops change: its sequencer, its scalar registers, VL, ACW and ASW. -/
def workerFrame (k : Worker) : Worker := { k with wait := none, since := 0, pc := 0, loops := [], s := [], vl := 0, acw := 0, asw := 0 }

@[simp] theorem workerFrame_setS (k : Worker) (d : SReg) (x : BitVec 64) : workerFrame (setS k d x) = workerFrame k := by
  unfold setS; split <;> rfl

@[simp] theorem workerFrame_closeLoops (k : Worker) (pc : Nat) (fs : List LoopFrame) : workerFrame (closeLoops k pc fs) = workerFrame k := by
  obtain ⟨x, hx⟩ := closeLoops_spec k pc fs
  rw [hx]; rfl

@[simp] theorem workerFrame_advance (k : Worker) (ext : Nat) : workerFrame (advance k ext) = workerFrame k := workerFrame_closeLoops k _ _

@[simp] theorem workerFrame_writeCw (c : Context) (k : Worker) (asw : Bool) (x : BitVec 64) :
    workerFrame (writeCw c k asw x) = workerFrame k := by
  unfold writeCw
  split
  · rfl
  · split <;> rfl

@[simp] theorem workerFrame_enterLoop (k : Worker) (d a : SReg) (b : Nat) : workerFrame (enterLoop k d a b) = workerFrame k := by
  unfold enterLoop
  dsimp only
  split
  · exact workerFrame_closeLoops k _ _
  · exact workerFrame_setS _ d 0

/-- An outcome that leaves the machine, the context's memory and workers and the frame of the worker alone. -/
def QuietRes (s : State) (c : Context) (k : Worker) : OpRes → Prop
  | .done t d l => t = s ∧ d.vmem = c.vmem ∧ d.workers = c.workers ∧ workerFrame l = workerFrame k
  | .jump t d l => t = s ∧ d.vmem = c.vmem ∧ d.workers = c.workers ∧ workerFrame l = workerFrame k
  | .wait t d l _ => t = s ∧ d.vmem = c.vmem ∧ d.workers = c.workers ∧ workerFrame l = workerFrame k
  | .halt _ _ _ _ _ _ _ _ => False

theorem quiet_done {s : State} {c : Context} {k l : Worker} (h : workerFrame l = workerFrame k) : QuietRes s c k (.done s c l) :=
  ⟨rfl, rfl, rfl, h⟩

theorem quiet_jump {s : State} {c : Context} {k l : Worker} (h : workerFrame l = workerFrame k) : QuietRes s c k (.jump s c l) :=
  ⟨rfl, rfl, rfl, h⟩

theorem quiet_wait (s : State) (c : Context) (k : Worker) (why : WaitWhy) : QuietRes s c k (.wait s c k why) := ⟨rfl, rfl, rfl, rfl⟩

theorem quiet_ite {s : State} {c : Context} {k : Worker} {a b : OpRes} (p : Prop) [Decidable p] (ha : QuietRes s c k a)
    (hb : QuietRes s c k b) : QuietRes s c k (if p then a else b) := by
  split <;> assumption

/-- A quiet outcome replaces the worker in its context, and the context in the machine. -/
theorem applyRes_quiet {s : State} {c : Context} {k : Worker} {r : OpRes} (hr : QuietRes s c k r) (id cl ext : Nat) :
    ∃ d l, applyRes id cl ext r = setC s id (setW d cl l) ∧ d.vmem = c.vmem ∧ d.workers = c.workers ∧ workerFrame l = workerFrame k := by
  cases r with
  | done t d l =>
    obtain ⟨rfl, hv, hw, hk⟩ := hr
    exact ⟨d, advance l ext, rfl, hv, hw, (workerFrame_advance l ext).trans hk⟩
  | jump t d l =>
    obtain ⟨rfl, hv, hw, hk⟩ := hr
    exact ⟨d, l, rfl, hv, hw, hk⟩
  | wait t d l why =>
    obtain ⟨rfl, hv, hw, hk⟩ := hr
    exact ⟨d, { l with wait := some why }, rfl, hv, hw, hk⟩
  | halt t d l code cls rcode det ev => exact hr.elim

/-- The ops of the frame are presented, and every outcome of theirs is quiet. -/
theorem scalarOp_quiet {w : Cluster} {i : Instr}
    (hi : i = .nop w ∨ (∃ d x, i = .sli w d x) ∨ (∃ d x, i = .slih w d x) ∨ (∃ o d a b, i = .salu w o d a b) ∨ (∃ d x, i = .wid w d x) ∨
      (∃ d x, i = .rdcw w d x) ∨ (∃ x a, i = .wrcw w x a) ∨ (∃ d a b, i = .loop w d a b) ∨ (∃ d x, i = .brnz w d x) ∨
      (∃ d a, i = .wvl w d a) ∨ (∃ d f, i = .frd w d f) ∨ (∃ a f, i = .fwait w a f)) :
    ∃ f : State → Nat → Context → Worker → OpRes, (∀ s, exec i s = .next (issue s w.val 0 f)) ∧ ∀ s id c k, QuietRes s c k (f s id c k) := by
  rcases hi with rfl | ⟨d, x, rfl⟩ | ⟨d, x, rfl⟩ | ⟨o, d, a, b, rfl⟩ | ⟨d, x, rfl⟩ | ⟨d, x, rfl⟩ | ⟨x, a, rfl⟩ | ⟨d, a, b, rfl⟩ | ⟨d, x, rfl⟩ |
    ⟨d, a, rfl⟩ | ⟨d, f, rfl⟩ | ⟨a, f, rfl⟩
  · exact ⟨_, fun _ => rfl, fun s id c k => quiet_done rfl⟩
  · exact ⟨_, fun _ => rfl, fun s id c k => quiet_done (workerFrame_setS k d _)⟩
  · exact ⟨_, fun _ => rfl, fun s id c k => quiet_done (workerFrame_setS k d _)⟩
  · exact ⟨_, fun _ => rfl, fun s id c k => quiet_done (workerFrame_setS k d _)⟩
  · exact ⟨_, fun _ => rfl, fun s id c k => quiet_done (workerFrame_setS k d _)⟩
  · exact ⟨_, fun _ => rfl, fun s id c k => quiet_ite _ (quiet_ite _ (quiet_wait ..) (quiet_done (workerFrame_setS k d _)))
      (quiet_done (workerFrame_setS k d _))⟩
  · exact ⟨_, fun _ => rfl, fun s id c k => quiet_ite _ (quiet_wait ..) (quiet_done (workerFrame_writeCw c k x _))⟩
  · exact ⟨_, fun _ => rfl, fun s id c k => quiet_jump (workerFrame_enterLoop k d a b.val)⟩
  · exact ⟨_, fun _ => rfl, fun s id c k => quiet_ite _ (quiet_done rfl) (quiet_jump rfl)⟩
  · exact ⟨_, fun _ => rfl, fun s id c k => ⟨rfl, eincr_vmem c _ _, eincr_workers c _ _, workerFrame_setS _ d _⟩⟩
  · exact ⟨_, fun _ => rfl, fun s id c k => quiet_done (workerFrame_setS k d _)⟩
  · exact ⟨_, fun _ => rfl, fun s id c k => quiet_ite _ (quiet_wait ..) (quiet_done rfl)⟩

/-- Settles O12: each of the ops is quiet, so it replaces its own worker in its own context, and that worker keeps its frame. -/
theorem scalarOpsLeaveTheRest : Obligations.ScalarOpsLeaveTheRest := by
  intro s t w i id h hi ht
  obtain ⟨f, hexec, hquiet⟩ := scalarOp_quiet hi
  obtain ⟨d, l, happly, hvmem, hworkers, hframe⟩ := applyRes_quiet (hquiet s id (ctxAt s id w) (workAt s id w)) id w.val 0
  rw [hexec, issue_ready s id w 0 f h, happly] at ht
  injection ht with ht
  subst ht
  have hgetC : getC (setC s id (setW d w.val l)) id = setW d w.val l := getC_setC_self s id _
  have hl : workerFrame l = workerFrame (getW (getC s id) w.val) := hframe
  have hothers (v : Nat) : getW d v = getW (getC s id) v := by
    rw [getW, hworkers]; exact getW_ctxAt s id w v
  rw [hgetC, getW_setW_self]
  refine ⟨fun j hj => getC_setC_ne s id j _ hj, fun a => ?_, fun v hv => (getW_setW_ne d w.val v l hv).trans (hothers v),
    ⟨fun a => ?_, congrArg (·.t) hl, congrArg (·.v) hl, congrArg (·.m) hl, congrArg (·.f) hl, congrArg (·.tickets) hl, congrArg (·.gq) hl,
      congrArg (·.gf) hl, congrArg (·.wf) hl, congrArg (·.rpend) hl, congrArg (·.slots) hl, congrArg (·.run) hl⟩,
    rfl, rfl, rfl, rfl, rfl, rfl, rfl⟩
  · rw [setW_vmem, hvmem, ctxAt, endWait_vmem]
  · rw [show l.l0 = (getW (getC s id) w.val).l0 from congrArg (·.l0) hl]

/-! ### Reserved encodings (R82, R88) -/

/-- A command whose form load step 9 refuses is not well formed. -/
theorem wf_of_opForm {c : Instr} (h : opForm c = false) : c.wf = false := by
  rw [Instr.wf, h, Bool.false_and]

/-- A command that runs or is refused, by a test that its form implies. -/
theorem runs_or_refused {c : Instr} {s t : State} {m : String} {p : Prop} [Decidable p] (hp : p → opForm c = false)
    (h : exec c s = if p then .refused (.reservedEncoding m) else .next t) :
    (∃ t, exec c s = .next t) ∨ (c.wf = false ∧ ∃ m, exec c s = .refused (.reservedEncoding m)) := by
  by_cases hc : p
  · exact .inr ⟨wf_of_opForm (hp hc), m, h.trans (if_pos hc)⟩
  · exact .inl ⟨t, h.trans (if_neg hc)⟩

/-- The same of a test that accepts. -/
theorem runs_if_accepted {c : Instr} {s t : State} {m : String} {accepts : Bool} (hp : accepts = false → opForm c = false)
    (h : exec c s = if accepts then .next t else .refused (.reservedEncoding m)) :
    (∃ t, exec c s = .next t) ∨ (c.wf = false ∧ ∃ m, exec c s = .refused (.reservedEncoding m)) :=
  runs_or_refused (p := accepts = false) hp (by cases accepts <;> exact h)

/-- Settles O6: eleven ops test their subcode, format or field as load step 9 does; every other command runs. -/
theorem onlyReservedEncodingsAreRefused : Obligations.OnlyReservedEncodingsAreRefused := by
  intro c s
  cases c with
  | gzero w f d =>
    cases hf : Machine.tileTypeOf f with
    | none => exact .inr ⟨wf_of_opForm (by simp [opForm, hf]), _, by show execGzero w f d s = _; simp only [execGzero, hf]; rfl⟩
    | some ty => exact .inl ⟨_, by show execGzero w f d s = _; simp only [execGzero, hf]; rfl⟩
  | gmma w f g za d a b u => exact runs_or_refused (fun h => decide_eq_false (by tauto)) rfl
  | wbin w f op m d a b => exact runs_if_accepted id rfl
  | wfma w f m d a b => exact runs_if_accepted id rfl
  | wun w f op m d a => exact runs_if_accepted id rfl
  | wact w f g m d a => exact runs_if_accepted id rfl
  | wred w f mode op m d a => exact runs_if_accepted id rfl
  | pref w lu a l => exact runs_or_refused (fun h => decide_eq_false (fun hne => hne h)) rfl
  | rrepl w t n => exact runs_or_refused (fun h => decide_eq_false (by omega)) rfl
  | callred w f mode op n d a => exact runs_if_accepted (fun h => by rw [opForm, h, Bool.false_and]) rfl
  | crscat w f mode op n d a => exact runs_if_accepted (fun h => by rw [opForm, h, Bool.false_and]) rfl
  | _ => exact .inl ⟨_, rfl⟩

end Sys2Proof.WorkerProofs
end


section
/-! PROOFS. Stream ops: what accesses leave of the port, and the step's data (R454, R76). -/

namespace Sys2Proof.WorkerProofs

open Sys2Proof Sys2Proof.Machine Sys2Proof.Laws

/-! ### What accesses leave of the port and of the step (R454) -/

@[simp] theorem routeFlit_eth (s : State) (f : TxFlit) : (routeFlit s f).eth = s.eth := by
  have hfree : (freeBuffer s f).eth = s.eth := by unfold freeBuffer; split <;> rfl
  unfold routeFlit
  split
  · rfl
  · split
    · simpa using hfree
    · next he =>
      unfold egress at he
      split at he <;> simp only [Option.map_eq_some_iff, Option.bind_eq_some_iff, Prod.mk.injEq] at he
      · obtain ⟨_, _, rfl, _⟩ := he; rfl
      · obtain ⟨_, _, _, _, rfl, _⟩ := he; rfl

@[simp] theorem sendPkt_eth (s : State) (vc kind dest flow : Nat) (rp : Option RPkt) (cp : Option CPkt) :
    (sendPkt s vc kind dest flow rp cp).eth = s.eth := by
  unfold sendPkt launchFlit
  split <;> simp

/-- `t`, with context `d`, comes of accesses of context `c` on `s`: the Ethernet port and the step's ordinal stay. -/
structure PortKept (s : State) (c : Context) (t : State) (d : Context) : Prop where
  eth  : t.eth = s.eth
  step : d.step = c.step

theorem PortKept.refl (s : State) (c : Context) : PortKept s c s c := ⟨rfl, rfl⟩

theorem PortKept.trans {s t u : State} {c d e : Context} (h : PortKept s c t d) (g : PortKept t d u e) : PortKept s c u e :=
  ⟨g.eth.trans h.eth, g.step.trans h.step⟩

theorem PortKept.fold {α : Type} {f : State × Context → α → State × Context} (hf : ∀ x a, PortKept x.1 x.2 (f x a).1 (f x a).2) (l : List α)
    (x : State × Context) : PortKept x.1 x.2 (l.foldl f x).1 (l.foldl f x).2 := by
  induction l generalizing x with
  | nil => exact .refl _ _
  | cons a l ih => exact (hf x a).trans (ih (f x a))

theorem countLine_step (c : Context) (hit : Bool) (bytes busy : Nat) (ovf : Bool) : (countLine c hit bytes busy ovf).step = c.step := by
  unfold countLine
  dsimp only
  split <;> split <;> simp

theorem portKept_peer (s : State) (id : Nat) (c : Context) (a : Nat) (write : Bool) :
    PortKept s c (peerLine s id c a write).1 (peerLine s id c a write).2 := ⟨by simp [peerLine], by simp [peerLine]⟩

theorem portKept_narrow (s : State) (c : Context) (a : Nat) (write : Bool) :
    PortKept s c (narrowAccess s c a write).1 (narrowAccess s c a write).2 := ⟨rfl, by simp [narrowAccess, countLine_step]⟩

theorem portKept_line (s : State) (c : Context) (a hint : Nat) (write : Bool) :
    PortKept s c (lineAccess s c a hint write).1 (lineAccess s c a hint write).2 := ⟨rfl, countLine_step _ _ _ _ _⟩

theorem portKept_view (s : State) (c : Context) (cl : Nat) (v : View) (is : List Nat) (write indexed : Bool) :
    PortKept s c (viewAccess s c cl v is write indexed).1 (viewAccess s c cl v is write indexed).2 := by
  unfold viewAccess
  dsimp only
  split
  · exact .refl _ _
  · split
    · exact PortKept.fold (fun x a => portKept_peer x.1 _ x.2 _ _) _ (s, c)
    · split
      · exact PortKept.fold (fun x a => portKept_narrow x.1 x.2 _ _) _ (s, c)
      · exact PortKept.fold (fun x a => portKept_line x.1 x.2 _ _ _) _ (s, c)

theorem portKept_move (s : State) (c : Context) (cl : Nat) (fmt : Fmt) (ts : List Touched) :
    PortKept s c (moveAccess s c cl fmt ts).1 (moveAccess s c cl fmt ts).2 := by
  unfold moveAccess
  have hwait (n : Nat) (touch : Nat → List Nat) : PortKept s c s (loaderWait s c fmt n touch) := ⟨rfl, by simp [loaderWait]⟩
  exact (hwait _ _).trans (PortKept.fold (fun x a => portKept_view x.1 x.2 _ _ _ _ _) _ (s, _))

theorem writeElem_step (c : Context) (cl : Nat) (k : Worker) (v : View) (i x : Nat) : (writeElem c cl k v i x).1.step = c.step := by
  unfold writeElem writePlace
  split
  · rfl
  · unfold writeCtx
    dsimp only
    split <;> rfl

theorem writeElems_step (c : Context) (cl : Nat) (k : Worker) (v : View) (i : Nat) (xs : List Nat) :
    (writeElems c cl k v i xs).1.step = c.step := by
  induction xs generalizing c k i with
  | nil => rfl
  | cons x xs ih => rw [writeElems, ih, writeElem_step]

/-! ### Streams (R454, R76) -/

theorem declOf_some {c : Context} {i : Nat} {ks : List Nat} {sd : StreamDecl} (h : (modOf c).streams[i]? = some sd) (hk : sd.kind ∈ ks) :
    declOf c i ks = some sd := by
  simp only [declOf, h, if_pos hk]

/-- An input that has been taken is not fetched again. -/
theorem fetchInput_taken {s : State} {id i : Nat} (h : (i, (getC s id).step) ∈ (getC s id).inputs) : fetchInput s id i = s := by
  unfold fetchInput
  dsimp only
  split
  · rfl
  · rw [if_pos h]

/-- SIN whose input has come moves it. -/
theorem exec_sin {s : State} {id : Nat} {w : Cluster} (h : Ready s id w) {d : VReg} {i : Fin 4096} {sd : StreamDecl}
    (hsd : (modOf (ctxAt s id w)).streams[i.val]? = some sd) (hkind : sd.kind = 1 ∨ sd.kind = 3)
    (hin : (i.val, (ctxAt s id w).step) ∈ (ctxAt s id w).inputs) (hn : viewCount (getV (workAt s id w) d) ≠ 0)
    (hfmt : viewFmt (ctxAt s id w) (getV (workAt s id w) d) = (tensorOf (ctxAt s id w) sd.tensor).map (·.fmt)) :
    exec (.sin w d i) s = .next (applyRes id w.val 0 (sinMove s (ctxAt s id w) w.val (workAt s id w) (getV (workAt s id w) d) sd.tensor)) := by
  have hfetch : fetchInput s id i.val = s := by
    obtain ⟨e, n, hc⟩ := ctxAt_spec s id w
    rw [hc] at hin
    exact fetchInput_taken hin
  have hdecl : declOf (ctxAt s id w) i.val [1, 3] = some sd := declOf_some hsd (by simpa using hkind)
  show execSin w d i s = _
  simp only [execSin, h.1, hfetch, ite_self, issue_ready s id w 0 _ h, hdecl, decide_eq_true hfmt, decide_eq_false hn, Bool.or_true,
    Bool.not_true, Bool.false_eq_true, if_false, if_neg (not_not_intro hin), if_neg hn]

/-- A kind 2 output leaves on its stream, which belongs to the context. -/
theorem emitOutput_stream {s : State} {id : Nat} {c : Context} {decl : Nat} {sd : StreamDecl} {bs : List Byte} {xs : List Nat}
    (hkind : sd.kind = 2) (hopen : (getStream s false sd.id).state ≠ 0) (hctx : (getStream s false sd.id).ctx = id) :
    emitOutput s id c decl sd bs xs = (sendOutput s sd.id decl c.step bs,
      { c with outs := (c.outs.filter (fun o => decide (o.decl ≠ decl))) ++ [⟨decl, c.step, bs⟩], souts := c.souts ++ [(decl, bs)] }) := by
  simp only [emitOutput, if_pos hkind, if_pos (And.intro hopen hctx)]

/-- A view's format is its module's. -/
theorem viewFmt_of_mod {c d : Context} (h : d.mod = c.mod) (v : View) : viewFmt d v = viewFmt c v := by
  simp only [viewFmt, tensorOf, modOf, h]

/-- Settles O29: both ops pass their checks; SOUT's stream and ordinal are as they were before its accesses. -/
theorem streamOpsMoveTheStepsData : Obligations.StreamOpsMoveTheStepsData := by
  intro s id w h
  dsimp only
  refine ⟨fun d i sd hsd hkind hin hn hfmt hclash hheld htrouble => ?_, fun i a sd f hsd hkind hn hf ht hle hclash hheld htrouble hopen hctx => ?_⟩
  · rw [exec_sin h hsd hkind hin hn hfmt]
    simp only [sinMove, hclash, hheld, Bool.false_eq_true, if_false, moveGo_free _ _ _ htrouble]
    rfl
  · have hdecl : declOf (ctxAt s id w) i.val [2, 4] = some sd := declOf_some hsd (by simp [hkind])
    refine issue_done h ?_
    simp only [hdecl, if_neg hn, hf, ht, ne_eq, not_true_eq_false, Nat.not_lt.mpr hle, or_false, if_false, hclash, hheld,
      Bool.false_eq_true, moveGo_free _ _ _ htrouble, Option.getD_some]
    generalize hsc : moveAccess s (ctxAt s id w) w.val f _ = sc
    have hkept := hsc ▸ portKept_move s (ctxAt s id w) w.val f _
    have hmod := hsc ▸ (accessed_move s (ctxAt s id w) w.val f _).mod
    have hf' : viewFmt sc.2 (getV (workAt s id w) a) = some f := (viewFmt_of_mod hmod _).trans hf
    have hstream : getStream sc.1 false sd.id = getStream s false sd.id := by simp only [getStream, hkept.eth]
    rw [emitOutput_stream hkind (hstream ▸ hopen) (hstream ▸ hctx), writeElems_step, hkept.step, hf']
    rfl

end Sys2Proof.WorkerProofs
end


section
/-! PROOFS. Writes of configuration, checkpoint and relay entries: each row's rule and what an admitted write leaves (R67, R159, R163, R320, R333, R338). -/

namespace Sys2Proof.WriteProofs

open Sys2Proof Sys2Proof.Machine Sys2Proof.Laws Sys2Proof.PackageProofs Sys2Proof.WorkerProofs

/-! ### Rows -/

/-- A row whose effect on an admitted write is `t`. -/
theorem takes_row {i : Instr} {s t : State} {r : Req} {k : Nat} {bs : List Byte} {eff : State → Except Nat State}
    (hi : exec i s = .next (rowWrite s r k bs eff)) (he : eff s = .ok t) : Takes i s r k bs t :=
  fun h => by rw [hi, rowWrite_ok s t r k bs eff h he]

/-- A row whose entry's rule refuses the write. -/
theorem refuses_row {i : Instr} {s : State} {r : Req} {k code : Nat} {bs : List Byte} {eff : State → Except Nat State}
    (hi : exec i s = .next (rowWrite s r k bs eff)) (hc : code ≠ 0) (he : eff s = .error code) : Refuses i s r k bs code :=
  fun h => by rw [hi, rowWrite_error s r k code bs eff h hc he]

/-- An entry read after an accepted write of a value that it can hold. -/
theorem rd_wrHost_fits {k v : Nat} {ty : EType} (s : State) (h : (entryOf k).map (·.type) = some ty) (hv : v < 2 ^ (8 * typeSize ty)) :
    rd (wrHost s k v) k = v := by
  rw [rd_wrHost, if_pos rfl, fitEntry_of_type h, Nat.mod_eq_of_lt hv]

theorem rd_wrHost_ne (s : State) {k q : Nat} (v : Nat) (h : q ≠ k) : rd (wrHost s k v) q = rd s q := by
  rw [rd_wrHost, if_neg h]

theorem arbWeight_type : ∀ i : Fin 4, (entryOf (0x301000 + i.val)).map (·.type) = some .u8 := by decide +kernel

theorem opTarget_type : (entryOf 0x200101).map (·.type) = some .u8 := by decide +kernel

theorem lendTo_type : (entryOf 0x303002).map (·.type) = some .u16 := by decide +kernel

theorem jobId_type : (entryOf 0x800100).map (·.type) = some .u64 := by decide +kernel

theorem nextGen_type : (entryOf 0x800101).map (·.type) = some .u32 := by decide +kernel

theorem buddyDevice_type : (entryOf 0x800200).map (·.type) = some .u16 := by decide +kernel

theorem buddyPartner_type : (entryOf 0x800201).map (·.type) = some .u16 := by decide +kernel

theorem restoreState_type : (entryOf 0x801201).map (·.type) = some .u8 := by decide +kernel

theorem reclaimState_type : (entryOf 0x802001).map (·.type) = some .u8 := by decide +kernel

/-! ### Memory arbiters, rounding seed, solver dies (R67, R163, R189, R192) -/

/-- Entries set one after another from the value of an entry that is none of them. -/
theorem rd_foldl_wr_from {src : Nat} {key : Nat → Nat} (val : Nat → Nat → Nat) (is : List Nat) (hsrc : ∀ i ∈ is, key i ≠ src)
    (hinj : ∀ i ∈ is, ∀ j, key j = key i → j = i) (s : State) (j : Nat) :
    rd (is.foldl (fun s i => wr s (key i) (val (rd s src) i)) s) (key j) =
      if j ∈ is then fitEntry (key j) (val (rd s src) j) else rd s (key j) := by
  induction is generalizing s with
  | nil => rfl
  | cons i is ih =>
    have hkept : rd (wr s (key i) (val (rd s src) i)) src = rd s src := rd_wr_ne s _ (hsrc i List.mem_cons_self).symm
    rw [List.foldl_cons, ih (fun k hk => hsrc k (List.mem_cons_of_mem i hk)) (fun k hk => hinj k (List.mem_cons_of_mem i hk)), hkept, rd_wr]
    by_cases hj : j = i
    · simp [hj]
    · have hk : key j ≠ key i := fun h => hj (hinj i List.mem_cons_self j h)
      simp [hj, hk]

/-- The weights set take their places. -/
theorem rd_newWeights (s : State) {i : Nat} (hi : i < 4) : rd (newWeights s) (0x301000 + i) = rd s 0x301004 / 2 ^ (8 * i) % 256 := by
  have hfold := rd_foldl_wr_from (src := 0x301004) (key := fun i => 0x301000 + i) (fun w i => w / 2 ^ (8 * i) % 256) (List.range 4)
    (fun j hj => by have := List.mem_range.mp hj; omega) (fun j _ k h => Nat.add_left_cancel h) s i
  rw [newWeights, hfold, if_pos (List.mem_range.mpr hi), fitEntry_of_type (arbWeight_type ⟨i, hi⟩)]
  exact Nat.mod_mod _ _

theorem arbWrite_ok {s : State} {v : Nat} (hw : ∀ i, i < 4 → 1 ≤ v / 2 ^ (8 * i) % 256 ∧ v / 2 ^ (8 * i) % 256 ≤ 13)
    (hsum : v / 2 ^ (8 * 0) % 256 + v / 2 ^ (8 * 1) % 256 + v / 2 ^ (8 * 2) % 256 + v / 2 ^ (8 * 3) % 256 = 16) :
    arbWrite s v = .ok (wrHost s 0x301004 v) := by
  have hall : (List.range 4).all (fun i => decide (1 ≤ v / 2 ^ (8 * i) % 256 ∧ v / 2 ^ (8 * i) % 256 ≤ 13)) = true := by
    rw [List.all_eq_true]
    exact fun i hi => decide_eq_true (hw i (List.mem_range.mp hi))
  rw [arbWrite]
  simp only [hall, decide_eq_true hsum, Bool.and_self, if_true]

theorem sdModeWrite_ok {s : State} {die v : Nat} (hv : v ≤ 1)
    (hfree : ∀ id ∈ liveIds s, ∀ b ∈ (getC s id).binds, ∀ h ∈ bindHalves b, h / 2 ≠ die) :
    sdModeWrite s die v = .ok (wrHost s (0x601001 + die) v) := by
  rw [sdModeWrite, if_neg (Nat.not_lt.mpr hv), if_neg]
  simpa using hfree

theorem sdModeWrite_bound {s : State} {die v : Nat} (hv : v ≤ 1)
    (hbound : ∃ id ∈ liveIds s, ∃ b ∈ (getC s id).binds, ∃ h ∈ bindHalves b, h / 2 = die) : sdModeWrite s die v = .error 0x0601 := by
  rw [sdModeWrite, if_neg (Nat.not_lt.mpr hv), if_pos]
  simpa using hbound

theorem compatWrite_ok {s : State} {v : Nat} (hv : v < 16) (hidle : ∀ h, h < 4 → halfBusy s h = false) :
    compatWrite s v = .ok (wrHost s 0x602000 v) := by
  have hany : (List.range 4).any (fun h => decide (v / 2 ^ h % 2 ≠ rd s 0x602000 / 2 ^ h % 2) && halfBusy s h) = false := by
    rw [List.any_eq_false]
    exact fun h hh => by simp [hidle h (List.mem_range.mp hh)]
  rw [compatWrite, if_neg (Nat.not_le.mpr hv), hany]
  rfl

theorem opTargetWrite_ok {s : State} {v : BitVec 8} (hv : v.toNat ≤ 2) (hnone : s.pkg.opNext = none)
    (hfit : plantsFit s (if v = 0 then 210 else if v = 1 then 240 else 280) = true) :
    opTargetWrite s v.toNat = .ok { wrHost s 0x200101 v.toNat with pkg := { s.pkg with opNext := some (v.toNat, false) } } := by
  have h0 : v.toNat = 0 ↔ v = 0 := by rw [BitVec.toNat_eq]; rfl
  have h1 : v.toNat = 1 ↔ v = 1 := by rw [BitVec.toNat_eq]; rfl
  rw [opTargetWrite, if_neg (Nat.not_lt.mpr hv)]
  simp only [hnone, Option.isSome_none, Bool.false_eq_true, if_false, h0, h1, hfit, Bool.not_true]

/-! ### Loans (R159) -/

/-- A context that a lost loan meets. -/
def loanEnded (c : Context) : Context :=
  if usesLoan c then { c with peerLost := true, modState := if moduleRuns c then .halting else c.modState } else c

/-- A loan is lost to one context. -/
def loseLoan (s : State) (id : Nat) : State :=
  if usesLoan (getC s id) then
    if moduleRuns (getC s id) then endJob (modC s id (fun c => { c with peerLost := true })) id 0x04 0x0302
    else modC s id (fun c => { c with peerLost := true })
  else s

theorem loanLost_eq (s : State) : loanLost s = (liveIds s).foldl loseLoan s := rfl

@[simp] theorem raiseEvent_ctxs (s : State) (die : Nat) (r : FaultRec) (ev : Option UnitEvent) (j : Bool) :
    (raiseEvent s die r ev j).ctxs = s.ctxs := by
  unfold raiseEvent
  dsimp only
  split <;> simp

/-- What a halt leaves of a context: a module that runs stops issuing. -/
theorem getC_haltCtx (s : State) (id code : Nat) (stream : Option Nat) (j : Nat) : getC (haltCtx s id code stream) j =
    if j = id ∧ ((getC s id).modState = .running ∨ (getC s id).modState = .paused) then { getC s id with modState := .halting } else getC s j := by
  by_cases h : (getC s id).modState = .running ∨ (getC s id).modState = .paused
  · have hj := getC_setC s id j { getC s id with modState := .halting }
    rw [getC, (haltCtx_running code stream h).1, ← getC, hj]
    simp only [h, and_true]
  · rw [haltCtx, if_neg h, if_neg (fun hj => h hj.2)]

theorem getC_endJob (s : State) (id cls code j : Nat) : getC (endJob s id cls code) j =
    if j = id ∧ ((getC s id).modState = .running ∨ (getC s id).modState = .paused) then { getC s id with modState := .halting } else getC s j := by
  have hraise (i : Nat) (r : FaultRec) : getC (raiseEvent s 24 r none true) i = getC s i := by simp only [getC, raiseEvent_ctxs]
  rw [endJob, getC_haltCtx]
  simp only [hraise]

@[simp] theorem usesLoan_loanEnded (c : Context) : usesLoan (loanEnded c) = usesLoan c := by
  unfold loanEnded
  split <;> rfl

theorem loanEnded_of_not {c : Context} (h : usesLoan c = false) : loanEnded c = c := by
  rw [loanEnded, if_neg (by rw [h]; exact Bool.false_ne_true)]

theorem loanEnded_of_usesLoan {c : Context} (h : usesLoan c = true) :
    (loanEnded c).peerLost = true ∧ (loanEnded c).modState ≠ .running := by
  rw [loanEnded, if_pos h]
  refine ⟨rfl, ?_⟩
  by_cases hr : moduleRuns c = true
  · simp [hr]
  · intro hc
    simp only [hr, Bool.false_eq_true, if_false] at hc
    exact hr (by simp [moduleRuns, hc])

theorem modState_loanEnded {c : Context} (h : usesLoan c = true) :
    (loanEnded c).modState = if moduleRuns c then .halting else c.modState := by
  rw [loanEnded, if_pos h]

theorem peerLost_loanEnded {c : Context} (h : usesLoan c = true) : loanEnded c = { c with peerLost := true, modState := (loanEnded c).modState } := by
  rw [loanEnded, if_pos h]

/-- A context that lost its loan before loses nothing more. -/
theorem loanEnded_idem (c : Context) : loanEnded (loanEnded c) = loanEnded c := by
  by_cases h : usesLoan c = true
  · have hu : usesLoan (loanEnded c) = true := by rw [usesLoan_loanEnded, h]
    have hm : (loanEnded (loanEnded c)).modState = (loanEnded c).modState := by
      rw [modState_loanEnded hu, modState_loanEnded h]
      by_cases hr : moduleRuns c = true
      · simp only [hr, if_true, ite_self]
      · have hr' : moduleRuns (loanEnded c) = false := by
          rw [moduleRuns, modState_loanEnded h, if_neg hr, ← moduleRuns]
          exact Bool.not_eq_true _ ▸ hr
        simp only [hr', Bool.false_eq_true, if_false]
    rw [peerLost_loanEnded hu, hm, peerLost_loanEnded h]
  · rw [Bool.not_eq_true] at h
    rw [loanEnded_of_not h, loanEnded_of_not h]

/-- A module that runs stops issuing: its context as the end of its job leaves it. -/
theorem getC_endJob_of_runs {s : State} {id : Nat} (cls code : Nat) (hr : moduleRuns (getC s id) = true) :
    getC (endJob s id cls code) id = { getC s id with modState := .halting } := by
  rw [getC_endJob]
  by_cases h : (getC s id).modState = .running ∨ (getC s id).modState = .paused
  · rw [if_pos ⟨rfl, h⟩]
  · have hh : (getC s id).modState = .halting := by
      rcases of_decide_eq_true hr with h1 | h2 | h3
      · exact absurd (.inl h1) h
      · exact absurd (.inr h2) h
      · exact h3
    rw [if_neg (fun h' => h h'.2), ← hh]

theorem getC_loseLoan_self (s : State) (id : Nat) : getC (loseLoan s id) id = loanEnded (getC s id) := by
  by_cases hu : usesLoan (getC s id) = true
  · rw [loseLoan, loanEnded, if_pos hu, if_pos hu]
    by_cases hr : moduleRuns (getC s id) = true
    · rw [if_pos hr, if_pos hr, getC_endJob_of_runs, modC, getC_setC_self]
      rw [modC, getC_setC_self]
      exact hr
    · rw [if_neg hr, if_neg hr, modC, getC_setC_self]
  · rw [loseLoan, loanEnded, if_neg hu, if_neg hu]

theorem getC_loseLoan_ne (s : State) {id j : Nat} (h : j ≠ id) : getC (loseLoan s id) j = getC s j := by
  have hmod (f : Context → Context) : getC (modC s id f) j = getC s j := getC_setC_ne s id j _ h
  unfold loseLoan
  split
  · split
    · rw [getC_endJob, if_neg (fun hj => h hj.1), hmod]
    · exact hmod _
  · rfl

theorem getC_loanLost_of_live {s : State} {id : Nat} (hl : id ∈ liveIds s) : getC (loanLost s) id = loanEnded (getC s id) := by
  have hfold (ids : List Nat) (t : State) : getC (ids.foldl loseLoan t) id = if id ∈ ids then loanEnded (getC t id) else getC t id := by
    induction ids generalizing t with
    | nil => rfl
    | cons k ids ih =>
      rw [List.foldl_cons, ih]
      by_cases hk : id = k
      · subst hk
        simp only [getC_loseLoan_self, loanEnded_idem, ite_self, List.mem_cons, true_or, if_true]
      · simp only [getC_loseLoan_ne t hk, List.mem_cons, hk, false_or]
  rw [loanLost_eq, hfold, if_pos hl]

theorem loanLost_of_none {s : State} (h : ∀ id ∈ liveIds s, usesLoan (getC s id) = false) : loanLost s = s := by
  have hfold (ids : List Nat) (hids : ∀ id ∈ ids, usesLoan (getC s id) = false) : ids.foldl loseLoan s = s := by
    induction ids with
    | nil => rfl
    | cons k ids ih =>
      have hk : loseLoan s k = s := by rw [loseLoan, if_neg (by rw [hids k List.mem_cons_self]; exact Bool.false_ne_true)]
      rw [List.foldl_cons, hk, ih (fun id hid => hids id (List.mem_cons_of_mem k hid))]
  exact hfold _ h

/-- A write of one of the two entries of a borrower. -/
theorem loanWrite_borrower {s : State} {sub v : Nat} (hsub : sub ≤ 1) : loanWrite s sub v =
    .ok (if rd s (0x303000 + sub) ≠ v ∧ rd s 0x303000 ≠ 0xFFFF ∧ rd s 0x303001 ≠ 0 then loanLost (wrHost s (0x303000 + sub) v)
      else wrHost s (0x303000 + sub) v) := by
  have h3 : sub ≠ 3 := by omega
  unfold loanWrite
  by_cases hv : rd s (0x303000 + sub) = v
  · simp [h3, hv]
  · by_cases hb : rd s 0x303000 ≠ 0xFFFF ∧ rd s 0x303001 ≠ 0
    · simp [h3, hv, hsub, hb]
    · simp [h3, hv, hsub, hb]

theorem loanWrite_unused {s : State} {sub v : Nat} (hsub : sub ≤ 1) (hnone : ∀ id ∈ liveIds s, usesLoan (getC s id) = false) :
    loanWrite s sub v = .ok (wrHost s (0x303000 + sub) v) := by
  rw [loanWrite_borrower hsub, loanLost_of_none (s := wrHost s (0x303000 + sub) v) hnone, ite_self]

/-- Lending nothing lends no page. -/
theorem lendPages_zero (s : State) : (lendPages s 0).pkg.lent = [] ∧ (lendPages s 0).pkg.loanKey = s.pkg.loanKey ∧
    (lendPages s 0).fab = s.fab ∧ (lendPages s 0).ent = s.ent := by
  have hnone (any : Bool) (a : Placing) (rs : List Nat) (ha : a.need = 0) : takeRegions 0 any a rs = a := by
    cases rs with
    | nil => rfl
    | cons r rs => rw [takeRegions, if_pos ha]
  unfold lendPages placePages
  simp only [Nat.zero_mul, hnone, and_self]

/-- The lender's entry set to no device: what was lent is not lent any more. -/
theorem loanWrite_released {s : State} (h : rd s 0x303002 ≠ 0xFFFF) :
    ∃ t, loanWrite s 2 0xFFFF = .ok t ∧ t.pkg.loanKey = none ∧ t.pkg.lent = [] ∧ t.fab.loanMem = [] ∧ rd t 0x303002 = 0xFFFF := by
  have hrd : rd (wrHost s 0x303002 0xFFFF) 0x303002 = 0xFFFF := rd_wrHost_fits s lendTo_type (by decide)
  unfold loanWrite
  simp only [hrd, h, Nat.reduceAdd, Nat.reduceEqDiff, false_and, if_false, decide_false, Bool.false_eq_true, ne_eq, not_true_eq_false, Bool.false_and]
  obtain ⟨hlent, hkey, hfab, hent⟩ := lendPages_zero
    { (drawNat (wrHost s 0x303002 0xFFFF)).2 with
      pkg := { (drawNat (wrHost s 0x303002 0xFFFF)).2.pkg with loanKey := none },
      fab := { (drawNat (wrHost s 0x303002 0xFFFF)).2.fab with loanMem := [] } }
  refine ⟨_, rfl, hkey, hlent, by rw [hfab], ?_⟩
  rw [rd, hent]
  exact hrd

/-! ### Contexts of a job, checkpoint entries (R319, R320, R324, R333) -/

/-- The context-scoped entry of the rounding seed: the running step keeps the seed it began with (R67). -/
theorem ctxWrite_kept (s : State) (id k v : Nat) : ∃ t, ctxWrite s id k v = .ok t ∧ (∀ j, j ≠ id → getC t j = getC s j) ∧
    erd (getC t id) k = v ∧ (getC t id).seed = (getC s id).seed := by
  refine ⟨_, rfl, fun j hj => ?_, ?_, ?_⟩
  · exact getC_setC_ne _ _ _ _ hj
  · rw [modC, getC_setC_self, erd, tget_tset_self]
  · rw [modC, getC_setC_self]

theorem tget_map_val {α : Type} {d : α} {f : α → α} (hd : f d = d) (m : Tbl α) (k : Nat) :
    tget d (m.map (fun p => (p.1, f p.2))) k = f (tget d m k) := by
  induction m with
  | nil => exact hd.symm
  | cons p m ih =>
    rw [List.map_cons, tget, tget, ih]
    split <;> rfl

/-- The next capture of every context is full. -/
def allFullNext (s : State) : State := { s with ctxs := s.ctxs.map (fun p => (p.1, { p.2 with fullNext := true })) }

theorem fullNext_allFullNext (s : State) (id : Nat) : (getC (allFullNext s) id).fullNext = true := by
  rw [getC, allFullNext, tget_map_val (f := fun c : Context => { c with fullNext := true }) rfl]

theorem jobIdWrite_refused {s : State} (v : Nat) (h : genInFlight s = true) : jobIdWrite s v = .error 0x0807 := by
  rw [jobIdWrite, if_pos h]

theorem jobIdWrite_ok {s : State} {v : Nat} (hv : v < 2 ^ 64) (h : genInFlight s = false) : ∃ t, jobIdWrite s v = .ok t ∧
    rd t 0x800100 = v ∧ rd t 0x800101 = 1 ∧ t.ckpt.pending = [] ∧ ∀ id, (getC t id).fullNext = true := by
  have hjob : rd (wr (wrHost s 0x800100 v) 0x800101 1) 0x800100 = v := by rw [rd_wr_ne _ _ (by decide), rd_wrHost_fits s jobId_type hv]
  have hgen : rd (wr (wrHost s 0x800100 v) 0x800101 1) 0x800101 = 1 := rd_wr_fits _ nextGen_type (by decide)
  have hfull := fullNext_allFullNext (wr (wrHost s 0x800100 v) 0x800101 1)
  rw [jobIdWrite, if_neg (by rw [h]; exact Bool.false_ne_true)]
  generalize wr (wrHost s 0x800100 v) 0x800101 1 = u at hjob hgen hfull
  exact ⟨_, rfl, hjob, hgen, rfl, hfull⟩

theorem buddyDeviceWrite_refused {s : State} (v : Nat) (h : genInFlight s = true) : buddyDeviceWrite s v = .error 0x0807 := by
  rw [buddyDeviceWrite, if_pos h]

theorem buddyDeviceWrite_ok {s : State} {v : Nat} (hv : v < 2 ^ 16) (h : genInFlight s = false) : ∃ t, buddyDeviceWrite s v = .ok t ∧
    rd t 0x800200 = v ∧ ∀ id, (getC t id).fullNext = true := by
  rw [buddyDeviceWrite, if_neg (by rw [h]; exact Bool.false_ne_true)]
  exact ⟨_, rfl, rd_wrHost_fits s buddyDevice_type hv, fullNext_allFullNext (wrHost s 0x800200 v)⟩

theorem buddyPartnerWrite_otherGrade {s : State} {v : Nat} {a : Bool} (job rank : Nat) (hg : genInFlight s = false) (hv : v ≠ 0xFFFF)
    (ha : a ≠ gradeA s) : buddyPartnerWrite s v a job rank = .error 0x0808 := by
  simp only [buddyPartnerWrite, hg, hv, ha, Bool.false_eq_true, if_false, ne_eq, not_false_eq_true, if_true]

theorem buddyPartnerWrite_sameKey {s : State} {v job rank : Nat} (hg : genInFlight s = false) (hv : v ≠ 0xFFFF)
    (hjob : s.ckpt.buddy.job = job) (hrank : s.ckpt.buddy.rank = rank) :
    buddyPartnerWrite s v (gradeA s) job rank = .ok (wrHost s 0x800201 v) := by
  simp only [buddyPartnerWrite, hg, hv, hjob, hrank, Bool.false_eq_true, if_false, ne_eq, not_true_eq_false, and_self, if_true]

theorem buddyPartnerWrite_newKey {s : State} {v job : Nat} (rank : Nat) (hg : genInFlight s = false) (hv : v ≠ 0xFFFF)
    (hjob : s.ckpt.buddy.job ≠ job) (hfree : s.ckpt.buddy.inFlight = false) : buddyPartnerWrite s v (gradeA s) job rank =
      .ok { wrHost s 0x800201 v with ckpt := { s.ckpt with buddy := { BuddySlot.empty with job := job, rank := rank } } } := by
  simp only [buddyPartnerWrite, hg, hv, hjob, hfree, Bool.false_eq_true, if_false, ne_eq, not_true_eq_false, false_and]

/-- The step that a requested ordinal is held against. -/
def jobStep (s : State) : Nat := match jobCtx s with | some id => (getC s id).step | none => 0

theorem ckptRequestWrite_eq (s : State) (v : Nat) : ckptRequestWrite s v =
    if v ≤ jobStep s then .error 0x0806
    else if v ∈ s.ckpt.pending then .ok (bumpSnap s 0x800400)
    else if 8 ≤ s.ckpt.pending.length then .error 0x080C
    else .ok { bumpSnap s 0x800400 with ckpt := { s.ckpt with pending := sortNat (v :: s.ckpt.pending) } } := rfl

theorem ckptRequestWrite_past {s : State} {v : Nat} (h : v ≤ jobStep s) : ckptRequestWrite s v = .error 0x0806 := by
  rw [ckptRequestWrite_eq, if_pos h]

theorem ckptRequestWrite_full {s : State} {v : Nat} (h : jobStep s < v) (hnew : v ∉ s.ckpt.pending) (hlen : s.ckpt.pending.length = 8) :
    ckptRequestWrite s v = .error 0x080C := by
  have hpast : ¬ v ≤ jobStep s := Nat.not_le.mpr h
  have hfull : 8 ≤ s.ckpt.pending.length := hlen.ge
  rw [ckptRequestWrite_eq]
  simp only [hpast, hnew, hfull, if_false, if_true]

theorem mem_sortNat (xs : List Nat) (x : Nat) : x ∈ sortNat xs ↔ x ∈ xs := by
  rw [sortNat, List.mem_eraseDups, List.mem_mergeSort]

theorem ckptRequestWrite_listed {s : State} {v : Nat} (h : jobStep s < v) (hnew : v ∉ s.ckpt.pending) (hlen : s.ckpt.pending.length < 8) :
    ∃ t, ckptRequestWrite s v = .ok t ∧ ∀ x, x ∈ t.ckpt.pending ↔ x = v ∨ x ∈ s.ckpt.pending := by
  have hpast : ¬ v ≤ jobStep s := Nat.not_le.mpr h
  have hfull : ¬ 8 ≤ s.ckpt.pending.length := Nat.not_le.mpr hlen
  rw [ckptRequestWrite_eq]
  simp only [hpast, hnew, hfull, if_false]
  exact ⟨_, rfl, fun x => by rw [mem_sortNat, List.mem_cons]⟩

/-! ### Restore, reclaim, relay (R338, R340, R383) -/

/-- Ranks of the device's job. -/
def jobRanks (s : State) : Nat := match jobCtx s with | some id => (getC s id).n | none => 1

theorem restoreStart_eq (s : State) (target next : Nat) (cands : List Nat) (held : List (Nat × Nat × Nat × Nat)) :
    restoreStart s target next cands held =
      if restoreChoices (jobRanks s) target cands held = [] then refuseRestore s (mixedShards (jobRanks s) held)
      else { wr s 0x801201 1 with ckpt := { (wr s 0x801201 1).ckpt with
        restoreCands := restoreChoices (jobRanks s) target cands held, restoreNext := next, restoreMixed := mixedShards (jobRanks s) held } } := rfl

theorem rd_raiseEvent (s : State) (die : Nat) (r : FaultRec) (ev : Option UnitEvent) (j : Bool) {k : Nat} (hk : k ≠ 0x101200) :
    rd (raiseEvent s die r ev j) k = rd s k := by
  unfold raiseEvent
  dsimp only
  split
  · rfl
  · exact rd_wr_ne _ _ hk

theorem raiseEvent_ckpt (s : State) (die : Nat) (r : FaultRec) (ev : Option UnitEvent) (j : Bool) :
    (raiseEvent s die r ev j).ckpt = s.ckpt := by
  unfold raiseEvent
  dsimp only
  split <;> simp

theorem restoreStart_runs {s : State} {target : Nat} (next : Nat) {cands : List Nat} {held : List (Nat × Nat × Nat × Nat)}
    (h : restoreChoices (jobRanks s) target cands held ≠ []) : let t := restoreStart s target next cands held
      rd t 0x801201 = 1 ∧ t.ckpt.restoreNext = next ∧ t.ckpt.restoreCands = restoreChoices (jobRanks s) target cands held := by
  have hrd : rd (wr s 0x801201 1) 0x801201 = 1 := rd_wr_fits s restoreState_type (by decide)
  rw [restoreStart_eq]
  simp only [h, if_false]
  exact ⟨hrd, trivial, trivial⟩

theorem restoreStart_refused {s : State} {target : Nat} (next : Nat) {cands : List Nat} {held : List (Nat × Nat × Nat × Nat)}
    (h : restoreChoices (jobRanks s) target cands held = []) : let t := restoreStart s target next cands held
      rd t 0x801201 = 3 ∧ t.ckpt.restoreCands = [] := by
  have hrd (v : Nat) : rd (wr (wr s 0x801201 3) 0x801202 v) 0x801201 = 3 := by
    rw [rd_wr_ne _ _ (by decide)]
    exact rd_wr_fits s restoreState_type (by decide)
  rw [restoreStart_eq]
  simp only [h, if_true, refuseRestore, raiseEvent_ckpt]
  exact ⟨(rd_raiseEvent _ _ _ _ _ (by decide)).trans (hrd _), trivial⟩

theorem reclaimWrite_starts {s : State} (h : rd s 0x802001 ∉ [1, 2, 3]) : ∃ t, reclaimWrite s 1 = .ok t ∧
    rd t 0x802001 = 1 ∧ t.pkg.notes = s.pkg.notes ++ [.reclaimStart] ∧ t.ctxs = s.ctxs := by
  rw [reclaimWrite, if_neg (fun hne => hne rfl), if_neg h]
  exact ⟨_, rfl, rd_wr_fits (bumpSnap s 0x802000) reclaimState_type (by decide), by simp, by simp⟩

theorem relayWrite_sent (s : State) (target : Nat) {tag length : Nat} (bytes : List Byte) (ht : tag < 8) (hl : length ≤ 8136) :
    relayWrite s target tag 0 length bytes = .ok (sendCtl (bumpSnap s 0x106000) target (.relay (ownId s) tag bytes)) := by
  have hok : ¬ (8 ≤ tag ∨ 8136 < length) := by omega
  rw [relayWrite, if_neg (fun hne => hne rfl), if_neg hok]

/-! ### The writes (O43) -/

theorem loanRevoke_takes (s : State) (r : Req) (sub : Fin 4) (v : BitVec 16) : let k := 0x303000 + sub.val
    ((∀ id ∈ liveIds s, usesLoan (getC s id) = false) → sub.val ≤ 1 →
      Takes (.loanRevoke r sub v) s r k (natLe 2 v.toNat) (wrHost s k v.toNat)) ∧
    (sub.val ≤ 1 → rd s k ≠ v.toNat → rd s 0x303000 ≠ 0xFFFF → rd s 0x303001 ≠ 0 →
      ∃ t, (∀ id ∈ liveIds s, usesLoan (getC s id) = true → (getC t id).peerLost = true ∧ (getC t id).modState ≠ .running) ∧
        Takes (.loanRevoke r sub v) s r k (natLe 2 v.toNat) t) ∧
    (sub.val = 2 → v = 0xFFFF → rd s k ≠ 0xFFFF → ∃ t, t.pkg.loanKey = none ∧ t.pkg.lent = [] ∧ t.fab.loanMem = [] ∧ rd t k = 0xFFFF ∧
      Takes (.loanRevoke r sub v) s r k (natLe 2 v.toNat) t) := by
  refine ⟨fun hnone hsub => takes_row rfl (loanWrite_unused hsub hnone), fun hsub hnew hdev hsize => ?_, fun hsub hv hlent => ?_⟩
  · refine ⟨loanLost (wrHost s (0x303000 + sub.val) v.toNat), fun id hid hu => ?_, takes_row rfl ?_⟩
    · rw [getC_loanLost_of_live (s := wrHost s (0x303000 + sub.val) v.toNat) hid]
      exact loanEnded_of_usesLoan hu
    · rw [loanWrite_borrower hsub, if_pos ⟨hnew, hdev, hsize⟩]
  · subst hv
    have hk : 0x303000 + sub.val = 0x303002 := by omega
    obtain ⟨t, ht, hkey, hnone, hmem, hrd⟩ := loanWrite_released (s := s) (by rwa [hk] at hlent)
    exact ⟨t, hkey, hnone, hmem, by rw [hk]; exact hrd, takes_row rfl (by rw [hsub]; exact ht)⟩

/-- Settles O43: each write through its row's rule, and the rule's answer for the entry. -/
theorem configurationWritesTakeEffect : Obligations.ConfigurationWritesTakeEffect := by
  unfold Obligations.ConfigurationWritesTakeEffect
  intro s r
  refine ⟨?flush, ?arb, fun i hi => rd_newWeights s hi, ?seed, ?sdMode, ?compat, ?op, loanRevoke_takes s r, ?job, ?buddy, ?partner,
    ?request, ?restore, ?reclaim, ?relay⟩
  case flush => exact takes_row rfl rfl
  case arb => exact fun v hw hsum => takes_row rfl (arbWrite_ok hw hsum)
  case seed =>
    intro v
    obtain ⟨t, ht, hother, hent, hseed⟩ := ctxWrite_kept s ((pathCtx r.path).getD (r.ctx % 4096)) 0x901000 v.toNat
    exact ⟨t, hother, hent, hseed, takes_row rfl ht⟩
  case sdMode =>
    exact fun die v hv => ⟨fun hfree => takes_row rfl (sdModeWrite_ok hv hfree),
      fun hbound => refuses_row rfl (by decide) (sdModeWrite_bound hv hbound)⟩
  case compat => exact fun v hv hidle => takes_row rfl (compatWrite_ok hv hidle)
  case op =>
    intro v hv hnone hfit
    refine ⟨_, ?_, ?_, ?_, takes_row rfl (opTargetWrite_ok hv hnone hfit)⟩
    · rfl
    · exact rd_wrHost_fits s opTarget_type v.isLt
    · exact rd_wrHost_ne s _ (by decide)
  case job =>
    refine fun v => ⟨fun hfree => ?_, fun hbusy => refuses_row rfl (by decide) (jobIdWrite_refused _ hbusy)⟩
    obtain ⟨t, ht, hjob, hgen, hpend, hfull⟩ := jobIdWrite_ok v.isLt hfree
    exact ⟨t, hjob, hgen, hpend, fun id _ => hfull id, takes_row rfl ht⟩
  case buddy =>
    refine fun v => ⟨fun hfree => ?_, fun hbusy => refuses_row rfl (by decide) (buddyDeviceWrite_refused _ hbusy)⟩
    obtain ⟨t, ht, hdev, hfull⟩ := buddyDeviceWrite_ok v.isLt hfree
    exact ⟨t, hdev, fun id _ => hfull id, takes_row rfl ht⟩
  case partner =>
    intro v a job rank hfree hv
    have hv' : v.toNat ≠ 0xFFFF := fun h => hv (BitVec.eq_of_toNat_eq h)
    refine ⟨fun ha => refuses_row rfl (by decide) (buddyPartnerWrite_otherGrade job rank hfree hv' ha), ?_, ?_⟩
    · rintro rfl hjob hrank
      exact takes_row rfl (buddyPartnerWrite_sameKey hfree hv' hjob hrank)
    · rintro rfl hjob hflight
      refine ⟨_, ?_, ?_, takes_row rfl (buddyPartnerWrite_newKey rank hfree hv' hjob hflight)⟩
      · exact rd_wrHost_fits s buddyPartner_type v.isLt
      · rfl
  case request =>
    refine fun v => ⟨fun hpast => refuses_row rfl (by decide) (ckptRequestWrite_past hpast),
      fun hstep hnew hlen => refuses_row rfl (by decide) (ckptRequestWrite_full hstep hnew hlen), fun hstep hnew hlen => ?_⟩
    obtain ⟨t, ht, hmem⟩ := ckptRequestWrite_listed hstep hnew hlen
    exact ⟨t, hmem, takes_row rfl ht⟩
  case restore =>
    intro target next cands held
    refine ⟨fun hsome => ?_, fun hnone => ?_⟩
    · obtain ⟨hstate, hnext, hcands⟩ := restoreStart_runs next.toNat hsome
      exact ⟨bumpSnap (restoreStart s target.toNat next.toNat cands held) 0x801200, hstate, hnext, hcands, takes_row rfl rfl⟩
    · obtain ⟨hstate, hcands⟩ := restoreStart_refused next.toNat hnone
      exact ⟨bumpSnap (restoreStart s target.toNat next.toNat cands held) 0x801200, hstate, hcands, takes_row rfl rfl⟩
  case reclaim =>
    intro hidle
    obtain ⟨t, ht, hstate, hnotes, hctxs⟩ := reclaimWrite_starts hidle
    exact ⟨t, hstate, hnotes, hctxs, takes_row rfl ht⟩
  case relay => exact fun target tag length bytes ht hl => takes_row rfl (relayWrite_sent s target bytes ht hl)

end Sys2Proof.WriteProofs
end


section
/-! PROOFS. The step point: what its opening keeps, the seed, and the workers that go on (R57, R85, R160, R246). -/

namespace Sys2Proof.StepProofs

open Sys2Proof Sys2Proof.Machine Sys2Proof.Laws Sys2Proof.PackageProofs Sys2Proof.WorkerProofs Sys2Proof.WriteProofs

/-! ### Placement at a step point (R160) -/

/-- `t` differs from `s` in where the context's tensors lie and in the package's pages at most. -/
structure OnlyPlaced (id : Nat) (s t : State) : Prop where
  others : ∀ j, j ≠ id → getC t j = getC s j
  self : ∃ place parts lower, getC t id = { getC s id with place := place, parts := parts, lower := lower }
  fab : t.fab = s.fab
  ckpt : t.ckpt = s.ckpt
  opNext : t.pkg.opNext = s.pkg.opNext
  switchTo : t.pkg.switchTo = s.pkg.switchTo

theorem OnlyPlaced.refl (id : Nat) (s : State) : OnlyPlaced id s s := ⟨fun _ _ => rfl, ⟨_, _, _, rfl⟩, rfl, rfl, rfl, rfl⟩

theorem OnlyPlaced.trans {id : Nat} {s t u : State} (h : OnlyPlaced id s t) (h' : OnlyPlaced id t u) : OnlyPlaced id s u := by
  obtain ⟨_, _, _, hs⟩ := h.self
  obtain ⟨_, _, _, ht⟩ := h'.self
  exact ⟨fun j hj => (h'.others j hj).trans (h.others j hj), ⟨_, _, _, by rw [ht, hs]⟩, h'.fab.trans h.fab, h'.ckpt.trans h.ckpt,
    h'.opNext.trans h.opNext, h'.switchTo.trans h.switchTo⟩

/-- Dropping pages changes the Pantries alone. -/
theorem dropPages_pantry (s : State) (c : Context) (ps : List Nat) :
    ∃ pantry, dropPages s c ps = { s with pkg := { s.pkg with pantry := pantry } } := by
  unfold dropPages
  generalize s.pkg.pantry = sets
  suffices hfold : ∀ t : State, (∃ pantry, t = { s with pkg := { s.pkg with pantry := pantry } }) → ∃ pantry,
      sets.foldl (fun s p => setSet s p.1 (p.2.filter (fun l => !decide (lineSpot p.1 l ∈ ps.map (pageSpot s c))))) t =
        { s with pkg := { s.pkg with pantry := pantry } } from hfold s ⟨_, rfl⟩
  induction sets with
  | nil => exact fun t ht => ht
  | cons p sets ih =>
    rintro t ⟨pantry, rfl⟩
    exact ih _ ⟨_, rfl⟩

theorem onlyPlaced_replaceTensor (s : State) (id t : Nat) (parts : List Nat) (lower : Tbl Nat) :
    OnlyPlaced id s (replaceTensor s id t parts lower) := by
  unfold replaceTensor
  dsimp only
  split
  · exact .refl id s
  · split
    · next d _ _ =>
      obtain ⟨pantry, hdrop⟩ := dropPages_pantry s (getC s id)
        ((List.range (pagedBytes d / pageBytes)).map (fun i => tensorBase (getC s id) 0 t / pageBytes + i))
      rw [hdrop]
      exact ⟨fun j hj => getC_setC_ne _ _ _ _ hj, ⟨_, _, _, getC_setC_self _ _ _⟩, rfl, rfl, rfl, rfl⟩
    · exact .refl id s

theorem onlyPlaced_movePlacement (s : State) (id : Nat) : OnlyPlaced id s (movePlacement s id) := by
  unfold movePlacement
  generalize Config.moves (getC s id).serial (getC s id).step = ms
  suffices hfold : ∀ t : State, OnlyPlaced id s t → OnlyPlaced id s (ms.foldl _ t) from hfold s (.refl id s)
  induction ms with
  | nil => exact fun t ht => ht
  | cons m ms ih =>
    refine fun t ht => ih _ (ht.trans ?_)
    dsimp only
    split
    · exact .refl id t
    · split
      · split
        · exact onlyPlaced_replaceTensor t id _ _ _
        · exact .refl id t
      · split
        · exact .refl id t
        · split
          · exact onlyPlaced_replaceTensor t id _ _ _
          · exact onlyPlaced_replaceTensor t id _ _ _

/-! ### The step that opens (R85, R246) -/

theorem erd_ewr_ne (c : Context) {k q : Nat} (v : Nat) (h : q ≠ k) : erd (ewr c k v) q = erd c q := by
  unfold ewr
  split
  · rfl
  · exact tget_tset_other _ _ _ _ _ _ h

theorem erd_eincr_ne (c : Context) {k q : Nat} (n : Nat) (h : q ≠ k) : erd (eincr c k n) q = erd c q := erd_ewr_ne c _ h

/-- What the opening of a step leaves of the context that every later part of the step point goes by. -/
structure Opened (c c' : Context) : Prop where
  step : c'.step = c.step + 1
  inputs : c'.inputs = []
  vmem : c'.vmem = c.vmem
  modState : c'.modState = c.modState
  workers : c'.workers = c.workers
  haltStream : c'.haltStream = c.haltStream
  mod : c'.mod = c.mod
  seedEntry : erd c' 0x901000 = erd c 0x901000

/-- The context as the step point opens its step, before its placement. -/
def openedCtx (s : State) (id : Nat) (c : Context) : Context :=
  let c := ewr (accountRun s c) 0x900500 (stepTiming s c)
  let c := startStepClock s { c with step := c.step + 1, collSeq := 0, inputs := [], souts := [], outDigest := [] }
  { (dropLines s id c (fun _ => true)).2 with bulkIn := [] }

theorem opened_openedCtx (s : State) (id : Nat) (c : Context) : Opened c (openedCtx s id c) where
  step := by simp [openedCtx, dropLines, startStepClock, accountRun]
  inputs := by simp [openedCtx, dropLines, startStepClock]
  vmem := by simp [openedCtx, dropLines, startStepClock, accountRun]
  modState := by simp [openedCtx, dropLines, startStepClock, accountRun]
  workers := by simp [openedCtx, dropLines, startStepClock, accountRun]
  haltStream := by simp [openedCtx, dropLines, startStepClock, accountRun]
  mod := by simp [openedCtx, dropLines, startStepClock, accountRun]
  seedEntry := by
    have hdrop (c : Context) : erd { (dropLines s id c (fun _ => true)).2 with bulkIn := [] } 0x901000 = erd c 0x901000 :=
      erd_eincr_ne c _ (by decide)
    have hclock (c : Context) : erd (startStepClock s { c with step := c.step + 1, collSeq := 0, inputs := [], souts := [], outDigest := [] })
      0x901000 = erd c 0x901000 := rfl
    rw [openedCtx, hdrop, hclock, erd_ewr_ne _ _ (by decide), accountRun, erd_eincr_ne _ _ (by decide)]

/-- The step opens: the context's cached remote lines are gone, and it stands as `openedCtx` says but for its placement. -/
theorem openStep_effect {s : State} {id : Nat} (hbulk : (getC s id).bulkIn = []) : ∃ u, OnlyPlaced id u (openStep s id) ∧
    getC u id = openedCtx s id (getC s id) ∧ (∀ j, j ≠ id → getC u j = getC s j) ∧
    u.fab.rlc = s.fab.rlc.filter (fun l => !(decide (l.ctx = id) && true)) ∧ u.ckpt = s.ckpt ∧ u.pkg = s.pkg := by
  let c' := startStepClock s { ewr (accountRun s (getC s id)) 0x900500 (stepTiming s (getC s id)) with
    step := (ewr (accountRun s (getC s id)) 0x900500 (stepTiming s (getC s id))).step + 1, collSeq := 0, inputs := [], souts := [], outDigest := [] }
  let r := dropLines s id c' (fun _ => true)
  have hnone : r.2.bulkIn = [] := by simp [r, c', dropLines, startStepClock, accountRun, hbulk]
  have happly : applyBulk (setC r.1 id r.2) id = setC (setC r.1 id r.2) id (openedCtx s id (getC s id)) := by
    rw [applyBulk, getC_setC_self, hnone, List.foldl_nil, modC, getC_setC_self]
    rfl
  refine ⟨applyBulk (setC r.1 id r.2) id, onlyPlaced_movePlacement _ id, ?_, fun j hj => ?_, ?_⟩
  · rw [happly, getC_setC_self]
  · rw [happly, getC_setC_ne _ _ _ _ hj, getC_setC_ne _ _ _ _ hj]
    rfl
  · rw [happly]
    exact ⟨rfl, rfl, rfl⟩

/-! ### The seed, and the workers that go on (R57, R85) -/

/-- With no replay and no recording the step's seed is the value written last. -/
theorem stepSeed_effect {s : State} {id : Nat} (k : Nat) (hplay : s.ckpt.rplay = false) (hrec : s.ckpt.rrec = false) :
    let t := stepSeed s id k
    getC t id = { getC s id with seed := erd (getC s id) 0x901000 } ∧ (∀ j, j ≠ id → getC t j = getC s j) ∧
      t.fab = s.fab ∧ t.ckpt = s.ckpt ∧ t.pkg = s.pkg := by
  have hreplay : replaying s id = false := by rw [replaying, hplay, Bool.false_and]
  have hlog (u : State) (hu : u.ckpt = s.ckpt) (x y z w : Nat) (bs : List Byte) : logInput u id x y z w bs = u := by
    rw [logInput, recording, hu, hrec, Bool.false_and, if_neg Bool.false_ne_true]
  unfold stepSeed
  simp only [hreplay, Bool.false_eq_true, if_false]
  split
  · next h => exact ⟨by rw [← h], fun _ _ => rfl, rfl, rfl, rfl⟩
  · rw [hlog _ (by rfl)]
    exact ⟨getC_setC_self _ _ _, fun j hj => getC_setC_ne _ _ _ _ hj, rfl, rfl, rfl⟩

theorem getW_resumeAll (c : Context) (i : Nat) : getW (resumeAll c) i = resumeWorker (getW c i) :=
  tget_map_val (f := resumeWorker) rfl c.workers i

/-- A worker that stood at STEP or CKPT runs on, so not every worker has ended. -/
theorem resumeAll_not_ended {c : Context} (hat : ∀ i, i < 4000 → atStepPoint (getW c i) = true) (hended : ∀ p ∈ c.workers, p.2.run ≠ .ended)
    (hrun : ∃ i, i < 4000 ∧ (getW c i).run ≠ .atEnd) : (resumeAll c).workers.all (fun p => decide (p.2.run = .ended)) = false := by
  obtain ⟨i, hi, hnot⟩ := hrun
  have hmem : (i, getW c i) ∈ c.workers := by
    refine (tget_default_or_mem Worker.initial c.workers i).resolve_left (fun h => ?_)
    have hidle := hat i hi
    rw [getW, h] at hidle
    exact absurd hidle (by decide)
  have hresumed : (resumeWorker (getW c i)).run = .running := by
    have hpoint := hat i hi
    have hlive := hended _ hmem
    unfold atStepPoint at hpoint
    unfold resumeWorker
    split at hpoint
    · next h => rw [h]
    · next h => exact absurd h hnot
    · next h => exact absurd h hlive
    · exact absurd hpoint Bool.false_ne_true
  rw [List.all_eq_false]
  exact ⟨(i, resumeWorker (getW c i)), List.mem_map_of_mem hmem, by rw [hresumed]; decide⟩

/-- The end of a step point that neither halts, ends nor gives way: every worker moves on. -/
theorem closeStep_resumes {s : State} {id : Nat} (hop : s.pkg.opNext = none) (hswitch : s.pkg.switchTo = none) (hhalt : (getC s id).haltStream = none)
    (hruns : (resumeAll (getC s id)).workers.all (fun p => decide (p.2.run = .ended)) = false) :
    closeStep s id = setC s id (resumeAll (getC s id)) := by
  have happly : applyOp (modC s id resumeAll) = setC s id (resumeAll (getC s id)) := by
    unfold applyOp
    rw [modC]
    simp only [setC, hop]
  have hpause : pauseModule (setC s id (resumeAll (getC s id))) id = setC s id (resumeAll (getC s id)) := by
    unfold pauseModule
    simp only [setC, hswitch]
  have hstream : (resumeAll (getC s id)).haltStream = none := hhalt
  unfold closeStep
  simp only [happly, getC_setC_self, hstream, hruns, Bool.false_eq_true, if_false, hpause]

/-! ### The step point (O30) -/

/-- A step point at which nothing but the step itself is due. -/
structure PlainPoint (s : State) (id : Nat) : Prop where
  running : isRunning (getC s id) = true
  there : ∀ i, i < 4000 → atStepPoint (getW (getC s id) i) = true
  alive : ∀ p ∈ (getC s id).workers, p.2.run ≠ .ended
  goesOn : ∃ i, i < 4000 ∧ (getW (getC s id) i).run ≠ .atEnd
  noCapture : capturePoint s (getC s id) ((getC s id).step + 1) = false
  noReplay : s.ckpt.rplay = false
  noRecord : s.ckpt.rrec = false
  noHalt : (getC s id).haltStream = none
  noSwitch : s.pkg.switchTo = none
  noOp : s.pkg.opNext = none
  noStreams : (modOf (getC s id)).streams = []
  noBulk : (getC s id).bulkIn = []

/-- What the released step point leaves. -/
structure Released (s t : State) (id : Nat) : Prop where
  step : (getC t id).step = (getC s id).step + 1
  inputs : (getC t id).inputs = []
  lines : ∀ l ∈ t.fab.rlc, l.ctx ≠ id
  modState : (getC t id).modState = (getC s id).modState
  vmem : (getC t id).vmem = (getC s id).vmem
  seed : (getC t id).seed = erd (getC s id) 0x901000
  workers : ∀ i, getW (getC t id) i = resumeWorker (getW (getC s id) i)
  others : ∀ j, j ≠ id → getC t j = getC s j

theorem fetchInputs_none {s : State} {id : Nat} (h : (modOf (getC s id)).streams = []) : fetchInputs s id = s := by
  rw [fetchInputs, h]
  rfl

/-- Placement and seed are none of the things that `Opened` speaks of. -/
theorem Opened.placed {c c' : Context} (h : Opened c c') (place : List PageRun) (parts : List Nat) (lower : Tbl Nat) (seed : Nat) :
    Opened c { c' with place := place, parts := parts, lower := lower, seed := seed } :=
  ⟨h.step, h.inputs, h.vmem, h.modState, h.workers, h.haltStream, h.mod, h.seedEntry⟩

/-- The step that a plain point has opened, its seed set, before its workers move. -/
structure Entered (s t : State) (id : Nat) : Prop where
  opened : Opened (getC s id) (getC t id)
  seed : (getC t id).seed = erd (getC s id) 0x901000
  others : ∀ j, j ≠ id → getC t j = getC s j
  lines : ∀ l ∈ t.fab.rlc, l.ctx ≠ id
  ckpt : t.ckpt = s.ckpt
  opNext : t.pkg.opNext = s.pkg.opNext
  switchTo : t.pkg.switchTo = s.pkg.switchTo

theorem entered_stepSeed_openStep {s : State} {id : Nat} (k : Nat) (hbulk : (getC s id).bulkIn = []) (hplay : s.ckpt.rplay = false)
    (hrec : s.ckpt.rrec = false) : Entered s (stepSeed (openStep s id) id k) id := by
  obtain ⟨u, hplaced, hself, hother, hrlc, hckpt, hpkg⟩ := openStep_effect hbulk
  obtain ⟨place, parts, lower, hctx⟩ := hplaced.self
  have hopen := opened_openedCtx s id (getC s id)
  rw [← hself] at hopen
  have hckptv : (openStep s id).ckpt = s.ckpt := hplaced.ckpt.trans hckpt
  obtain ⟨hseed, hseedOther, hfab, hckpt', hpkg'⟩ :=
    stepSeed_effect (s := openStep s id) (id := id) k (by rw [hckptv, hplay]) (by rw [hckptv, hrec])
  rw [hctx] at hseed
  constructor
  case opened =>
    rw [hseed]
    exact hopen.placed place parts lower _
  case seed =>
    rw [hseed]
    exact hopen.seedEntry
  case others => exact fun j hj => ((hseedOther j hj).trans (hplaced.others j hj)).trans (hother j hj)
  case lines =>
    intro l hl
    rw [hfab, hplaced.fab, hrlc, List.mem_filter] at hl
    simpa using hl.2
  case ckpt => exact hckpt'.trans hckptv
  case opNext => rw [hpkg', hplaced.opNext, hpkg]
  case switchTo => rw [hpkg', hplaced.switchTo, hpkg]

/-- The effects of a plain step point: the step opens with its seed, and the workers move on. -/
theorem stepEffects_plain {s : State} {id : Nat} (k salt ns : Nat) (hcap : capturePoint s (getC s id) k = false) :
    stepEffects s id k salt ns =
      let w := stepSeed (openStep { s with ckpt := { s.ckpt with pending := s.ckpt.pending.filter (· ≠ k) } } id) id k
      closeStep (fetchInputs (if replaying w id then replayBulk w id k else w) id) id := by
  unfold stepEffects
  simp only [hcap, Bool.false_eq_true, if_false]

theorem stepEffects_releases {s : State} {id : Nat} (h : PlainPoint s id) (salt ns : Nat) :
    Released s (stepEffects s id ((getC s id).step + 1) salt ns) id := by
  have hw := entered_stepSeed_openStep (id := id) (s := { s with ckpt := { s.ckpt with
    pending := s.ckpt.pending.filter (· ≠ (getC s id).step + 1) } }) ((getC s id).step + 1) h.noBulk h.noReplay h.noRecord
  rw [stepEffects_plain _ _ _ h.noCapture]
  generalize stepSeed (openStep _ id) id _ = w at hw
  have hopen : Opened (getC s id) (getC w id) := hw.opened
  have hresumed : (resumeAll (getC w id)).workers.all (fun p => decide (p.2.run = .ended)) = false := by
    have hruns := resumeAll_not_ended h.there h.alive h.goesOn
    simpa only [resumeAll, hopen.workers] using hruns
  have hreplay : replaying w id = false := by
    rw [replaying, hw.ckpt, h.noReplay, Bool.false_and]
  have hstreams : (modOf (getC w id)).streams = [] := by
    rw [modOf, hopen.mod]
    exact h.noStreams
  have hclose := closeStep_resumes (hw.opNext.trans h.noOp) (hw.switchTo.trans h.noSwitch) (hopen.haltStream.trans h.noHalt) hresumed
  simp only [hreplay, Bool.false_eq_true, if_false, fetchInputs_none hstreams, hclose]
  constructor
  case others => exact fun j hj => (getC_setC_ne _ _ _ _ hj).trans (hw.others j hj)
  case lines => exact hw.lines
  case workers =>
    intro i
    rw [getC_setC_self, getW_resumeAll, getW, hopen.workers, ← getW]
  all_goals rw [getC_setC_self, resumeAll]
  case step => exact hopen.step
  case inputs => exact hopen.inputs
  case modState => exact hopen.modState
  case vmem => exact hopen.vmem
  case seed => exact hw.seed

/-- A plain step point with no digest and no replica declaration goes straight to its effects. -/
theorem execStepPointRelease_plain {s : State} {id : Nat} (hid : runningId s = some id) (h : PlainPoint s id) (hslice : sliceHolds s = false)
    (hdigest : erd (getC s id) 0x900300 = 0) (hrepl : (getC s id).replDecl = []) (salt ns : Nat) :
    exec (.stepPointRelease salt ns) s = .next (stepEffects s id ((getC s id).step + 1) salt ns) := by
  have hat : allAtStep (getC s id) = true := (allAtStep_iff _).mpr h.there
  have hended : someEnded (getC s id) = false := by
    rw [someEnded, List.any_eq_false]
    exact fun p hp => by simp [h.alive p hp]
  have hbulk : bulkWaits (getC s id) = none := by
    rw [bulkWaits, h.noBulk]
    rfl
  have hd : stepDigest s id ((getC s id).step + 1) = s := by
    unfold stepDigest
    simp only [hdigest, true_or, if_true]
  have hr : replCheck s (getC s id) = (s, .keep) := by rw [replCheck, if_pos hrepl]
  change execStepPointRelease salt ns s = _
  unfold execStepPointRelease
  simp only [hid, h.running, hat, hslice, hended, h.noCapture, hbulk, hd, hr, Bool.and_self, Bool.not_true, Bool.or_self, Bool.false_eq_true,
    Bool.false_and, if_false]

/-- Settles O30: the release is its effects alone, and these open the step, set its seed and move the workers on. -/
theorem stepPointsReleaseEveryWorker : Obligations.StepPointsReleaseEveryWorker := by
  unfold Obligations.StepPointsReleaseEveryWorker
  intro s id salt ns hid c hrun hat halive hslice hcap hdigest hplay hrec hrepl hhalt hswitch hop hstreams hbulk hgoes
  have hplain : PlainPoint s id := ⟨hrun, hat, halive, hgoes, hcap, hplay, hrec, hhalt, hswitch, hop, hstreams, hbulk⟩
  have hrel := stepEffects_releases hplain salt ns
  have hstate : c.modState = .running := by
    rw [isRunning, Bool.and_eq_true, decide_eq_true_eq] at hrun
    exact hrun.2
  exact ⟨_, execStepPointRelease_plain hid hplain hslice hdigest hrepl salt ns, hrel.step, hrel.inputs, hrel.lines, hrel.modState.trans hstate,
    hrel.vmem, hrel.seed, fun i _ => hrel.workers i, hrel.others⟩

end Sys2Proof.StepProofs
end


section
/-! PROOFS. The Griddle's issue order: how an op joins it, what becomes of the op that stands first, and how the oldest one in flight completes
(R96, R102, R104). -/

namespace Sys2Proof.GriddleProofs

open Sys2Proof Sys2Proof.Machine Sys2Proof.Laws Sys2Proof.WorkerProofs

/-! ### Joining the issue order (R102) -/

/-- A Griddle op that is presented joins the end of the issue order, and the loader stages what it can. -/
theorem issue_queueOp {s : State} {id : Nat} {w : Cluster} (h : Ready s id w) (ext : Nat) (op : Worker → GOp) :
    let r := stage s (ctxAt s id w) w.val { workAt s id w with gq := (workAt s id w).gq ++ [⟨op (workAt s id w), none⟩] }
    (.next (issue s w.val ext (fun s _ c k => queueOp s c w.val k (op k))) : Out) = .next (ran r.1 id w ext r.2.1 r.2.2) :=
  issue_done h rfl

/-- GZERO of a format that a tile has joins. -/
theorem exec_gzero {fmt : Fmt} (w : Cluster) (d : TReg) (s : State) (h : fmt = .fp64 ∨ fmt = .fp32 ∨ fmt = .int32) :
    exec (.gzero w fmt d) s = .next (issue s w.val 0 (fun s _ c k => queueOp s c w.val k (.zero fmt d))) := by
  rcases h with rfl | rfl | rfl <;> rfl

/-- GMMA of two formats but INT32 joins. -/
theorem exec_gmma {fa fb : Fmt} (w : Cluster) (za : Bool) (d : TReg) (a b : VReg) (u : Fin 256) (s : State) (ha : fa ≠ .int32) (hb : fb ≠ .int32) :
    exec (.gmma w fa fb za d a b u) s =
      .next (issue s w.val 1 (fun s _ c k => queueOp s c w.val k (.mma fa fb za d (getV k a) (getV k b) (u.val + 1)))) :=
  if_neg (not_or.mpr ⟨ha, hb⟩)

/-! ### The op that stands first (R96, R102, R105) -/

section
variable {c : Context} {k : Worker} {g : GWait}

/-- An op without elements leaves the issue order, and nothing of it is in flight. -/
theorem issueFirst_nothing (s : State) (id cl : Nat) (rest : List GWait) (err : Bool) (h : griddleOp c k g = .nothing) :
    issueFirst s id cl c k g rest err = putStaged s id cl c (issued k rest none) := by
  rw [issueFirst, h]

/-- An op whose operands fail halts the worker. -/
theorem issueFirst_operand (s : State) (id cl : Nat) (rest : List GWait) (err : Bool) (h : griddleOp c k g = .operand) :
    issueFirst s id cl c k g rest err = haltWorker s id cl c k codeGriddleOperand 0x03 codeGriddleOperand 0 none := by
  rw [issueFirst, h]

variable {f : GFlight} {beats slots products : Nat}

/-- An op whose operands are all present flies, and its work is counted. -/
theorem issueFirst_flies (s : State) (id cl : Nat) (rest : List GWait) (h : griddleOp c k g = .flight f beats slots products)
    (hset : gopStages g.op = true → g.set.isSome = true) :
    issueFirst s id cl c k g rest false = putStaged s id cl
      (eincr (eincr (eincr c 0x502000 beats) 0x502001 slots) 0x502002 products) (issued k rest (some f)) := by
  have hpresent : ¬ (gopStages g.op && g.set.isNone) = true := by
    rw [Bool.and_eq_true, Option.isNone_iff_eq_none]
    rintro ⟨hstages, hnone⟩
    exact absurd (hset hstages) (by simp [hnone])
  simp only [issueFirst, h, Bool.false_eq_true, if_false, if_neg hpresent]

/-- An op that has operands still to be staged, with no error among them, stays first in the issue order. -/
theorem issueFirst_stays (s : State) (id cl : Nat) (rest : List GWait) (h : griddleOp c k g = .flight f beats slots products)
    (hstages : gopStages g.op = true) (hset : g.set = none) (htrouble : gopTrouble c cl k g.op = none) :
    issueFirst s id cl c k g rest false = setC s id (setW c cl k) := by
  simp [issueFirst, h, hstages, hset, htrouble]

end

/-- Where the Griddle may issue, GRIDDLE_ISSUE lets the loader stage what it can, counts the waits and issues the op that stands first. -/
theorem exec_griddleIssue {s : State} {id : Nat} {w : Cluster} (hid : runningId s = some id)
    (hmay : griddleMay s (getC s id) w.val (getW (getC s id) w.val) = true) {g : GWait} {rest : List GWait}
    (hq : (stage s (getC s id) w.val (getW (getC s id) w.val)).2.2.gq = g :: rest) (sw tw : Nat) (err : Bool) :
    let r := stage s (getC s id) w.val (getW (getC s id) w.val)
    exec (.griddleIssue w sw tw err) s = .next (issueFirst r.1 id w.val
      (eincr (eincr r.2.1 0x502003 (sw * acTicks s)) 0x502004 (tw * acTicks s)) r.2.2 g rest err) := by
  show execGriddleIssue w sw tw err s = _
  simp only [execGriddleIssue, hid, hmay, if_true, hq]

/-! ### Completion (R39, R104) -/

/-- The worker whose oldest op in flight has completed: its tile is written and its flags are merged. -/
theorem mergeAsw_setT_gf (k : Worker) (rest : List GFlight) (f : GFlight) :
    mergeAsw (setT { k with gf := rest } f.d f.tile) f.flags =
      { k with gf := rest, t := tset Tile.initial k.t f.d.val f.tile, asw := k.asw ||| f.flags } := rfl

/-- GRIDDLE_COMPLETE without an error completes the oldest op in flight, and the loader goes on. -/
theorem exec_griddleComplete {s : State} {id : Nat} {w : Cluster} (hid : runningId s = some id) {f : GFlight} {rest : List GFlight}
    (hf : (getW (getC s id) w.val).gf = f :: rest) :
    exec (.griddleComplete w false) s = .next (putStaged s id w.val (getC s id)
      { getW (getC s id) w.val with
        gf := rest
        t := tset Tile.initial (getW (getC s id) w.val).t f.d.val f.tile
        asw := (getW (getC s id) w.val).asw ||| f.flags }) := by
  show execGriddleComplete w false s = _
  simp only [execGriddleComplete, hid, hf, Bool.false_eq_true, if_false, mergeAsw_setT_gf]

/-- Settles O18: the three ops join by `issue_queueOp`; the op that stands first by the cases of `issueFirst`; the oldest in flight by
`exec_griddleComplete`. -/
theorem griddleOpsIssueAndCompleteInOrder : Obligations.GriddleOpsIssueAndCompleteInOrder := by
  refine ⟨fun s id w h => ⟨fun fmt d hfmt => ?_, fun fa fb za d a b u ha hb => ?_, fun d a => ?_⟩,
    fun s id w hid => ⟨fun g rest sw tw hmay hq => ?_, fun f rest hf => exec_griddleComplete hid hf⟩⟩
  · rw [exec_gzero w d s hfmt]
    exact issue_queueOp h 0 (fun _ => .zero fmt d)
  · rw [exec_gmma w za d a b u s ha hb]
    exact issue_queueOp h 1 (fun k => .mma fa fb za d (getV k a) (getV k b) (u.val + 1))
  · exact issue_queueOp h 0 (fun k => .ld d (getV k a))
  · have hexec := exec_griddleIssue hid hmay hq sw tw
    refine ⟨fun f beats slots products hop hset => ?_, fun hop err => ?_, fun hop err => ?_,
      fun f beats slots products hop hstages hset htrouble => ?_⟩
    · exact (hexec false).trans (congrArg _ (issueFirst_flies _ _ _ _ hop hset))
    · exact (hexec err).trans (congrArg _ (issueFirst_operand _ _ _ _ _ hop))
    · exact (hexec err).trans (congrArg _ (issueFirst_nothing _ _ _ _ _ hop))
    · exact (hexec false).trans (congrArg _ (issueFirst_stays _ _ _ _ hop hstages hset htrouble))

end Sys2Proof.GriddleProofs
end


section
/-! PROOFS. The Whisk: INT32 arithmetic, what one element computes, the walk over the elements, and ops that stopped or have
issued (R114 to R134). -/

namespace Sys2Proof.WhiskProofs

open Sys2Proof Sys2Proof.Machine Sys2Proof.Laws Sys2Proof.PackageProofs

/-! ### INT32 arithmetic (R121) -/

theorem intVal_int32 (a : BitVec 32) : intVal .int32 a.toNat = a.toInt := toSigned_toNat a

/-- A value of the INT32 range stays. -/
theorem satInt32_inside {v : Int} (hlo : -2 ^ 31 ≤ v) (hhi : v < 2 ^ 31) : satInt32 v = ((BitVec.ofInt 32 v).toNat, 0) := by
  rw [satInt32, if_neg (by omega), if_neg (by omega), BitVec.toNat_ofInt]
  rfl

theorem satInt32_above {v : Int} (h : 2 ^ 31 ≤ v) : satInt32 v = (0x7FFFFFFF, fAccSat) := if_pos (by omega)

theorem satInt32_below {v : Int} (h : v < -2 ^ 31) : satInt32 v = (0x80000000, fAccSat) := by
  rw [satInt32, if_neg (by omega), if_pos (by omega)]

/-- Of the flags, INT32 arithmetic raises ACC_SAT at most. -/
theorem satInt32_inexact (v : Int) : (satInt32 v).2 &&& fInexact = 0 := by
  unfold satInt32
  split
  · decide
  · split
    · decide
    · exact BitVec.zero_and

theorem binElem_int32 (rm : RM) (a b : BitVec 32) {p : BinOp × Int}
    (hp : p ∈ [(BinOp.add, a.toInt + b.toInt), (.sub, a.toInt - b.toInt), (.mul, a.toInt * b.toInt)]) :
    binElem .int32 p.1 rm a.toNat b.toNat = satInt32 p.2 := by
  rw [← intVal_int32 a, ← intVal_int32 b] at hp
  simp only [List.mem_cons, List.not_mem_nil, or_false] at hp
  rcases hp with rfl | rfl | rfl <;> rfl

/-- Settles O8: the three ops saturate their exact result. -/
theorem int32ArithmeticSaturates : Obligations.Int32ArithmeticSaturates := by
  intro rm a b p hp
  rw [binElem_int32 rm a b hp]
  exact ⟨fun h => satInt32_inside h.1 h.2, satInt32_above, satInt32_below, satInt32_inexact p.2⟩

/-! ### What is presented (R116, R122) -/

/-- The view in a slot that an op names, or the empty one. -/
def slotView (k : Worker) : Option VReg → View
  | some r => getV k r
  | none => View.empty

/-- A Whisk op that is presented and that nothing holds back walks to its end. -/
theorem whisk_free {s : State} {id : Nat} {w : Cluster} (h : Ready s id w) {kind : WKind} {opcode : Nat} {fmt : Fmt} {mk : Option MReg}
    (d a b : Option VReg) {dm : MReg} {ext : Nat}
    (hf : whiskFree s id w ⟨kind, opcode, fmt, mk, slotView (workAt s id w) d, slotView (workAt s id w) a, slotView (workAt s id w) b, dm, ext⟩)
    (hk : ∀ m r, kind ≠ .red m r) :
    whisk w kind opcode fmt mk d a b dm ext s =
      whiskRan s id w ⟨kind, opcode, fmt, mk, slotView (workAt s id w) d, slotView (workAt s id w) a, slotView (workAt s id w) b, dm, ext⟩ := by
  rw [whisk, issue_ready s id w _ _ h]
  exact whiskIssue_free s id w _ hk hf

/-- Settles O20: each op's form is accepted, and the op is presented with its views. -/
theorem whiskElementOpsComplete : Obligations.WhiskElementOpsComplete := by
  intro s id w h
  dsimp only
  have hruns {op : WOp} {x : State} (hx : x = whiskRan s id w op) : (.next x : Out) = .next (whiskRan s id w op) := congrArg _ hx
  exact ⟨fun fmt op m d a b hacc hf => (if_pos hacc).trans (hruns (whisk_free h (some d) (some a) (some b) hf nofun)),
    fun fmt m d a b hacc hf => (if_pos hacc).trans (hruns (whisk_free h (some d) (some a) (some b) hf nofun)),
    fun fmt op m d a hacc hf => (if_pos hacc).trans (hruns (whisk_free h (some d) (some a) none hf nofun)),
    fun fmt f m d a hfmt hf => (if_pos (decide_eq_true hfmt)).trans (hruns (whisk_free h (some d) (some a) none hf nofun)),
    fun fmt m d a hf => hruns (whisk_free h (some d) (some a) none hf nofun),
    fun fmt op m d a b hf => hruns (whisk_free h none (some a) (some b) hf nofun),
    fun fmt m x d a b hf => hruns (whisk_free h (some d) (some a) (some b) hf nofun),
    fun fmt f sc m d t hf => hruns (whisk_free h (some d) none none hf nofun),
    fun fmt m d a b hf => hruns (whisk_free h (some d) (some a) (some b) hf nofun),
    fun fmt m d a b hf => hruns (whisk_free h (some d) (some a) (some b) hf nofun)⟩

/-! ### One element (R114, R120, R129) -/

/-- An op whose element `i` takes its sources' elements `i` and writes v[D]'s element `i`. -/
def elementWise : WKind → Bool
  | .cmp _ | .gth | .sct => false
  | _ => true

section
variable {c : Context} {w : Cluster} {k : Worker} {op : WOp} {i : Nat}

/-- Sources that can all be read. -/
theorem readSrcs_fine {vs : List (View × Nat)} (h : ∀ v ∈ vs, srcFine c w.val k op v.1 i v.2) :
    readSrcs c w.val k op i vs = .ok (vs.map (fun v => readElem c w.val k v.1 i)) := by
  induction vs with
  | nil => rfl
  | cons v vs ih =>
    obtain ⟨hv, hvs⟩ := List.forall_mem_cons.mp h
    rw [readSrcs, readSrc_fine c w.val k op v.1 i v.2 hv, ih hvs]
    rfl

/-- An element whose sources can be read and whose place can be written takes the value that its op computes. -/
theorem elemStep_elementWise (hop : elementWise op.kind = true) (hsrc : ∀ v ∈ whiskSrcs op, srcFine c w.val k op v.1 i v.2)
    (hdest : destOpen c k (viewPlace c w.val op.d i)) {x : Nat × Flags}
    (hx : elemValue c w.val k op i ((whiskSrcs op).map (fun v => readElem c w.val k v.1 i)) = x) :
    elemStep c w.val k op i = .ok (.elem (viewPlace c w.val op.d i) x.1, x.2) := by
  have hok := (checkDest_open c k _).mpr hdest
  subst hx
  unfold elemStep
  split
  · next hk => rw [hk] at hop; cases hop
  · next hk => rw [hk] at hop; cases hop
  · next hk => rw [hk] at hop; cases hop
  · rw [readSrcs_fine hsrc]
    simp only [bind, Except.bind, hok]

/-- An index that can be read and lies in the view it addresses. -/
theorem readIndex_inside {v : View} {limit : Nat} (hsrc : srcFine c w.val k op v i 1) (hlo : 0 ≤ indexAt c w k v i)
    (hhi : indexAt c w k v i < limit) : readIndex c w.val k op v i limit = .ok (indexAt c w k v i).toNat := by
  rw [readIndex, readSrc_fine c w.val k op v i 1 hsrc]
  exact if_neg (not_or.mpr ⟨Int.not_lt.mpr hlo, Int.not_le.mpr hhi⟩)

/-- An index that can be read and lies outside stops the element. -/
theorem readIndex_outside {v : View} {limit : Nat} (hsrc : srcFine c w.val k op v i 1)
    (hout : indexAt c w k v i < 0 ∨ (limit : Int) ≤ indexAt c w k v i) :
    readIndex c w.val k op v i limit = .error ⟨0x01, 1, viewLevel c v, indexAt c w k v i, 0⟩ := by
  rw [readIndex, readSrc_fine c w.val k op v i 1 hsrc]
  exact if_pos hout

end

/-- Settles O21: the element-wise ops by the sources and the value of each; WCMP, WGTH and WSCT by their own steps. -/
theorem whiskElementsComputeTheirValue : Obligations.WhiskElementsComputeTheirValue := by
  intro c w k op i
  dsimp only
  refine ⟨fun o hk ha hb hd => ?_, fun hk ha hb hc hd => ?_, fun o hk ha hd => ?_, fun f hk ha hd => ?_, fun sf hk hsr hf ha hd => ?_,
    fun sf hk hsr hf ha hd => ?_, fun m hk ha hb hd => ?_, fun f sc t hk hd => ?_, fun o hk ha hb => ?_, fun hk hb hlo hhi ha hd => ?_,
    fun hk hb hlo hhi ha hd => ?_, fun hk hb hout => ?_⟩
  · exact elemStep_elementWise (by simp only [hk]; rfl) (by simp [whiskSrcs, hk, ha, hb]) hd (by simp [elemValue, whiskSrcs, hk])
  · exact elemStep_elementWise (by simp only [hk]; rfl) (by simp [whiskSrcs, hk, ha, hb, hc]) hd (by simp [elemValue, whiskSrcs, hk])
  · exact elemStep_elementWise (by simp only [hk]; rfl) (by simp [whiskSrcs, hk, ha]) hd (by simp [elemValue, whiskSrcs, hk])
  · exact elemStep_elementWise (by simp only [hk]; rfl) (by simp [whiskSrcs, hk, ha]) hd (by simp [elemValue, whiskSrcs, hk])
  · exact elemStep_elementWise (by simp only [hk]; rfl) (by simp [whiskSrcs, hk, ha]) hd (by simp [elemValue, whiskSrcs, hk, hsr, hf])
  · exact elemStep_elementWise (by simp only [hk]; rfl) (by simp [whiskSrcs, hk, ha]) hd (by simp [elemValue, whiskSrcs, hk, hsr, hf])
  · exact elemStep_elementWise (by simp only [hk]; rfl) (by simp [whiskSrcs, hk, ha, hb]) hd (by simp only [elemValue, whiskSrcs, hk]; rfl)
  · exact elemStep_elementWise (by simp only [hk]; rfl) (by simp [whiskSrcs, hk]) hd (by simp [elemValue, hk])
  · have hsrc : ∀ v ∈ whiskSrcs op, srcFine c w.val k op v.1 i v.2 := by simp [whiskSrcs, hk, ha, hb]
    simp only [elemStep, hk, readSrcs_fine hsrc]
    simp [whiskSrcs, hk, bind, Except.bind]
  · simp only [elemStep, hk, readIndex_inside hb hlo hhi, readSrc_fine c w.val k op _ _ 0 ha, (checkDest_open c k _).mpr hd, bind, Except.bind]
  · simp only [elemStep, hk, readIndex_inside hb hlo hhi, readSrc_fine c w.val k op _ _ 0 ha, (checkDest_open c k _).mpr hd, bind, Except.bind]
  · rcases hk with hk | hk
    · simp only [hk, if_true] at hout
      simp only [elemStep, hk, readIndex_outside hb hout, bind, Except.bind]
    · simp only [hk, reduceCtorEq, if_false] at hout
      simp only [elemStep, hk, readIndex_outside hb hout, bind, Except.bind]

/-! ### The walk (R116, R117, R130) -/

/-- Bit `i` alone, or no bit. -/
def bitAt (n i : Nat) (b : Bool) : BitVec n := if b then BitVec.twoPow n i else 0#n

theorem ofNat_bit (n i : Nat) (b : Bool) : BitVec.ofNat n (if b then 2 ^ i else 0) = bitAt n i b := by
  cases b
  · rfl
  · exact BitVec.eq_of_toNat_eq (by rw [if_pos rfl, bitAt, if_pos rfl, BitVec.toNat_ofNat, BitVec.toNat_twoPow])

section
variable {n : Nat} (x : BitVec n) (i : Nat)

theorem getLsbD_clear_add_bitAt (b : Bool) {j : Nat} (hj : j < n) :
    ((x &&& ~~~BitVec.twoPow n i) + bitAt n i b).getLsbD j = if j = i then b else x.getLsbD j := by
  have hdisjoint : (x &&& ~~~BitVec.twoPow n i) &&& bitAt n i b = 0#n := by
    cases b
    · simp [bitAt]
    · ext q hq; simp [bitAt]
  rw [BitVec.add_eq_or_of_and_eq_zero _ _ hdisjoint]
  by_cases hji : j = i
  · subst hji
    cases b <;> simp [bitAt, hj]
  · cases b <;> simp [bitAt, hji, hj]

theorem clear_add_bitAt_self : (x &&& ~~~BitVec.twoPow n i) + bitAt n i (x.getLsbD i) = x := by
  refine BitVec.eq_of_getLsbD_eq (fun j hj => ?_)
  rw [getLsbD_clear_add_bitAt x i _ hj]
  split
  · next h => rw [h]
  · rfl

/-- Bit `i` of a mask replaced by arithmetic, as the walk of a compare does. -/
theorem getLsbD_replaceBit (b : Bool) {j : Nat} (hj : j < n) :
    (BitVec.ofNat n (x.toNat - (if x.getLsbD i then 2 ^ i else 0) + (if b then 2 ^ i else 0))).getLsbD j =
      if j = i then b else x.getLsbD j := by
  have hle : (if x.getLsbD i then 2 ^ i else 0) ≤ x.toNat := by
    split
    · next h => exact Nat.ge_two_pow_of_testBit h
    · exact Nat.zero_le _
  rw [BitVec.ofNat_add, ← BitVec.ofNat_sub_ofNat_of_le _ _ (Nat.lt_of_le_of_lt hle x.isLt) hle, ofNat_bit, ofNat_bit, BitVec.ofNat_toNat,
    BitVec.setWidth_eq, sub_eq_of_eq_add (clear_add_bitAt_self x i).symm, getLsbD_clear_add_bitAt x i b hj]

end

/-- Settles O22: the walk's four branches; a compare's write replaces bit `i` of its mask. -/
theorem whiskWalksInRisingOrder : Obligations.WhiskWalksInRisingOrder := by
  intro w op i is r
  refine ⟨rfl, fun hm => ?_, fun e hm he => ?_, fun p x fl hm he => ?_,
    fun b fl hm he => ⟨(applyWrite op i r.c r.k (.mask b)).2, ?_, fun j hj => ?_, fun m hne => ?_, rfl⟩⟩
  · rw [whiskLoop, if_pos hm]
  · rw [whiskLoop, hm, he]; rfl
  · rw [whiskLoop, hm, he]; rfl
  · rw [whiskLoop, hm, he]; rfl
  · simp only [applyWrite, getM, setM, tget_tset_self]
    exact getLsbD_replaceBit _ i b hj
  · simp only [applyWrite, getM, setM]
    exact tget_tset_ne _ _ _ _ _ (fun e => hne (Fin.ext e))

/-! ### A stopped op goes on, an issued one completes (R131, R134) -/

/-- Settles O25: the branches of ELEM_RESUME and WHISK_COMPLETE. -/
theorem stoppedWhiskOpsResume : Obligations.StoppedWhiskOpsResume := by
  intro s id w hid
  dsimp only
  refine ⟨fun op ns hop hgoes hready => ?_, fun op ns hop hready => ?_, fun e es hwf => ?_⟩
  · show execElemResume w ns s = _
    simp only [execElemResume, hid, hop, hgoes, hready, Bool.and_true, if_true]
  · show execElemResume w ns s = _
    simp only [execElemResume, hid, hop, hready, Bool.and_false, Bool.false_eq_true, if_false]
  · show execWhiskComplete w s = _
    simp only [execWhiskComplete, hid, hwf, List.drop_one, List.tail_cons]

end Sys2Proof.WhiskProofs
end


section
/-! PROOFS. Moves: those that complete, and the context in which neither the frame of moves nor that of Whisk walks holds (R147, R453). -/

namespace Sys2Proof.MoveProofs

open Sys2Proof Sys2Proof.Machine Sys2Proof.Laws Sys2Proof.WorkerProofs

/-! ### What a move reads (R453) -/

/-- Where an element lies depends on the module and on what has spilled alone. -/
theorem viewPlace_congr {c d : Context} (hmod : d.mod = c.mod) (hlower : d.lower = c.lower) (cl : Nat) (v : View) (i : Nat) :
    viewPlace d cl v i = viewPlace c cl v i := by
  have hm : modOf d = modOf c := by rw [modOf, hmod, modOf]
  have hl (t : Nat) : lowerOf d t = lowerOf c t := by rw [lowerOf, hlower, lowerOf]
  simp only [viewPlace, tensorPlace, tensorOf, tensorLevel, tensorBase, l0Base, lodgeBase, spaceBefore, hm, hl]

/-- Accesses change no element. -/
theorem readElem_accessed {s t : State} {c d : Context} (h : Accessed s c t d) (cl : Nat) (k : Worker) (v : View) (i : Nat) :
    readElem d cl k v i = readElem c cl k v i := by
  simp only [readElem, viewPlace_congr h.mod h.lower, readPlace, placeMem, h.vmem]

/-! ### Index values (R453) -/

section
variable {c : Context} {w : Cluster} {k : Worker} {v : View} {n : Nat}

theorem getD_indexList {i : Nat} (hi : i < n) : (indexList c w.val k v n).getD i 0 = indexAt c w k v i := by
  simp [indexList, indexAt, hi]

variable {limit : Nat} (h : ∀ i, i < n → 0 ≤ indexAt c w k v i ∧ indexAt c w k v i < limit)
include h

/-- Where every index lies in the view it addresses, every element takes part. -/
theorem filter_indexList : (List.range n).filter (fun i =>
    decide (0 ≤ (indexList c w.val k v n).getD i 0 ∧ (indexList c w.val k v n).getD i 0 < limit)) = List.range n := by
  refine List.filter_eq_self.mpr (fun i hi => ?_)
  rw [getD_indexList (List.mem_range.mp hi)]
  exact decide_eq_true (h i (List.mem_range.mp hi))

/-- No index stops the move. -/
theorem badIndex_indexList : badIndex (indexList c w.val k v n) limit = none := by
  rw [badIndex, List.findIdx?_eq_none_iff]
  intro x hx
  obtain ⟨i, hi, rfl⟩ := List.mem_map.mp hx
  obtain ⟨hlo, hhi⟩ := h i (List.mem_range.mp hi)
  exact decide_eq_false (not_or.mpr ⟨Int.not_lt.mpr hlo, Int.not_le.mpr hhi⟩)

end

/-- What is made of the index list is made of its values. -/
theorem map_indexList {α : Type} (c : Context) (w : Cluster) (k : Worker) (v : View) (n : Nat) (f : Nat → Int → α) :
    (List.range n).map (fun i => f i ((indexList c w.val k v n).getD i 0)) = (List.range n).map (fun i => f i (indexAt c w k v i)) :=
  List.map_congr_left (fun i hi => by rw [getD_indexList (List.mem_range.mp hi)])

/-! ### Moves that complete (R147, R453) -/

section
variable {s : State} {id : Nat} {w : Cluster} {c : Context} {k : Worker} {lu : Bool} {srcs : List View} {vd : View} {t : Nat}

/-- A move that nothing holds back does not wait. -/
theorem moveWait_free (r : OpRes) (h : moveFree c w k lu srcs vd t) : moveWait s c w.val k lu srcs vd t r = r := by
  obtain ⟨hclash, hheld, hlife⟩ := h
  have hgoes : (destHeld c w.val vd (viewCount vd) || (lu && lifeHeld c w.val t)) = false := by
    cases lu
    · rw [hheld]; rfl
    · rw [hheld, hlife rfl]; rfl
  simp only [moveWait, hclash, hgoes, Bool.false_eq_true, if_false]

/-- What a move writes and ends after its accesses. -/
theorem applyRes_moveDone (fmt : Fmt) (ts : List Touched) (ws : List (Nat × Nat)) :
    applyRes id w.val 0 (moveDone (moveAccess s c w.val fmt ts).1 (moveAccess s c w.val fmt ts).2 w.val k lu vd t ws) =
      moved s id w c k fmt ts lu vd t ws := by
  unfold moveDone moved
  cases lu <;> rfl

end

/-- Settles O13: each op passes its checks and goes on to what it writes; for MOVS the accesses change nothing that it reads, MOVG and MOVSC
meet no bad index. -/
theorem movesComplete : Obligations.MovesComplete := by
  intro s id w h
  have hissue (f : State → Nat → Context → Worker → OpRes) := issue_ready s id w 0 f h
  generalize ctxAt s id w = c at hissue ⊢
  generalize workAt s id w = k at hissue ⊢
  refine ⟨fun fmt lu d a hn hfree ha hd hle htrouble => ?_, fun fmt lu d a b hn hfree ha hd hb hle hix htrouble => ?_,
    fun fmt lu d a b hn hfree ha hd hb hle hix htrouble => ?_, fun fmt d a hn hfree hd htrouble => ?_⟩
  · show execMovs w fmt lu d a s = _
    simp only [execMovs, hissue, if_neg hn, moveWait_free _ hfree, ha, hd, Bool.and_self, Bool.not_true, Bool.false_or, decide_eq_true_eq,
      if_neg (Nat.not_lt.mpr hle), moveGo_free _ _ _ htrouble, readElem_accessed (accessed_move _ _ _ _ _), applyRes_moveDone]
  · show execMovg w fmt lu d a b s = _
    have hread := map_indexList c w k (getV k b) (viewCount (getV k d)) (fun i x => (i, readElem c w.val k (getV k a) x.toNat))
    have htouch := map_indexList c w k (getV k b) (viewCount (getV k d)) (fun _ x => x.toNat)
    simp only [execMovg, hissue, if_neg hn, moveWait_free _ hfree, ha, hd, hb, Bool.and_self, Bool.not_true, Bool.false_or, decide_eq_true_eq,
      if_neg (Nat.not_lt.mpr hle), filter_indexList hix, badIndex_indexList hix, hread, htouch, moveGo_free _ _ _ htrouble, applyRes_moveDone]
  · show execMovsc w fmt lu d a b s = _
    have hwrite := map_indexList c w k (getV k b) (viewCount (getV k a)) (fun i x => (x.toNat, readElem c w.val k (getV k a) i))
    have htouch := map_indexList c w k (getV k b) (viewCount (getV k a)) (fun _ x => x.toNat)
    simp only [execMovsc, hissue, if_neg hn, moveWait_free _ hfree, ha, hd, hb, Bool.and_self, Bool.not_true, Bool.false_or, decide_eq_true_eq,
      if_neg (Nat.not_lt.mpr hle), filter_indexList hix, badIndex_indexList hix, hwrite, htouch, List.map_map, Function.comp_def,
      moveGo_free _ _ _ htrouble, applyRes_moveDone]
  · show execFill w fmt d a s = _
    simp only [execFill, hissue, if_neg hn, moveWait_free _ hfree, hd, Bool.not_true, Bool.false_eq_true, if_false, moveGo_free _ _ _ htrouble,
      applyRes_moveDone]

/-! ### A tensor that no module declares and that is listed as spilled -/

/-- No module, and yet tensor 0 is listed as spilled to L1: `viewLevel` gives its views level 1, `viewPlace` puts their elements at
byte 0 of the scratchpad. -/
def strayContext : Context := { Context.dead with lower := [(0, 1)] }

/-- A view of nine elements of tensor 0, more than a register group holds. -/
def strayView : View := ⟨0, 1, 9, 9, 1, 0⟩

theorem viewLevel_stray : viewLevel strayContext strayView ≠ 0 := by decide

/-- Refutes O15: in `strayContext` a write through a view of level 1 goes to the scratchpad, where the statement then says that every
byte stays. -/
theorem not_movesWriteOnlyTheirDestination : ¬ Obligations.MovesWriteOnlyTheirDestination := by
  intro h
  obtain ⟨hl0, -⟩ := h State.reset 0 0 strayContext Worker.initial .int8 [] false strayView 0 [(0, 1)] 0
  have hstays := hl0 (fun hl => absurd hl viewLevel_stray) (fun hended => Bool.false_ne_true hended.1)
  exact absurd hstays (by decide +kernel)

/-- Refutes O23: in `strayContext` the walk of a WUN sets the sign bit of the scratchpad's first byte, while v[D] is at level 1. -/
theorem not_whiskWritesOnlyItsDestination : ¬ Obligations.WhiskWritesOnlyItsDestination := by
  intro h
  obtain ⟨hl0, -⟩ := h 0 ⟨.un .neg, 0x0C3, .jf8m, none, strayView, strayView, View.empty, 0, 0⟩ [0]
    ⟨strayContext, Worker.initial, 0, 0, none⟩ 0
  exact absurd (hl0 (fun hl => absurd hl viewLevel_stray)) (by decide +kernel)

end Sys2Proof.MoveProofs
end

section
/-! PROOFS. The solver dies: what the operations on a target leave of the queues, the plant streams and the workers, then what becomes of a
submitted problem, and its stages (R172, R174, R186, R187). -/

namespace Sys2Proof.SolverProofs

open Sys2Proof Sys2Proof.Machine Sys2Proof.Laws Sys2Proof.PackageProofs Sys2Proof.WriteProofs

/-! ### Queues -/

/-- A queue read after one was replaced. -/
theorem getQ_setQ (s : State) (f g : Nat) (q : SolverQ) : getQ (setQ s f q) g = if g = f then q else getQ s g :=
  tget_tset SolverQ.empty s.solv.queues f g q

@[simp] theorem getQ_setQ_self (s : State) (f : Nat) (q : SolverQ) : getQ (setQ s f q) f = q := by simp [getQ_setQ]

theorem getQ_congr {s t : State} (h : t.solv.queues = s.solv.queues) (f : Nat) : getQ t f = getQ s f := by
  rw [getQ, getQ, h]

/-! ### Halves and the operating point -/

/-- A write of an entry changes the entries and their change counters alone. -/
theorem wr_spec (s : State) (k v : Nat) : ∃ e n, wr s k v = { s with ent := e, snap := n } := by
  unfold wr
  split <;> exact ⟨_, _, rfl⟩

/-- A change of the states of a target's halves is a number of such writes. -/
theorem setHalves_spec (s : State) (kind first v : Nat) : ∃ e n, setHalves s kind first v = { s with ent := e, snap := n } := by
  unfold setHalves
  induction targetHalves kind first generalizing s with
  | nil => exact ⟨_, _, rfl⟩
  | cons h hs ih =>
    have hstep : ∃ e n, (if halfState s h = 2 then s else wr s (0x601201 + h) v) = { s with ent := e, snap := n } := by
      split
      · exact ⟨_, _, rfl⟩
      · exact wr_spec s _ v
    obtain ⟨e, n, hstep⟩ := hstep
    obtain ⟨e', n', hrest⟩ := ih { s with ent := e, snap := n }
    exact ⟨e', n', by rw [List.foldl_cons, hstep, hrest]⟩

theorem settleOp_spec (s : State) : ∃ e n p, settleOp s = { s with ent := e, snap := n, pkg := p } := by
  have happly : ∃ e n p, applyOp s = { s with ent := e, snap := n, pkg := p } := by
    unfold applyOp
    split
    · next v _ =>
      split
      · obtain ⟨e, n, h⟩ := wr_spec { s with pkg := { s.pkg with opNext := none } } 0x200100 v
        obtain ⟨e', n', h'⟩ := wr_spec (wr { s with pkg := { s.pkg with opNext := none } } 0x200100 v) 0x200102 (opCap v)
        exact ⟨e', n', _, by rw [h', h]⟩
      · exact ⟨_, _, _, rfl⟩
    · exact ⟨_, _, _, rfl⟩
  unfold settleOp
  split
  · split
    · exact ⟨_, _, _, rfl⟩
    · exact happly
  · exact happly

theorem switchTargets_spec (s : State) : ∃ x, switchTargets s = { s with solv := { s.solv with clock := x } } := by
  unfold switchTargets
  split <;> exact ⟨_, rfl⟩

/-! ### What leaves the queues, the plant streams and the workers -/

/-- `t` comes from `s` by operations that leave every queue, every plant stream and every worker. -/
structure WorkKept (s t : State) : Prop where
  queues  : t.solv.queues = s.solv.queues
  plants  : t.plants = s.plants
  workers : ∀ id, (getC t id).workers = (getC s id).workers

theorem WorkKept.refl (s : State) : WorkKept s s := ⟨rfl, rfl, fun _ => rfl⟩

theorem WorkKept.trans {s t u : State} (h : WorkKept s t) (g : WorkKept t u) : WorkKept s u :=
  ⟨g.queues.trans h.queues, g.plants.trans h.plants, fun id => (g.workers id).trans (h.workers id)⟩

theorem WorkKept.getQ {s t : State} (h : WorkKept s t) (f : Nat) : getQ t f = getQ s f := getQ_congr h.queues f

theorem WorkKept.getW {s t : State} (h : WorkKept s t) (id cl : Nat) : getW (getC t id) cl = getW (getC s id) cl := by
  rw [Machine.getW, Machine.getW, h.workers]

theorem WorkKept.setQ {s t : State} (h : WorkKept s t) (f : Nat) (q : SolverQ) : WorkKept (setQ s f q) (setQ t f q) :=
  ⟨congrArg (fun qs => tset SolverQ.empty qs f q) h.queues, h.plants, h.workers⟩

theorem WorkKept.ite {s t u : State} {p : Prop} [Decidable p] (h : WorkKept s t) (g : WorkKept s u) : WorkKept s (if p then t else u) := by
  split <;> assumption

theorem workKept_modC {f : Context → Context} (hf : ∀ c, (f c).workers = c.workers) (s : State) (id : Nat) : WorkKept s (modC s id f) :=
  ⟨rfl, rfl, fun j => by
    by_cases hj : j = id
    · rw [modC, getC_setC, if_pos hj, hf, hj]
    · rw [modC, getC_setC_ne _ _ _ _ hj]⟩

theorem workKept_freeIdx (s : State) (n : Nat) : WorkKept s { s with freeIdx := n } := ⟨rfl, rfl, fun _ => rfl⟩

theorem workKept_setHalves (s : State) (kind first v : Nat) : WorkKept s (setHalves s kind first v) := by
  obtain ⟨e, n, h⟩ := setHalves_spec s kind first v
  rw [h]
  exact ⟨rfl, rfl, fun _ => rfl⟩

theorem workKept_stageWait (s : State) (ctx kind cycles bytes : Nat) : WorkKept s (stageWait s ctx kind cycles bytes) :=
  workKept_modC (fun c => eincr_workers c _ _) s ctx

theorem workKept_countProblem (s : State) (ctx status texec : Nat) : WorkKept s (countProblem s ctx status texec) :=
  workKept_modC (fun c => by dsimp only; split <;> simp) s ctx

theorem writeRange_workers (c : Context) (a : Nat) (bs : List Byte) : (writeRange c a bs).workers = c.workers := by
  have htouch (d : Context) (p n : Nat) : (touchPages d p n).workers = d.workers :=
    List.foldlRecOn (motive := fun e : Context => e.workers = d.workers) (List.range n) _ rfl (fun _ h _ _ => h)
  unfold writeRange
  split
  · rfl
  · exact htouch _ _ _

theorem workKept_streamWrite (s : State) (c : Context) (a n : Nat) : WorkKept s (streamWrite s c a n) :=
  List.foldlRecOn _ _ (motive := WorkKept s) (.refl s) (fun _ h _ _ => h.trans ⟨rfl, rfl, fun _ => rfl⟩)

theorem workKept_refWrite (s : State) (ctx kind first r : Nat) (bs : List Byte) : WorkKept s (refWrite s ctx kind first r bs) := by
  unfold refWrite
  refine .ite ⟨rfl, rfl, fun _ => rfl⟩ (.ite ?_ (.refl s))
  exact (workKept_streamWrite s _ _ _).trans (workKept_modC (fun c => writeRange_workers c _ bs) _ ctx)

/-! ### The next problem of a target (R174) -/

/-- The operating point that waits takes effect, where it may. -/
def settled (s : State) : State := settleOp (switchTargets s)

theorem settled_spec (s : State) : ∃ e n p x, settled s = { s with ent := e, snap := n, pkg := p, solv := { s.solv with clock := x } } := by
  obtain ⟨x, hx⟩ := switchTargets_spec s
  obtain ⟨e, n, p, h⟩ := settleOp_spec (switchTargets s)
  exact ⟨e, n, p, x, by rw [settled, h, hx]⟩

theorem workKept_settled (s : State) : WorkKept s (settled s) := by
  obtain ⟨e, n, p, x, h⟩ := settled_spec s
  rw [h]
  exact ⟨rfl, rfl, fun _ => rfl⟩

/-- A target starts no problem, or the one that waits first, which then may have met a fault (TARGET_OFFLINE). -/
theorem startNext_cases (s : State) (f : Nat) : startNext s f = settled s ∨ ∃ p p' rest, getQ s f = ⟨none, p :: rest⟩ ∧
    p'.desc = p.desc ∧ p'.by' = p.by' ∧ startNext s f = setHalves (setQ (settled s) f ⟨some (.stageIn, p'), rest⟩) p'.kind f 1 := by
  have hq : getQ (settled s) f = getQ s f := (workKept_settled s).getQ f
  unfold startNext
  dsimp only
  split
  · next p rest hrun hwait =>
    split
    · exact .inl rfl
    · refine .inr ⟨p, _, rest, ?_, ?_, ?_, rfl⟩
      · rw [← hq]
        exact congr (congrArg SolverQ.mk hrun) hwait
      · split <;> rfl
      · split <;> rfl
  · exact .inl rfl

theorem startNext_idle (s : State) (f : Nat) (h : (getQ s f).waiting = []) : startNext s f = settled s := by
  obtain h' | ⟨p, p', rest, hq, -⟩ := startNext_cases s f
  · exact h'
  · simp [hq] at h

theorem startNext_rest (s : State) (f : Nat) : (startNext s f).ctxs = s.ctxs ∧ (startNext s f).eth = s.eth := by
  obtain ⟨e, n, p, x, hs⟩ := settled_spec s
  obtain h | ⟨p, p', rest, -, -, -, h⟩ := startNext_cases s f
  · rw [h, hs]
    exact ⟨rfl, rfl⟩
  · obtain ⟨e', n', hh⟩ := setHalves_spec (setQ (settled s) f ⟨some (.stageIn, p'), rest⟩) p'.kind f 1
    rw [h, hh, hs]
    exact ⟨rfl, rfl⟩

/-- A problem joins its target's queue. -/
def enqueued (s : State) (f : Nat) (p : Problem) : State := setQ s f { getQ s f with waiting := (getQ s f).waiting ++ [p] }

theorem mem_enqueued (s : State) (f : Nat) (p : Problem) : p ∈ (getQ (enqueued s f p) f).waiting := by simp [enqueued]

/-- A problem that waits at a target still does so once the target may have started its next problem, or is the one that starts. -/
theorem startNext_waiting {s : State} {f : Nat} {p : Problem} (h : p ∈ (getQ s f).waiting) : ∃ p', p'.desc = p.desc ∧ p'.by' = p.by' ∧
    (p' ∈ (getQ (startNext s f) f).waiting ∨ (getQ (startNext s f) f).running = some (.stageIn, p')) := by
  obtain hs | ⟨q, q', rest, hq, hdesc, hby, hs⟩ := startNext_cases s f
  · exact ⟨p, rfl, rfl, .inl (by rwa [hs, (workKept_settled s).getQ])⟩
  · have hget : getQ (startNext s f) f = ⟨some (.stageIn, q'), rest⟩ := by rw [hs, (workKept_setHalves _ _ _ _).getQ, getQ_setQ_self]
    rw [hq] at h
    obtain rfl | hrest := List.mem_cons.mp h
    · exact ⟨q', hdesc, hby, .inr (by rw [hget])⟩
    · exact ⟨p, rfl, rfl, .inl (by rwa [hget])⟩

/-! ### SOLVE (O27) -/

/-- The number of a worker's next ticket (log entry 46). -/
def ticketNum (k : Worker) : Nat := (Config.ticketBase + k.nextTicket) % 2 ^ 64

/-- The worker with its next ticket, whose problem stands at `st`. -/
def ticketed (k : Worker) (st : Option (BitVec 32)) : Worker :=
  { k with nextTicket := k.nextTicket + 1, tickets := k.tickets ++ [⟨ticketNum k, st⟩] }

section
variable {s : State} {c : Context} {b : Binding} {d : Desc} {x : Shape}

theorem submit_accepted (id cl : Nat) (k : Worker) (hx : acceptDesc s c b.kind (bindFirst b) d = .ok x)
    (hpath : pathOk s b.kind (bindFirst b) d ((BitVec.ofNat 64 (modOf c).features).getLsbD 10) = true) :
    ∃ p, p.desc = d ∧ p.by' = .ticket id cl (ticketNum k) ∧ submit s id cl c k b d =
      (startNext (enqueued s (bindFirst b) p) (bindFirst b), c, ticketed k none) := by
  unfold submit
  simp only [hx, hpath, Bool.not_true, Bool.false_eq_true, if_false]
  refine ⟨_, ?_, ?_, rfl⟩ <;> split <;> rfl

/-- A path that may not run completes the ticket with PATH_DISABLED and leaves the queues; so does, with its own code, a descriptor that its
checks refuse. -/
theorem submit_refused_path (id cl : Nat) (k : Worker) (hx : acceptDesc s c b.kind (bindFirst b) d = .ok x)
    (hpath : pathOk s b.kind (bindFirst b) d ((BitVec.ofNat 64 (modOf c).features).getLsbD 10) = false) :
    (submit s id cl c k b d).2.2 = ticketed k (some 0x12) ∧ (submit s id cl c k b d).1.solv.queues = s.solv.queues := by
  unfold submit
  simp only [hx, hpath, Bool.not_false, if_true]
  exact ⟨rfl, (workKept_refWrite _ _ _ _ _ _).queues⟩

theorem submit_refused_desc {code : Nat} (id cl : Nat) (k : Worker) (hx : acceptDesc s c b.kind (bindFirst b) d = .error code) :
    (submit s id cl c k b d).2.2 = ticketed k (some (BitVec.ofNat 32 code)) ∧ (submit s id cl c k b d).1.solv.queues = s.solv.queues := by
  unfold submit
  simp only [hx]
  split
  · exact ⟨rfl, rfl⟩
  · exact ⟨rfl, (workKept_refWrite _ _ _ _ _ _).queues⟩

end

/-- Settles O27: an accepted problem joins its target's queue, from where the target may start it; a refusal touches no queue. -/
theorem solveAcceptsOrCompletesItsTicket : Obligations.SolveAcceptsOrCompletesItsTicket := by
  intro s id cl c k b d
  refine ⟨fun x hx hpath => ?_, fun x hx hpath => ?_, fun code hx => ?_⟩
  · obtain ⟨p, hdesc, hby, hsub⟩ := submit_accepted id cl k hx hpath
    rw [hsub]
    obtain ⟨hctxs, heth⟩ := startNext_rest (enqueued s (bindFirst b) p) (bindFirst b)
    obtain ⟨p', hdesc', hby', hp'⟩ := startNext_waiting (mem_enqueued s (bindFirst b) p)
    exact ⟨rfl, rfl, hctxs, heth, p', hdesc'.trans hdesc, hby'.trans hby, hp'⟩
  · obtain ⟨hk, hqueues⟩ := submit_refused_path id cl k hx hpath
    exact ⟨by rw [hk]; rfl, hqueues⟩
  · obtain ⟨hk, hqueues⟩ := submit_refused_desc id cl k hx
    exact ⟨by rw [hk]; rfl, hqueues⟩

/-! ### Stage-in (R187, Table 7.6) -/

theorem exec_solverStageInDone (h : Half) (cycles : Nat) (fault : Bool) (s : State) :
    exec (.solverStageInDone h cycles fault) s = execSolverStageInDone h cycles fault s := rfl

/-- The counters of a stage-in are nothing that a method reads. -/
theorem solveRun_stageWait (s : State) (ctx k cycles bytes : Nat) (c : Context) (kind first : Nat) (d : Desc) (x : Shape) :
    solveRun (stageWait s ctx k cycles bytes) c kind first d x = solveRun s c kind first d x := by
  have hread : refRead (stageWait s ctx k cycles bytes) = refRead s := rfl
  simp only [solveRun, hread]

theorem stageBad_stageWait (s : State) (ctx k cycles bytes : Nat) (c : Context) (d : Desc) (x : Shape) (fault : Bool) :
    stageBad (stageWait s ctx k cycles bytes) c d x fault = stageBad s c d x fault := rfl

section
variable {s : State} {h : Half} {p : Problem} {x : Shape} {cycles : Nat} {fault : Bool} {rest : List Problem}
  (hq : getQ s h.val = ⟨some (.stageIn, p), rest⟩) (hok : p.fail = none) (hx : acceptDesc s (getC s p.ctx) p.kind h.val p.desc = .ok x)
include hq hok hx

theorem stageInDone_bad {off : Nat} (hbad : stageBad s (getC s p.ctx) p.desc x fault = some off) :
    ∃ t p', exec (.solverStageInDone h cycles fault) s = .next t ∧ getQ t h.val = ⟨some (.writeBack, p'), rest⟩ ∧ p'.status = 0x20 ∧
      p'.sol = p.sol ∧ p'.by' = p.by' := by
  simp only [exec_solverStageInDone, execSolverStageInDone, hq, hx, hok, stageBad_stageWait, hbad, Option.isSome_none, Bool.false_eq_true,
    if_false]
  exact ⟨_, _, rfl, getQ_setQ_self _ _ _, rfl, rfl, rfl⟩

theorem stageInDone_good (hgood : stageBad s (getC s p.ctx) p.desc x fault = none) :
    ∃ t p', exec (.solverStageInDone h cycles fault) s = .next t ∧ getQ t h.val = ⟨some (.execute, p'), rest⟩ ∧ p'.fail = none ∧
      p'.by' = p.by' ∧ p'.status = BitVec.ofNat 32 (solveRun s (getC s p.ctx) p.kind h.val p.desc x).status ∧
      p'.sol = (solveRun s (getC s p.ctx) p.kind h.val p.desc x).sol := by
  simp only [exec_solverStageInDone, execSolverStageInDone, hq, hx, hok, stageBad_stageWait, hgood, solveRun_stageWait, Option.isSome_none,
    Bool.false_eq_true, if_false]
  exact ⟨_, _, rfl, getQ_setQ_self _ _ _, rfl, rfl, rfl, rfl⟩

end

/-- A command that reports an error finds a place for it wherever anything is staged: in a range known to be bad, else at a free place. -/
theorem stageBad_of_fault {s : State} {c : Context} {d : Desc} {x : Shape} (h : ∃ r ∈ stagedRefs d x, 0 < r.2) :
    ∃ off, stageBad s c d x true = some off := by
  obtain ⟨r, hr, hpos⟩ := h
  have hlen : 0 < (((stagedRefs d x).map (fun t => (tensorBase c 0 (refTensor (dRef d t.1)) + refOff (dRef d t.1), t.2))).filter
      (fun r => decide (0 < r.2))).length :=
    List.length_pos_of_mem (List.mem_filter.mpr ⟨List.mem_map_of_mem hr, decide_eq_true hpos⟩)
  unfold stageBad
  dsimp only
  generalize List.filter _ (List.map _ (stagedRefs d x)) = rs at hlen ⊢
  split
  · next q hq =>
    have hbad : rangeBad c q.1 q.2 = true := by simpa using List.find?_some hq
    have hfound : (c.gBad.find? (fun g => decide (g * 32 < q.1 + q.2 ∧ q.1 < g * 32 + 32))).isSome = true :=
      List.find?_isSome.mpr (List.any_eq_true.mp hbad)
    obtain ⟨g, hg⟩ := Option.isSome_iff_exists.mp hfound
    exact ⟨g * 32, by rw [hg]; rfl⟩
  · have hin (n : Nat) : n % max 1 rs.length < rs.length := by rw [Nat.max_eq_right hlen]; exact Nat.mod_lt n hlen
    exact ⟨_, by rw [if_pos rfl, List.getElem?_eq_getElem (hin _)]; rfl⟩

/-! ### The end of T_exec (R186) -/

theorem exec_solverExecEnd (h : Half) (s : State) : exec (.solverExecEnd h) s = execSolverExecEnd h s := rfl

section
variable {s : State} {h : Half} {p : Problem} {rest : List Problem} (hplant : (getQ s (plantQ h.val)).running = none)
  (hq : getQ s h.val = ⟨some (.execute, p), rest⟩)
include hplant hq

theorem execEnd_ok (hok : p.fail = none) : exec (.solverExecEnd h) s = .next (setQ s h.val ⟨some (.writeBack, p), rest⟩) := by
  simp only [exec_solverExecEnd, execSolverExecEnd, hplant, hq, hok]

theorem execEnd_fault {code : Nat} (hfail : p.fail = some code) : ∃ t p', exec (.solverExecEnd h) s = .next t ∧
    getQ t h.val = ⟨some (.writeBack, p'), rest⟩ ∧ p'.status = BitVec.ofNat 32 code ∧ p'.sol = [] ∧ p'.warm = [] := by
  simp only [exec_solverExecEnd, execSolverExecEnd, hplant, hq, hfail]
  exact ⟨_, _, rfl, getQ_setQ_self _ _ _, rfl, rfl, rfl⟩

end

/-! ### The outputs of a problem (Table 7.6) -/

/-- A problem's outputs and, unless its descriptor was refused, its record are written. -/
def outputsWritten (s : State) (p : Problem) (kind h : Nat) (record : List Byte) : State :=
  let t := refWrite (refWrite s p.ctx kind h (dRef p.desc 0x70) p.sol) p.ctx kind h (dRef p.desc 0xA8) p.warm
  if p.status.toNat = 0x10 then t else refWrite t p.ctx kind h (dRef p.desc 0xB0) record

theorem workKept_outputsWritten (s : State) (p : Problem) (kind h : Nat) (record : List Byte) :
    WorkKept s (outputsWritten s p kind h record) :=
  have hout := (workKept_refWrite s _ _ _ _ _).trans (workKept_refWrite _ _ _ _ _ _)
  .ite hout (hout.trans (workKept_refWrite _ _ _ _ _ _))

/-! ### The end of a plant slot's problem (R199) -/

/-- A stream whose problem runs takes the problem's status. -/
theorem plantStatus_running {s : State} {n : Nat} (st : BitVec 32) (h : (tget Plant.off s.plants n).run = .running) :
    plantStatus s (.plant n) st =
      { s with plants := tset Plant.off s.plants n { tget Plant.off s.plants n with run := .done st } } := by
  simp only [plantStatus, h, if_true]

/-- A plant slot's problem that met no fault frees its half's queue, leaves all other work and hands its stream the status. -/
theorem plantEnd_ok (s : State) (h : Nat) {p : Problem} (hok : p.fail = none) : ∃ u, WorkKept (setQ s (plantQ h) SolverQ.empty) u ∧
    plantEnd s h p = plantStatus u p.by' p.status := by
  simp only [plantEnd, hok, Option.isSome_none, Option.getD_none, Bool.false_eq_true, if_false, BitVec.ofNat_toNat, BitVec.setWidth_eq]
  have hwritten (n : Nat) := (workKept_outputsWritten s p 0 h p.record).trans (workKept_freeIdx _ n)
  exact ⟨_, (((hwritten _).setQ _ _).trans (workKept_setHalves _ _ _ _)).trans (workKept_countProblem _ _ _ _), rfl⟩

theorem execEnd_plant {s : State} {h : Half} {p : Problem} {n : Nat} (hq : (getQ s (plantQ h.val)).running = some (.execute, p))
    (hby : p.by' = .plant n) (hok : p.fail = none) (hrun : (tget Plant.off s.plants n).run = .running) :
    ∃ t, exec (.solverExecEnd h) s = .next t ∧ getQ t (plantQ h.val) = SolverQ.empty ∧ (tget Plant.off t.plants n).run = .done p.status := by
  obtain ⟨u, hu, hend⟩ := plantEnd_ok s h.val hok
  have hplants : u.plants = s.plants := hu.plants
  have hexec : exec (.solverExecEnd h) s = .next (plantEnd s h.val p) := by simp only [exec_solverExecEnd, execSolverExecEnd, hq]
  refine ⟨_, hexec, ?_⟩
  rw [hend, hby, plantStatus_running _ (by rwa [hplants])]
  exact ⟨(hu.getQ _).trans (getQ_setQ_self _ _ _), by simp⟩

/-! ### The write-back (Table 7.6) -/

theorem exec_solverWritebackDone (h : Half) (cycles : Nat) (s : State) :
    exec (.solverWritebackDone h cycles) s = execSolverWritebackDone h cycles s := rfl

/-- The ticket of a problem, alone among its worker's, gets the problem's status. -/
theorem finishTicket_tickets {p : Problem} {id cl num : Nat} (hby : p.by' = .ticket id cl num) (s : State) :
    (getW (getC (finishTicket s p p.status.toNat) id) cl).tickets = (getW (getC s id) cl).tickets.map
      (fun y => if y.num = num then { y with status := some p.status } else y) := by
  simp only [finishTicket, hby, modC, getC_setC_self, getW_setW_self, BitVec.ofNat_toNat, BitVec.setWidth_eq]

theorem finishTicket_solv (s : State) (p : Problem) (status : Nat) : (finishTicket s p status).solv = s.solv := by
  unfold finishTicket
  split <;> rfl

/-- The problem that ran alone on a target has ended: its target is idle, its ticket has its status. -/
def problemEnded (s : State) (h : Half) (p : Problem) : State :=
  finishTicket (setHalves (setQ s h.val SolverQ.empty) p.kind h.val 0) p p.status.toNat

theorem getQ_problemEnded (s : State) (h : Half) (p : Problem) : getQ (problemEnded s h p) h.val = SolverQ.empty := by
  rw [problemEnded, getQ_congr (congrArg SolvState.queues (finishTicket_solv _ _ _)), (workKept_setHalves _ _ _ _).getQ, getQ_setQ_self]

theorem problemEnded_tickets {p : Problem} {id cl num : Nat} (hby : p.by' = .ticket id cl num) (s : State) (h : Half) :
    (getW (getC (problemEnded s h p) id) cl).tickets = (getW (getC s id) cl).tickets.map
      (fun y => if y.num = num then { y with status := some p.status } else y) := by
  rw [problemEnded, finishTicket_tickets hby, (workKept_setHalves _ _ _ _).getW]
  rfl

/-- A write-back that meets no page whose writes wait leaves all work; then its problem has ended, and nothing waits to start. -/
theorem writebackDone_free {s : State} {h : Half} {p : Problem} (cycles : Nat) (hq : getQ s h.val = ⟨some (.writeBack, p), []⟩)
    (hfree : ∀ g ∈ rangesPages (writeRanges (getC s p.ctx) p), pageWaits (getC s p.ctx) g = false) :
    ∃ u, WorkKept s u ∧ exec (.solverWritebackDone h cycles) s = .next (settled (problemEnded u h p)) := by
  have hany : (rangesPages (writeRanges (getC s p.ctx) p)).any (pageWaits (getC s p.ctx)) = false := by
    rw [List.any_eq_false]
    exact fun g hg => by simp [hfree g hg]
  have hnext (u : State) : startNext (problemEnded u h p) h.val = settled (problemEnded u h p) :=
    startNext_idle _ _ (by rw [getQ_problemEnded]; rfl)
  simp only [exec_solverWritebackDone, execSolverWritebackDone, hq, hany, Bool.false_eq_true, if_false]
  exact ⟨_, ((workKept_outputsWritten s p _ _ _).trans (workKept_stageWait _ _ _ _ _)).trans (workKept_countProblem _ _ _ _),
    congrArg Host.Outcome.next (hnext _)⟩

theorem writebackDone_ticket {s : State} {h : Half} {p : Problem} {id cl num : Nat} (cycles : Nat)
    (hq : getQ s h.val = ⟨some (.writeBack, p), []⟩) (hby : p.by' = .ticket id cl num)
    (hfree : ∀ g ∈ rangesPages (writeRanges (getC s p.ctx) p), pageWaits (getC s p.ctx) g = false) :
    ∃ t, exec (.solverWritebackDone h cycles) s = .next t ∧ getQ t h.val = SolverQ.empty ∧
      (getW (getC t id) cl).tickets = (getW (getC s id) cl).tickets.map (fun y => if y.num = num then { y with status := some p.status } else y) := by
  obtain ⟨u, hu, hexec⟩ := writebackDone_free cycles hq hfree
  have hsettled := workKept_settled (problemEnded u h p)
  exact ⟨_, hexec, by rw [hsettled.getQ, getQ_problemEnded], by rw [hsettled.getW, problemEnded_tickets hby, hu.getW]⟩

/-! ### A fault of a half (R186) -/

theorem halfState_type : ∀ h : Half, (entryOf (0x601201 + h.val)).map (·.type) = some .u8 := by decide +kernel

/-- A fault of a half sets its state; of the rest it changes problems in the queues alone. -/
theorem faultHalf_spec (s : State) (h code : Nat) : ∃ v, faultHalf s h code = { wr s (0x601201 + h) 2 with solv := v } := by
  unfold faultHalf
  refine List.foldlRecOn (motive := fun t => ∃ v, t = { wr s (0x601201 + h) 2 with solv := v }) _ _ ⟨(wr s (0x601201 + h) 2).solv, rfl⟩ ?_
  rintro _ ⟨v, rfl⟩ _ _
  exact ⟨_, rfl⟩

theorem faultHalf_ctxs (s : State) (h code : Nat) : (faultHalf s h code).ctxs = s.ctxs := by
  obtain ⟨v, hv⟩ := faultHalf_spec s h code
  simp [hv]

theorem rd_faultHalf (s : State) (h code k : Nat) : rd (faultHalf s h code) k = rd (wr s (0x601201 + h) 2) k := by
  obtain ⟨v, hv⟩ := faultHalf_spec s h code
  rw [hv]
  rfl

/-- A faulted half is OFFLINE. -/
theorem rd_faultHalf_self (s : State) (h : Half) (code : Nat) : rd (faultHalf s h.val code) (0x601201 + h.val) = 2 := by
  rw [rd_faultHalf, rd_wr_fits s (halfState_type h) (by decide)]

theorem rd_faultHalf_ne (s : State) {h k : Nat} (code : Nat) (hk : k ≠ 0x601201 + h) : rd (faultHalf s h code) k = rd s k := by
  rw [rd_faultHalf, rd_wr_ne _ _ hk]

theorem solverFault_half (s : State) (h : Half) : ∃ t, exec (.solverFault h false) s = .next t ∧ rd t (0x601201 + h.val) = 2 ∧
    t.ctxs = s.ctxs ∧ ∀ g, g < 4 → g ≠ h.val → rd t (0x601201 + g) = rd s (0x601201 + g) := by
  refine ⟨_, rfl, ?_, ?_, fun g hg hne => ?_⟩
  · rw [rd_raiseEvent _ _ _ _ _ (by omega)]
    exact rd_faultHalf_self s h 0x21
  · rw [raiseEvent_ctxs]
    exact faultHalf_ctxs s h.val 0x21
  · rw [rd_raiseEvent _ _ _ _ _ (by omega)]
    exact rd_faultHalf_ne s 0x21 (by omega)

theorem solverFault_assembler (s : State) (h : Half) : ∃ t, exec (.solverFault h true) s = .next t ∧
    rd t (0x601201 + 2 * (h.val / 2)) = 2 ∧ rd t (0x601202 + 2 * (h.val / 2)) = 2 ∧ t.ctxs = s.ctxs := by
  have hlow : 2 * (h.val / 2) < 4 := by omega
  have hhigh : 2 * (h.val / 2) + 1 < 4 := by omega
  have hkey : 0x601202 + 2 * (h.val / 2) = 0x601201 + (2 * (h.val / 2) + 1) := by omega
  refine ⟨_, rfl, ?_, ?_, ?_⟩
  · rw [rd_raiseEvent _ _ _ _ _ (by omega)]
    exact (rd_faultHalf_ne _ 0x22 (by omega)).trans (rd_faultHalf_self s ⟨_, hlow⟩ 0x22)
  · rw [rd_raiseEvent _ _ _ _ _ (by omega), hkey]
    exact rd_faultHalf_self _ ⟨_, hhigh⟩ 0x22
  · rw [raiseEvent_ctxs]
    exact (faultHalf_ctxs _ _ 0x22).trans (faultHalf_ctxs s _ 0x22)

/-! ### The stages of a problem (O50) -/

/-- Settles O50, stage by stage: stage-in with and without a bad read, the end of T_exec on the half and in a plant slot, the write-back,
the faults. -/
theorem solverProblemsRunTheirStages : Obligations.SolverProblemsRunTheirStages := by
  intro s h
  refine ⟨fun p x cycles fault rest hq hok hx => ⟨fun off hbad => ?_, fun hgood => ?_, stageBad_of_fault⟩,
    fun p rest hplant hq => ⟨fun hok => ?_, fun code hfail => ?_⟩, fun p n hq hby hok hrun => ?_, fun p id cl num cycles hq hby hfree => ?_,
    solverFault_half s h, solverFault_assembler s h⟩
  · exact stageInDone_bad hq hok hx hbad
  · exact stageInDone_good hq hok hx hgood
  · exact execEnd_ok hplant hq hok
  · exact execEnd_fault hplant hq hfail
  · exact execEnd_plant hq hby hok hrun
  · exact writebackDone_ticket cycles hq hby hfree

end Sys2Proof.SolverProofs
end


section
/-! PROOFS. Plant-timed streams: what the operations of the port, the log and the inputs leave of the streams, then each command, event and
measurement (R194 to R203). -/

namespace Sys2Proof.PlantProofs

open Sys2Proof Sys2Proof.Machine Sys2Proof.Laws Sys2Proof.PackageProofs Sys2Proof.WriteProofs Sys2Proof.SolverProofs

/-! ### What leaves the plant streams alone -/

theorem foldl_plants {α : Type} {f : State → α → State} (hf : ∀ u a, (f u a).plants = u.plants) (l : List α) (s : State) :
    (l.foldl f s).plants = s.plants :=
  List.foldlRecOn (motive := fun t : State => t.plants = s.plants) l f rfl (fun t ht a _ => (hf t a).trans ht)

theorem ite_plants {p : Prop} [Decidable p] {s t u : State} (ht : t.plants = s.plants) (hu : u.plants = s.plants) :
    (if p then t else u).plants = s.plants := by
  split <;> assumption

@[simp] theorem setStream_plants (s : State) (mgmt : Bool) (id : Nat) (e : Stream) : (setStream s mgmt id e).plants = s.plants := by
  cases mgmt <;> rfl

@[simp] theorem sendVia_plants (s : State) (mgmt : Bool) (id op : Nat) (bs : List Byte) (r : Option (Nat × Nat)) :
    (sendVia s mgmt id op bs r).1.plants = s.plants := setStream_plants s mgmt id _

@[simp] theorem complete_plants (s : State) (mgmt : Bool) (id : Nat) (h : DgHdr) (status detail : Nat) (extra : List Byte) :
    (complete s mgmt id h status detail extra).plants = s.plants := by
  unfold complete
  simp

@[simp] theorem cutSegment_plants (s : State) : (cutSegment s).plants = s.plants := ite_plants rfl rfl

@[simp] theorem appendRec_plants (s : State) (type step key ts : Nat) (data : List Byte) :
    (appendRec s type step key ts data).1.plants = s.plants := by
  unfold appendRec
  dsimp only
  repeat' split
  all_goals simp

@[simp] theorem recordEnded_plants (s : State) (b : BusyCmd) (status : Nat) : (recordEnded s b status).plants = s.plants :=
  ite_plants (appendRec_plants _ _ _ _ _ _) rfl

@[simp] theorem flushStream_plants (s : State) (mgmt : Bool) (id status detail : Nat) (keep : Bool) :
    (flushStream s mgmt id status detail keep).plants = s.plants := by
  have hheld (u : State) (c : HeldCmd) : (completeHeld u c status detail).plants = u.plants :=
    (complete_plants _ _ _ _ _ _ _).trans (ite_plants (setStream_plants _ _ _ _) rfl)
  exact (foldl_plants hheld _ _).trans (foldl_plants (fun u b => (recordEnded_plants _ b _).trans (complete_plants u _ _ _ _ _ _)) _ _)

@[simp] theorem haltCtx_plants (s : State) (id code : Nat) (stream : Option Nat) : (haltCtx s id code stream).plants = s.plants :=
  ite_plants (foldl_plants (fun u _ => ite_plants rfl (by simp [sendNotice, sendDg])) _ _) rfl

@[simp] theorem raiseEvent_plants (s : State) (die : Nat) (r : FaultRec) (ev : Option UnitEvent) (j : Bool) :
    (raiseEvent s die r ev j).plants = s.plants := ite_plants rfl (incr_plants _ _ _)

@[simp] theorem logInput_plants (s : State) (id type step key ts : Nat) (data : List Byte) :
    (logInput s id type step key ts data).plants = s.plants :=
  ite_plants (ite_plants (by simp) (appendRec_plants _ _ _ _ _ _)) rfl

@[simp] theorem takeInput_plants (s : State) (id decl tensor : Nat) (bs : List Byte) : (takeInput s id decl tensor bs).plants = s.plants :=
  (workKept_streamWrite s _ _ _).plants

@[simp] theorem holdPage_plants (s : State) (id p : Nat) : (holdPage s id p).plants = s.plants := ite_plants rfl rfl

theorem inputOrHold_plants (s : State) (id tensor : Nat) (bs : List Byte) {go : State → State} (hgo : (go s).plants = s.plants) :
    (inputOrHold s id tensor bs go).plants = s.plants :=
  ite_plants (foldl_plants (fun u p => ite_plants (holdPage_plants u id p) rfl) _ _) hgo

@[simp] theorem dropReplay_plants (s : State) (type key : Nat) : (dropReplay s type key).plants = s.plants := by
  unfold dropReplay
  split <;> rfl

@[simp] theorem fetchInput_plants (s : State) (id i : Nat) : (fetchInput s id i).plants = s.plants := by
  unfold fetchInput
  dsimp only
  split
  · rfl
  next d _ =>
    refine ite_plants rfl (ite_plants ?command (ite_plants ?plant rfl))
    case command =>
      split
      · rfl
      · exact inputOrHold_plants s id d.tensor _ (takeInput_plants s id i d.tensor _)
    case plant =>
      split
      · rfl
      · refine ite_plants (inputOrHold_plants s id d.tensor _ ?_) rfl
        simp only [logInput_plants, takeInput_plants]
        exact ite_plants (dropReplay_plants s _ _) rfl

@[simp] theorem fetchInputs_plants (s : State) (id : Nat) : (fetchInputs s id).plants = s.plants :=
  foldl_plants (fun u i => fetchInput_plants u id i) _ s

@[simp] theorem putParam_plants (s : State) (n : Nat) (d : Desc) (xs : List (BitVec 64)) : (putParam s n d xs).plants = s.plants :=
  ite_plants rfl rfl

/-! ### A stream's internals, its state and its entry -/

/-- The type of an entry of a run of sub-indices, from the run's row alone. -/
theorem type_of_run {lo hi k : Nat} {ty : EType}
    (hrow : (entries.find? (fun e => decide (e.lo ≤ hi ∧ lo ≤ e.hi))).map (fun e => (e.lo, e.hi, e.type)) = some (lo, hi, ty))
    (hlo : lo ≤ k) (hhi : k ≤ hi) : (entryOf k).map (·.type) = some ty := by
  obtain ⟨e, hfind, he⟩ := Option.map_eq_some_iff.mp hrow
  obtain ⟨rfl, rfl, rfl⟩ : e.lo = lo ∧ e.hi = hi ∧ e.type = ty := by simpa using he
  obtain ⟨-, before, after, hsplit, hbefore⟩ := List.find?_eq_some_iff_append.mp hfind
  have hentry : entryOf k = some e := List.find?_eq_some_iff_append.mpr
    ⟨decide_eq_true ⟨hlo, hhi⟩, before, after, hsplit, fun x hx => by have := hbefore x hx; simp at this ⊢; omega⟩
  rw [hentry]
  rfl

theorem psState_type (n : PlantNo) : (entryOf (0xC01E00 + n.val)).map (·.type) = some .u8 :=
  type_of_run (lo := 0xC01E00) (hi := 0xC01EFF) (by decide +kernel) (by omega) (by omega)

theorem psTxLate_type (n : PlantNo) : (entryOf (0xC02500 + n.val)).map (·.type) = some .u64 :=
  type_of_run (lo := 0xC02500) (hi := 0xC025FF) (by decide +kernel) (by omega) (by omega)

theorem ptpState_type : (entryOf 0xC00100).map (·.type) = some .u8 := by decide +kernel

theorem getP_setP (s : State) (n m : Nat) (p : Plant) : getP (setP s n p) m = if m = n then p else getP s m :=
  tget_tset Plant.off s.plants n m p

@[simp] theorem getP_setP_self (s : State) (n : Nat) (p : Plant) : getP (setP s n p) n = p := by simp [getP_setP]

theorem getP_congr {s t : State} (h : t.plants = s.plants) (n : Nat) : getP t n = getP s n := by rw [getP, getP, h]

@[simp] theorem getP_wr (s : State) (k v n : Nat) : getP (wr s k v) n = getP s n := getP_congr (wr_plants s k v) n

@[simp] theorem psState_setP (s : State) (n m : Nat) (p : Plant) : psState (setP s n p) m = psState s m := rfl

@[simp] theorem replaying_setP (s : State) (n id : Nat) (p : Plant) : replaying (setP s n p) id = replaying s id := rfl

theorem psState_wr_self (s : State) (n : PlantNo) {v : Nat} (hv : v < 256) : psState (wr s (0xC01E00 + n.val) v) n.val = v :=
  rd_wr_fits s (psState_type n) hv

@[simp] theorem getStream_setStream_self (s : State) (id : Nat) (e : Stream) : getStream (setStream s false id e) false id = e :=
  tget_tset_self Stream.free s.eth.streams id e

@[simp] theorem getStream_wr (s : State) (k v : Nat) (mgmt : Bool) (id : Nat) : getStream (wr s k v) mgmt id = getStream s mgmt id := by
  simp [getStream]

@[simp] theorem getStream_setP (s : State) (n : Nat) (p : Plant) (mgmt : Bool) (id : Nat) : getStream (setP s n p) mgmt id = getStream s mgmt id := rfl

theorem psState_psOff (s : State) (n : PlantNo) : psState (psOff s n.val) n.val = 0 := psState_wr_self _ n (by decide)

/-- A datagram that is built still leaves once its stream is OFF. -/
theorem psOff_tx (s : State) (n : Nat) : (psOff s n).eth.tx = s.eth.tx := by
  rw [psOff, wr_eth]
  rfl

/-! ### PS_CTRL (R194, R202) -/

theorem armBad_ne_zero {s : State} {n code : Nat} (h : armBad s n = some code) : code ≠ 0 := by
  rintro rfl
  simp only [armBad] at h
  repeat' split at h
  all_goals simp at h

/-- The stream's entry opens with the next generation; the times that the stream runs by stay. -/
theorem openPlant_ok {s : State} {n : Nat} (hgen : (getStream s false (plantStream n)).gen < 0xFFFF) : ∃ u, openPlant s n = some u ∧
    (getStream u false (plantStream n)).state = 1 ∧
    (getStream u false (plantStream n)).gen = (getStream s false (plantStream n)).gen + 1 ∧ firstPeriod u n = firstPeriod s n := by
  refine ⟨_, if_neg (by omega), ?_, ?_, ?_⟩
  · rw [getStream_wr, getStream_setStream_self]
  · rw [getStream_wr, getStream_setStream_self]
  · rw [firstPeriod, psEpoch, psPeriod, wr_ptpNs, rd_wr_ne _ _ (by omega), rd_wr_ne _ _ (by omega)]
    rfl

/-- The internals of a stream that ARM leaves, once its entry is open. -/
def armedPlant (u : State) (n : Nat) (d : Desc) (x : Shape) : Plant :=
  let vals := residentWords u (psHalf u n) (refOff (dRef d 0x98)) (psChannels u n)
  { Plant.off with
    period := firstPeriod u n, desc := d, texec := texec d 0 x, fp := fingerprint d x,
    values := (List.range vals.length).foldl (fun t i => tset 0 t i (vals.getD i 0)) [],
    base := trajectory u n d, param := (getP u n).param, lastPayload := (getP u n).lastPayload, queued := (getP u n).queued }

theorem psArm_eq {s u : State} {n : Nat} {d : Desc} {x : Shape} (hoff : psState s n = 0) (hbad : armBad s n = none)
    (hd : plantDescAt s n = some d) (hx : plantDesc s n d = some x) (hslot : slotBad s n (texec d 0 x) = none)
    (hu : openPlant s n = some u) : psArm s n = .ok (wr (setP u n (armedPlant u n d x)) (0xC01E00 + n) 1) := by
  have hshape : ((plantDescAt s n).bind fun d => (plantDesc s n d).map fun x => (d, x)) = some (d, x) := by
    rw [hd, Option.bind_some, hx, Option.map_some]
  rw [psArm, if_neg (not_not_intro hoff), hbad]
  simp only [hshape, hslot, hu]
  rfl

theorem psArm_ok {s : State} {n : PlantNo} {d : Desc} {x : Shape} (hoff : psState s n.val = 0) (hbad : armBad s n.val = none)
    (hd : plantDescAt s n.val = some d) (hx : plantDesc s n.val d = some x) (hslot : slotBad s n.val (texec d 0 x) = none)
    (hgen : (getStream s false (plantStream n.val)).gen < 0xFFFF) : ∃ t, psArm s n.val = .ok t ∧ psState t n.val = 1 ∧
      (getStream t false (plantStream n.val)).state = 1 ∧ (getP t n.val).desc = d ∧
      (getStream t false (plantStream n.val)).gen = (getStream s false (plantStream n.val)).gen + 1 ∧
      (getP t n.val).period = firstPeriod s n.val := by
  obtain ⟨u, hu, hstate, hnext, hperiod⟩ := openPlant_ok hgen
  refine ⟨_, psArm_eq hoff hbad hd hx hslot hu, psState_wr_self _ n (by decide), ?_, ?_, ?_, ?_⟩
  · rwa [getStream_wr, getStream_setP]
  · rw [getP_wr, getP_setP_self, armedPlant]
  · rwa [getStream_wr, getStream_setP]
  · rwa [getP_wr, getP_setP_self, armedPlant]

section
variable (s : State) (r : Req) (n : PlantNo)

theorem psArm_takes {d : Desc} {x : Shape} (hoff : psState s n.val = 0) (hbad : armBad s n.val = none)
    (hd : plantDescAt s n.val = some d) (hx : plantDesc s n.val d = some x) (hslot : slotBad s n.val (texec d 0 x) = none)
    (hgen : (getStream s false (plantStream n.val)).gen < 0xFFFF) : let k := 0xC01D00 + n.val
    ∃ t, psState t n.val = 1 ∧ (getStream t false (plantStream n.val)).state = 1 ∧ (getP t n.val).desc = d ∧
      (getStream t false (plantStream n.val)).gen = (getStream s false (plantStream n.val)).gen + 1 ∧
      (getP t n.val).period = firstPeriod s n.val ∧ Takes (.psArm r n) s r k (natLe 1 1) t := by
  obtain ⟨t, ht, hstate, hopen, hdesc, hnext, hperiod⟩ := psArm_ok hoff hbad hd hx hslot hgen
  exact ⟨bumpSnap t _, hstate, hopen, hdesc, hnext, hperiod, takes_row rfl (congrArg (Except.map _) ht)⟩

theorem psArm_refuses {code : Nat} (hcode : code ≠ 0) (h : psArm s n.val = .error code) :
    Refuses (.psArm r n) s r (0xC01D00 + n.val) (natLe 1 1) code := refuses_row rfl hcode (congrArg (Except.map _) h)

theorem psStop_takes {t : State} (h : psStop s n.val = .ok t) :
    Takes (.psStop r n) s r (0xC01D00 + n.val) (natLe 1 3) (bumpSnap t (0xC01D00 + n.val)) := takes_row rfl (congrArg (Except.map _) h)

end

theorem psStop_off {s : State} {n : Nat} (h : psState s n = 0) : psStop s n = .error 0x0C06 := by simp only [psStop, h]

theorem psStop_armed {s : State} {n : Nat} (h : psState s n = 1) : psStop s n = .ok (psOff s n) := by simp only [psStop, h]

theorem psStop_later {s : State} {n : Nat} (h : 2 ≤ psState s n) : psStop s n = .ok (setP s n { getP s n with stop := true }) := by
  obtain ⟨k, hk⟩ := Nat.exists_eq_add_of_le' h
  simp only [psStop, hk]

/-! ### A period starts -/

/-- A stream at the start of its period, before STOP or RESUME takes effect. -/
def periodOpened (p : Plant) : Plant :=
  { p with period := if p.serving then p.period + 1 else p.period, serving := true, window := true, samples := [], missing := false, run := .notRun }

theorem exec_plantPeriodStart (n : PlantNo) (s : State) (h : psState s n.val ≠ 0) : exec (.plantPeriodStart n) s = .next (
    let p := getP s n.val
    let q := periodOpened p
    if psState s n.val = 1 then wr (setP s n.val q) (0xC01E00 + n.val) 2
    else if p.stop then setP s n.val { q with stop := false, stopping := true, window := false }
    else if p.resume && decide (psState s n.val = 3) then
      wr (setP s n.val { q with resume := false, fallbacks := 0, stale := [], enter := 0 }) (0xC01E00 + n.val) 2
    else setP s n.val { q with resume := false }) := by
  show execPlantPeriodStart n s = _
  simp only [execPlantPeriodStart, if_neg h]
  rfl

theorem plantPeriodStart_armed {s : State} {n : PlantNo} (h : psState s n.val = 1) (hnew : (getP s n.val).serving = false) :
    ∃ t, exec (.plantPeriodStart n) s = .next t ∧ psState t n.val = 2 ∧ (getP t n.val).period = (getP s n.val).period ∧
      (getP t n.val).window = true ∧ (getP t n.val).serving = true ∧ (getP t n.val).run = .notRun := by
  refine ⟨_, exec_plantPeriodStart n s (by omega), ?_⟩
  simp only [h, if_true, getP_wr, getP_setP_self]
  exact ⟨psState_wr_self _ n (by decide), by simp [periodOpened, hnew], rfl, rfl, rfl⟩

theorem plantPeriodStart_serving {s : State} {n : PlantNo} (h : 2 ≤ psState s n.val) (hserving : (getP s n.val).serving = true) :
    ∃ t, exec (.plantPeriodStart n) s = .next t ∧
      (getP t n.val).period = (getP s n.val).period + 1 ∧ (getP t n.val).run = .notRun ∧ (getP t n.val).samples = [] ∧
      (getP t n.val).window = !(getP s n.val).stop ∧
      psState t n.val = (if (getP s n.val).stop = false ∧ (getP s n.val).resume = true ∧ psState s n.val = 3 then 2 else psState s n.val) := by
  have hperiod : (periodOpened (getP s n.val)).period = (getP s n.val).period + 1 := by simp [periodOpened, hserving]
  refine ⟨_, exec_plantPeriodStart n s (by omega), ?_⟩
  simp only [if_neg (show psState s n.val ≠ 1 by omega)]
  cases hstop : (getP s n.val).stop with
  | true =>
    simp only [if_true, getP_setP_self, psState_setP]
    exact ⟨hperiod, rfl, rfl, rfl, by simp⟩
  | false =>
    by_cases hresume : (getP s n.val).resume = true ∧ psState s n.val = 3
    · simp only [hresume, Bool.false_eq_true, if_false, decide_true, Bool.and_self, if_true, getP_wr, getP_setP_self, and_self]
      exact ⟨hperiod, rfl, rfl, rfl, psState_wr_self _ n (by decide)⟩
    · have hkept : ¬((getP s n.val).resume && decide (psState s n.val = 3)) = true := by simpa using hresume
      simp only [Bool.false_eq_true, if_false, if_neg hkept, getP_setP_self, psState_setP]
      exact ⟨hperiod, rfl, rfl, rfl, by simp [hresume]⟩

/-! ### The window closes (R198) -/

/-- The internals of stream `n` once its window is latched, outside a replay. -/
def windowLatched (s : State) (n : Nat) : Plant :=
  let p := getP s n
  { p with window := false, values := latchValues p, stale := latchStale p (psChannels s n), samples := [], closed := some p.period,
           missing := (latchStale p (psChannels s n)).any (fun x => decide (rd s (0xC01A00 + n) < x.2)), param := none }

/-- The parameter block of the period, where one waits, takes effect and is logged (R201). -/
def paramTaken (s : State) (n : Nat) (u : State) : State :=
  match paramAt s n (getP s n).period with
  | none => u
  | some xs => logInput (putParam u n (getP s n).desc xs) (psCtx s n) 0x05 (getC u (psCtx s n)).step n 0
      (natLe 8 (getP s n).period ++ wordBytes xs)

theorem paramTaken_plants (s : State) (n : Nat) (u : State) : (paramTaken s n u).plants = u.plants := by
  unfold paramTaken
  split
  · rfl
  · rw [logInput_plants, putParam_plants]

/-- The latched values stand in the MEAS range. -/
def windowWritten (s : State) (n : Nat) : State :=
  let u := paramTaken s n (setP s n (windowLatched s n))
  residentWrite u 0 (psHalf u n) (refOff (dRef (getP s n).desc 0x98))
    (wordBytes ((List.range (psChannels s n)).map (fun i => tget 0 (latchValues (getP s n)) i)))

theorem getP_windowWritten (s : State) (n : Nat) : getP (windowWritten s n) n = windowLatched s n :=
  (getP_congr (paramTaken_plants s n (setP s n (windowLatched s n))) n).trans (getP_setP_self s n _)

/-- The module that runs takes the inputs that have come. -/
def inputsTaken (s : State) : State :=
  match runningId s with
  | some r => if isRunning (getC s r) then fetchInputs s r else s
  | none => s

theorem inputsTaken_plants (s : State) : (inputsTaken s).plants = s.plants := by
  unfold inputsTaken
  split
  · exact ite_plants (fetchInputs_plants s _) rfl
  · rfl

theorem plantWinClose_latches {s : State} {n : PlantNo} (hw : (getP s n.val).window = true) (hr : replaying s (psCtx s n.val) = false) :
    ∃ t, exec (.plantWinClose n) s = .next t ∧ getP t n.val = windowLatched s n.val := by
  have hexec : exec (.plantWinClose n) s = .next (inputsTaken (windowWritten s n.val)) := by
    show execPlantWinClose n s = _
    simp only [execPlantWinClose, hw, hr, Bool.false_eq_true, if_true, if_false]
    rfl
  exact ⟨_, hexec, (getP_congr (inputsTaken_plants _) n.val).trans (getP_windowWritten s n.val)⟩

/-! ### The slot (R199) -/

theorem setHalves_ctxs (s : State) (kind first v : Nat) : (setHalves s kind first v).ctxs = s.ctxs := by
  obtain ⟨e, m, h⟩ := setHalves_spec s kind first v
  rw [h]

/-- A slot's problem is its stream's and runs the latched descriptor, whatever fault it will end with. -/
theorem slotProblem_by (s : State) (n : Nat) (p : Plant) : (slotProblem s n p).by' = .plant n ∧ (slotProblem s n p).desc = p.desc := by
  unfold slotProblem
  dsimp only
  split
  · exact ⟨rfl, rfl⟩
  · split
    · exact ⟨rfl, rfl⟩
    · split
      · exact ⟨rfl, rfl⟩
      · split <;> exact ⟨rfl, rfl⟩

theorem plantSlot_starts {s : State} {n : PlantNo} (hst : 2 ≤ psState s n.val) (hserving : (getP s n.val).serving = true)
    (hstop : (getP s n.val).stopping = false) (hmiss : (getP s n.val).missing = false)
    (hidle : (getQ s (plantQ (psHalf s n.val))).running = none) : ∃ t p, exec (.plantSlot n) s = .next t ∧
      getQ t (plantQ (psHalf s n.val)) = ⟨some (.execute, p), []⟩ ∧ p.by' = .plant n.val ∧ p.desc = (getP s n.val).desc ∧
      (getP t n.val).run = .running ∧ t.ctxs = s.ctxs := by
  obtain ⟨hby, hdesc⟩ := slotProblem_by s n.val (getP s n.val)
  have hexec : exec (.plantSlot n) s = execPlantSlot n s := rfl
  rw [execPlantSlot, if_pos ⟨hst, hserving, hstop, hmiss, hidle⟩] at hexec
  refine ⟨_, _, hexec, ?_, hby, hdesc, ?_, ?_⟩
  · rw [(workKept_setHalves _ _ _ _).getQ]
    exact getQ_setQ_self s _ _
  · rw [getP_congr (workKept_setHalves _ _ _ _).plants, getP_setP_self]
  · exact setHalves_ctxs _ _ _ _

/-! ### Fields of a payload -/

theorem length_natLe (n v : Nat) : (natLe n v).length = n := by
  induction n generalizing v with
  | zero => rfl
  | succ n ih => rw [natLe, List.length_cons, ih]

theorem leNat_natLe (n v : Nat) : leNat (natLe n v) = v % 256 ^ n := by
  induction n generalizing v with
  | zero => simp [natLe, leNat, Nat.mod_one]
  | succ n ih =>
    have hsplit : v % 256 ^ (n + 1) = v % 2 ^ 8 + 256 * (v / 256 % 256 ^ n) := by rw [pow_succ', Nat.mod_mul]; rfl
    rw [natLe, leNat, ih, BitVec.toNat_ofNat, hsplit]

theorem field_first (n v : Nat) (bs : List Byte) : field (natLe n v ++ bs) 0 n = v % 256 ^ n := by
  rw [field, List.drop_zero, List.take_left' (length_natLe n v), leNat_natLe]

theorem field_skip {m off : Nat} (v n : Nat) (bs : List Byte) (h : m ≤ off) : field (natLe m v ++ bs) off n = field bs (off - m) n := by
  rw [field, List.drop_append, List.drop_eq_nil_of_le (by rwa [length_natLe]), length_natLe, List.nil_append, field]

section
variable (s : State) (n : Nat) (p : Plant) (kind reason shift : Nat) (traj : List (BitVec 64))

theorem field_answerBytes_period : field (answerBytes s n p kind reason shift traj) 0 8 = p.period % 2 ^ 64 := by
  simp only [answerBytes, List.append_assoc, field_first]
  rfl

theorem field_answerBytes_kind : field (answerBytes s n p kind reason shift traj) 16 1 = kind % 256 := by
  simp [answerBytes, field_skip, field_first]

theorem field_answerBytes_reason : field (answerBytes s n p kind reason shift traj) 17 1 = reason % 256 := by
  simp [answerBytes, field_skip, field_first]

end

/-! ### The deadline (R199, R202) -/

/-- The payload of the period's datagram. -/
def periodAnswer (s : State) (n : Nat) : List Byte :=
  let r := plantChoice s n (getP s n)
  answerBytes s n (getP s n) r.1 r.2.1 r.2.2.1 r.2.2.2.1

theorem field_periodAnswer_kind (s : State) (n : Nat) :
    field (periodAnswer s n) 16 1 = (plantChoice s n (getP s n)).1 % 256 := field_answerBytes_kind s n _ _ _ _ _

theorem field_periodAnswer_reason (s : State) (n : Nat) :
    field (periodAnswer s n) 17 1 = (plantChoice s n (getP s n)).2.1 % 256 := field_answerBytes_reason s n _ _ _ _ _

/-- The datagram that carries a payload of stream `n`. -/
def plantDg (s : State) (n : Nat) (bs : List Byte) : TxDg :=
  let e := getStream s false (plantStream n)
  ⟨1, false, e.ctx, plantStream n, e.txNext, e.gen, sealKey s false e.ctx (plantStream n), 0x8200, bs, none⟩

/-- The last datagram of a stopped stream is a HOLD for STOPPED, and the stream goes OFF (Table 8.2). -/
theorem plantChoice_stopping {p : Plant} (s : State) (n : Nat) (h : p.stopping = true) :
    (plantChoice s n p).1 = 2 ∧ (plantChoice s n p).2.1 = 5 ∧ (plantChoice s n p).2.2.2.2.2 = 0 := by
  simp only [plantChoice, h, if_true, and_self]

/-- A stream in RUN whose problem was solved answers and stays in RUN (Table 8.2). -/
theorem plantChoice_solved {s : State} {n : Nat} {p : Plant} {w : BitVec 32} (hstop : p.stopping = false) (hst : psState s n = 2)
    (hptp : rd s 0xC00100 ≠ 2) (hrun : p.run = .done w) (hw : w.toNat % 65536 = 0) :
    (plantChoice s n p).1 = 0 ∧ (plantChoice s n p).2.2.2.2.2 = 2 := by
  simp [plantChoice, hstop, hst, hptp, hrun, hw]

/-- The state that a deadline leaves is OFF, RUN or HOLD. -/
theorem plantChoice_state_lt (s : State) (n : Nat) (p : Plant) : (plantChoice s n p).2.2.2.2.2 < 256 := by
  simp only [plantChoice]
  repeat' split
  all_goals norm_num

theorem plantDeadline_sends {s : State} {n : PlantNo} (hst : 2 ≤ psState s n.val) (hserving : (getP s n.val).serving = true)
    (hr : replaying s (psCtx s n.val) = false) : ∃ t, exec (.plantDeadline n) s = .next t ∧
      t.eth.tx = s.eth.tx ++ [plantDg s n.val (periodAnswer s n.val)] ∧
      psState t n.val = (plantChoice s n.val (getP s n.val)).2.2.2.2.2 := by
  obtain ⟨v, hexec, htx⟩ : ∃ v, exec (.plantDeadline n) s = .next (
      let next := (plantChoice s n.val (getP s n.val)).2.2.2.2.2
      if next = 0 then psOff v n.val else wr v (0xC01E00 + n.val) next) ∧
      v.eth.tx = s.eth.tx ++ [plantDg s n.val (periodAnswer s n.val)] := by
    have hexec : exec (.plantDeadline n) s = execPlantDeadline n s := rfl
    simp only [execPlantDeadline, hst, hserving, and_self, if_true, replaying_setP, hr, Bool.false_eq_true, if_false] at hexec
    refine ⟨_, hexec, ?_⟩
    repeat' split
    all_goals simp only [incr_eth, modC_eth]; rfl
  by_cases hnext : (plantChoice s n.val (getP s n.val)).2.2.2.2.2 = 0
  · exact ⟨psOff v n.val, by rw [hexec]; simp only [hnext, if_true], by rw [psOff_tx, htx], by rw [psState_psOff, hnext]⟩
  · exact ⟨_, by rw [hexec]; simp only [hnext, if_false], by rw [wr_eth, htx], psState_wr_self v n (plantChoice_state_lt _ _ _)⟩

/-! ### A late datagram (R199) -/

/-- Whether a datagram is number `q` of plant stream `n`. -/
def isPlantDg (n q : Nat) (d : TxDg) : Bool := decide (d.queue = 1 ∧ d.stream = plantStream n ∧ d.seq = q)

/-- The stream holds no datagram in the queue. -/
def dequeued (s : State) (n : Nat) : State := setP s n { getP s n with queued := none }

theorem exec_psTxLate {s : State} {n : PlantNo} {q : Nat} (hq : (getP s n.val).queued = some q) : exec (.psTxLate n) s = .next (
    if s.eth.tx.any (isPlantDg n.val q) then
      incr { dequeued s n.val with eth := { s.eth with tx := s.eth.tx.filter (fun d => !isPlantDg n.val q d) } } (0xC02500 + n.val) 1
    else dequeued s n.val) := by
  show execPsTxLate n s = _
  simp only [execPsTxLate, hq]
  rfl

theorem any_isPlantDg {n q : Nat} {ds : List TxDg} :
    ds.any (isPlantDg n q) = true ↔ ∃ d ∈ ds, d.queue = 1 ∧ d.stream = plantStream n ∧ d.seq = q := by
  simp [isPlantDg]

theorem psTxLate_effect {s : State} {n : PlantNo} {q : Nat} (hq : (getP s n.val).queued = some q) : ∃ t, exec (.psTxLate n) s = .next t ∧
    (getP t n.val).queued = none ∧ t.eth.tx = s.eth.tx.filter (fun d => !isPlantDg n.val q d) ∧
    ((∃ d ∈ s.eth.tx, d.queue = 1 ∧ d.stream = plantStream n.val ∧ d.seq = q) →
      rd t (0xC02500 + n.val) = (rd s (0xC02500 + n.val) + 1) % 2 ^ 64) ∧
    ((∀ d ∈ s.eth.tx, ¬(d.queue = 1 ∧ d.stream = plantStream n.val ∧ d.seq = q)) → t.ent = s.ent) := by
  have hqueued : (getP (dequeued s n.val) n.val).queued = none := congrArg Plant.queued (getP_setP_self s n.val _)
  refine ⟨_, exec_psTxLate hq, ?_⟩
  by_cases hlate : s.eth.tx.any (isPlantDg n.val q) = true
  · rw [if_pos hlate]
    refine ⟨?_, by rw [incr_eth], fun _ => ?_, fun hnone => ?_⟩
    · rw [incr, getP_wr]
      exact hqueued
    · rw [incr, rd_wr, if_pos rfl, fitEntry_of_type (psTxLate_type n)]
      rfl
    · obtain ⟨d, hd, heq⟩ := any_isPlantDg.mp hlate
      exact absurd heq (hnone d hd)
  · rw [if_neg hlate]
    refine ⟨hqueued, (List.filter_eq_self.mpr fun d hd => ?_).symm, fun h => absurd (any_isPlantDg.mpr h) hlate, fun _ => rfl⟩
    simpa using fun h => hlate (List.any_eq_true.mpr ⟨d, hd, h⟩)

/-! ### Measurements (R197) -/

/-- A datagram of a tenant stream that goes on after checks 1 to 5 leaves its entry in the cache. -/
theorem arrive_passed {s : State} {h : DgHdr} (hgo : (arrive s h).2 = true) (hm : h.mgmt = false) : (arrive s h).1 = touchEntry s h.stream := by
  revert hgo
  simp only [arrive, hm, Bool.false_eq_true, if_false]
  split
  · exact fun hgo => nomatch hgo
  · split
    · exact fun hgo => nomatch hgo
    · split
      · exact fun hgo => nomatch hgo
      · split
        · exact fun hgo => nomatch hgo
        · exact fun _ => rfl

/-- The use of an entry changes the cache and the count of its misses. -/
theorem touchEntry_kept (s : State) (id : Nat) : (touchEntry s id).eth.streams = s.eth.streams ∧ (touchEntry s id).ckpt = s.ckpt ∧
    ∀ k, k ≠ 0x102300 → rd (touchEntry s id) k = rd s k := by
  unfold touchEntry
  dsimp only
  split
  · exact ⟨rfl, rfl, fun _ _ => rfl⟩
  · exact ⟨by rw [incr_eth], incr_ckpt s _ _, fun k hk => rd_wr_ne s _ hk⟩

section
variable {u : State} {n : Nat} {h : DgHdr} {ts count : Nat} {entries : List (Nat × BitVec 64)} {resv : Bool}
  (hplay : replaying u (psCtx u n) = false) (hrec : recording u (psCtx u n) = false)
include hplay hrec

theorem measure_outcome : let o := (measOutcome u n h ts count entries resv).1
    (o = 0 → Machine.measure u n h ts count entries resv =
      setP u n { getP u n with samples := entries.foldl (fun xs y => putSample xs ts h.seq y.1 y.2) (getP u n).samples }) ∧
    (o = 1 → Machine.measure u n h ts count entries resv = incr u (0xC02200 + n) 1) ∧
    (o = 2 → Machine.measure u n h ts count entries resv = incr u (0xC02300 + n) 1) ∧
    (o = 3 → Machine.measure u n h ts count entries resv = incr u (0xC02400 + n) 1) := by
  refine ⟨fun ho => ?_, fun ho => ?_, fun ho => ?_, fun ho => ?_⟩
  all_goals simp only [Machine.measure, logInput, hplay, hrec, ho, Bool.false_eq_true, if_false]

end

/-- Whether the log is replayed or recorded rests on the checkpoint state and one entry. -/
theorem logging_congr {s t : State} (hc : t.ckpt = s.ckpt) (hk : rd t 0x900101 = rd s 0x900101) (id : Nat) :
    replaying t id = replaying s id ∧ recording t id = recording s id := by
  unfold replaying recording replayCtx
  rw [hc, hk]
  exact ⟨rfl, rfl⟩

theorem exec_plantMeas_measures {s : State} {n : PlantNo} {h : DgHdr} {e : Stream} (hup : edUp s = true) (hgo : (arrive s h).2 = true)
    (hm : h.mgmt = false) (hkind : (getStream s false h.stream).kind = 2) (hid : h.stream = plantStream n.val) (hres : h.flagsRes = 0)
    (hseq : plantSeq (getStream s false h.stream) h.seq = some e) (ts : BitVec 64) (count : Nat) (entries : List (Nat × BitVec 64)) :
    exec (.plantMeas h ts count entries false) s =
      .next (Machine.measure (setStream (arrive s h).1 false h.stream e) n.val h ts.toNat count entries false) := by
  obtain ⟨hstreams, -, -⟩ := touchEntry_kept s h.stream
  have hentry : getStream (arrive s h).1 false h.stream = getStream s false h.stream := by
    rw [arrive_passed hgo hm, getStream, getStream, if_neg Bool.false_ne_true, if_neg Bool.false_ne_true, hstreams]
  have hn : h.stream % 256 = n.val := by rw [hid, plantStream]; omega
  show execPlantMeas h ts count entries false s = _
  simp [execPlantMeas, plantArrive, hup, hgo, hm, hentry, hkind, hseq, hn, hres]

theorem logging_measured {s : State} {h : DgHdr} (hgo : (arrive s h).2 = true) (hm : h.mgmt = false) (n : PlantNo) (e : Stream) :
    let u := setStream (arrive s h).1 false h.stream e
    replaying u (psCtx u n.val) = replaying s (psCtx s n.val) ∧ recording u (psCtx u n.val) = recording s (psCtx s n.val) := by
  intro u
  obtain ⟨-, hckpt, hrd⟩ := touchEntry_kept s h.stream
  have hu (k : Nat) (hk : k ≠ 0x102300) : rd u k = rd s k := (congrArg (rd · k) (arrive_passed hgo hm)).trans (hrd k hk)
  have hctx : psCtx u n.val = psCtx s n.val := by rw [psCtx, psCtx, hu _ (by omega)]
  rw [hctx]
  exact logging_congr ((congrArg State.ckpt (arrive_passed hgo hm)).trans hckpt) (hu _ (by decide)) _

/-! ### Time (R203, R299) -/

@[simp] theorem uptime_wr (s : State) (k v : Nat) : uptime (wr s k v) = uptime s := by simp [uptime]

/-- The clock takes the time and the offset of a message. -/
def clockSet (s : State) (time : Nat) (offset : BitVec 32) : State :=
  wr { s with ptpNs := time, wen := { s.wen with bootNs := s.wen.bootNs + ((time : Int) - (s.ptpNs : Int)) } } 0xC00101 offset.toNat

theorem uptime_clockSet (s : State) (time : Nat) (offset : BitVec 32) : uptime (clockSet s time offset) = uptime s := by
  have hdiff : (time : Int) - (s.wen.bootNs + (time - s.ptpNs)) = s.ptpNs - s.wen.bootNs := by omega
  rw [clockSet, uptime_wr]
  simp only [uptime, hdiff]

theorem exec_ptpMessage (s : State) (time : Nat) (offset : BitVec 32) : exec (.ptpMessage time offset) s = .next (
    if offset.toInt.natAbs ≤ 50 then wr (clockSet s time offset) 0xC00100 0
    else if rd (clockSet s time offset) 0xC00100 = 0 then wr (clockSet s time offset) 0xC00100 1 else clockSet s time offset) := rfl

theorem ptpMessage_effect (s : State) (time : Nat) (offset : BitVec 32) : ∃ t, exec (.ptpMessage time offset) s = .next t ∧ t.ptpNs = time ∧
    uptime t = uptime s ∧ (offset.toInt.natAbs ≤ 50 → rd t 0xC00100 = 0) ∧
    (50 < offset.toInt.natAbs → rd s 0xC00100 = 0 → rd t 0xC00100 = 1) := by
  have htime : (clockSet s time offset).ptpNs = time := wr_ptpNs _ _ _
  have hptp : rd (clockSet s time offset) 0xC00100 = rd s 0xC00100 := rd_wr_ne _ _ (by decide)
  refine ⟨_, exec_ptpMessage s time offset, ?_⟩
  split
  next hlocked =>
    exact ⟨by rw [wr_ptpNs, htime], by rw [uptime_wr, uptime_clockSet], fun _ => rd_wr_fits _ ptpState_type (by decide), fun h => by omega⟩
  next hbeyond =>
    split
    next => exact ⟨by rw [wr_ptpNs, htime], by rw [uptime_wr, uptime_clockSet], fun h => by omega, fun _ _ => rd_wr_fits _ ptpState_type (by decide)⟩
    next hstate => exact ⟨htime, uptime_clockSet s time offset, fun h => by omega, fun _ h => absurd (hptp.trans h) hstate⟩

theorem ptpSyncMissed_effect {s : State} (h : rd s 0xC00100 = 0) :
    ∃ t, exec .ptpSyncMissed s = .next t ∧ rd t 0xC00100 = 1 ∧ t.plants = s.plants := by
  have hexec : exec .ptpSyncMissed s = execPtpSyncMissed s := rfl
  rw [execPtpSyncMissed, if_pos h] at hexec
  exact ⟨_, hexec, rd_wr_fits s ptpState_type (by decide), wr_plants s _ _⟩

/-- Stream `n` loses its time: from RUN it enters HOLD with REASON TIME_LOST. -/
def timeLost (s : State) (n : Nat) : State :=
  if psState s n = 2 then wr (setP s n { getP s n with enter := 4 }) (0xC01E00 + n) 3 else s

theorem ptpLost_eq (s : State) : ptpLost s = (List.range 256).foldl timeLost (wr s 0xC00100 2) := rfl

theorem rd_timeLost (s : State) {n k : Nat} (h : k ≠ 0xC01E00 + n) : rd (timeLost s n) k = rd s k := by
  unfold timeLost
  split
  · rw [rd_wr_ne _ _ h]; rfl
  · rfl

theorem getP_timeLost_ne (s : State) {n m : Nat} (h : m ≠ n) : getP (timeLost s n) m = getP s m := by
  unfold timeLost
  split
  · rw [getP_wr, getP_setP, if_neg h]
  · rfl

/-- Stream `m` is in HOLD for lost time. -/
def HeldForTime (m : Nat) (s : State) : Prop := psState s m = 3 ∧ (getP s m).enter = 4

theorem heldForTime_timeLost {s : State} {m : Nat} (h : HeldForTime m s) (n : Nat) : HeldForTime m (timeLost s n) := by
  by_cases hm : m = n
  · subst hm
    rwa [timeLost, if_neg (by rw [h.1]; decide)]
  · rwa [HeldForTime, psState, rd_timeLost s (by omega), getP_timeLost_ne s hm]

theorem timeLost_holds {s : State} (m : PlantNo) (h : psState s m.val = 2) : HeldForTime m.val (timeLost s m.val) := by
  rw [timeLost, if_pos h]
  exact ⟨psState_wr_self _ m (by decide), by rw [getP_wr, getP_setP_self]⟩

theorem foldl_timeLost_holds (m : PlantNo) (ns : List Nat) (hm : m.val ∈ ns) (s : State) (h : psState s m.val = 2) :
    HeldForTime m.val (ns.foldl timeLost s) := by
  induction ns generalizing s with
  | nil => cases hm
  | cons n ns ih =>
    rw [List.foldl_cons]
    by_cases hn : m.val = n
    · exact List.foldlRecOn ns timeLost (hn ▸ timeLost_holds m h) (fun u hu k _ => heldForTime_timeLost hu k)
    · exact ih ((List.mem_cons.mp hm).resolve_left hn) _ ((rd_timeLost s (by omega)).trans h)

theorem ptpHoldoverExpiry_effect {s : State} (h : rd s 0xC00100 = 1) : ∃ t, exec .ptpHoldoverExpiry s = .next t ∧ rd t 0xC00100 = 2 ∧
    ∀ m, m < 256 → psState s m = 2 → psState t m = 3 ∧ (getP t m).enter = 4 := by
  have hexec : exec .ptpHoldoverExpiry s = execPtpHoldoverExpiry s := rfl
  rw [execPtpHoldoverExpiry, if_pos h, ptpLost_eq] at hexec
  refine ⟨_, hexec, ?_, fun m hm hrun => ?_⟩
  · exact List.foldlRecOn (motive := fun u : State => rd u 0xC00100 = 2) _ _ (rd_wr_fits s ptpState_type (by decide))
      (fun u hu n hn => (rd_timeLost u (by omega)).trans hu)
  · exact foldl_timeLost_holds ⟨m, hm⟩ _ (List.mem_range.mpr hm) _ ((rd_wr_ne s _ (by omega)).trans hrun)

/-! ### The streams and their clock (O51) -/

/-- Settles O51, clause by clause: PS_CTRL by the stream's state, the events of a period in order, measurements by their outcome, and the
clock's messages. -/
theorem plantPeriodsRunTheirEvents : Obligations.PlantPeriodsRunTheirEvents := by
  unfold Obligations.PlantPeriodsRunTheirEvents
  intro s r n k
  refine ⟨fun d x hoff hbad hd hx hslot hgen => psArm_takes s r n hoff hbad hd hx hslot hgen, ?armBusy, ?armBad, ?resume, ?resumeBad,
    ?stopArmed, ?stopLater, ?stopOff, plantPeriodStart_armed, plantPeriodStart_serving, ?window, plantSlot_starts, ?deadline,
    fun q hq => psTxLate_effect hq, ?measure, ptpMessage_effect s, ptpSyncMissed_effect, ptpHoldoverExpiry_effect⟩
  case armBusy => exact fun hst => psArm_refuses s r n (by decide) (if_pos hst)
  case armBad =>
    intro code hoff hbad
    refine psArm_refuses s r n (armBad_ne_zero hbad) ?_
    rw [psArm, if_neg (by simp [hoff]), hbad]
  case resume => exact fun hst => takes_row rfl (congrArg (Except.map _) (if_pos hst))
  case resumeBad => exact fun hst => refuses_row rfl (by decide) (congrArg (Except.map _) (if_neg hst))
  case stopArmed => exact fun hst => psStop_takes s r n (psStop_armed hst)
  case stopLater => exact fun hst => psStop_takes s r n (psStop_later hst)
  case stopOff => exact fun hst => refuses_row rfl (by decide) (congrArg (Except.map _) (psStop_off hst))
  case window =>
    intro hw hr
    obtain ⟨t, ht, hp⟩ := plantWinClose_latches hw hr
    exact ⟨t, ht, by rw [hp]; exact ⟨rfl, rfl, rfl, rfl, rfl, rfl⟩⟩
  case deadline =>
    intro hst hserving hr
    obtain ⟨t, ht, htx, hstate⟩ := plantDeadline_sends hst hserving hr
    refine ⟨t, _, ht, htx, rfl, rfl, rfl, rfl, field_answerBytes_period _ _ _ _ _ _ _, fun hstop => ?_, fun hstop hrun hptp w hdone hw => ?_⟩
    · obtain ⟨hkind, hreason, hoff⟩ := plantChoice_stopping s n.val hstop
      exact ⟨(field_periodAnswer_kind s n.val).trans (by rw [hkind]), (field_periodAnswer_reason s n.val).trans (by rw [hreason]),
        hstate.trans hoff⟩
    · obtain ⟨hkind, hstays⟩ := plantChoice_solved hstop hrun hptp hdone hw
      exact ⟨(field_periodAnswer_kind s n.val).trans (by rw [hkind]), hstate.trans hstays⟩
  case measure =>
    intro h ts count entries e hup hgo hm hkind hid hres hseq hplay hrec u o
    obtain ⟨hplay', hrec'⟩ := logging_measured hgo hm n e
    obtain ⟨haccepted, hlate, hstale, hbad⟩ := measure_outcome (h := h) (ts := ts.toNat) (count := count) (entries := entries)
      (resv := false) (hplay'.trans hplay) (hrec'.trans hrec)
    rw [exec_plantMeas_measures hup hgo hm hkind hid hres hseq]
    exact ⟨fun ho => congrArg _ (haccepted ho), fun ho => congrArg _ (hlate ho), fun ho => congrArg _ (hstale ho),
      fun ho => congrArg _ (hbad ho)⟩

end Sys2Proof.PlantProofs
end


section
/-! PROOFS. The Celale ports: what the shared operations leave of the entries and of the links, then the ports' events (R217, R219, R220,
R226, R231). -/

namespace Sys2Proof.FabricProofs

open Sys2Proof Sys2Proof.Machine Sys2Proof.Laws Sys2Proof.PackageProofs

/-! ### Entries of the fabric -/

theorem portState_type : ∀ p : Port, (entryOf (0x401000 + p.val)).map (·.type) = some .u8 := by decide +kernel

theorem portPeer_type : ∀ p : Port, (entryOf (0x401100 + p.val)).map (·.type) = some (.octets 12) := by decide +kernel

theorem portMetric_type : ∀ p : Port, (entryOf (0x401400 + p.val)).map (·.type) = some .u16 := by decide +kernel

theorem laserState_type : ∀ k : Fin 8, (entryOf (0x405000 + k.val)).map (·.type) = some .u8 := by decide +kernel

theorem vcArb_type : ∀ i : Fin 8, (entryOf (0x403000 + i.val)).map (·.type) = some .u8 := by decide +kernel

theorem bypassState_type : (entryOf 0x404000).map (·.type) = some .u8 := by decide +kernel

/-! ### Links -/

@[simp] theorem rd_setLink (s : State) (p : Nat) (l : PortLink) (k : Nat) : rd (setLink s p l) k = rd s k := rfl

@[simp] theorem getLink_setLink_self (s : State) (p : Nat) (l : PortLink) : getLink (setLink s p l) p = l := tget_tset_self _ _ _ _

theorem getLink_setLink_ne (s : State) {p q : Nat} (l : PortLink) (h : q ≠ p) : getLink (setLink s p l) q = getLink s q :=
  tget_tset_ne _ _ _ _ _ h

theorem getLink_congr {s t : State} (h : t.fab = s.fab) (p : Nat) : getLink t p = getLink s p := by rw [getLink, h, getLink]

@[simp] theorem getLink_wr (s : State) (k v p : Nat) : getLink (wr s k v) p = getLink s p := getLink_congr (wr_fab s k v) p

@[simp] theorem getLink_incr (s : State) (k n p : Nat) : getLink (incr s k n) p = getLink s p := getLink_wr s k _ p

@[simp] theorem getLink_setPort (s : State) (p v q : Nat) : getLink (setPort s p v) q = getLink s q := getLink_wr s _ _ _

theorem portState_setPort_self (s : State) (p : Port) {v : Nat} (hv : v < 256) : portState (setPort s p.val v) p.val = v :=
  rd_wr_fits s (portState_type p) hv

theorem rd_setPort (s : State) (p v : Nat) {k : Nat} (h : k ≠ 0x401000 + p) : rd (setPort s p v) k = rd s k := rd_wr_ne s v h

theorem portState_setPort_ne (s : State) {p q : Nat} (v : Nat) (h : q ≠ p) : portState (setPort s p v) q = portState s q :=
  rd_setPort s p v (fun e => h (Nat.add_left_cancel e))

/-! ### What the shared operations leave -/

theorem rd_clearSamples (s : State) {p k : Nat} (h : k ≠ 0x401400 + p) : rd (clearSamples s p) k = rd s k := rd_wr_ne _ _ h

theorem portState_clearSamples (s : State) (p : Nat) {q : Nat} (hq : q < 32) : portState (clearSamples s p) q = portState s q :=
  rd_clearSamples s (by omega)

theorem rd_clearSamples_metric (s : State) (p : Port) : rd (clearSamples s p.val) (0x401400 + p.val) = 0xFFFF :=
  rd_wr_fits _ (portMetric_type p) (by decide)

theorem getLink_clearSamples_self (s : State) (p : Nat) : getLink (clearSamples s p) p = { getLink s p with samples := [] } := by
  rw [clearSamples, getLink_wr, getLink_setLink_self]

theorem getLink_clearSamples_ne (s : State) {p q : Nat} (h : q ≠ p) : getLink (clearSamples s p) q = getLink s q := by
  rw [clearSamples, getLink_wr, getLink_setLink_ne s _ h]

@[simp] theorem raiseFree_fab (s : State) (die cls unit ctx step : Nat) (ev : Option UnitEvent) (j : Bool) :
    (raiseFree s die cls unit ctx step ev j).fab = s.fab := by
  unfold raiseFree raiseEvent
  dsimp only
  split <;> simp [drawNat]

theorem rd_linkEvent (s : State) (p : Nat) {k : Nat} (h : k ≠ 0x101200) : rd (linkEvent s p) k = rd s k := rd_raiseFree s _ _ _ _ _ _ _ h

@[simp] theorem getLink_linkEvent (s : State) (p q : Nat) : getLink (linkEvent s p) q = getLink s q := getLink_congr (raiseFree_fab s _ _ _ _ _ _ _) q

theorem freeBuffer_ent (s : State) (f : TxFlit) : (freeBuffer s f).ent = s.ent := by
  unfold freeBuffer
  split <;> rfl

theorem rd_freeBuffer (s : State) (f : TxFlit) (k : Nat) : rd (freeBuffer s f) k = rd s k := by rw [rd, freeBuffer_ent, rd]

/-- A buffer that lets a flit go owes a credit, and its link is the same otherwise. -/
theorem getLink_freeBuffer (s : State) (f : TxFlit) (p : Nat) : ∃ owed, getLink (freeBuffer s f) p = { getLink s p with owed := owed } := by
  unfold freeBuffer
  split
  · exact ⟨_, rfl⟩
  · next q _ =>
    by_cases h : p = q
    · subst h; exact ⟨_, getLink_setLink_self _ _ _⟩
    · exact ⟨_, getLink_setLink_ne _ _ h⟩

/-! ### Routing (R217, R220) -/

theorem bestPort_mem {s : State} {ps : List Nat} {p : Nat} (h : bestPort s ps = some p) : p ∈ ps := by
  induction ps generalizing p with
  | nil => cases h
  | cons q ps ih =>
    rw [bestPort] at h
    split at h
    · simp_all
    · next hb =>
      split at h <;> obtain rfl := Option.some.inj h
      · exact List.mem_cons_of_mem _ (ih hb)
      · exact List.mem_cons_self

/-- A choice is made among usable ports alone. -/
theorem chooseCand_usable {s : State} {e p : Nat} (h : chooseCand s e = some p) : portUsable s p = true := by
  have hmem : p ∈ (candidates e).filter (portUsable s) := by
    simp only [chooseCand] at h
    split at h
    · exact bestPort_mem h
    · exact List.mem_of_head? h
  exact (List.mem_filter.mp hmem).2

theorem routeFlow_usable {s : State} {src dest vc flow e : Nat} {x : Flow × Option Nat} (h : routeFlow s src dest vc flow e = some x) :
    portUsable s x.1.port = true := by
  have hfresh {g : Flow → Option Nat}
      (h : ((chooseCand s e).map (fun p => (⟨src, dest, vc, flow, p, s.ptpNs, s.ptpNs⟩ : Flow))).map (fun f => (f, g f)) = some x) :
      portUsable s x.1.port = true := by
    simp only [Option.map_map, Option.map_eq_some_iff, Function.comp_apply] at h
    obtain ⟨p, hp, rfl⟩ := h
    exact chooseCand_usable hp
  unfold routeFlow at h
  dsimp only at h
  split at h
  · exact hfresh h
  · split at h
    · exact hfresh h
    · split at h
      · exact hfresh h
      · next hkeep =>
        obtain rfl := Option.some.inj h
        simp only [not_or, Bool.not_eq_false] at hkeep
        exact hkeep.2.1

/-- A flit leaves by a usable port, and only the flows' choices change. -/
theorem egress_spec {s t : State} {f : TxFlit} {p : Nat} {a : Option Nat} (h : egress s f = some (t, p, a)) :
    portUsable s p = true ∧ ∃ flows, t = { s with fab := { s.fab with flows := flows } } := by
  unfold egress at h
  split at h <;> simp only [Option.map_eq_some_iff, Option.bind_eq_some_iff, Prod.mk.injEq] at h
  · obtain ⟨q, hq, rfl, rfl, -⟩ := h
    have := List.find?_some hq
    simp only [Bool.and_eq_true] at this
    exact ⟨this.1, _, rfl⟩
  · obtain ⟨e, -, x, hx, rfl, rfl, -⟩ := h
    exact ⟨routeFlow_usable hx, _, rfl⟩

theorem rd_routeFlit (s : State) (f : TxFlit) {k : Nat} (hk : k ≠ 0x406002) : rd (routeFlit s f) k = rd s k := by
  unfold routeFlit
  split
  · rfl
  · split
    · rw [incr, rd_wr_ne _ _ hk, rd_freeBuffer]
    · next he =>
      obtain ⟨-, flows, rfl⟩ := egress_spec he
      rfl

/-- Routing leaves the link of a port that is not UP as it was, but for the credits owed. -/
theorem getLink_routeFlit (s : State) (f : TxFlit) {p : Nat} (hp : portState s p ≠ 3) :
    ∃ owed, getLink (routeFlit s f) p = { getLink s p with owed := owed } := by
  unfold routeFlit
  split
  · exact ⟨_, rfl⟩
  · split
    · obtain ⟨owed, h⟩ := getLink_freeBuffer s f p
      exact ⟨owed, by rw [getLink_incr, h]⟩
    · next q _ he =>
      obtain ⟨husable, flows, rfl⟩ := egress_spec he
      have hne : p ≠ q := by
        rintro rfl
        simp only [portUsable, Bool.and_eq_true, decide_eq_true_eq] at husable
        exact hp husable.1
      exact ⟨_, getLink_setLink_ne _ _ hne⟩

theorem rd_reroute (s : State) (p : Nat) (stays : TxFlit → Bool) {k : Nat} (hk : k ≠ 0x406002) : rd (reroute s p stays) k = rd s k := by
  unfold reroute
  refine List.foldlRecOn (motive := fun u : State => rd u k = rd s k) _ _ rfl (fun u hu f _ => ?_)
  split
  · exact hu
  · exact (rd_routeFlit u f hk).trans hu

/-- What waited at a port that is not UP and does not stay has gone elsewhere. -/
theorem getLink_reroute (s : State) {p : Nat} (stays : TxFlit → Bool) (hlt : p < 32) (hp : portState s p ≠ 3) :
    ∃ owed, getLink (reroute s p stays) p = { getLink s p with queue := (getLink s p).queue.filter stays, owed := owed } := by
  unfold reroute
  refine (List.foldlRecOn (motive := fun u : State => portState u p = portState s p ∧
    ∃ owed, getLink u p = { getLink s p with queue := (getLink s p).queue.filter stays, owed := owed }) _ _ ?_ (fun u hu f _ => ?_)).2
  · exact ⟨rfl, _, getLink_setLink_self _ _ _⟩
  · obtain ⟨hstate, owed, hlink⟩ := hu
    split
    · exact ⟨hstate, owed, hlink⟩
    · obtain ⟨owed', hlink'⟩ := getLink_routeFlit u f (hstate.trans_ne hp)
      exact ⟨(rd_routeFlit u f (by omega)).trans hstate, owed', by rw [hlink', hlink]⟩

/-! ### A port that goes DOWN (R226) -/

/-- Entries that a port's loss can change: its state and metric, the count of events lost, the count of packets without a route. -/
def downKeys (p : Nat) : List Nat := [0x401000 + p, 0x401400 + p, 0x101200, 0x406002]

theorem not_mem_downKeys {p k : Nat} : k ∉ downKeys p ↔ k ≠ 0x401000 + p ∧ k ≠ 0x401400 + p ∧ k ≠ 0x101200 ∧ k ≠ 0x406002 := by
  simp only [downKeys, List.mem_cons, List.not_mem_nil, or_false, not_or, ne_eq]

/-- A link whose flits are gone, with no sample. -/
def emptied (l : PortLink) (owed : Tbl Nat) : PortLink :=
  { l with samples := [], replay := [], nakked := none, replays := 0, drain := false, queue := [], sent := [], owed := owed }

/-- A port that is going DOWN, before what waits at it makes a new choice. -/
def goingDown (s : State) (p : Nat) : State :=
  linkEvent (clearSamples (setPort (setLink s p
    { getLink s p with replay := [], nakked := none, replays := 0, drain := false, sent := [], owed := [] }) p 1) p) p

theorem portDown_off {s : State} {p : Nat} (h : portState s p ≤ 1) : portDown s p = s := if_pos h

theorem portDown_on {s : State} {p : Nat} (h : 2 ≤ portState s p) : portDown s p = reroute (goingDown s p) p (fun _ => false) :=
  if_neg (Nat.not_le.mpr h)

theorem rd_goingDown (s : State) {p k : Nat} (hk : k ∉ downKeys p) : rd (goingDown s p) k = rd s k := by
  obtain ⟨hstate, hmetric, hlost, -⟩ := not_mem_downKeys.mp hk
  rw [goingDown, rd_linkEvent _ _ hlost, rd_clearSamples _ hmetric, rd_setPort _ _ _ hstate, rd_setLink]

theorem portState_goingDown (s : State) (p : Port) : portState (goingDown s p.val) p.val = 1 := by
  rw [goingDown, portState, rd_linkEvent _ _ (by omega), rd_clearSamples _ (by omega)]
  exact portState_setPort_self _ p (by decide)

theorem rd_portDown (s : State) {p k : Nat} (hk : k ∉ downKeys p) : rd (portDown s p) k = rd s k := by
  by_cases h : portState s p ≤ 1
  · rw [portDown_off h]
  · obtain ⟨-, -, -, hroute⟩ := not_mem_downKeys.mp hk
    rw [portDown_on (Nat.not_le.mp h), rd_reroute _ _ _ hroute, rd_goingDown s hk]

theorem portState_portDown_ne (s : State) {p q : Nat} (hp : p < 32) (hq : q < 32) (h : q ≠ p) : portState (portDown s p) q = portState s q :=
  rd_portDown s (not_mem_downKeys.mpr (by omega))

/-- What a port that carried anything is left with. -/
theorem portDown_spec (s : State) (p : Port) (h : 2 ≤ portState s p.val) : portState (portDown s p.val) p.val = 1 ∧
    rd (portDown s p.val) (0x401400 + p.val) = 0xFFFF ∧ ∃ owed, getLink (portDown s p.val) p.val = emptied (getLink s p.val) owed := by
  have hstate := portState_goingDown s p
  obtain ⟨owed, hlink⟩ := getLink_reroute (goingDown s p.val) (fun _ => false) p.isLt (by rw [hstate]; decide)
  rw [portDown_on h]
  refine ⟨(rd_reroute _ _ _ (by omega)).trans hstate, ?_, owed, ?_⟩
  · rw [rd_reroute _ _ _ (by omega), goingDown, rd_linkEvent _ _ (by omega), rd_clearSamples_metric]
  · rw [hlink, goingDown, getLink_linkEvent, getLink_clearSamples_self, getLink_setPort, getLink_setLink_self, List.filter_false]
    rfl

theorem portState_portDown_self (s : State) (p : Port) : portState (portDown s p.val) p.val ≤ 1 := by
  by_cases h : portState s p.val ≤ 1
  · rwa [portDown_off h]
  · exact (portDown_spec s p (Nat.not_le.mp h)).1.le

/-- A port that is DOWN or DARK stays so when another goes DOWN. -/
theorem portState_portDown_le {s : State} {p q : Nat} (hp : p < 32) (hq : q < 32) (h : portState s q ≤ 1) :
    portState (portDown s p) q ≤ 1 := by
  by_cases e : q = p
  · subst e
    exact portState_portDown_self s ⟨q, hq⟩
  · rwa [portState_portDown_ne s hp hq e]

/-! ### Training and drain (R226, R231) -/

theorem portTrain_eq {s : State} {p : Nat} (hdark : portState s p ≠ 0) (hlit : laserLow s p = false) :
    portTrain s p = clearSamples (setPort s p 2) p := if_neg (by simp [hdark, hlit])

/-- The notice that a port which starts to drain has for its peer. -/
def drainFlit (s : State) (p : Nat) : TxFlit :=
  { flitOf 0 Config.ctlKind (rd s (0x401100 + p) / 2 ^ 64 % 65536) (ownId s) (rd s 0x400200 % 65536) 1 0 with
    ctl := some .drainNotice, port := some p }

theorem startDrain_up {s : State} {p : Nat} (hup : portState s p = 3) (hdrain : (getLink s p).drain = false) :
    startDrain s p = setLink (setLink s p { getLink s p with drain := true }) p
      { getLink s p with drain := true, queue := (getLink s p).queue ++ [drainFlit s p] } := by
  rw [startDrain, if_pos ⟨hup, hdrain⟩, sendPort, portSend, getLink_setLink_self]
  rfl

/-! ### Port events (O40) -/

/-- Every port but `p` keeps its state. -/
def OtherStatesKept (p : Nat) (s t : State) : Prop := ∀ q, q ≠ p → q < 32 → portState t q = portState s q

/-- Every port but `p` keeps its link. -/
def OtherLinksKept (p : Nat) (s t : State) : Prop := ∀ q, q ≠ p → q < 32 → getLink t q = getLink s q

/-- A port's link changes, then its state. -/
theorem others_setPort_setLink (s : State) (p v : Nat) (l : PortLink) :
    OtherStatesKept p s (setPort (setLink s p l) p v) ∧ OtherLinksKept p s (setPort (setLink s p l) p v) :=
  ⟨fun _ hq _ => portState_setPort_ne _ v hq, fun _ hq _ => (getLink_setPort _ _ _ _).trans (getLink_setLink_ne s l hq)⟩

theorem portTrained_effect {s : State} {p : Port} (hstate : portState s p.val = 2) (hlit : laserLow s p.val = false) :
    ∃ t, exec (.portTrained p) s = .next t ∧ portState t p.val = 3 ∧
      getLink t p.val = { PortLink.initial with queue := (getLink s p.val).queue, darkSeen := (getLink s p.val).darkSeen } ∧
      OtherStatesKept p.val s t ∧ OtherLinksKept p.val s t := by
  refine ⟨_, congrArg Host.Outcome.next (if_pos ⟨hstate, hlit⟩), portState_setPort_self _ p (by decide), ?_, others_setPort_setLink s p.val 3 _⟩
  rw [getLink_setPort, getLink_setLink_self]

theorem portTrained_unlit {s : State} {p : Port} (hlow : laserLow s p.val = true) : exec (.portTrained p) s = .next s :=
  congrArg Host.Outcome.next (if_neg (by simp [hlow]))

theorem portLossOfLock_effect {s : State} {p : Port} (h : 2 ≤ portState s p.val) :
    ∃ t, exec (.portLossOfLock p) s = .next t ∧ portState t p.val = 1 ∧ (getLink t p.val).replay = [] ∧ (getLink t p.val).queue = [] ∧
      (getLink t p.val).samples = [] ∧ rd t (0x401400 + p.val) = 0xFFFF ∧ OtherStatesKept p.val s t := by
  obtain ⟨hstate, hmetric, owed, hlink⟩ := portDown_spec s p h
  refine ⟨_, rfl, hstate, ?_, ?_, ?_, hmetric, fun q hq hlt => portState_portDown_ne s p.isLt hlt hq⟩ <;> rw [hlink] <;> rfl

theorem portDrained_effect {s : State} {p : Port} (hup : portState s p.val = 3) (hdrain : (getLink s p.val).drain = true)
    (hdone : portDrained s p.val = true) : ∃ t, exec (.portDrained p) s = .next t ∧ portState t p.val = 4 ∧
      (∀ f ∈ t.fab.flows, f.port ≠ p.val) ∧ OtherStatesKept p.val s t ∧ OtherLinksKept p.val s t := by
  have hstate := portState_setPort_self (setLink s p.val { getLink s p.val with drain := false, replays := 0 }) p (v := 4) (by decide)
  have hothers := others_setPort_setLink s p.val 4 { getLink s p.val with drain := false, replays := 0 }
  exact ⟨_, congrArg Host.Outcome.next (if_pos ⟨hup, hdrain, hdone⟩), hstate,
    fun f hf => of_decide_eq_true (List.mem_filter.mp hf).2, hothers⟩

theorem portDrained_busy {s : State} {p : Port} (hbusy : portDrained s p.val = false) : exec (.portDrained p) s = .next s :=
  congrArg Host.Outcome.next (if_neg (by simp [hbusy]))

theorem recalDone_effect {s : State} {p : Port} (hstate : portState s p.val = 4) (hlit : laserLow s p.val = false) :
    ∃ t, exec (.recalDone p) s = .next t ∧ portState t p.val = 2 ∧ OtherStatesKept p.val s t ∧ OtherLinksKept p.val s t := by
  have htrain := portTrain_eq (by rw [hstate]; decide) hlit
  refine ⟨_, congrArg Host.Outcome.next ((if_pos hstate).trans htrain), ?_, fun q hq hlt => ?_, fun q hq hlt => ?_⟩
  · rw [portState_clearSamples _ _ p.isLt, portState_setPort_self s p (by decide)]
  · rw [portState_clearSamples _ _ hlt, portState_setPort_ne s _ hq]
  · rw [getLink_clearSamples_ne _ hq, getLink_setPort]

theorem drainNotice_effect {s : State} {p : Port} (hup : portState s p.val = 3) (hdrain : (getLink s p.val).drain = false) :
    ∃ t m, exec (.drainNotice p) s = .next t ∧ (getLink t p.val).drain = true ∧ (getLink t p.val).queue = (getLink s p.val).queue ++ [m] ∧
      m.ctl = some .drainNotice ∧ m.port = some p.val ∧ m.vc = 0 ∧ OtherStatesKept p.val s t ∧ OtherLinksKept p.val s t := by
  refine ⟨_, drainFlit s p.val, congrArg Host.Outcome.next (startDrain_up hup hdrain), ?_, ?_, rfl, rfl, rfl, fun _ _ _ => rfl, fun q hq _ => ?_⟩
  · rw [getLink_setLink_self]
  · rw [getLink_setLink_self]
  · rw [getLink_setLink_ne _ _ hq, getLink_setLink_ne _ _ hq]

/-- The mean of at most ten samples is a sample's size. -/
theorem meanOfTen_le {ys : List Nat} (hlen : ys.length ≤ 10) (hle : ∀ y ∈ ys, y ≤ 256) : ys.sum / 10 ≤ 256 := by
  have hsum : ys.sum ≤ ys.length * 256 := List.sum_le_card_nsmul ys 256 hle
  omega

theorem congestionSample_effect {s : State} {p : Port} (use : Fin 257) (hup : portState s p.val = 3)
    (hle : ∀ x ∈ (getLink s p.val).samples, x ≤ 256) :
    let xs := (getLink s p.val).samples ++ [use.val]
    let ys := xs.drop (xs.length - 10)
    ∃ t, exec (.congestionSample p use) s = .next t ∧ (getLink t p.val).samples = ys ∧
      rd t (0x401400 + p.val) = (if ys.length < 10 then 0xFFFF else ys.sum / 10) ∧ OtherStatesKept p.val s t ∧ OtherLinksKept p.val s t := by
  intro xs ys
  have hlen : ys.length ≤ 10 := by simp only [ys, List.length_drop]; omega
  have hys : ∀ y ∈ ys, y ≤ 256 := by
    intro y hy
    rcases List.mem_append.mp (List.mem_of_mem_drop hy) with h | h
    · exact hle y h
    · rw [List.mem_singleton.mp h]; omega
  have hfits : (if ys.length < 10 then 0xFFFF else ys.sum / 10) < 2 ^ (8 * typeSize .u16) := by
    have := meanOfTen_le hlen hys
    split
    · decide
    · exact Nat.lt_of_le_of_lt this (by decide)
  have hexec : exec (.congestionSample p use) s = .next (wr (setLink s p.val { getLink s p.val with samples := ys }) (0x401400 + p.val)
      (if ys.length < 10 then 0xFFFF else ys.foldl (· + ·) 0 / 10)) := congrArg Host.Outcome.next (if_pos hup)
  rw [← List.sum_eq_foldl] at hexec
  refine ⟨_, hexec, ?_, rd_wr_fits _ (portMetric_type p) hfits, fun q hq hlt => rd_wr_ne _ _ (by omega), fun q hq _ => ?_⟩
  · rw [getLink_wr, getLink_setLink_self]
  · rw [getLink_wr, getLink_setLink_ne _ _ hq]

/-- Settles O40, event by event. -/
theorem portsFollowTheirStates : Obligations.PortsFollowTheirStates := by
  unfold Obligations.PortsFollowTheirStates
  intro s p only others
  exact ⟨portTrained_effect, fun _ => portTrained_unlit, portLossOfLock_effect, portDrained_effect, fun _ => portDrained_busy,
    recalDone_effect, drainNotice_effect, congestionSample_effect⟩

end Sys2Proof.FabricProofs
end


section
/-! PROOFS. Probes and the cabling rule, laser inputs, the ring's by-pass (R207, R212, R228). -/

namespace Sys2Proof.FabricProofs

open Sys2Proof Sys2Proof.Machine Sys2Proof.Laws Sys2Proof.PackageProofs

/-! ### The cabling rule (R208 to R212) -/

/-- The cabling rule rests on DEVICE_ID and SYSTEM_SHAPE. -/
theorem cabling_congr {s t : State} (hid : rd t 0x400100 = rd s 0x400100) (hshape : rd t 0x400300 = rd s 0x400300) (p : Nat) :
    expectedPeers t p = expectedPeers s p ∧ placed t = placed s := by
  simp only [expectedPeers, placed, ownId, hid, hshape, and_self]

theorem rd_checkCabling (s : State) {p k : Nat} (hk : k ∉ downKeys p) : rd (checkCabling s p) k = rd s k := by
  obtain ⟨hstate, hmetric, hlost, hroute⟩ := not_mem_downKeys.mp hk
  have hmoved (v : Nat) : rd (clearSamples (setPort s p v) p) k = rd s k := by rw [rd_clearSamples _ hmetric, rd_setPort _ _ _ hstate]
  unfold checkCabling
  dsimp only
  split
  · rfl
  · split
    · split
      · rfl
      · rw [rd_reroute _ _ _ hroute, hmoved]
    · split
      · exact rd_setPort _ _ _ hstate
      · split
        · rw [rd_reroute _ _ _ hroute, rd_linkEvent _ _ hlost, hmoved]
        · rfl

/-- A port that should stay dark is DARK. -/
theorem checkCabling_dark {s : State} (p : Port) (hplaced : placed s = true) (hnone : expectedPeers s p.val = []) :
    portState (checkCabling s p.val) p.val = 0 := by
  simp only [checkCabling, hplaced, hnone, Bool.not_true, Bool.false_eq_true, if_false, if_true]
  split
  · assumption
  · rw [portState, rd_reroute _ _ _ (by omega)]
    exact (portState_clearSamples _ _ p.isLt).trans (portState_setPort_self s p (by decide))

/-- Device and port that the last probe at a port named. -/
def lastPeer (s : State) (p : Nat) : Nat × Nat := (rd s (0x401100 + p) / 2 ^ 64 % 65536, rd s (0x401100 + p) / 2 ^ 80 % 256)

/-- A port whose last probe named a peer that the rule does not give is MISCABLED. -/
theorem checkCabling_miscabled {s : State} (p : Port) (hplaced : placed s = true) (hsome : expectedPeers s p.val ≠ [])
    (hlit : 2 ≤ portState s p.val) (hprobed : 2 ^ 88 ≤ rd s (0x401100 + p.val))
    (hother : lastPeer s p.val ∉ expectedPeers s p.val) :
    portState (checkCabling s p.val) p.val = 6 := by
  have hdark : portState s p.val ≠ 0 := by omega
  simp only [checkCabling, hplaced, hsome, hdark, Bool.not_true, Bool.false_eq_true, if_false]
  split
  · rw [portState, rd_reroute _ _ _ (by omega), rd_linkEvent _ _ (by omega)]
    exact (portState_clearSamples _ _ p.isLt).trans (portState_setPort_self s p (by decide))
  · next hstays =>
    by_contra h6
    exact hstays ⟨hlit, h6, hprobed, hother⟩

/-- A port whose last probe named one of its peers is left alone, unless it was DARK. -/
theorem checkCabling_right {s : State} {p : Nat} (hdark : portState s p ≠ 0)
    (hpeer : lastPeer s p ∈ expectedPeers s p) : checkCabling s p = s := by
  have hsome : expectedPeers s p ≠ [] := List.ne_nil_of_mem hpeer
  rw [lastPeer] at hpeer
  simp only [checkCabling, hsome, hdark, hpeer, not_true_eq_false, and_false, if_false, ite_self]

/-! ### Probes (R212) -/

/-- PORT_PEER as a probe leaves it. -/
def peerValue (serial : BitVec 64) (device : BitVec 16) (port : BitVec 8) : Nat :=
  serial.toNat + device.toNat * 2 ^ 64 + port.toNat * 2 ^ 80 + 2 ^ 88

theorem peerValue_parts (serial : BitVec 64) (device : BitVec 16) (port : BitVec 8) :
    peerValue serial device port / 2 ^ 64 % 65536 = device.toNat ∧ peerValue serial device port / 2 ^ 80 % 256 = port.toNat ∧
    2 ^ 88 ≤ peerValue serial device port ∧ peerValue serial device port < 2 ^ 96 := by
  have hs := serial.isLt
  have hd := device.isLt
  have hp := port.isLt
  unfold peerValue
  omega

/-- The first probe on a DARK port writes a LINK record. -/
def darkRecord (s : State) (p : Nat) (seen : Bool) : State :=
  if portState s p = 0 ∧ seen = false then linkEvent (setLink s p { getLink s p with darkSeen := true }) p else s

theorem exec_probe (p : Port) (serial : BitVec 64) (device : BitVec 16) (port : BitVec 8) (s : State) :
    exec (.probe p serial device port) s =
      .next (darkRecord (checkCabling (wr s (0x401100 + p.val) (peerValue serial device port)) p.val) p.val (getLink s p.val).darkSeen) := rfl

theorem rd_darkRecord (s : State) (p : Nat) (seen : Bool) {k : Nat} (hk : k ≠ 0x101200) : rd (darkRecord s p seen) k = rd s k := by
  unfold darkRecord
  split
  · exact rd_linkEvent _ _ hk
  · rfl

theorem probe_effect (s : State) (p : Port) (serial : BitVec 64) (device : BitVec 16) (port : BitVec 8) :
    ∃ t, exec (.probe p serial device port) s = .next t ∧ rd t (0x401100 + p.val) = peerValue serial device port ∧
      (placed s = true → expectedPeers s p.val ≠ [] → 2 ≤ portState s p.val → (device.toNat, port.toNat) ∉ expectedPeers s p.val →
        portState t p.val = 6) ∧
      ((device.toNat, port.toNat) ∈ expectedPeers s p.val → portState s p.val ≠ 0 → portState t p.val = portState s p.val) ∧
      (placed s = true → expectedPeers s p.val = [] → portState t p.val = 0) := by
  obtain ⟨hdevice, hport, hprobed, hfits⟩ := peerValue_parts serial device port
  have hpeer := rd_wr_fits s (portPeer_type p) hfits
  have hkept {k : Nat} (hk : k ≠ 0x401100 + p.val) : rd (wr s (0x401100 + p.val) (peerValue serial device port)) k = rd s k := rd_wr_ne s _ hk
  obtain ⟨hpeers, hplaced⟩ := cabling_congr (hkept (k := 0x400100) (by omega)) (hkept (k := 0x400300) (by omega)) p.val
  have hstate : portState (wr s (0x401100 + p.val) (peerValue serial device port)) p.val = portState s p.val := hkept (by omega)
  have hlast : lastPeer (wr s (0x401100 + p.val) (peerValue serial device port)) p.val = (device.toNat, port.toNat) := by
    rw [lastPeer, hpeer, hdevice, hport]
  have hfinal (u : State) (seen : Bool) : portState (darkRecord u p.val seen) p.val = portState u p.val := rd_darkRecord u _ _ (by omega)
  refine ⟨_, exec_probe p serial device port s, ?peer, fun hpl hsome hlit hother => ?other, fun hin hdark => ?right, fun hpl hnone => ?dark⟩
  case peer => rw [rd_darkRecord _ _ _ (by omega), rd_checkCabling _ (not_mem_downKeys.mpr (by omega)), hpeer]
  case other =>
    rw [hfinal]
    exact checkCabling_miscabled p (hplaced.trans hpl) (by rwa [hpeers]) (by rwa [hstate]) (by rwa [hpeer]) (by rwa [hlast, hpeers])
  case right => rw [hfinal, checkCabling_right (by rwa [hstate]) (by rwa [hlast, hpeers]), hstate]
  case dark =>
    rw [hfinal]
    exact checkCabling_dark p (hplaced.trans hpl) (hpeers.trans hnone)

/-- The probe that a port sends. -/
def probeFlit (s : State) (p : Nat) : TxFlit :=
  { flitOf 0 0x1F (rd s (0x401100 + p) / 2 ^ 64 % 65536) (ownId s) (rd s 0x400200 % 65536) 1 0 with
    ctl := some (.probe (rd s 0x700100) (ownId s) p), port := some p }

/-- The probes that the timer queues at a port. -/
def probes (s : State) (p : Nat) : List TxFlit := if portState s p ∈ [2, 3, 6] then [probeFlit s p] else []

/-- The timer at one port. -/
def probeSent (s : State) (p : Nat) : State :=
  if portState s p = 3 ∨ portState s p = 2 ∨ portState s p = 6 then sendPort s p 0x1F (.probe (rd s 0x700100) (ownId s) p) else s

theorem exec_probeTimer (s : State) : exec .probeTimer s = .next ((List.range 32).foldl probeSent s) := rfl

theorem probes_congr {s t : State} (h : t.ent = s.ent) (p : Nat) : probes t p = probes s p := by
  have hrd : rd t = rd s := funext (fun k => by rw [rd, h, rd])
  have hflit : probeFlit t p = probeFlit s p := by simp only [probeFlit, ownId, hrd]
  have hstate : portState t p = portState s p := congrFun hrd _
  rw [probes, probes, hflit, hstate]

theorem probeSent_kept (s : State) (p : Nat) : (probeSent s p).ent = s.ent ∧ (probeSent s p).ctxs = s.ctxs := by
  unfold probeSent
  split <;> exact ⟨rfl, rfl⟩

theorem queue_probeSent (s : State) (p q : Nat) :
    (getLink (probeSent s p) q).queue = (getLink s q).queue ++ if q = p then probes s q else [] := by
  have hlist : portState s p ∈ [2, 3, 6] ↔ portState s p = 3 ∨ portState s p = 2 ∨ portState s p = 6 := by simp; omega
  unfold probeSent
  by_cases hq : q = p
  · subst hq
    simp only [probes, hlist, if_true]
    split
    · rw [sendPort, portSend, getLink_setLink_self]
      rfl
    · rw [List.append_nil]
  · rw [if_neg hq, List.append_nil]
    split
    · rw [sendPort, portSend, getLink_setLink_ne _ _ hq]
    · rfl

theorem foldl_probeSent (ps : List Nat) (hps : ps.Nodup) (s : State) : (ps.foldl probeSent s).ent = s.ent ∧ (ps.foldl probeSent s).ctxs = s.ctxs ∧
    ∀ q, (getLink (ps.foldl probeSent s) q).queue = (getLink s q).queue ++ if q ∈ ps then probes s q else [] := by
  induction ps generalizing s with
  | nil => exact ⟨rfl, rfl, fun _ => by simp⟩
  | cons p ps ih =>
    obtain ⟨hp, hnodup⟩ := List.nodup_cons.mp hps
    obtain ⟨hent, hctxs⟩ := probeSent_kept s p
    obtain ⟨hents, hctxss, hqueue⟩ := ih hnodup (probeSent s p)
    refine ⟨hents.trans hent, hctxss.trans hctxs, fun q => ?_⟩
    rw [List.foldl_cons, hqueue, queue_probeSent, probes_congr hent]
    by_cases hq : q = p
    · subst hq; simp [hp]
    · simp [hq]

theorem probeTimer_effect (s : State) : ∃ t, exec .probeTimer s = .next t ∧ t.ent = s.ent ∧ t.ctxs = s.ctxs ∧
    ∀ p, p < 32 → (getLink t p).queue = (getLink s p).queue ++ probes s p := by
  obtain ⟨hent, hctxs, hqueue⟩ := foldl_probeSent (List.range 32) List.nodup_range s
  refine ⟨_, exec_probeTimer s, hent, hctxs, fun p hp => ?_⟩
  rw [hqueue, if_pos (List.mem_range.mpr hp)]

/-! ### Folds that reach every element -/

/-- What a fold's step makes true for one element, and every step keeps, holds at the end. -/
theorem foldl_reaches {α β : Type} {f : β → α → β} {P : β → Prop} {a : α} (hmake : ∀ s, P (f s a))
    {as : List α} (hkeep : ∀ s, ∀ b ∈ as, b ≠ a → P s → P (f s b)) (ha : a ∈ as) (s : β) : P (as.foldl f s) := by
  induction as generalizing s with
  | nil => cases ha
  | cons b as ih =>
    have hkeep' : ∀ s, ∀ c ∈ as, c ≠ a → P s → P (f s c) := fun s c hc => hkeep s c (List.mem_cons_of_mem b hc)
    by_cases hin : a ∈ as
    · exact ih hkeep' hin _
    · obtain rfl := (List.mem_cons.mp ha).resolve_right hin
      exact List.foldlRecOn as f (hmake s) (fun u hu c hc => hkeep' u c hc (fun e => hin (e ▸ hc)) hu)

/-! ### The ring's by-pass (R228) -/

theorem rd_moveSwitch (s : State) {lane closed k : Nat} (hwest : k ∉ downKeys (2 * lane)) (heast : k ∉ downKeys (2 * lane + 1)) :
    rd (moveSwitch s lane closed) k = rd s k := by
  unfold moveSwitch
  split
  · rfl
  · exact (rd_portDown _ heast).trans (rd_portDown s hwest)

theorem portState_moveSwitch_le {s : State} {lane q : Nat} (closed : Nat) (hlane : lane < 2) (hq : q < 32) (h : portState s q ≤ 1) :
    portState (moveSwitch s lane closed) q ≤ 1 := by
  unfold moveSwitch
  split
  · exact h
  · exact portState_portDown_le (by omega) hq (portState_portDown_le (by omega) hq h)

theorem rd_bypassClose (s : State) {k : Nat} (hk : 0x40141F < k) (hroute : k ≠ 0x406002) : rd (bypassClose s) k = rd s k := by
  have hfree (p : Nat) (hp : p < 32) : k ∉ downKeys p := not_mem_downKeys.mpr (by omega)
  rw [bypassClose, rd_moveSwitch _ (hfree _ (by decide)) (hfree _ (by decide)), rd_moveSwitch _ (hfree _ (by decide)) (hfree _ (by decide))]

theorem portState_bypassClose_le {s : State} {q : Nat} (hq : q < 32) (h : portState s q ≤ 1) : portState (bypassClose s) q ≤ 1 :=
  portState_moveSwitch_le 1 (by decide) hq (portState_moveSwitch_le 1 (by decide) hq h)

/-- The switches of the two lanes as one number, with lane `l` at `c`. -/
theorem settle_parts {b c : Nat} (l : Fin 2) (hb : b < 4) (hc : c < 2) : let v := b - (b / 2 ^ l.val % 2) * 2 ^ l.val + c * 2 ^ l.val
    v < 4 ∧ v / 2 ^ l.val % 2 = c ∧ v / 2 ^ (1 - l.val) % 2 = b / 2 ^ (1 - l.val) % 2 := by
  match l with
  | 0 => simp only [Fin.val_zero, pow_zero, Nat.sub_zero, pow_one, Nat.div_one, Nat.mul_one]; omega
  | 1 => simp only [Fin.val_one, pow_one, Nat.sub_self, pow_zero, Nat.div_one]; omega

theorem bypassSwitchSettled_effect {s : State} (lane : Fin 2) {closed : Nat} (hc : closed < 2) (hmoving : s.fab.moving = [lane.val + 2 * closed])
    (hb : bypassState s < 4) : ∃ t, exec (.bypassSwitchSettled lane) s = .next t ∧ t.fab.moving = [] ∧ bypassState t < 4 ∧
      bypassState t / 2 ^ lane.val % 2 = closed ∧ bypassState t / 2 ^ (1 - lane.val) % 2 = bypassState s / 2 ^ (1 - lane.val) % 2 := by
  have hlane : (lane.val + 2 * closed) % 2 = lane.val := by omega
  have hside : (lane.val + 2 * closed) / 2 = closed := by omega
  obtain ⟨hv, hself, hother⟩ := settle_parts lane hb hc
  have hexec : exec (.bypassSwitchSettled lane) s = execBypassSwitchSettled lane s := rfl
  simp only [execBypassSwitchSettled, hmoving, List.find?_cons, List.filter_cons, List.filter_nil, hlane, hside, ne_eq, not_true_eq_false,
    decide_true, decide_false, Bool.false_eq_true, if_false] at hexec
  refine ⟨_, hexec, by rw [wr_fab], ?_⟩
  have hrd : bypassState (wr { s with fab := { s.fab with moving := [] } } 0x404000
      (bypassState s - (bypassState s / 2 ^ lane.val % 2) * 2 ^ lane.val + closed * 2 ^ lane.val)) =
      bypassState s - (bypassState s / 2 ^ lane.val % 2) * 2 ^ lane.val + closed * 2 ^ lane.val :=
    rd_wr_fits _ bypassState_type (Nat.lt_of_lt_of_le hv (by decide))
  exact ⟨hrd.symm ▸ hv, hrd.symm ▸ hself, hrd.symm ▸ hother⟩

/-! ### Laser inputs (R207) -/

/-- An input that has become LOW is noted. -/
def laserLost (s : State) (k : Nat) : State :=
  if rd s (0x405000 + k) = 1 then s else raiseFree (wr s (0x405000 + k) 1) (30 + k) 0x07 4 0xFFFF 0 none false

/-- The ports of optical die `k` go DOWN. -/
def diePortsDown (s : State) (k : Nat) : State := (List.range 4).foldl (fun s i => portDown s (4 * k + i)) s

/-- The check of one input. -/
def laserStep (low : BitVec 8) (s : State) (k : Nat) : State :=
  if low.getLsbD k then
    if k = 0 then bypassClose (diePortsDown (laserLost s k) k) else diePortsDown (laserLost s k) k
  else wr s (0x405000 + k) 0

theorem exec_laserCheck (low : BitVec 8) (s : State) : exec (.laserCheck low) s = .next ((List.range 8).foldl (laserStep low) s) := rfl

theorem rd_laserLost_self (s : State) (k : Fin 8) : rd (laserLost s k.val) (0x405000 + k.val) = 1 := by
  unfold laserLost
  split
  · assumption
  · rw [rd_raiseFree _ _ _ _ _ _ _ _ (by omega)]
    exact rd_wr_fits s (laserState_type k) (by decide)

theorem rd_laserLost_ne (s : State) {j k : Nat} (hk : k ≠ 0x405000 + j) (hlost : k ≠ 0x101200) : rd (laserLost s j) k = rd s k := by
  unfold laserLost
  split
  · rfl
  · rw [rd_raiseFree _ _ _ _ _ _ _ _ hlost, rd_wr_ne _ _ hk]

theorem rd_diePortsDown (s : State) {j k : Nat} (hj : j < 8) (hk : 0x40141F < k) (hroute : k ≠ 0x406002) :
    rd (diePortsDown s j) k = rd s k := by
  refine List.foldlRecOn (motive := fun u : State => rd u k = rd s k) _ _ rfl (fun u hu i hi => (rd_portDown u ?_).trans hu)
  have := List.mem_range.mp hi
  exact not_mem_downKeys.mpr (by omega)

theorem portState_diePortsDown_le {s : State} {j q : Nat} (hj : j < 8) (hq : q < 32) (h : portState s q ≤ 1) :
    portState (diePortsDown s j) q ≤ 1 :=
  List.foldlRecOn (motive := fun u : State => portState u q ≤ 1) _ _ h (fun _ hu i hi =>
    portState_portDown_le (by have := List.mem_range.mp hi; omega) hq hu)

theorem portState_diePortsDown_own (s : State) {k i : Nat} (hk : k < 8) (hi : i < 4) : portState (diePortsDown s k) (4 * k + i) ≤ 1 := by
  refine foldl_reaches (f := fun s i => portDown s (4 * k + i)) (P := fun u => portState u (4 * k + i) ≤ 1) (a := i)
    (fun u => portState_portDown_self u ⟨4 * k + i, by omega⟩) (fun u j hj _ hu => ?_) (List.mem_range.mpr hi) s
  exact portState_portDown_le (by have := List.mem_range.mp hj; omega) (by omega) hu

/-- What the check leaves of one input: its state, and its ports where it is LOW. -/
def LaserChecked (low : BitVec 8) (k : Nat) (s : State) : Prop :=
  rd s (0x405000 + k) = (if low.getLsbD k then 1 else 0) ∧ (low.getLsbD k = true → ∀ i, i < 4 → portState s (4 * k + i) ≤ 1)

theorem rd_laserStep_low {low : BitVec 8} {j : Nat} (s : State) (hj : j < 8) (hlow : low.getLsbD j = true) {k : Nat} (hk : 0x40141F < k)
    (hroute : k ≠ 0x406002) : rd (laserStep low s j) k = rd (laserLost s j) k := by
  rw [laserStep, if_pos hlow]
  split
  · rw [rd_bypassClose _ hk hroute, rd_diePortsDown _ hj hk hroute]
  · exact rd_diePortsDown _ hj hk hroute

theorem portState_laserStep_low {low : BitVec 8} {j : Nat} (s : State) (hlow : low.getLsbD j = true) {q : Nat} (hq : q < 32)
    (h : portState (diePortsDown (laserLost s j) j) q ≤ 1) : portState (laserStep low s j) q ≤ 1 := by
  rw [laserStep, if_pos hlow]
  split
  · exact portState_bypassClose_le hq h
  · exact h

theorem laserStep_checks (low : BitVec 8) (k : Fin 8) (s : State) : LaserChecked low k.val (laserStep low s k.val) := by
  by_cases hlow : low.getLsbD k.val = true
  · refine ⟨?_, fun _ i hi => portState_laserStep_low s hlow (by omega) (portState_diePortsDown_own _ k.isLt hi)⟩
    rw [rd_laserStep_low s k.isLt hlow (by omega) (by omega), if_pos hlow, rd_laserLost_self]
  · refine ⟨?_, fun h => absurd h hlow⟩
    rw [laserStep, if_neg hlow, if_neg hlow]
    exact rd_wr_fits s (laserState_type k) (by decide)

theorem laserStep_keeps {low : BitVec 8} {k j : Nat} (hk : k < 8) (hj : j < 8) (hne : j ≠ k) {s : State} (h : LaserChecked low k s) :
    LaserChecked low k (laserStep low s j) := by
  obtain ⟨hstate, hports⟩ := h
  by_cases hlow : low.getLsbD j = true
  · refine ⟨?_, fun hl i hi => portState_laserStep_low s hlow (by omega) (portState_diePortsDown_le hj (by omega) ?_)⟩
    · rw [rd_laserStep_low s hj hlow (by omega) (by omega), rd_laserLost_ne s (by omega) (by omega), hstate]
    · rw [portState, rd_laserLost_ne s (by omega) (by omega)]
      exact hports hl i hi
  · rw [laserStep, if_neg hlow]
    refine ⟨(rd_wr_ne s 0 (by omega)).trans hstate, fun hl i hi => ?_⟩
    rw [portState, rd_wr_ne s 0 (by omega)]
    exact hports hl i hi

theorem laserCheck_effect (low : BitVec 8) (s : State) : ∃ t, exec (.laserCheck low) s = .next t ∧ ∀ k, k < 8 → LaserChecked low k t :=
  ⟨_, exec_laserCheck low s, fun k hk => foldl_reaches (laserStep_checks low ⟨k, hk⟩)
    (fun _ _ hj hne h => laserStep_keeps hk (List.mem_range.mp hj) hne h) (List.mem_range.mpr hk) s⟩

/-! ### Probes and light (O41) -/

/-- Settles O41: a probe by the cabling rule's cases, the timer and the laser check port by port and input by input, the switch by its lane. -/
theorem probesLightAndSwitches : Obligations.ProbesLightAndSwitches := by
  unfold Obligations.ProbesLightAndSwitches
  exact fun s => ⟨probe_effect s, probeTimer_effect s, fun low => laserCheck_effect low s,
    fun lane closed hc hmoving hb => bypassSwitchSettled_effect lane hc hmoving hb⟩

end Sys2Proof.FabricProofs
end


section
/-! PROOFS. The link layer: flits that go on, that are discarded and that are replayed; the slots of a port (R217, R221, R223, R225). -/

namespace Sys2Proof.FabricProofs

open Sys2Proof Sys2Proof.Machine Sys2Proof.Laws Sys2Proof.PackageProofs

/-! ### Arrival (R217, R225) -/

/-- A link that has taken a flit in order. -/
def received (l : PortLink) (x : Trailer) : PortLink :=
  { takeTrailer l x.ack x.cvc x.ccount with nakked := none, rxSeq := (x.seq + 1) % 4096 }

/-- How far a sequence number lies past the one that a link waits for. -/
def seqPast (l : PortLink) (seq : Nat) : Nat := (seq + 4096 - l.rxSeq) % 4096

/-- A flit arrives on the port that its header names, which takes it in and has room for it. -/
structure Lands (s : State) (f : Flit) : Prop where
  carried : portCarries s f.port.val f.vc f.kind = true
  room    : bufferRoom s f.port.val f.vc f.hops = true
  busy    : f.kind ≠ 0x1E

theorem exec_flitForward {s : State} {f : Flit} (h : Lands s f) (x : Trailer) (ok : Bool) :
    exec (.flitForward f x ok) s = .next (
      if !ok then discardFlit s f.port.val x.seq
      else if x.seq ≠ (getLink s f.port.val).rxSeq then
        if 2048 ≤ seqPast (getLink s f.port.val) x.seq then s else discardFlit s f.port.val x.seq
      else if f.resv then incr (freeBuffer (setLink s f.port.val (received (getLink s f.port.val) x)) (onward f x.payload)) 0x407402 1
      else transit (setLink s f.port.val (received (getLink s f.port.val) x)) f x.payload) := by
  have hexec : exec (.flitForward f x ok) s = execFlitForward f x ok s := rfl
  obtain ⟨hcarried, hroom, hbusy⟩ := h
  rw [hexec, execFlitForward]
  simp only [hbusy, hcarried, hroom, Bool.not_true, Bool.or_self, Bool.false_eq_true, if_false]
  rfl

/-- A flit in transit that no rule discards is looked up. -/
theorem transit_onward {s : State} {f : Flit} (payload : BitVec 2048) (hdest : f.dest ≠ ownId s) (hscrub : s.pkg.scrubbing = false)
    (hhops : f.hops < 9) (hvc : f.vc ≤ 6) :
    (f.vc ≠ 0 → rd s 0x400200 ≠ 0 → transit s f payload = routeFlit s (onward f payload)) ∧
    (f.vc = 0 → transit s f payload = transitVc0 s (onward f payload) f.port.val) := by
  have h7 : f.vc ≠ 7 := by omega
  have hlimit : ¬ 9 ≤ f.hops := by omega
  constructor
  · intro hvc0 hepoch
    simp only [transit, hdest, h7, hscrub, hlimit, hvc0, hepoch, or_self, Bool.false_eq_true, false_and, and_false, if_false]
  · intro hvc0
    simp only [transit, hdest, hscrub, hlimit, hvc0, ne_eq, not_true_eq_false, or_self, Bool.false_eq_true, false_and, and_false, if_false,
      if_true, OfNat.zero_ne_ofNat]

theorem flitForward_inOrder {s : State} {f : Flit} {x : Trailer} (h : Lands s f) (hseq : x.seq = (getLink s f.port.val).rxSeq)
    (hresv : f.resv = false) : exec (.flitForward f x true) s =
      .next (transit (setLink s f.port.val (received (getLink s f.port.val) x)) f x.payload) := by
  rw [exec_flitForward h]
  simp only [hseq, hresv, Bool.not_true, Bool.false_eq_true, ne_eq, not_true_eq_false, if_false]

/-- A flit that has come before is discarded without more. -/
theorem flitForward_again {s : State} {f : Flit} {x : Trailer} (h : Lands s f) (hpast : 2048 ≤ seqPast (getLink s f.port.val) x.seq) :
    exec (.flitForward f x true) s = .next s := by
  have hseq : x.seq ≠ (getLink s f.port.val).rxSeq := by
    intro heq
    rw [seqPast, heq] at hpast
    omega
  rw [exec_flitForward h]
  simp only [hseq, hpast, Bool.not_true, Bool.false_eq_true, ne_eq, not_false_eq_true, if_false, if_true]

theorem flitForward_fails {s : State} {f : Flit} {x : Trailer} {ok : Bool} (h : Lands s f)
    (hbad : ok = false ∨ x.seq ≠ (getLink s f.port.val).rxSeq ∧ seqPast (getLink s f.port.val) x.seq < 2048) :
    exec (.flitForward f x ok) s = .next (discardFlit s f.port.val x.seq) := by
  rw [exec_flitForward h]
  cases ok with
  | false => rfl
  | true =>
    obtain ⟨hseq, hpast⟩ := hbad.resolve_left (by decide)
    simp only [hseq, Nat.not_le.mpr hpast, Bool.not_true, Bool.false_eq_true, ne_eq, not_false_eq_true, if_false, if_true]

/-! ### NAKs (R225) -/

theorem getLink_emit (s : State) (p : Nat) (f : TxFlit) : getLink (emit s p f) p =
    { getLink s p with owed := tmod 0 (getLink s p).owed f.cvc (· - f.ccount) } := getLink_setLink_self _ _ _

/-- The link of a port that discards what comes after `d`. -/
def nakking (s : State) (p d : Nat) : State := setLink s p { getLink s p with nakked := some d }

/-- The NAK that a port sends. -/
def nakFlit (s : State) (p : Nat) : TxFlit := flitOf 0 0x1D (getLink s p).rxSeq (ownId s) 0 0 0

/-- The first flit that fails, and one that fails in the replay, has a NAK. -/
theorem discardFlit_naks {s : State} {p seq : Nat} (h : ∀ m, (getLink s p).nakked = some m → seqPast (getLink s p) seq ≤ m) :
    discardFlit s p seq = emit (nakking s p (seqPast (getLink s p) seq)) p
      (trailed (nakking s p (seqPast (getLink s p) seq)) p (nakFlit s p) 0) := by
  rw [discardFlit]
  split
  · next m hm => exact if_neg (Nat.not_lt.mpr (h m hm))
  · rfl

theorem discardFlit_silent {s : State} {p seq m : Nat} (hm : (getLink s p).nakked = some m) (h : m < seqPast (getLink s p) seq) :
    discardFlit s p seq = nakking s p (seqPast (getLink s p) seq) := by
  rw [discardFlit]
  simp only [hm]
  exact if_pos h

theorem discardFlit_effect {s : State} {p seq : Nat} (h : ∀ m, (getLink s p).nakked = some m → seqPast (getLink s p) seq ≤ m) :
    ∃ m, (discardFlit s p seq).fab.tx = s.fab.tx ++ [m] ∧ m.kind = 0x1D ∧ m.dest = (getLink s p).rxSeq ∧ m.port = some p ∧
      (getLink (discardFlit s p seq) p).nakked = some (seqPast (getLink s p) seq) ∧
      (getLink (discardFlit s p seq) p).rxSeq = (getLink s p).rxSeq ∧ (getLink (discardFlit s p seq) p).replay = (getLink s p).replay ∧
      (getLink (discardFlit s p seq) p).queue = (getLink s p).queue ∧ (discardFlit s p seq).fab.flows = s.fab.flows ∧
      (discardFlit s p seq).ctxs = s.ctxs ∧ (discardFlit s p seq).ent = s.ent := by
  have hlink := getLink_emit (nakking s p (seqPast (getLink s p) seq)) p
    (trailed (nakking s p (seqPast (getLink s p) seq)) p (nakFlit s p) 0)
  rw [← discardFlit_naks h, nakking, getLink_setLink_self] at hlink
  refine ⟨trailed (nakking s p (seqPast (getLink s p) seq)) p (nakFlit s p) 0, ?_, rfl, rfl, rfl, ?_⟩
  · rw [discardFlit_naks h]
    rfl
  · rw [hlink, discardFlit_naks h]
    exact ⟨rfl, rfl, rfl, rfl, rfl, rfl, rfl⟩

theorem countEvent_fab (s : State) (f : Context → Context) : (countEvent s f).fab = s.fab := by
  unfold countEvent
  split
  · split <;> rfl
  · rfl

/-- The flits of a port's replay buffer from the one that a NAK names. -/
def unacked (s : State) (p n : Nat) : List (Nat × TxFlit) := (getLink s p).replay.dropWhile (fun x => decide (x.1 ≠ n))

/-- A link that has the flits of `rest` to send again. -/
def resending (l : PortLink) (rest : List (Nat × TxFlit)) : PortLink :=
  { l with replay := rest, replays := if decide (rest.length = l.replay.length) then l.replays + 1 else 1 }

/-- The flits of `rest` leave again. -/
def resent (s : State) (p : Nat) (rest : List (Nat × TxFlit)) : State :=
  { s with fab := { s.fab with tx := s.fab.tx ++ rest.map (fun x => { x.2 with ack := ackSeq s p }) } }

theorem exec_nak {s : State} {p : Port} {n : Nat} (hrest : unacked s p.val n ≠ []) (hlit : 3 ≤ portState s p.val)
    (hretry : (unacked s p.val n).length < (getLink s p.val).replay.length ∨ (getLink s p.val).replays < 8) :
    exec (.nak p ⟨n, false⟩) s = .next (countEvent
      (incr (resent (setLink s p.val (resending (getLink s p.val) (unacked s p.val n))) p.val (unacked s p.val n)) (0x401200 + p.val) 1)
      (fun c => { c with evRetries := c.evRetries + 1 })) := by
  have hgoes : ¬ (unacked s p.val n = [] ∨ portState s p.val ≤ 2) := fun h => h.elim hrest (by omega)
  have hkeeps : ¬ (decide ((unacked s p.val n).length = (getLink s p.val).replay.length) = true ∧ 8 ≤ (getLink s p.val).replays) := by
    rintro ⟨hlen, h8⟩
    have := of_decide_eq_true hlen
    omega
  exact congrArg Host.Outcome.next ((if_neg Bool.false_ne_true).trans ((if_neg hgoes).trans (if_neg hkeeps)))

theorem ackSeq_setLink {s : State} {p : Nat} {l : PortLink} (h : l.rxSeq = (getLink s p).rxSeq) : ackSeq (setLink s p l) p = ackSeq s p := by
  rw [ackSeq, getLink_setLink_self, h, ackSeq]

/-- A NAK has the flits from the one that it names sent again, each with the acknowledgement of the moment. -/
theorem nak_effect {s : State} {p : Port} {n : Nat} (hrest : unacked s p.val n ≠ []) (hlit : 3 ≤ portState s p.val)
    (hretry : (unacked s p.val n).length < (getLink s p.val).replay.length ∨ (getLink s p.val).replays < 8) :
    ∃ t, exec (.nak p ⟨n, false⟩) s = .next t ∧ (getLink t p.val).replay = unacked s p.val n ∧
      t.fab.tx = s.fab.tx ++ (unacked s p.val n).map (fun x => { x.2 with ack := ackSeq s p.val }) := by
  refine ⟨_, exec_nak hrest hlit hretry, ?_, ?_⟩
  · rw [getLink_congr (countEvent_fab _ _), getLink_incr]
    exact congrArg PortLink.replay (getLink_setLink_self _ _ _)
  · have hack := ackSeq_setLink (s := s) (p := p.val) (l := resending (getLink s p.val) (unacked s p.val n)) rfl
    rw [countEvent_fab, incr_fab, resent, hack]
    rfl

/-! ### Slots (R221, R223) -/

/-- VC0 under its cap is asked first. -/
theorem grantOrder_vc0 {s : State} {l : PortLink} (h : underCap s l 0 = true) : ∃ vs, grantOrder s l = 0 :: vs := by
  rw [grantOrder, List.filter_cons_of_pos h]
  exact ⟨_, rfl⟩

theorem firstReady_head {ok : TxFlit → Bool} {f : TxFlit} (rest : List TxFlit) (h : ok f = true) :
    firstReady ok f.vc [] (f :: rest) = some (f, rest) := by
  rw [firstReady, if_pos (by simp [h])]
  rfl

theorem slot_grants_vc0 {s : State} {p : Nat} {f : TxFlit} {rest : List TxFlit} (hqueue : (getLink s p).queue = f :: rest)
    (hframe : (getLink s p).frame ≠ 0) (hvc : f.vc = 0) (hcap : underCap s (getLink s p) 0 = true) (hready : flitReady s p f = true) :
    slot s p = grant s p f rest := by
  obtain ⟨vs, hvs⟩ := grantOrder_vc0 hcap
  have hfirst := firstReady_head rest hready
  rw [hvc] at hfirst
  simp only [slot, hframe, false_and, if_false, hvs, List.findSome?_cons, hqueue, hfirst]

theorem slot_idles {s : State} {p : Nat} (hqueue : (getLink s p).queue = []) (hstate : portState s p ≠ 5) :
    slot s p = emit s p (trailed s p (idleFlit s) 0) := by
  have hnone : (grantOrder s (getLink s p)).findSome? (fun v => firstReady (flitReady s p) v [] []) = none :=
    List.findSome?_eq_none_iff.mpr (fun _ _ => rfl)
  simp only [slot, hqueue, ne_eq, not_true_eq_false, and_false, if_false, hnone, hstate]

/-! ### Flits (O39) -/

/-- Settles O39: a flit by whether it is in sequence, has failed or has come before; a NAK by its replay; the slots by what waits. -/
theorem flitsAreForwardedOrReplayed : Obligations.FlitsAreForwardedOrReplayed := by
  unfold Obligations.FlitsAreForwardedOrReplayed
  refine ⟨?link, fun s p f rest => slot_grants_vc0, fun s p => slot_idles⟩
  case link =>
    intro s f x p l d hcarried hroom hbusy
    have hlands : Lands s f := ⟨hcarried, hroom, hbusy⟩
    refine ⟨fun hseq hresv hscrub hdest hhops hvc => ?inOrder, fun ok hbad => ⟨fun hfirst => ?naks, fun m hm hlater => ?silent⟩,
      flitForward_again hlands, fun _ => nak_effect⟩
    case inOrder =>
      intro s' g
      obtain ⟨hroutes, hvc0⟩ := transit_onward (s := setLink s p (received l x)) x.payload hdest hscrub hhops hvc
      rw [flitForward_inOrder hlands hseq hresv]
      exact ⟨fun hne hepoch => congrArg _ (hroutes hne hepoch), fun heq => congrArg _ (hvc0 heq)⟩
    case naks =>
      obtain ⟨m, hm⟩ := discardFlit_effect hfirst
      exact ⟨_, m, flitForward_fails hlands hbad, hm⟩
    case silent => exact (flitForward_fails hlands hbad).trans (congrArg _ (discardFlit_silent hm hlater))

end Sys2Proof.FabricProofs
end


section
/-! PROOFS. Writes of the fabric's entries: what each entry's rule answers (R213 to R215, R228, R231, R233, R259). -/

namespace Sys2Proof.FabricProofs

open Sys2Proof Sys2Proof.Machine Sys2Proof.Laws Sys2Proof.PackageProofs Sys2Proof.WriteProofs

/-! ### Places and routes (R213 to R215) -/

theorem deviceIdWrite_ok {s : State} (v : Nat) (h : rd s 0x400200 = 0) :
    deviceIdWrite s v = .ok (checkAllPorts (wrHost s 0x400100 v)) := if_neg (not_not.mpr h)

theorem deviceIdWrite_committed {s : State} (v : Nat) (h : rd s 0x400200 ≠ 0) : deviceIdWrite s v = .error 0x0D01 := if_pos h

theorem systemShapeWrite_ok {s : State} {v g q : Nat} (hv : v = g * 65536 + q * 256) (hg : 1 ≤ g ∧ g ≤ 256) (hq : 1 ≤ q ∧ q ≤ 32)
    (h : rd s 0x400200 = 0) : systemShapeWrite s v = .ok (checkAllPorts (wrHost s 0x400300 v)) := by
  have hreserved : ¬ v % 256 ≠ 0 := by omega
  have hrange : ¬ (v / 65536 = 0 ∨ 256 < v / 65536 ∨ v / 256 % 256 = 0 ∨ 32 < v / 256 % 256) := by omega
  rw [systemShapeWrite, if_neg (not_not.mpr h), if_neg hreserved, if_neg hrange]

theorem systemShapeWrite_committed {s : State} (v : Nat) (h : rd s 0x400200 ≠ 0) : systemShapeWrite s v = .error 0x0D01 := if_pos h

theorem routeCommitWrite_ok {s : State} {e : Nat} (he : rd s 0x400200 < e)
    (hshadow : ∀ k ∈ routeKeys, routeEntryOk k (tget 0 s.fab.shadow k) = true) :
    routeCommitWrite s e = .ok (bumpSnap (addFence s (.routeCommit e s.fab.shadow)) 0x400201) := by
  have hall : routeKeys.all (fun k => routeEntryOk k (tget 0 s.fab.shadow k)) = true := List.all_eq_true.mpr hshadow
  rw [routeCommitWrite, if_neg (Nat.not_le.mpr he), hall]
  rfl

theorem routeCommitWrite_old {s : State} {e : Nat} (he : e ≤ rd s 0x400200) : routeCommitWrite s e = .error 0x0D02 := if_pos he

/-! ### The arbiter's weights and caps (R223, R233) -/

theorem vcArbWrite_ok {s : State} {v : Nat} (h0 : 1 ≤ v / 2 ^ (8 * 0) % 256 ∧ v / 2 ^ (8 * 0) % 256 ≤ 20)
    (hw : ∀ i ∈ [1, 2, 3, 4, 6], 1 ≤ v / 2 ^ (8 * i) % 256 ∧ v / 2 ^ (8 * i) % 256 ≤ 96)
    (hsum : v / 2 ^ (8 * 1) % 256 + v / 2 ^ (8 * 2) % 256 + v / 2 ^ (8 * 3) % 256 + v / 2 ^ (8 * 4) % 256 + v / 2 ^ (8 * 6) % 256 = 100)
    (h5 : 1 ≤ v / 2 ^ (8 * 5) % 256 ∧ v / 2 ^ (8 * 5) % 256 ≤ 250) (h7 : v / 2 ^ (8 * 7) % 256 = 0) :
    vcArbWrite s v = .ok (wrHost s 0x403008 v) := by
  have hall : ([1, 2, 3, 4, 6].map (fun i => v / 2 ^ (8 * i) % 256)).all (fun w => decide (1 ≤ w ∧ w ≤ 96)) = true := by
    rw [List.all_map, List.all_eq_true]
    exact fun i hi => decide_eq_true (hw i hi)
  have htotal : ([1, 2, 3, 4, 6].map (fun i => v / 2 ^ (8 * i) % 256)).foldl (· + ·) 0 = 100 := by
    simp only [List.map_cons, List.map_nil, List.foldl_cons, List.foldl_nil, Nat.zero_add, hsum]
  simp only [List.map_cons, List.map_nil] at hall htotal
  simp only [vcArbWrite, hall, htotal, h0, h5, h7, and_self, decide_true, Bool.and_self, if_true]

theorem arbSet_lt (s : State) (vc : Nat) : arbSet s vc < 2 ^ (8 * typeSize .u8) := Nat.mod_lt _ (by decide)

/-- A frame takes up the weights last set. -/
theorem rd_newFrame (s : State) (p : Nat) {i : Nat} (hi : i ∈ [1, 2, 3, 4, 6]) : rd (newFrame s p) (0x403000 + i) = arbSet s i := by
  have hlt : ∀ j ∈ [1, 2, 3, 4, 6], j < 8 := by decide
  have hlinks : rd (newFrame s p) (0x403000 + i) =
      rd ([1, 2, 3, 4, 6].foldl (fun s v => wr s (0x403000 + v) (arbSet s v)) s) (0x403000 + i) := by simp only [newFrame, rd_setLink]
  have hfold : rd ([1, 2, 3, 4, 6].foldl (fun s v => wr s (0x403000 + v) (arbSet s v)) s) (0x403000 + i) =
      if i ∈ [1, 2, 3, 4, 6] then fitEntry (0x403000 + i) (arbSet s i) else rd s (0x403000 + i) :=
    rd_foldl_wr_from (src := 0x403008) (key := fun i => 0x403000 + i) (fun w i => w / 2 ^ (8 * i) % 256) [1, 2, 3, 4, 6]
      (fun j hj => by have := hlt j hj; omega) (fun j _ k h => Nat.add_left_cancel h) s i
  rw [hlinks, hfold, if_pos hi, fitEntry_of_type (vcArb_type ⟨i, hlt i hi⟩), Nat.mod_eq_of_lt (arbSet_lt s i)]

/-- A window takes up the caps last set. -/
theorem rd_newWindow (s : State) {i : Nat} (hi : i ∈ [0, 5]) : rd (newWindow s) (0x403000 + i) = arbSet s i := by
  have hlinks (k : Nat) : rd (newWindow s) k = rd (wr (wr s 0x403000 (arbSet s 0)) 0x403005 (arbSet s 5)) k := rfl
  rw [hlinks]
  simp only [List.mem_cons, List.not_mem_nil, or_false] at hi
  rcases hi with rfl | rfl
  · rw [rd_wr_ne _ _ (by decide)]
    exact rd_wr_fits s (vcArb_type 0) (arbSet_lt s 0)
  · exact rd_wr_fits _ (vcArb_type 5) (arbSet_lt s 5)

/-! ### Ports (R231) -/

theorem portCtrlWrite_drains {s : State} {p : Nat} (h : solePath s p = false) :
    portCtrlWrite s p 1 = .ok (bumpSnap (startDrain s p) (0x401300 + p)) ∧
    portCtrlWrite s p 3 = .ok (bumpSnap (startDrain s p) (0x401300 + p)) := by
  have hfree : ¬ (portState s p = 3 ∧ solePath s p = true) := by simp [h]
  exact ⟨if_neg hfree, if_neg hfree⟩

theorem portCtrlWrite_solePath {s : State} {p : Nat} (hup : portState s p = 3) (h : solePath s p = true) :
    portCtrlWrite s p 1 = .error 0x0D04 ∧ portCtrlWrite s p 3 = .error 0x0D04 := ⟨if_pos ⟨hup, h⟩, if_pos ⟨hup, h⟩⟩

theorem portCtrlWrite_returns {s : State} {p : Nat} (h : portState s p ∈ [1, 4, 5, 6]) :
    portCtrlWrite s p 4 = .ok (bumpSnap (portTrain s p) (0x401300 + p)) :=
  if_pos (by simpa only [List.mem_cons, List.not_mem_nil, or_false] using h)

theorem portCtrlWrite_tests {s : State} {p : Nat} (h : portState s p ≠ 0) : portCtrlWrite s p 5 =
    .ok (bumpSnap (reroute (clearSamples (setPort s p 5) p) p (fun f => decide (f.vc = 0))) (0x401300 + p)) := if_neg h

/-! ### The by-pass (R228) -/

theorem bypassWrite_opens {s : State} (hod : rd s 0x10101F = 2) (hlaser : rd s 0x405000 = 0) :
    bypassWrite s 2 = .ok (bumpSnap (moveSwitch (moveSwitch s 0 0) 1 0) 0x404001) := if_pos ⟨hod, hlaser⟩

theorem bypassWrite_unlit {s : State} (h : rd s 0x10101F ≠ 2 ∨ rd s 0x405000 ≠ 0) : bypassWrite s 2 = .error 0x0D05 :=
  if_neg (fun ⟨hod, hlaser⟩ => h.elim (fun hn => hn hod) (fun hn => hn hlaser))

/-! ### The writes (O42) -/

/-- Settles O42: each write through its row's rule, and the rule's answer for the entry. -/
theorem fabricWritesTakeEffect : Obligations.FabricWritesTakeEffect := by
  unfold Obligations.FabricWritesTakeEffect
  intro s r
  refine ⟨fun v h => takes_row rfl (deviceIdWrite_ok _ h), fun v h => refuses_row rfl (by decide) (deviceIdWrite_committed _ h),
    fun v g q hv hg1 hg hq1 hq h => takes_row rfl (systemShapeWrite_ok hv ⟨hg1, hg⟩ ⟨hq1, hq⟩ h),
    fun v h => refuses_row rfl (by decide) (systemShapeWrite_committed _ h),
    fun v h0 h0' hw hsum h5 h5' h7 => takes_row rfl (vcArbWrite_ok ⟨h0, h0'⟩ hw hsum ⟨h5, h5'⟩ h7),
    fun p => ⟨fun i => rd_newFrame s p, fun i => rd_newWindow s⟩, fun e he hshadow => takes_row rfl (routeCommitWrite_ok he hshadow),
    fun e he => refuses_row rfl (by decide) (routeCommitWrite_old he), fun p => ⟨fun _ hpath => ?drain, fun hup hpath => ?sole,
      takes_row rfl rfl, fun hback => takes_row rfl (portCtrlWrite_returns hback), fun hlit => takes_row rfl (portCtrlWrite_tests hlit)⟩,
    takes_row rfl rfl, fun hod hlaser => takes_row rfl (bypassWrite_opens hod hlaser),
    fun h => refuses_row rfl (by decide) (bypassWrite_unlit h), fun v => takes_row rfl rfl⟩
  case drain =>
    obtain ⟨hdrain, hrecal⟩ := portCtrlWrite_drains hpath
    exact ⟨takes_row rfl hdrain, takes_row rfl hrecal⟩
  case sole =>
    obtain ⟨hdrain, hrecal⟩ := portCtrlWrite_solePath hup hpath
    exact ⟨refuses_row rfl (by decide) hdrain, refuses_row rfl (by decide) hrecal⟩

end Sys2Proof.FabricProofs
end


section
/-! PROOFS. Collective packets as they arrive, residue checks, the end of a collective, lateness windows (R216, R237, R277 to R283). -/

namespace Sys2Proof.CollProofs

open Sys2Proof Sys2Proof.Machine Sys2Proof.Laws Sys2Proof.PackageProofs Sys2Proof.WriteProofs Sys2Proof.StepProofs Sys2Proof.FabricProofs

/-! ### Packets (R216, R237) -/

theorem collArrive_elsewhere {s : State} {f : Flit} (kind : Nat) (p : CPkt) (h : packetArrives s f [3] = false) : collArrive kind f p s = s := by
  rw [collArrive, h]
  rfl

theorem collArrive_reserved {s : State} {f : Flit} {kind : Nat} {p : CPkt} (h : packetArrives s f [3] = true)
    (hres : f.resv = true ∨ collReserved kind p = true) : collArrive kind f p s = incr s 0x407402 1 := by
  have hbad : (f.resv || collReserved kind p) = true := by rw [Bool.or_eq_true]; exact hres
  rw [collArrive, h, hbad]
  rfl

section
variable {s : State} {f : Flit} {kind : Nat} {p : CPkt} (h : packetArrives s f [3] = true) (hresv : f.resv = false)
  (hres : collReserved kind p = false)
include h hresv hres

theorem collArrive_otherEpoch (hepoch : f.epoch ≠ rd s 0x400200 % 65536) : collArrive kind f p s = incr s 0x406000 1 := by
  simp only [collArrive, h, hresv, hres, hepoch, Bool.not_true, Bool.or_self, Bool.false_eq_true, ne_eq, not_false_eq_true, if_false, if_true]

/-- A packet of this epoch is held against the collective in progress. -/
theorem collArrive_checked (hepoch : f.epoch = rd s 0x400200 % 65536) {id : Nat} (hid : runningId s = some id) :
    collArrive kind f p s =
      if p.step < (getC s id).step ∨ (p.step = (getC s id).step ∧ p.seq < (getC s id).collSeq) then s
      else collPump (setC s id { getC s id with collIn := (getC s id).collIn ++ [(kind, p)] }) id := by
  simp only [collArrive, h, hresv, hres, hepoch, hid, Bool.not_true, Bool.or_self, Bool.false_eq_true, ne_eq, not_true_eq_false, if_false]

theorem collArrive_joins (hepoch : f.epoch = rd s 0x400200 % 65536) {id : Nat} (hid : runningId s = some id)
    (hlater : (getC s id).step < p.step ∨ (p.step = (getC s id).step ∧ (getC s id).collSeq ≤ p.seq)) :
    collArrive kind f p s = collPump (setC s id { getC s id with collIn := (getC s id).collIn ++ [(kind, p)] }) id :=
  (collArrive_checked h hresv hres hepoch hid).trans (if_neg (by omega))

theorem collArrive_over (hepoch : f.epoch = rd s 0x400200 % 65536) {id : Nat} (hid : runningId s = some id)
    (hover : p.step < (getC s id).step ∨ (p.step = (getC s id).step ∧ p.seq < (getC s id).collSeq)) : collArrive kind f p s = s :=
  (collArrive_checked h hresv hres hepoch hid).trans (if_pos hover)

end

/-! ### Residue checks (R277, R278) -/

theorem getC_congr {s t : State} (h : t.ctxs = s.ctxs) (id : Nat) : getC t id = getC s id := by rw [getC, h, getC]

/-- A corrupt chunk makes the context's votes dirty, and changes nothing else of it. -/
theorem getC_raiseCorrupt (s : State) (id ch code : Nat) :
    getC (raiseCorrupt s id ch code) id = { getC s id with corruptSinceCommit := true } := by
  rw [raiseCorrupt, getC_congr (raiseEvent_ctxs _ _ _ _ _), getC_congr (incr_ctxs _ _ _), modC, getC_setC_self]

/-- A check has been counted and taken off. -/
def checkCounted (s : State) (id : Nat) (c : Context) (ks : List (Bool × Nat × Nat)) : State :=
  incr (setC s id { c with checks := ks }) 0x408300 1

theorem getC_checkCounted (s : State) (id : Nat) (c : Context) (ks : List (Bool × Nat × Nat)) :
    getC (checkCounted s id c ks) id = { c with checks := ks } := by
  rw [checkCounted, getC_congr (incr_ctxs _ _ _), getC_setC_self]

theorem exec_residueCheckDone {s : State} {id : Nat} {c : Context} {ok : Bool} {st : Nat × Nat} {ks : List (Bool × Nat × Nat)}
    (hfind : s.ctxs.find? (fun p => !p.2.checks.isEmpty) = some (id, c)) (hchecks : c.checks = (ok, st) :: ks) :
    exec .residueCheckDone s =
      .next (if ok then checkCounted s id c ks else raiseCorrupt (checkCounted s id c ks) id st.2 0x0403) := by
  have hexec : exec .residueCheckDone s = execResidueCheckDone s := rfl
  rw [hexec, execResidueCheckDone]
  simp only [hfind, hchecks]
  rfl

theorem residueCheckDone_effect {s : State} {id : Nat} {c : Context} {ok : Bool} {st : Nat × Nat} {ks : List (Bool × Nat × Nat)}
    (hfind : s.ctxs.find? (fun p => !p.2.checks.isEmpty) = some (id, c)) (hchecks : c.checks = (ok, st) :: ks) :
    ∃ t, exec .residueCheckDone s = .next t ∧ (getC t id).checks = ks ∧
      (getC t id).corruptSinceCommit = (c.corruptSinceCommit || !ok) ∧ (getC t id).vmem = c.vmem ∧ (getC t id).workers = c.workers := by
  refine ⟨_, exec_residueCheckDone hfind hchecks, ?_⟩
  cases ok with
  | true =>
    rw [if_pos rfl, getC_checkCounted]
    exact ⟨rfl, (Bool.or_false _).symm, rfl, rfl⟩
  | false =>
    rw [if_neg Bool.false_ne_true, getC_raiseCorrupt, getC_checkCounted]
    exact ⟨rfl, (Bool.or_true _).symm, rfl, rfl⟩

/-! ### The end of a collective (R283) -/

theorem pushRecord_vmem (c : Context) (r : Nat) : (pushRecord c r).vmem = c.vmem := by
  rw [pushRecord, ewr_vmem]
  exact List.foldlRecOn (motive := fun d : Context => d.vmem = c.vmem) _ _ rfl (fun d hd i _ => (ewr_vmem d _ _).trans hd)

/-- A worker halts with its collective, and its failure is noted. -/
def collHalted (code : Nat) (fail : CollReq → Nat) (c : Context) (r : CollReq) : Context :=
  ewr (setW c r.cluster { getW c r.cluster with run := .halted code, wait := none }) 0x407002 (fail r)

theorem collHalted_run (code : Nat) (fail : CollReq → Nat) (c : Context) (r : CollReq) :
    (getW (collHalted code fail c r) r.cluster).run = .halted code := by
  rw [collHalted, getW_ewr, getW_setW_self]

theorem collHalted_keeps {code cl : Nat} {c : Context} (fail : CollReq → Nat) (r : CollReq) (h : (getW c cl).run = .halted code) :
    (getW (collHalted code fail c r) cl).run = .halted code := by
  by_cases hcl : cl = r.cluster
  · rw [hcl, collHalted_run]
  · rw [collHalted, getW_ewr, getW_setW_ne _ _ _ _ hcl, h]

/-- Every worker of a collective halts. -/
theorem foldl_collHalted (code : Nat) (fail : CollReq → Nat) (rs : List CollReq) (c : Context) :
    (rs.foldl (collHalted code fail) c).vmem = c.vmem ∧
    ∀ r ∈ rs, (getW (rs.foldl (collHalted code fail) c) r.cluster).run = .halted code :=
  ⟨List.foldlRecOn (motive := fun d : Context => d.vmem = c.vmem) rs _ rfl (fun _ hd _ _ => (ewr_vmem _ _ _).trans hd),
    fun r hr => foldl_reaches (P := fun d => (getW d r.cluster).run = .halted code) (fun d => collHalted_run code fail d r)
      (fun _ r' _ _ h => collHalted_keeps fail r' h) hr c⟩

/-- The end of a job changes the module's state alone of its context. -/
theorem getC_endJob_self (s : State) (id cls code : Nat) : ∃ m, getC (endJob s id cls code) id = { getC s id with modState := m } := by
  rw [getC_endJob]
  split
  · exact ⟨_, rfl⟩
  · exact ⟨_, rfl⟩

theorem collEnd_entered {s : State} {id : Nat} {x : Coll} (code : Nat) (device : Option Nat) (hx : (getC s id).coll = some x)
    (hin : x.entered = true) : ∃ (u : State) (r : Nat) (fail : CollReq → Nat), collEnd s id code device =
      endJob (setC u id { x.reqs.foldl (collHalted code fail) (pushRecord (getC s id) r) with coll := none }) id 0x05 code := by
  simp only [collEnd, hx, hin, Bool.not_true, Bool.false_eq_true, if_false]
  exact ⟨_, _, _, rfl⟩

theorem collEnd_effect {s : State} {id : Nat} {x : Coll} (code : Nat) (device : Option Nat) (hx : (getC s id).coll = some x)
    (hin : x.entered = true) : (getC (collEnd s id code device) id).coll = none ∧
      (getC (collEnd s id code device) id).vmem = (getC s id).vmem ∧
      ∀ r ∈ x.reqs, (getW (getC (collEnd s id code device) id) r.cluster).run = .halted code := by
  obtain ⟨u, rec, fail, hend⟩ := collEnd_entered code device hx hin
  obtain ⟨hvmem, hruns⟩ := foldl_collHalted code fail x.reqs (pushRecord (getC s id) rec)
  obtain ⟨m, hctx⟩ := getC_endJob_self (setC u id { x.reqs.foldl (collHalted code fail) (pushRecord (getC s id) rec) with coll := none })
    id 0x05 code
  rw [hend, hctx, getC_setC_self]
  exact ⟨rfl, hvmem.trans (pushRecord_vmem _ _), hruns⟩

theorem collectiveTimeout_effect {s : State} {id : Nat} {x : Coll} (hid : runningId s = some id) (hx : (getC s id).coll = some x)
    (hin : x.entered = true) : ∃ t, exec .collectiveTimeout s = .next t ∧ (getC t id).coll = none ∧ (getC t id).vmem = (getC s id).vmem ∧
      ∀ r ∈ x.reqs, (getW (getC t id) r.cluster).run = .halted 0x0404 := by
  have hexec : exec .collectiveTimeout s = execCollectiveTimeout s := rfl
  rw [execCollectiveTimeout, hid] at hexec
  exact ⟨_, hexec, collEnd_effect 0x0404 none hx hin⟩

/-! ### Lateness windows (R281) -/

theorem erd_ewr_self (c : Context) (k v : Nat) : erd (ewr c k v) k = v := by
  unfold ewr
  split
  · assumption
  · exact tget_tset_self _ _ _ _

/-- Lateness counter `i` becomes the previous window's, and restarts. -/
def lateTurn (c : Context) (i : Nat) : Context := ewr (ewr c (0x408204 + i) (erd c (0x408200 + i))) (0x408200 + i) 0

/-- The four counters of a context. -/
def lateTurned (c : Context) : Context := (List.range 4).foldl lateTurn c

/-- After the first `n` counters have turned. -/
theorem foldl_lateTurn (c : Context) {n i : Nat} (hn : n ≤ 4) (hi : i < 4) :
    erd ((List.range n).foldl lateTurn c) (0x408200 + i) = (if i < n then 0 else erd c (0x408200 + i)) ∧
    (i < n → erd ((List.range n).foldl lateTurn c) (0x408204 + i) = erd c (0x408200 + i)) := by
  induction n with
  | zero => exact ⟨rfl, fun h => absurd h (Nat.not_lt_zero i)⟩
  | succ n ih =>
    obtain ⟨hcur, hprev⟩ := ih (by omega)
    rw [List.range_succ, List.foldl_append, List.foldl_cons, List.foldl_nil, lateTurn]
    by_cases h : i = n
    · subst h
      rw [erd_ewr_self, erd_ewr_ne _ _ (by omega), erd_ewr_self, hcur, if_pos (Nat.lt_succ_self i), if_neg (Nat.lt_irrefl i)]
      exact ⟨rfl, fun _ => rfl⟩
    · have hlt : i < n + 1 ↔ i < n := by omega
      rw [erd_ewr_ne _ _ (by omega), erd_ewr_ne _ _ (by omega), erd_ewr_ne _ _ (by omega), erd_ewr_ne _ _ (by omega), hcur]
      simp only [hlt]
      exact ⟨trivial, hprev⟩

theorem erd_lateTurned (c : Context) {i : Nat} (hi : i < 4) :
    erd (lateTurned c) (0x408204 + i) = erd c (0x408200 + i) ∧ erd (lateTurned c) (0x408200 + i) = 0 := by
  obtain ⟨hcur, hprev⟩ := foldl_lateTurn c (Nat.le_refl 4) hi
  exact ⟨hprev hi, hcur.trans (if_pos hi)⟩

theorem tsorted_keys_nodup {α : Type} {m : Tbl α} (h : tsorted m = true) : (m.map (fun p => p.1)).Nodup := by
  induction m with
  | nil => exact List.nodup_nil
  | cons p m ih =>
    simp only [tsorted, Bool.and_eq_true, List.all_eq_true, decide_eq_true_eq] at h
    obtain ⟨hfirst, hrest⟩ := h
    refine List.nodup_cons.mpr ⟨fun hp => ?_, ih hrest⟩
    obtain ⟨q, hq, heq⟩ := List.mem_map.mp hp
    exact absurd heq (Nat.ne_of_gt (hfirst q hq))

theorem liveIds_nodup {s : State} (h : tsorted s.ctxs = true) : (liveIds s).Nodup := tsorted_keys_nodup (tsorted_filter _ _ h)

theorem mem_liveIds {s : State} {id : Nat} (h : (getC s id).live = true) : id ∈ liveIds s := by
  rcases tget_default_or_mem Context.dead s.ctxs id with hdead | hmem
  · rw [getC, hdead] at h
    exact absurd h (by decide)
  · exact List.mem_map.mpr ⟨_, List.mem_filter.mpr ⟨hmem, h⟩, rfl⟩

/-- Contexts that are each changed once. -/
theorem getC_foldl_modC (g : Context → Context) {ids : List Nat} (hids : ids.Nodup) (s : State) (id : Nat) :
    getC (ids.foldl (fun s j => modC s j g) s) id = if id ∈ ids then g (getC s id) else getC s id := by
  induction ids generalizing s with
  | nil => rfl
  | cons j ids ih =>
    obtain ⟨hj, hnodup⟩ := List.nodup_cons.mp hids
    rw [List.foldl_cons, ih hnodup, modC, getC_setC]
    by_cases h : id = j
    · subst h; simp [hj]
    · simp [h]

theorem exec_lateWindowEnd (s : State) : exec .lateWindowEnd s = .next ((liveIds s).foldl (fun s id => modC s id lateTurned) s) := rfl

theorem lateWindowEnd_effect {s : State} (h : Sound s) : ∃ t, exec .lateWindowEnd s = .next t ∧ ∀ id, (getC s id).live = true →
    ∀ i, i < 4 → erd (getC t id) (0x408204 + i) = erd (getC s id) (0x408200 + i) ∧ erd (getC t id) (0x408200 + i) = 0 := by
  obtain ⟨-, -, -, -, hsorted⟩ := h
  refine ⟨_, exec_lateWindowEnd s, fun id hlive i hi => ?_⟩
  rw [getC_foldl_modC lateTurned (liveIds_nodup hsorted), if_pos (mem_liveIds hlive)]
  exact erd_lateTurned _ hi

/-! ### Collective packets and events (O38) -/

/-- Settles O38: a packet by the checks in the order of its arrival, then the three events. -/
theorem collectivePacketsAndEventsTakeEffect : Obligations.CollectivePacketsAndEventsTakeEffect := by
  unfold Obligations.CollectivePacketsAndEventsTakeEffect
  refine ⟨?packets, fun s => ⟨fun id c ok st ks => residueCheckDone_effect, fun id x => collectiveTimeout_effect, lateWindowEnd_effect⟩⟩
  case packets =>
    intro s f p id hid c as kind hkind
    have harrives {t : State} (ht : collArrive kind f p s = t) : as kind t := by
      simp only [List.mem_cons, List.not_mem_nil, or_false] at hkind
      rcases hkind with rfl | rfl | rfl | rfl | rfl <;> exact congrArg Host.Outcome.next ht
    refine ⟨fun h => harrives (collArrive_elsewhere kind p h), fun h => ⟨fun hresv hres hepoch =>
        ⟨fun hlater => harrives (collArrive_joins h hresv hres hepoch hid hlater),
          fun hover => harrives (collArrive_over h hresv hres hepoch hid hover)⟩,
      fun hresv hres hepoch => harrives (collArrive_otherEpoch h hresv hres hepoch), fun hres => harrives (collArrive_reserved h hres)⟩⟩

end Sys2Proof.CollProofs
end


section
/-! PROOFS. Remote requests at their target: the checks in the order of their arrival, what an admitted one does, and the bytes of a masked line
write (R216, R237 to R244, R249, R251, R253). -/

namespace Sys2Proof.RemoteProofs

open Sys2Proof Sys2Proof.Machine Sys2Proof.Laws

/-! ### The checks of a request (R216, R237, R239) -/

section
variable {s : State} {f : Flit} {p : RPkt} {vcs spaces : List Nat} {write mask inc : Bool} {rvc rkind : Nat} {ok : State → State}

theorem request_elsewhere (h : packetArrives s f vcs = false) : request s f p vcs spaces write mask inc rvc rkind ok = s := by
  rw [request, h]
  rfl

theorem request_admitted (h : Admitted s f p vcs spaces write mask inc) : request s f p vcs spaces write mask inc rvc rkind ok = ok s := by
  obtain ⟨harrives, hresv, hres, hepoch, hadmit⟩ := h
  simp only [request, harrives, hresv, hres, hepoch, hadmit, Bool.not_true, Bool.or_self, Bool.false_eq_true, ne_eq, not_true_eq_false, if_false]

theorem request_reserved (h : packetArrives s f vcs = true) (hresv : f.resv = true) :
    request s f p vcs spaces write mask inc rvc rkind ok = incr s 0x407402 1 := by
  rw [request, h, hresv]
  rfl

variable (h : packetArrives s f vcs = true) (hresv : f.resv = false) (hres : reqReserved p mask inc = false)
include h hresv hres

theorem request_otherEpoch (hepoch : f.epoch ≠ rd s 0x400200 % 65536) :
    request s f p vcs spaces write mask inc rvc rkind ok = respond (incr s 0x406000 1) f p 2 0x0C (f.port.val % 4) 3 0 := by
  simp only [request, h, hresv, hres, Bool.not_true, Bool.or_self, Bool.false_eq_true, if_false, if_pos hepoch]

theorem request_refused (hepoch : f.epoch = rd s 0x400200 % 65536) {st : Nat} (hadmit : admitReq s f p spaces write = (s, some st)) :
    request s f p vcs spaces write mask inc rvc rkind ok = respond s f p rvc rkind (f.port.val % 4) st 0 := by
  simp only [request, h, hresv, hres, hepoch, hadmit, Bool.not_true, Bool.or_self, Bool.false_eq_true, ne_eq, not_true_eq_false, if_false]

end

section
variable {s : State} {f : Flit} {p : RPkt} {spaces : List Nat} (write : Bool) (hsp : addrSpace p.addr = 1)
include hsp

theorem admitReq_unmapped (hoff : layoutPages (modOf (getC s p.ctx)) * pageBytes ≤ addrOffset p.addr) :
    admitReq s f p spaces write = (s, some 2) := by
  simp [admitReq, hsp, hoff]

theorem admitReq_stranger (hin : 1 ∈ spaces) (hoff : addrOffset p.addr < layoutPages (modOf (getC s p.ctx)) * pageBytes)
    (hline : addrOffset p.addr % 128 = 0)
    (hout : (getC s p.ctx).live = false ∨ (getC s p.ctx).memKey = none ∨ f.src ∉ (getC s p.ctx).ids) :
    admitReq s f p spaces write = (s, some 1) := by
  have hmember : ((getC s p.ctx).live && (getC s p.ctx).memKey.isSome && decide (f.src ∈ (getC s p.ctx).ids)) = false := by
    rcases hout with h | h | h <;> simp [h]
  simp [admitReq, hsp, hin, hoff, hline, hmember]

end

/-- Settles O34: the checks in the order of their arrival, then those of R239. -/
theorem refusedRequestsHaveNoEffect : Obligations.RefusedRequestsHaveNoEffect := by
  intro s f p
  have hwrite {t : State} (ht : request s f p [1, 4] [0, 1, 3] true true false 2 0x09 _ = t) : exec (.writeReq f p) s = .next t :=
    congrArg Host.Outcome.next ht
  have hread {t : State} (ht : request s f p [1, 4] [0, 1, 3] false false false 2 0x08 _ = t) : exec (.readReq f p) s = .next t :=
    congrArg Host.Outcome.next ht
  refine ⟨fun h => ⟨hwrite (request_elsewhere h), hread (request_elsewhere h)⟩, fun h =>
    ⟨fun hresv => ⟨hwrite (request_reserved h hresv), hread (request_reserved h hresv)⟩,
      fun hresv hres hepoch => hwrite (request_otherEpoch h hresv hres hepoch),
      fun hresv hres hepoch hsp hoff => hwrite (request_refused h hresv hres hepoch (admitReq_unmapped true hsp hoff)),
      fun hresv hres hepoch hsp hoff hline hout =>
        hwrite (request_refused h hresv hres hepoch (admitReq_stranger true hsp (by decide) hoff hline hout))⟩⟩

/-! ### Masked line writes (R151, R241) -/

/-- Byte `i` of a line's data. -/
def dataByte (data : BitVec 1024) (i : Nat) : Byte := (data >>> (8 * i)).setWidth 8

theorem dataByte_eq_extract (data : BitVec 1024) (i : Nat) : dataByte data i = data.extractLsb' (8 * i) 8 := by
  ext j hj
  simp [dataByte]

/-- Bytes of a line stored one after the other: each address holds its own. -/
theorem rdByte_foldl_line (data : BitVec 1024) (line : Nat) (is : List Nat) (m : Mem) (a : Nat) :
    rdByte ((is.map (fun i => (line + i, dataByte data i))).foldl (fun m b => wrByte m b.1 b.2) m) a =
      if line ≤ a ∧ a - line ∈ is then dataByte data (a - line) else rdByte m a := by
  induction is generalizing m with
  | nil => simp
  | cons i is ih =>
    simp only [List.map_cons, List.foldl_cons, ih, rdByte_wrByte, List.mem_cons]
    by_cases h : a = line + i
    · subst h; simp
    · have hne : line ≤ a → a - line ≠ i := by omega
      by_cases hle : line ≤ a
      · simp [h, hle, hne hle]
      · simp [h, hle]

theorem rdByte_putMasked (m : Mem) (line : Nat) (mask : BitVec 128) (data : BitVec 1024) (a : Nat) :
    rdByte (putMasked m line mask data) a = maskedByte line mask data (rdByte m a) a := by
  have h := rdByte_foldl_line data line ((List.range 128).filter (fun i => mask.getLsbD i)) m a
  have hin : (line ≤ a ∧ a - line ∈ (List.range 128).filter (fun i => mask.getLsbD i)) ↔
      line ≤ a ∧ a < line + 128 ∧ mask.getLsbD (a - line) = true := by
    rw [List.mem_filter, List.mem_range]
    constructor <;> rintro ⟨h1, h2, h3⟩ <;> exact ⟨h1, by omega, h3⟩
  simp only [hin, dataByte_eq_extract] at h
  exact h

/-- A line write marks its page: DIRTY set, ZERO cleared, no other page's flags touched. -/
theorem pageFlags_touchPage (c : Context) (g q : Nat) :
    pageFlags (touchPage c g) q = if q = g then (pageFlags c g ||| 0x4000) &&& ~~~ (0x1000 : BitVec 16) else pageFlags c q :=
  tget_tset pageFresh c.pages g q _

theorem takeLine_effect (c : Context) (line : Nat) (mask : BitVec 128) (data : BitVec 1024) :
    (∀ a, rdByte (takeLine c line mask data).vmem a = maskedByte line mask data (rdByte c.vmem a) a) ∧
    (pageFlags (takeLine c line mask data) (line / pageBytes)).getLsbD 14 = true ∧
    (pageFlags (takeLine c line mask data) (line / pageBytes)).getLsbD 12 = false ∧
    (∀ g, g ≠ line / pageBytes → pageFlags (takeLine c line mask data) g = pageFlags c g) ∧
    (takeLine c line mask data).workers = c.workers := by
  have hflags (q : Nat) := pageFlags_touchPage { c with vmem := putMasked c.vmem line mask data } (line / pageBytes) q
  refine ⟨rdByte_putMasked c.vmem line mask data, ?_, ?_, fun g hg => (hflags g).trans (if_neg hg), rfl⟩
  · rw [takeLine, hflags, if_pos rfl]
    simp
  · rw [takeLine, hflags, if_pos rfl]
    simp

theorem accessed_remote (s : State) (c : Context) (a : Nat) (write : Bool) :
    Accessed s c (remoteAccess s c a write).1 (remoteAccess s c a write).2 :=
  accessed_line s c a _ write

theorem getC_takeRemote_self (s : State) (id line : Nat) (mask : BitVec 128) (data : BitVec 1024) :
    getC (takeRemote s id line mask data) id = takeLine (remoteAccess s (getC s id) line true).2 line mask data :=
  getC_setC_self _ _ _

theorem getC_takeRemote_ne (s : State) {id j : Nat} (line : Nat) (mask : BitVec 128) (data : BitVec 1024) (h : j ≠ id) :
    getC (takeRemote s id line mask data) j = getC s j :=
  (getC_setC_ne _ _ _ _ h).trans (congrArg (tget Context.dead · j) (accessed_remote s (getC s id) line true).ctxs)

theorem rdByte_takeRemote (s : State) (id line : Nat) (mask : BitVec 128) (data : BitVec 1024) (a : Nat) :
    rdByte (getC (takeRemote s id line mask data) id).vmem a = maskedByte line mask data (rdByte (getC s id).vmem a) a := by
  obtain ⟨hbytes, -⟩ := takeLine_effect (remoteAccess s (getC s id) line true).2 line mask data
  rw [getC_takeRemote_self, hbytes, (accessed_remote s (getC s id) line true).vmem]

/-! ### Requests that are admitted (R240, R241, R244, R249, R251, R253) -/

section
variable {s : State} {f : Flit} {p : RPkt}

theorem exec_readReq (h : Admitted s f p [1, 4] [0, 1, 3] false false false) : exec (.readReq f p) s = .next
    (if addrSpace p.addr = 0 then respond s f p 2 0x08 0 0 (ownLine s (addrOffset p.addr))
    else if addrSpace p.addr = 3 then (if addrDevice p.addr = ownId s then homeRead s f p else holderRead s f p)
    else readAnswer s f p) :=
  congrArg Host.Outcome.next (request_admitted h)

/-- A line with no bad granule answers. -/
theorem readAnswer_good (hgood : rangeBad (getC s p.ctx) (addrOffset p.addr) 128 = false) :
    let r := remoteAccess s (getC s p.ctx) (addrOffset p.addr) false
    readAnswer s f p = respond (setC r.1 p.ctx r.2) f p 2 0x08 (lineFlow s p.ctx (addrOffset p.addr)) 0
      (lineOf (getC s p.ctx).vmem (addrOffset p.addr)) := by
  simp only [readAnswer, hgood, Bool.false_eq_true, if_false]

/-- A holder answers with the line of its copy. -/
theorem holderRead_held {l : ReplLine}
    (hl : (getC s p.ctx).replLines.find? (fun l => decide (some l.home = rankOf (getC s p.ctx) (addrDevice p.addr) ∧ l.line = addrOffset p.addr)) = some l) :
    holderRead s f p = respond s f p 2 0x08 (lineFlow s p.ctx l.line) 0 l.data := by
  simp only [holderRead, hl]

/-- A write that meets no Sieve entry and no held page is taken in; one in space 0 goes to the device's own pages. -/
theorem exec_writeReq (h : Admitted s f p [1, 4] [0, 1, 3] true true false) :
    (addrSpace p.addr = 1 → sieveHolds s p.ctx (addrOffset p.addr) = false → pageWaits (getC s p.ctx) (addrOffset p.addr / pageBytes) = false →
      exec (.writeReq f p) s = .next (ackWrite (takeRemote s p.ctx (addrOffset p.addr) p.mask p.data) p.ctx f.src p.master p.tag
        (addrOffset p.addr) p.addr)) ∧
    (addrSpace p.addr = 0 → exec (.writeReq f p) s = .next (ackWrite (physWrite s (addrOffset p.addr) p.mask p.data) p.ctx f.src p.master p.tag
      (addrOffset p.addr) p.addr)) := by
  show (_ → _ → _ → execWriteReq f p s = _) ∧ (_ → execWriteReq f p s = _)
  rw [execWriteReq, request_admitted h]
  refine ⟨fun hsp hsieve hpage => ?_, fun hsp => by simp only [hsp, if_true]⟩
  simp only [hsp, hsieve, hpage, Nat.one_ne_zero, Bool.false_eq_true, if_false]

/-- A line of the home's enters the copy of the region that it lies in. -/
theorem exec_replFill (h : Admitted s f p [4] [3] false false false) {home : Nat} {g : Replica} (hhome : rankOf (getC s p.ctx) f.src = some home)
    (hregion : regionAt (getC s p.ctx) (addrOffset p.addr) = some g) :
    exec (.replFill f p) s = .next (setC s p.ctx { getC s p.ctx with
      replLines := ⟨home, addrOffset p.addr, p.data⟩ ::
        (getC s p.ctx).replLines.filter (fun l => !decide (l.home = home ∧ l.line = addrOffset p.addr)) }) := by
  obtain ⟨harrives, hresv, hres, hepoch, hadmit⟩ := h
  show execReplFill f p s = _
  simp only [execReplFill, harrives, hresv, hres, hepoch, hadmit, hhome, hregion, Bool.not_true, Bool.or_self, Bool.false_eq_true, ne_eq,
    not_true_eq_false, if_false]

end

/-- Settles O33: each request by its admitted effect, the line writes byte by byte and page by page. -/
theorem remoteRequestsHaveTheirEffect : Obligations.RemoteRequestsHaveTheirEffect := by
  refine ⟨fun s f p => ⟨fun h => ⟨fun hsp hgood => ?_, fun hsp => ?_, fun l hsp hdev hl => ?_⟩, exec_writeReq,
      fun h => congrArg Host.Outcome.next (request_admitted h), fun h => congrArg Host.Outcome.next (request_admitted h),
      fun h => congrArg Host.Outcome.next (request_admitted h), fun _ _ h => exec_replFill h⟩,
    fun s id line mask data => ⟨rdByte_takeRemote s id line mask data, fun _ => getC_takeRemote_ne s line mask data⟩, takeLine_effect⟩
  · rw [exec_readReq h, if_neg (by rw [hsp]; decide), if_neg (by rw [hsp]; decide), readAnswer_good hgood]
  · rw [exec_readReq h, if_pos hsp]
  · rw [exec_readReq h, if_neg (by rw [hsp]; decide), if_pos hsp, if_neg hdev, holderRead_held hl]

end Sys2Proof.RemoteProofs
end


section
/-! PROOFS. Answers to a worker's requests, and requests that fail (R216, R237, R240 to R243, R251, R259, R260). -/

namespace Sys2Proof.RemoteProofs

open Sys2Proof Sys2Proof.Machine Sys2Proof.Laws Sys2Proof.WriteProofs Sys2Proof.CollProofs

/-! ### The checks of an answer (R216, R237) -/

section
variable {s : State} {f : Flit} {p : RPkt} {vc : Nat} (h : Answers s f p vc)
include h

theorem admitAnswer_taken : admitAnswer s f p [vc] = (s, true) := by
  obtain ⟨harrives, hresv, hctx, htag, hinc, hmask, hepoch, -⟩ := h
  simp [admitAnswer, harrives, hresv, hinc, hmask, hepoch, Nat.not_le.mpr hctx, Nat.not_le.mpr htag]

/-- A worker's master ID is no Ladle's. -/
theorem isLadle_worker : isLadle p.master = false := by
  obtain ⟨-, -, -, -, -, -, -, hworker⟩ := h
  exact decide_eq_false (fun hladle => by omega)

section
variable {kinds : List RKind} {ok : State → Nat → Nat → Context → Worker → RReq → State} {r : RReq}
  (hslot : tget none (getW (getC s p.ctx) (masterCluster p.master)).slots p.tag = some r) (hkind : r.kind ∈ kinds)
include hslot hkind

/-- The request that an answer names has ended: with its effect, or with its failure. -/
theorem answer_named : answer s f p [vc] kinds ok =
    if p.status ≠ 0 then failReq s p.ctx (masterCluster p.master) (getC s p.ctx) (getW (getC s p.ctx) (masterCluster p.master))
      (statusCode p.status) r.dest p.addr.toNat
    else ok s p.ctx (masterCluster p.master) (getC s p.ctx)
      { getW (getC s p.ctx) (masterCluster p.master) with
        slots := tset none (getW (getC s p.ctx) (masterCluster p.master)).slots p.tag none } r := by
  have htaken := admitAnswer_taken h
  obtain ⟨-, -, -, -, -, -, -, hworker⟩ := h
  have hpeer : p.master % 1024 ≠ 0x210 := by omega
  have hnamed : ¬ (r.kind ∉ kinds ∨ 500 ≤ p.master % 1024) := by
    rintro (hno | hno)
    · exact hno hkind
    · omega
  simp only [answer, htaken, Bool.not_true, Bool.false_eq_true, if_false, if_neg hpeer, hslot, if_neg hnamed]

theorem answer_good (hst : p.status = 0) : answer s f p [vc] kinds ok =
    ok s p.ctx (masterCluster p.master) (getC s p.ctx)
      { getW (getC s p.ctx) (masterCluster p.master) with
        slots := tset none (getW (getC s p.ctx) (masterCluster p.master)).slots p.tag none } r :=
  (answer_named h hslot hkind).trans (if_neg (not_not_intro hst))

theorem answer_refused (hst : p.status ≠ 0) : answer s f p [vc] kinds ok =
    failReq s p.ctx (masterCluster p.master) (getC s p.ctx) (getW (getC s p.ctx) (masterCluster p.master)) (statusCode p.status) r.dest
      p.addr.toNat :=
  (answer_named h hslot hkind).trans (if_pos hst)

end

/-- The first flag sent is acknowledged. -/
theorem flagAck_good {g : HeldFlag} {rest : List HeldFlag}
    (hflags : (getW (getC s p.ctx) (masterCluster p.master)).flags = g :: rest) (hsent : g.sent = true) (hst : p.status = 0) :
    flagAck s f p [vc] = pump (setC s p.ctx (setW (getC s p.ctx) (masterCluster p.master)
      { getW (getC s p.ctx) (masterCluster p.master) with flags := rest })) p.ctx (masterCluster p.master) := by
  have htaken := admitAnswer_taken h
  obtain ⟨-, -, -, -, -, -, -, hworker⟩ := h
  simp only [flagAck, htaken, hflags, hsent, hst, Nat.not_le.mpr hworker, Bool.not_true, Bool.false_eq_true, or_self, ne_eq,
    not_true_eq_false, if_false]

end

/-- The failure that a STATUS names (Table 10.7). -/
theorem statusCode_eq {st : Nat} (h : st ≠ 0) : statusCode st = if st = 1 then 0x0303 else if st = 2 then 0x0304 else 0x0305 := by
  unfold statusCode
  split <;> simp_all

/-! ### The answers (O35) -/

/-- The request in a slot gets no answer in time. -/
theorem exec_remoteTimeout {s : State} {w : Cluster} {i : Fin 65} {id : Nat} {q : RReq} (hid : runningId s = some id) (hi : i.val < 64)
    (hslot : tget none (getW (getC s id) w.val).slots i.val = some q) :
    exec (.remoteTimeout w i) s = .next (failReq s id w.val (getC s id) (getW (getC s id) w.val) 0x0301 q.dest
      (rpkt q.space q.device q.line 0 0 0).addr.toNat) := by
  show execRemoteTimeout w i s = _
  simp only [execRemoteTimeout, hid, if_neg (Nat.ne_of_lt hi), hslot]

/-- Settles O35: each answer by the request or the flag that it names. -/
theorem answersEndTheirRequests : Obligations.AnswersEndTheirRequests := by
  intro s f p r
  refine ⟨fun h hslot hkind hst => ?_, fun h hslot hkind hst => ?_, fun h hslot hkind hst => ?_, fun g rest h hflags hsent hst => ?_,
    fun h hslot hst hsp => ?_, fun w i id q => exec_remoteTimeout⟩
  · have hresp : exec (.readResp f p) s = execReadResp f p s := rfl
    rw [execReadResp, answer_good h hslot (by simp [hkind]) hst] at hresp
    exact ⟨fun hno => by simp only [hresp, hno, Bool.false_eq_true, if_false], fun halloc => by simp only [hresp, halloc, if_true]⟩
  · show execWriteAck f p s = _
    rw [execWriteAck, isLadle_worker h, answer_good h hslot (by simpa using hkind) hst]
    rfl
  · show execInvAck f p s = _
    rw [execInvAck, answer_good h hslot (by simp [hkind]) hst]
  · exact congrArg Host.Outcome.next (flagAck_good h hflags hsent hst)
  · have hkind : r.kind ∈ [RKind.read, .write, .writec, .inv] := by cases r.kind <;> simp
    show execRefusal f p s = _
    rw [execRefusal, isLadle_worker h, if_neg hsp, answer_refused h hslot hkind hst, statusCode_eq hst]
    rfl

/-! ### Requests that fail (R260) -/

/-- A context whose module stops issuing. -/
def stopIssue (c : Context) : Context := { c with modState := .halting }

@[simp] theorem getW_stopIssue (c : Context) (cl : Nat) : getW (stopIssue c) cl = getW c cl := rfl

/-- The context of a worker that halts: the worker stops where it stands, and the module stops issuing. -/
theorem getC_haltWorker (s : State) (id cl : Nat) {c : Context} (k : Worker) (code cls rcode : Nat) (d : BitVec 256) (ev : Option UnitEvent)
    (hc : c.modState = .running) :
    getC (haltWorker s id cl c k code cls rcode d ev) id = stopIssue (setW c cl { k with run := .halted code, wait := none }) := by
  have hraised : getC (raiseEvent (setC s id (setW c cl { k with run := .halted code, wait := none })) (dieOf cl)
      (mkRec 0 cls (cl % 500) rcode id c.step d) ev true) id = setW c cl { k with run := .halted code, wait := none } := by
    rw [getC, raiseEvent_ctxs, ← getC, getC_setC_self]
  rw [haltWorker, getC_haltCtx, hraised, if_pos ⟨rfl, Or.inl hc⟩, stopIssue]

/-- Settles O36: the failure is the halt of its worker, whose context holds the failure's record. -/
theorem failedRequestsHaltTheWorker : Obligations.FailedRequestsHaltTheWorker := by
  intro s id cl c k code device addr hc t
  let record := (failRecord code device cl addr).toNat
  let k' : Worker := { k with rpend := [], slots := [], flags := [] }
  have ht : getC t id = stopIssue (setW (ewr c 0x407002 record) cl { k' with run := .halted code, wait := none }) :=
    getC_haltWorker s id cl k' code 0x04 code 0 none ((ewr_modState c 0x407002 record).trans hc)
  rw [ht]
  exact ⟨(getW_stopIssue _ cl).trans (getW_setW_self _ cl _), rfl, ewr_vmem c 0x407002 record, erd_ewr_self c 0x407002 record, rfl⟩

end Sys2Proof.RemoteProofs
end


section
/-! PROOFS. The Sieve: what a merge, a write-back and a retirement leave (R253 to R255). -/

namespace Sys2Proof.RemoteProofs

open Sys2Proof Sys2Proof.Machine Sys2Proof.Laws Sys2Proof.FabricProofs

/-! ### What leaves the Sieves alone -/

@[simp] theorem freeBuffer_sieves (s : State) (f : TxFlit) : (freeBuffer s f).fab.sieves = s.fab.sieves := by
  unfold freeBuffer
  split <;> rfl

@[simp] theorem routeFlit_sieves (s : State) (f : TxFlit) : (routeFlit s f).fab.sieves = s.fab.sieves := by
  unfold routeFlit
  split
  · rfl
  · split
    · simp
    · next he =>
      obtain ⟨-, flows, rfl⟩ := egress_spec he
      rfl

@[simp] theorem sendPkt_sieves (s : State) (vc kind dest flow : Nat) (rp : Option RPkt) (cp : Option CPkt) :
    (sendPkt s vc kind dest flow rp cp).fab.sieves = s.fab.sieves := by
  unfold sendPkt launchFlit
  split <;> simp

theorem sieveOf_congr {s t : State} (h : t.fab.sieves = s.fab.sieves) (k : Nat) : sieveOf t k = sieveOf s k := by
  rw [sieveOf, h, sieveOf]

/-! ### A Sieve replaced (R256) -/

theorem setSieve_spec (s : State) (k : Nat) (v : Sieve) :
    (setSieve s k v).fab.sieves = tset Sieve.empty s.fab.sieves k v ∧ (setSieve s k v).ctxs = s.ctxs := by
  unfold setSieve
  dsimp only
  split
  · split <;> exact ⟨rfl, rfl⟩
  · split
    · exact ⟨rfl, rfl⟩
    · simp

@[simp] theorem sieveOf_setSieve_self (s : State) (k : Nat) (v : Sieve) : sieveOf (setSieve s k v) k = v := by
  rw [sieveOf, (setSieve_spec s k v).1, tget_tset_self]

@[simp] theorem getC_setSieve (s : State) (k : Nat) (v : Sieve) (id : Nat) : getC (setSieve s k v) id = getC s id := by
  rw [getC, (setSieve_spec s k v).2, getC]

/-! ### Merging (R253, R254) -/

theorem findBelow_isSome {n : Nat} {p : Nat → Bool} {i : Nat} (hi : i < n) (hp : p i = true) : ∃ j, findBelow n p = some j :=
  Option.isSome_iff_exists.mp (List.find?_isSome.mpr ⟨i, List.mem_range.mpr hi, hp⟩)

/-- Where the line has an entry or one is free, room costs nothing: the Sieve and the machine stay. -/
theorem makeRoom_free (s : State) {v : Sieve} {x : SieveStore}
    (h : (∃ y ∈ v.entries, y.ctx = x.ctx ∧ y.line = x.line) ∨ (∃ i, i < 64 ∧ ∀ y ∈ v.entries, y.idx ≠ i)) :
    ∃ e, makeRoom s v x = some (s, v, e) ∧ e.ctx = x.ctx ∧ e.line = x.line := by
  cases hfind : v.entries.find? (fun e => decide (e.ctx = x.ctx ∧ e.line = x.line)) with
  | some e =>
    have he := List.find?_some hfind
    simp only [decide_eq_true_eq] at he
    exact ⟨e, by simp only [makeRoom, hfind], he⟩
  | none =>
    have hnone : ¬ ∃ y ∈ v.entries, y.ctx = x.ctx ∧ y.line = x.line := by
      rintro ⟨y, hy, hxy⟩
      exact List.find?_eq_none.mp hfind y hy (decide_eq_true hxy)
    obtain ⟨i, hi, hidx⟩ := h.resolve_left hnone
    obtain ⟨j, hj⟩ : ∃ j, freeEntry v = some j := findBelow_isSome hi (List.all_eq_true.mpr (fun y hy => decide_eq_true (hidx y hy)))
    exact ⟨⟨j, x.ctx, x.line, 0, 0, false, s.ptpNs⟩, by simp only [makeRoom, hfind, hj], rfl, rfl⟩

/-- An entry with a store merged into it. -/
def mergedEnt (s : State) (e : SieveEnt) (x : SieveStore) : SieveEnt :=
  { e with mask := e.mask ||| x.mask, data := mergeData x.mask e.data x.data, fresh := true, last := s.ptpNs }

/-- The machine after a store merged into entry `e` of slice `k`, whose Sieve stands as `v` beside it. -/
def merged (s : State) (k : Nat) (v : Sieve) (e : SieveEnt) (x : SieveStore) : State :=
  modC (setSieve s k { v with entries := (v.entries.filter (fun y => decide (y.idx ≠ e.idx))) ++ [mergedEnt s e x] }) x.ctx
    (fun c => eincr (takeLine c x.line x.mask x.data) 0x407300 1)

/-- The acknowledgement of a store, where it has one. -/
def ackStore (s : State) (x : SieveStore) : State :=
  match x.ack with
  | none => s
  | some (src, master, tag) => ackWrite s x.ctx src master tag x.line (rpkt 1 (ownId s) x.line 0 0 0).addr

theorem ackStore_spec (s : State) (x : SieveStore) : (ackStore s x).ctxs = s.ctxs ∧ (ackStore s x).fab.sieves = s.fab.sieves := by
  unfold ackStore
  split
  · exact ⟨rfl, rfl⟩
  · exact ⟨sendPkt_ctxs _ _ _ _ _ _ _, sendPkt_sieves _ _ _ _ _ _ _⟩

theorem exec_sieveMerge {s : State} {die : Fin 8} {slice : Fin 32} {x : SieveStore} {rest : List SieveStore} {v : Sieve} {e : SieveEnt}
    (hq : (sieveOf s (die.val * 32 + slice.val)).queue = x :: rest)
    (hroom : makeRoom s { sieveOf s (die.val * 32 + slice.val) with queue := rest } x = some (s, v, e)) :
    exec (.sieveMerge die slice) s = .next (ackStore (merged s (die.val * 32 + slice.val) v e x) x) := by
  show execSieveMerge die slice s = _
  simp only [execSieveMerge, hq, hroom]
  rfl

theorem getC_ackStore (s : State) (x : SieveStore) (id : Nat) : getC (ackStore s x) id = getC s id := by
  rw [getC, (ackStore_spec s x).1, getC]

theorem sieveOf_ackStore (s : State) (x : SieveStore) (k : Nat) : sieveOf (ackStore s x) k = sieveOf s k :=
  sieveOf_congr (ackStore_spec s x).2 k

theorem sieveOf_merged (s : State) (k : Nat) (v : Sieve) (e : SieveEnt) (x : SieveStore) : sieveOf (merged s k v e x) k =
    { v with entries := (v.entries.filter (fun y => decide (y.idx ≠ e.idx))) ++ [mergedEnt s e x] } :=
  sieveOf_setSieve_self s k _

theorem rdByte_merged (s : State) (k : Nat) (v : Sieve) (e : SieveEnt) (x : SieveStore) (a : Nat) :
    rdByte (getC (merged s k v e x) x.ctx).vmem a = maskedByte x.line x.mask x.data (rdByte (getC s x.ctx).vmem a) a := by
  rw [merged, modC, getC_setC_self, getC_setSieve, eincr_vmem]
  exact rdByte_putMasked _ _ _ _ _

theorem getC_merged_ne (s : State) (k : Nat) (v : Sieve) (e : SieveEnt) {x : SieveStore} {j : Nat} (h : j ≠ x.ctx) :
    getC (merged s k v e x) j = getC s j := by
  rw [merged, modC, getC_setC_ne _ _ _ _ h, getC_setSieve]

/-! ### Write-back and retirement (R254, R255) -/

/-- A write-back changes no memory, no worker and no Sieve. -/
theorem writeBack_spec (s : State) (y : SieveEnt) :
    (∀ j, j ≠ y.ctx → getC (writeBack s y) j = getC s j) ∧ (getC (writeBack s y) y.ctx).vmem = (getC s y.ctx).vmem ∧
    (getC (writeBack s y) y.ctx).workers = (getC s y.ctx).workers ∧ (writeBack s y).fab = s.fab := by
  have hacc := accessed_remote s (getC s y.ctx) y.line true
  have hctx (j : Nat) : getC (writeBack s y) j =
      if j = y.ctx then (remoteAccess s (getC s y.ctx) y.line true).2 else getC s j := by
    have hother : getC (remoteAccess s (getC s y.ctx) y.line true).1 j = getC s j := by rw [getC, hacc.ctxs, getC]
    rw [← hother, ← getC_setC]
    exact congrArg (tget Context.dead · j) (incr_ctxs _ _ _)
  refine ⟨fun j hj => (hctx j).trans (if_neg hj), ?_, ?_, ?_⟩
  · rw [hctx, if_pos rfl, hacc.vmem]
  · rw [hctx, if_pos rfl, hacc.workers]
  · rw [writeBack, incr_fab]
    rfl

section
variable {s : State} {die : Fin 8} {slice : Fin 32} {e : Fin 64} {y : SieveEnt} (hy : entryAt s (die.val * 32 + slice.val) e.val = some y)
  (hfresh : y.fresh = true) (hpage : pageProtected (getC s y.ctx) (y.line / pageBytes) = false)
include hy hfresh hpage

theorem exec_sieveWriteback : exec (.sieveWriteback die slice e) s =
    .next (writeBack (setSieve s (die.val * 32 + slice.val) { sieveOf s (die.val * 32 + slice.val) with
      entries := (sieveOf s (die.val * 32 + slice.val)).entries.map (fun z => if z.idx = y.idx then { z with fresh := false } else z) }) y) := by
  show execSieveWriteback die slice e s = _
  simp only [execSieveWriteback, hy, sieveHeld, hfresh, hpage, Bool.not_true, Bool.true_and, Bool.false_eq_true, if_false]

theorem exec_sieveRetire : exec (.sieveRetire die slice e) s =
    .next (writeBack (setSieve s (die.val * 32 + slice.val) { sieveOf s (die.val * 32 + slice.val) with
      entries := (sieveOf s (die.val * 32 + slice.val)).entries.filter (fun z => decide (z.idx ≠ y.idx)) }) y) := by
  show execSieveRetire die slice e s = _
  simp only [execSieveRetire, hy, sieveHeld, hfresh, hpage, Bool.and_false, Bool.false_eq_true, if_false, if_true]

end

/-- What a write-back leaves once the Sieve has been replaced by `v`. -/
theorem writeBack_setSieve (s : State) (k : Nat) (v : Sieve) (y : SieveEnt) :
    let t := writeBack (setSieve s k v) y
    (∀ j, j ≠ y.ctx → getC t j = getC s j) ∧ (getC t y.ctx).vmem = (getC s y.ctx).vmem ∧
    (getC t y.ctx).workers = (getC s y.ctx).workers ∧ sieveOf t k = v := by
  obtain ⟨hother, hvmem, hworkers, hfab⟩ := writeBack_spec (setSieve s k v) y
  refine ⟨fun j hj => (hother j hj).trans (getC_setSieve s k v j), ?_, ?_, ?_⟩
  · rw [hvmem, getC_setSieve]
  · rw [hworkers, getC_setSieve]
  · rw [sieveOf_congr (congrArg (·.sieves) hfab), sieveOf_setSieve_self]

/-! ### The Sieve (O37) -/

/-- Settles O37: the merge by the room that it finds, write-back and retirement by the Sieve that each leaves. -/
theorem sieveMergesAndWritesBack : Obligations.SieveMergesAndWritesBack := by
  intro s die slice e k v
  refine ⟨fun x rest hq hfree => ?_, fun y hy hfresh hpage => ⟨?_, ?_⟩⟩
  · obtain ⟨e, hroom, hctx, hline⟩ := makeRoom_free s (v := { v with queue := rest }) hfree
    refine ⟨_, exec_sieveMerge hq hroom, ?_, fun a => ?_, fun j hj => ?_, mergedEnt s e x, ?_, hctx, hline, rfl, rfl, fun i hi => ?_⟩
    · rw [sieveOf_ackStore, sieveOf_merged]
    · rw [getC_ackStore, rdByte_merged]
    · rw [getC_ackStore, getC_merged_ne _ _ _ _ hj]
    · rw [sieveOf_ackStore, sieveOf_merged]
      exact List.mem_append_right _ List.mem_cons_self
    · simp [mergedEnt, hi]
  · obtain ⟨hother, hvmem, hworkers, hsieve⟩ := writeBack_setSieve s k { v with
      entries := v.entries.map (fun z => if z.idx = y.idx then { z with fresh := false } else z) } y
    refine ⟨_, exec_sieveWriteback hy hfresh hpage, hother, hvmem, hworkers, congrArg (·.queue) hsieve, fun z hz hidx => ?_⟩
    rw [hsieve] at hz
    obtain ⟨z', -, rfl⟩ := List.mem_map.mp hz
    by_cases hsame : z'.idx = y.idx
    · simp only [if_pos hsame]
    · exact absurd hidx (by simpa only [if_neg hsame] using hsame)
  · obtain ⟨hother, hvmem, hworkers, hsieve⟩ := writeBack_setSieve s k { v with
      entries := v.entries.filter (fun z => decide (z.idx ≠ y.idx)) } y
    exact ⟨_, exec_sieveRetire hy hfresh hpage, hother, hvmem, hworkers, congrArg (·.queue) hsieve, congrArg (·.entries) hsieve⟩

end Sys2Proof.RemoteProofs
end


section
/-! PROOFS. Remote ops: what accesses leave of their context, and the requests that each op asks for (R240 to R243, R246 to R248). -/

namespace Sys2Proof.RemoteProofs

open Sys2Proof Sys2Proof.Machine Sys2Proof.Laws Sys2Proof.WorkerProofs

/-! ### What accesses leave of their context (R145, R152) -/

/-- Context `d` is context `c` but for its entries: counters alone have changed. -/
def OnlyCounted (c d : Context) : Prop := ∃ e n, d = { c with ent := e, snap := n }

theorem OnlyCounted.refl (c : Context) : OnlyCounted c c := ⟨c.ent, c.snap, rfl⟩

theorem OnlyCounted.ite {c d e : Context} {p : Prop} [Decidable p] (h : OnlyCounted c d) (g : OnlyCounted c e) :
    OnlyCounted c (if p then d else e) := by
  split <;> assumption

theorem OnlyCounted.fold {α : Type} {c : Context} {f : State × Context → α → State × Context} {l : List α} {x : State × Context}
    (hf : ∀ x a, OnlyCounted c x.2 → OnlyCounted c (f x a).2) (h : OnlyCounted c x.2) : OnlyCounted c (l.foldl f x).2 :=
  List.foldlRecOn (motive := fun x => OnlyCounted c x.2) l f h (fun x hx a _ => hf x a hx)

section
variable {c d : Context} (h : OnlyCounted c d)
include h

theorem onlyCounted_eincr {k n : Nat} : OnlyCounted c (eincr d k n) := by
  obtain ⟨e, m, rfl⟩ := h
  unfold eincr ewr
  split
  · exact ⟨e, m, rfl⟩
  · exact ⟨_, _, rfl⟩

theorem onlyCounted_countLine {hit : Bool} {bytes busy : Nat} {ovf : Bool} : OnlyCounted c (countLine d hit bytes busy ovf) := by
  have hline := onlyCounted_eincr (onlyCounted_eincr h (k := if hit then 0x302002 else 0x302003) (n := 1)) (k := 0x302004) (n := 1)
  have hbytes := OnlyCounted.ite (p := bytes = 0) hline (onlyCounted_eincr (onlyCounted_eincr hline (k := 0x302006) (n := bytes)) (k := 0x302007) (n := busy))
  exact .ite (onlyCounted_eincr hbytes) hbytes

theorem onlyCounted_view {s : State} {cl : Nat} {v : View} {is : List Nat} {write indexed : Bool} :
    OnlyCounted c (viewAccess s d cl v is write indexed).2 := by
  unfold viewAccess
  dsimp only
  split
  · exact h
  · split
    · exact .fold (fun _ _ hx => onlyCounted_eincr hx) h
    · split
      · exact .fold (fun _ _ hx => onlyCounted_eincr (onlyCounted_countLine hx)) h
      · exact .fold (fun _ _ hx => onlyCounted_countLine hx) h

theorem onlyCounted_move {s : State} {cl : Nat} {fmt : Fmt} {ts : List Touched} : OnlyCounted c (moveAccess s d cl fmt ts).2 :=
  .fold (fun _ _ hx => onlyCounted_view hx) (onlyCounted_eincr h)

end

/-- Ranks name the same devices after a move's accesses. -/
theorem deviceOf_moveAccess (s : State) (c : Context) (cl : Nat) (fmt : Fmt) (ts : List Touched) (r : Nat) :
    deviceOf (moveAccess s c cl fmt ts).2 r = deviceOf c r := by
  obtain ⟨_, _, hcounted⟩ := onlyCounted_move (.refl c) (s := s) (cl := cl) (fmt := fmt) (ts := ts)
  rw [hcounted]
  rfl

/-! ### Ops that are presented -/

section
variable {s : State} {id : Nat} {w : Cluster} (h : Ready s id w)
include h

/-- A remote op that completes: what may now be sent is sent. -/
theorem remoteOp_done {t : State} {ext : Nat} {f : State → Nat → Context → Worker → OpRes} {c : Context} {k : Worker}
    (hf : f s id (ctxAt s id w) (workAt s id w) = .done t c k) :
    (.next (remoteOp s w ext f) : Out) = .next (pump (ran t id w ext c k) id w.val) := by
  have hissue := issue_ready s id w ext f h
  obtain ⟨hid, -⟩ := h
  simp only [remoteOp, hid, hissue, hf]
  rfl

/-- RREAD from another device, or of no replica, asks for each line that no cache holds. -/
theorem exec_rread (d a : VReg) (b : SReg) :
    let c := ctxAt s id w
    let k := workAt s id w
    let vd := getV k d; let va := getV k a; let rank := (getS k b).toNat; let n := min (viewCount va) (viewCount vd)
    rank < c.n → remoteL0 c va = false → n ≠ 0 → viewClash c k [] [vd] = none → destHeld c w.val vd n = false →
    (rank ≠ c.rank ∨ replicaOf c va.tensor = none) →
    let r := (viewLines c w.val va n).foldl (readLine (runCtx s) w.val (deviceOf c rank) va vd) ⟨s, c, k, []⟩
    exec (.rread w d a b) s = .next (pump (ran r.s id w 0 r.c (addReqs s r.k r.rs)) id w.val) := by
  dsimp only
  intro hrank hl0 hn hclash hheld hother
  have hown : ¬ ((getS (workAt s id w) b).toNat = (ctxAt s id w).rank ∧
      (replicaOf (ctxAt s id w) (getV (workAt s id w) a).tensor).isSome = true) := by
    rintro ⟨hr, hsome⟩
    rcases hother with hne | hnone
    · exact hne hr
    · exact absurd hsome (by simp [hnone])
  refine remoteOp_done h ?_
  simp only [hl0, Nat.not_le.mpr hrank, Bool.false_eq_true, or_self, if_false, if_neg hn, hclash, hheld, if_neg hown]

end

/-! ### Remote writes (R242, R243, R246) -/

/-- The worker with a flag increment behind its writes, where one follows. -/
abbrev withFlag (device : Nat) (flag : Option (Nat × Nat × Nat)) (k : Worker) : Worker :=
  match flag with
  | some f => { k with rseq := k.rseq + 1, flags := k.flags ++ [⟨k.rseq, device, f.1, f.2.1, f.2.2, false⟩] }
  | none => k

/-- Whether a flag increment may follow a write of the worker: its target is a cluster, no replica bit is set, a place is free (R243, R252). -/
def flagFree (k : Worker) (f : Nat × Nat × Nat) : Prop :=
  f.1 < 4000 ∧ k.replBits = [] ∧ (k.flags.filter (fun h => !h.sent)).length < 8

/-- A remote write that nothing holds back: its lines leave the caches, it asks for each of them, and its flag follows. -/
theorem remoteWrite_free {s : State} {id : Nat} {w : Cluster} (h : Ready s id w) (ext : Nat) (kind : RKind) (d a : VReg) (b : SReg)
    (flag : Option (Nat × Nat × Nat)) :
    let c := ctxAt s id w
    let k := workAt s id w
    let vd := getV k d; let va := getV k a; let rank := (getS k b).toNat; let n := min (viewCount va) (viewCount vd)
    let ts : List Touched := [(va, List.range n, false, false)]
    (∀ f ∈ flag, flagFree k f) → rank < c.n → remoteL0 c vd = false → viewClash c k [va] [] = none → moveTrouble c w.val k ts = none →
    let sc := moveAccess s c w.val ((viewFmt c va).getD .fp64) ts
    let device := deviceOf c rank
    let lines := viewLines sc.2 w.val vd n
    let x := dropDevice sc.1 sc.2 device lines
    let s' := { x.1 with freeIdx := sc.1.freeIdx + 1 }
    let asked := addReqs sc.1 (forgetReads device lines k) (writeReqs sc.1 sc.2 w.val k kind device vd va n)
    (.next (remoteWrite s w ext kind d a b flag) : Out) = .next (pump (ran s' id w ext x.2 (withFlag device flag asked)) id w.val) := by
  dsimp only
  intro hflag hrank hl0 hclash htrouble
  refine remoteOp_done h ?_
  cases flag with
  | none =>
    simp only [hl0, Nat.not_le.mpr hrank, Option.isSome_none, Bool.false_eq_true, or_self, false_and, if_false, hclash,
      moveGo_free _ _ _ htrouble, deviceOf_moveAccess]
  | some f =>
    obtain ⟨htarget, hbits, hroom⟩ := hflag f rfl
    simp only [hl0, Nat.not_le.mpr hrank, Nat.not_le.mpr htarget, Nat.not_le.mpr hroom, decide_false, Option.isSome_some, Bool.false_eq_true,
      or_self, and_false, if_false, if_true, hclash, replicaGuard_none _ _ _ hbits, moveGo_free _ _ _ htrouble, deviceOf_moveAccess]

/-! ### Remote ops (O31) -/

section
variable {s : State} {id : Nat} {w : Cluster} (h : Ready s id w)
include h

/-- RINV of a rank's lines drops them from the caches. -/
theorem exec_rinv {a : VReg} {b : SReg} (hall : getS (workAt s id w) b ≠ BitVec.allOnes 64)
    (hrank : (getS (workAt s id w) b).toNat < (ctxAt s id w).n) (hl0 : remoteL0 (ctxAt s id w) (getV (workAt s id w) a) = false) :
    let c := ctxAt s id w
    let k := workAt s id w
    let device := deviceOf c (getS k b).toNat
    let lines := viewLines c w.val (getV k a) (viewCount (getV k a))
    let x := dropDevice s c device lines
    exec (.rinv w a b) s = .next (pump (ran x.1 id w 0 x.2 (forgetReads device lines k)) id w.val) := by
  refine remoteOp_done h ?_
  simp only [if_neg hall, hl0, Nat.not_le.mpr hrank, Bool.false_eq_true, or_self, if_false]

/-- RREPL of an L2 tensor declares it. -/
theorem exec_rrepl {t : Fin 4096} {n : Fin 16} {x : Tensor} (hlow : 1 ≤ n.val) (hhigh : n.val ≤ 8)
    (hx : tensorOf (ctxAt s id w) t.val = some x) (hlevel : x.level = 2) :
    exec (.rrepl w t n) s =
      .next (ran s id w 0 { ctxAt s id w with replDecl := (ctxAt s id w).replDecl ++ [(w.val, ⟨t.val, n.val⟩)] } (workAt s id w)) := by
  show execRrepl w t n s = _
  rw [execRrepl, if_neg (by omega)]
  refine issue_done h (if_pos ?_)
  rw [hx, Option.map_some, hlevel]

end

/-- Settles O31: the reads and the writes by the lines that they ask for, RINV by what it drops, RREPL by what it declares. -/
theorem remoteOpsQueueTheirRequests : Obligations.RemoteOpsQueueTheirRequests := by
  intro s id w h
  dsimp only
  refine ⟨exec_rread h, fun d a b hrank hl0 hclash htrouble =>
    ⟨remoteWrite_free h 0 .write d a b none nofun hrank hl0 hclash htrouble,
      remoteWrite_free h 0 .writec d a b none nofun hrank hl0 hclash htrouble,
      fun t f inc ht hbits hroom => remoteWrite_free h 1 .write d a b (some (t.val, f.val, inc.val)) ?_ hrank hl0 hclash htrouble⟩,
    fun a b => exec_rinv h, fun t n x => exec_rrepl h⟩
  rintro _ ⟨⟩
  exact ⟨ht, hbits, hroom⟩

end Sys2Proof.RemoteProofs
end


section
/-! PROOFS. Collective ops as workers issue them, and the device's entry into the collective (R265 to R268, R280). -/

namespace Sys2Proof.CollProofs

open Sys2Proof Sys2Proof.Machine Sys2Proof.Laws Sys2Proof.WorkerProofs Sys2Proof.RemoteProofs

/-! ### Issue (R265, R266) -/

/-- The root of a collective op: the rank that s[B] holds, where the op names one. -/
def collRoot (k : Worker) : Option SReg → Nat
  | some r => (getS k r).toNat
  | none => 0

/-- A collective op that nothing holds back and that passes its checks: the worker waits in the collective. -/
theorem collOp_joins {s : State} {id : Nat} {w : Cluster} (h : Ready s id w) (kind : CollKind) (fmt : Fmt) (mode : RedMode) (op : RedOp)
    (cfield chunk : Nat) (d a : VReg) (b : Option SReg) :
    let c := ctxAt s id w
    let k := workAt s id w
    let q := collRequest c k w kind fmt mode op cfield chunk d a (collRoot k b)
    (∀ r ∈ b, (getS k r).toNat < c.n) → collFree c k w d a q →
    (.next (collOp w kind fmt mode op cfield chunk d a b s) : Out) = .next (jumped s id w (joined c q) { k with run := .inColl }) := by
  dsimp only
  rintro hroot ⟨hclash, hheld, hbad⟩
  refine issue_jump h ?_
  cases b with
  | none =>
    simp only [collRequest, collRoot] at hbad
    simp only [Option.isSome_none, Bool.false_eq_true, false_and, if_false, hclash, hheld, hbad]
    rfl
  | some r =>
    simp only [collRequest, collRoot] at hbad
    simp only [Nat.not_le.mpr (hroot r rfl), and_false, if_false, hclash, hheld, Bool.false_eq_true, hbad]
    rfl

theorem exec_callred_accepted {mode : RedMode} {op : RedOp} {fmt : Fmt} (h : redAccepts mode op fmt = true) (s : State) (w : Cluster) (n : Nat)
    (d a : VReg) : exec (.callred w fmt mode op n d a) s = .next (collOp w .allred fmt mode op (redField mode op) n d a none s) := if_pos h

theorem exec_crscat_accepted {mode : RedMode} {op : RedOp} {fmt : Fmt} (h : redAccepts mode op fmt = true) (s : State) (w : Cluster) (n : Nat)
    (d a : VReg) : exec (.crscat w fmt mode op n d a) s = .next (collOp w .rscat fmt mode op (redField mode op) n d a none s) := if_pos h

/-! ### The device's entry (R263, R268, R280) -/

/-- What each request's worker contributes: the elements of its v[A], where they are read. -/
def contributions (c : Context) (reqs : List CollReq) : List (List Nat) :=
  reqs.map (fun r => if readsOwn c r then readView c r.cluster (getW c r.cluster) r.a else [])

/-- The context once the flags of every contribution are merged into its worker's. -/
def contributed (q : CollReq) (rs : List (CollReq × List Nat)) (c : Context) : Context :=
  rs.foldl (fun c r => setW c r.1.cluster (mergeAsw (getW c r.1.cluster) (contributeFlags q r.2))) c

/-- The machine as the device goes on once it is in: a single member has its result, of several members the chunks leave. -/
def goesOn (s : State) (id : Nat) (c : Context) (x : Coll) (q : CollReq) (src : List (List Nat)) : State :=
  let t := setC s id { c with coll := some { x with src := src, entered := true, entryNs := s.ptpNs } }
  if c.n ≤ 1 then collPump (oneDevice t id q x.reqs src) id
  else collPump (startChunks (totalChunks c q) (openOwn t id q.sig ⟨t.ptpNs, t.ptpNs, c.rank⟩) id q) id

/-- The entry's reads count, and change nothing else of the context. -/
theorem onlyCounted_entryReads (s : State) (c : Context) (reqs : List CollReq) : OnlyCounted c (entryReads s c reqs).2 := by
  refine .fold (fun x r hx => ?_) (.refl c)
  split
  · exact onlyCounted_view hx
  · exact hx

@[simp] theorem contributed_n (q : CollReq) (rs : List (CollReq × List Nat)) (c : Context) : (contributed q rs c).n = c.n :=
  List.foldlRecOn (motive := fun d : Context => d.n = c.n) rs _ rfl (fun d hd _ _ => (setW_n d _ _).trans hd)

/-- The job has as many members after the entry's reads and merges as before. -/
theorem contributed_entryReads_n (s : State) (c : Context) (reqs : List CollReq) (q : CollReq) (rs : List (CollReq × List Nat)) :
    (contributed q rs (entryReads s c reqs).2).n = c.n := by
  obtain ⟨_, _, hcounted⟩ := onlyCounted_entryReads s c reqs
  rw [contributed_n, hcounted]

section
variable {s : State} {id : Nat} {x : Coll} {q : CollReq} {rest : List CollReq} (hrun : isRunning (getC s id) = true) (hin : x.entered = false)
  (hlen : x.reqs.length = 4000)
include hrun hin hlen

theorem entryGuard_passes : (x.entered || decide (x.reqs.length ≠ 4000) || !isRunning (getC s id)) = false := by
  simp only [hin, hlen, hrun, ne_eq, not_true_eq_false, decide_false, Bool.not_true, Bool.or_self]

variable (hid : runningId s = some id) (hx : (getC s id).coll = some x) (hreqs : x.reqs = q :: rest)
include hid hx hreqs

/-- The last worker is there and a signature differs. -/
theorem exec_collDeviceEntry_unequal (hsig : ∃ r ∈ rest, r.sig ≠ q.sig) : exec .collDeviceEntry s = .next (collMismatch s id) := by
  have hany : rest.any (fun r => decide (r.sig ≠ q.sig)) = true := by simpa using hsig
  show execCollDeviceEntry s = _
  simp only [execCollDeviceEntry, hid, hx, entryGuard_passes hrun hin hlen, Bool.false_eq_true, if_false]
  simp only [hreqs, if_pos hany]

/-- The last worker is there, the signatures agree and every contribution can be read: the device has entered. -/
theorem exec_collDeviceEntry_equal (hsig : ∀ r ∈ rest, r.sig = q.sig) (htrouble : entryTrouble (getC s id) x.reqs = none) :
    let sc := entryReads s (getC s id) x.reqs
    let src := contributions sc.2 x.reqs
    exec .collDeviceEntry s = .next (goesOn sc.1 id (contributed q (x.reqs.zip src) sc.2) x q src) := by
  have hany : ¬ rest.any (fun r => decide (r.sig ≠ q.sig)) = true := by simpa using hsig
  show execCollDeviceEntry s = _
  simp only [execCollDeviceEntry, hid, hx, entryGuard_passes hrun hin hlen, Bool.false_eq_true, if_false]
  rw [hreqs] at htrouble ⊢
  simp only [if_neg hany, htrouble, goesOn, contributed, contributions, hreqs]

end

/-! ### Collective ops and entry (O32) -/

/-- Settles O32: the five ops by the request that each puts in, the entry by the signatures and the number of members. -/
theorem collectiveOpsEnterTogether : Obligations.CollectiveOpsEnterTogether := by
  refine ⟨fun s id w h => ?issue, fun s id x q rest hid hrun hx hin hreqs hlen =>
    ⟨exec_collDeviceEntry_unequal hrun hin hlen hid hx hreqs, fun hsig htrouble => ?entry⟩⟩
  case issue =>
    refine ⟨fun fmt mode op n d a hacc hfree => (exec_callred_accepted hacc s w n d a).trans
        (collOp_joins h .allred fmt mode op _ n d a none nofun hfree),
      fun fmt mode op n d a hacc hfree => (exec_crscat_accepted hacc s w n d a).trans
        (collOp_joins h .rscat fmt mode op _ n d a none nofun hfree),
      fun fmt n d a => collOp_joins h .agth fmt .plain .sum 0 n d a none nofun, fun fmt n d a b hroot => ?bcst,
      fun fmt n d a => collOp_joins h .a2a fmt .plain .sum 0 n d a none nofun⟩
    case bcst =>
      refine collOp_joins h .bcst fmt .plain .sum 0 n d a (some b) ?_
      rintro _ ⟨⟩
      exact hroot
  case entry =>
    have hexec := exec_collDeviceEntry_equal hrun hin hlen hid hx hreqs hsig htrouble
    have hn := contributed_entryReads_n s (getC s id) x.reqs q (x.reqs.zip (contributions (entryReads s (getC s id) x.reqs).2 x.reqs))
    exact ⟨fun hone => hexec.trans (congrArg _ (if_pos (hn.trans_le hone))),
      fun hmany => hexec.trans (congrArg _ (if_neg (by rw [hn]; exact Nat.not_le.mpr hmany)))⟩

end Sys2Proof.CollProofs
end


section
/-! PROOFS. The completion of a command datagram: its stream, its COMPLETION and the completion log (R293 to R295). -/

namespace Sys2Proof.DatagramProofs

open Sys2Proof Sys2Proof.Machine Sys2Proof.Laws Sys2Proof.WorkerProofs Sys2Proof.PlantProofs

/-! ### A command that has been taken -/

section
variable (s : State) (h : DgHdr)

/-- Taking a command changes its stream and the entry cache alone of the port. -/
theorem taken_rest : (taken s h).eth.tx = s.eth.tx ∧ (taken s h).eth.busy = s.eth.busy ∧ (taken s h).eth.held = s.eth.held := by
  obtain ⟨cs, hcs⟩ := arrive_eth s h
  cases hm : h.mgmt <;> simp [taken, takeSeq, setStream, hm, hcs]

theorem taken_ctxs : (taken s h).ctxs = s.ctxs := by
  obtain ⟨-, hctxs, -⟩ := arrive_rest s h
  exact (ctxsPkgKept_setStream (.refl _)).ctxs.trans hctxs

theorem getStream_taken : getStream (taken s h) h.mgmt h.stream =
    { getStream s h.mgmt h.stream with rxNext := (getStream s h.mgmt h.stream).rxNext + 1 } := by
  rw [taken, getStream_takeSeq, arrive_getStream]

theorem recording_taken (id : Nat) : recording (taken s h) id = recording s id := by
  obtain ⟨hckpt, -, -, -, hrd⟩ := arrive_rest s h
  have hkept : (taken s h).ckpt = (arrive s h).1.ckpt ∧ rd (taken s h) 0x900101 = rd (arrive s h).1 0x900101 := by
    cases hm : h.mgmt <;> simp [taken, takeSeq, setStream, hm, rd]
  simp only [recording, replayCtx, hkept, hckpt, hrd 0x900101 (by decide)]
  rfl

end

/-! ### The COMPLETION -/

/-- Where nothing came by relay, nothing goes back by it. -/
theorem flushRelay_of_none {s : State} (h : ∀ d ∈ s.eth.tx, d.relay = none) : flushRelay s = s := by
  have hsome : s.eth.tx.filter (fun d => d.relay.isSome) = [] := List.filter_eq_nil_iff.mpr (fun d hd => by simp [h d hd])
  have hnone : s.eth.tx.filter (fun d => d.relay.isNone) = s.eth.tx := List.filter_eq_self.mpr (fun d hd => by simp [h d hd])
  rw [flushRelay, hsome, hnone, List.foldl_nil]

section
variable (s : State) (h : DgHdr) (status detail : Nat) (extra : List Byte)

/-- The COMPLETION of a command: status, DETAIL and data, on the command's stream. -/
def completionDg : TxDg :=
  (sendVia s h.mgmt h.stream 0x8000 (completionBytes (getStream s h.mgmt h.stream) h.seq status detail h.ts ++ extra) h.relay).2

theorem complete_tx : (complete s h.mgmt h.stream h status detail extra).eth.tx = s.eth.tx ++ [completionDg s h status detail extra] := by
  cases hm : h.mgmt <;> simp [complete, completionDg, sendVia, setStream, hm]

/-- The log keeps the COMPLETION. -/
theorem completion_logged : ⟨h.mgmt, h.stream, h.seq, completionDg s h status detail extra⟩ ∈
    (complete s h.mgmt h.stream h status detail extra).eth.log := by
  simp only [complete, completionDg, List.mem_append, List.mem_singleton, or_true]

theorem complete_ctxs : (complete s h.mgmt h.stream h status detail extra).ctxs = s.ctxs :=
  (ctxsPkgKept_complete (.refl s)).ctxs

theorem complete_rxNext : (getStream (complete s h.mgmt h.stream h status detail extra) h.mgmt h.stream).rxNext =
    (getStream s h.mgmt h.stream).rxNext := by
  cases hm : h.mgmt <;> simp [complete, sendVia, setStream, getStream]

theorem completionDg_seq : field (completionDg s h status detail extra).bytes 0 4 = h.seq % 2 ^ 32 := by
  simp only [completionDg, sendVia, completionBytes, List.append_assoc, field_first]
  rfl

theorem completionDg_status : field (completionDg s h status detail extra).bytes 8 2 = status % 2 ^ 16 := by
  simp only [completionDg, sendVia, completionBytes, List.append_assoc]
  rw [field_skip _ _ _ (by omega), field_skip _ _ _ (by omega), field_first]
  rfl

end

theorem answered_of_no_relay {s : State} {h : DgHdr} (status detail : Nat) (extra : List Byte) (hrelay : h.relay = none)
    (htx : ∀ d ∈ s.eth.tx, d.relay = none) : answered s h status detail extra = complete s h.mgmt h.stream h status detail extra := by
  refine flushRelay_of_none (fun d hd => ?_)
  rw [complete_tx, List.mem_append, List.mem_singleton] at hd
  obtain hd | rfl := hd
  · exact htx d hd
  · exact hrelay

/-- A datagram whose command ends at once, where it leaves the commands that are held as they are. -/
theorem performs_of_done {i : Instr} {s t : State} {h : DgHdr} {c : TCmd} {status detail : Nat} {extra : List Byte}
    (hexec : exec i s = .next (dgram s h c)) (hcmd : performCmd (taken s h) h c = (t, some (status, detail, extra)))
    (hheld : (taken s h).eth.held = [] → t.eth.held = [] := by exact id) : Performs i s h c t status detail extra := by
  intro hp hrec
  obtain ⟨-, -, -, -, -, -, -, hnone⟩ := hp.1
  obtain ⟨-, -, hkept⟩ := taken_rest s h
  rw [hexec, dgram_done s h c t status detail extra hp hcmd (hheld (hkept.trans hnone)) hrec]

/-- NOP completes with OK (Table 12.5). -/
theorem nop_performs (s : State) (h : DgHdr) : Performs (.cmdNop h) s h .nop (taken s h) 0 0 [] := performs_of_done rfl rfl

/-- Settles O52: what NOP leaves is its COMPLETION alone, and the COMPLETION is the port's last datagram and the log's last entry. -/
theorem commandsCompleteOnce : Obligations.CommandsCompleteOnce := by
  intro s h hp hrelay hrec htx
  have hdone := nop_performs s h hp (.inr ((recording_taken s h h.ctx).trans hrec))
  obtain ⟨htaken, hbusy, -⟩ := taken_rest s h
  rw [answered_of_no_relay 0 0 [] hrelay (by rwa [htaken])] at hdone
  obtain ⟨⟨-, -, -, -, hseq, hsmall, -, -⟩, -⟩ := hp
  refine ⟨_, completionDg (taken s h) h 0 0 [], hdone, ?_, rfl, rfl, rfl, ?_, ?_, completionDg_status _ _ _ _ _, ?_,
    ⟨_, completion_logged _ _ _ _ _, rfl, rfl, rfl⟩, ?_, ?_⟩
  · rw [complete_tx, htaken]
  · exact (congrArg Stream.txNext (getStream_taken s h)).trans rfl
  · rw [completionDg_seq, Nat.mod_eq_of_lt (by omega)]
  · rw [complete_rxNext, getStream_taken, hseq]
  · rw [complete_ctxs, taken_ctxs]
  · obtain ⟨-, hkept, -⟩ := complete_rest (taken s h) h.mgmt h.stream h 0 0 []
    rw [hkept, hbusy]

end Sys2Proof.DatagramProofs
end


section
/-! PROOFS. Frames of the port beside the datagrams: what is answered, what a registered range gives and takes, what is discarded (R286, R287,
R298, R301). -/

namespace Sys2Proof.PortProofs

open Sys2Proof Sys2Proof.Machine Sys2Proof.Laws Sys2Proof.PackageProofs

/-! ### A range of a context's memory that is stored -/

theorem rdByte_wrBytes (m : Mem) (a : Nat) (bs : List Byte) (q : Nat) :
    rdByte (wrBytes m a bs) q = if a ≤ q ∧ q < a + bs.length then bs.getD (q - a) 0 else rdByte m q := by
  split
  · next h =>
    obtain ⟨i, rfl⟩ := Nat.exists_eq_add_of_le h.1
    rw [rdByte_wrBytes_inside m a i bs (by omega), Nat.add_sub_cancel_left]
  · next h => exact rdByte_wrBytes_outside m a q bs (by omega)

/-- A stream of writes changes the Pantries alone. -/
theorem streamWrite_pantry (s : State) (c : Context) (a n : Nat) :
    ∃ pantry, streamWrite s c a n = { s with pkg := { s.pkg with pantry := pantry } } := by
  refine List.foldlRecOn (motive := fun t : State => ∃ pantry, t = { s with pkg := { s.pkg with pantry := pantry } }) _ _ ⟨_, rfl⟩ ?_
  rintro _ ⟨pantry, rfl⟩ i -
  exact ⟨_, rfl⟩

/-- A range that is written changes the bytes and marks their pages. -/
theorem writeRange_bytes (c : Context) (a : Nat) (bs : List Byte) :
    ∃ pages, writeRange c a bs = { c with vmem := wrBytes c.vmem a bs, pages := pages } := by
  unfold writeRange touchPages
  split
  · next h =>
    subst h
    exact ⟨_, rfl⟩
  · refine List.foldlRecOn (motive := fun d : Context => ∃ pages, d = { c with vmem := wrBytes c.vmem a bs, pages := pages }) _ _ ⟨_, rfl⟩ ?_
    rintro _ ⟨pages, rfl⟩ i -
    exact ⟨_, rfl⟩

/-- A range that is stored changes its context's bytes and the Pantries alone. -/
theorem storeRange_bytes (s : State) (id a : Nat) (bs : List Byte) : ∃ pantry pages, storeRange s id a bs =
    setC { s with pkg := { s.pkg with pantry := pantry } } id { getC s id with vmem := wrBytes (getC s id).vmem a bs, pages := pages } := by
  obtain ⟨pantry, hstream⟩ := streamWrite_pantry s (getC s id) a bs.length
  obtain ⟨pages, hwrite⟩ := writeRange_bytes (getC s id) a bs
  refine ⟨pantry, pages, ?_⟩
  rw [storeRange, hstream, ← hwrite]
  rfl

/-! ### Frames during a scrub and outside one (R301) -/

section
variable {s : State} (hup : edUp s = true)
include hup

theorem portFrame_scrubbing (hscrub : s.pkg.scrubbing = true) (f : State → State) : portFrame s f = incr s 0x102206 1 := by
  simp only [portFrame, hup, hscrub, Bool.not_true, Bool.false_eq_true, if_false, if_true]

theorem portFrame_passes (hscrub : s.pkg.scrubbing = false) (f : State → State) : portFrame s f = f s := by
  simp only [portFrame, hup, hscrub, Bool.not_true, Bool.false_eq_true, if_false]

end

/-! ### The port's addresses (R287) -/

theorem isOwnIp_v4 (s : State) (a : Nat) : isOwnIp s false a = true ↔ ownIp4 s ≠ 0 ∧ a = ownIp4 s := by
  simp [isOwnIp]

theorem isOwnIp_v6 (s : State) (a : Nat) : isOwnIp s true a = true ↔ a = linkLocal s ∨ (ownIp6 s ≠ 0 ∧ a = ownIp6 s) := by
  simp [isOwnIp, or_comm]

section
variable {s : State} (hup : edUp s = true) (hscrub : s.pkg.scrubbing = false)
include hup hscrub

theorem exec_arpRequest (a : BitVec 32) : exec (.arpRequest a) s =
    .next (if isOwnIp s false a.toNat = true then portAnswer s 1 a.toNat else s) :=
  congrArg Host.Outcome.next (portFrame_passes hup hscrub _)

theorem exec_neighbourSolicit (a : BitVec 128) : exec (.neighbourSolicit a) s =
    .next (if isOwnIp s true a.toNat = true then portAnswer s 2 a.toNat else s) :=
  congrArg Host.Outcome.next (portFrame_passes hup hscrub _)

theorem exec_icmpEcho (v6 : Bool) (a : BitVec 128) (n : Nat) : exec (.icmpEcho v6 a n) s =
    .next (if isOwnIp s v6 a.toNat = true then portAnswer s 3 n else s) :=
  congrArg Host.Outcome.next (portFrame_passes hup hscrub _)

end

/-! ### Registered ranges (R298) -/

theorem findReg_key {s : State} {k id : Nat} {r : Registration} (h : findReg s k = some (id, r)) : r.rKey = k := by
  obtain ⟨p, -, hp⟩ := List.exists_of_findSome?_eq_some h
  obtain ⟨r', hfind, hr⟩ := Option.map_eq_some_iff.mp hp
  obtain ⟨-, rfl⟩ := Prod.mk.inj hr
  simpa using List.find?_some hfind

/-- A write that is let through stores its bytes in the range's context, and is acknowledged. -/
theorem roceWrite_stores {s : State} {id : Nat} {r : Registration} {o : Nat} {bs : List Byte} (hadmit : engineAdmits s id 1 = true)
    (hheld : rangeHeld (getC s id) (tensorBase (getC s id) 0 r.tensor + r.offset + o) bs.length = false) :
    let a := tensorBase (getC s id) 0 r.tensor + r.offset + o
    let t := roceWrite s id r o bs
    t.eth.answers = s.eth.answers ++ [(5, r.rKey)] ∧
    (∀ q, rdByte (getC t id).vmem q = if a ≤ q ∧ q < a + bs.length then bs.getD (q - a) 0 else rdByte (getC s id).vmem q) ∧
    ∀ j, j ≠ id → getC t j = getC s j := by
  intro a t
  obtain ⟨pantry, pages, hstore⟩ := storeRange_bytes s id a bs
  have ht : t = portAnswer (setRegBusy (storeRange s id a bs) id r.rKey false) 5 r.rKey := by
    simp only [t, a, roceWrite, hadmit, hheld, Bool.not_true, Bool.false_eq_true, if_false]
  have hctx (j : Nat) : getC t j = getC (setRegBusy (storeRange s id a bs) id r.rKey false) j := (congrArg (getC · j) ht).trans rfl
  refine ⟨?_, fun q => ?_, fun j hj => ?_⟩
  · rw [ht, hstore]
    rfl
  · rw [hctx, setRegBusy, modC, getC_setC_self, hstore, getC_setC_self]
    exact rdByte_wrBytes _ _ _ _
  · rw [hctx, setRegBusy, modC, getC_setC_ne _ _ _ _ hj, hstore, getC_setC_ne _ _ _ _ hj]
    rfl

theorem roceRead_sends {s : State} {id : Nat} {r : Registration} {o n : Nat} (hadmit : engineAdmits s id 0 = true)
    (hgood : rangeBad (getC s id) (tensorBase (getC s id) 0 r.tensor + r.offset + o) n = false) :
    roceRead s id r o n = sendRoce s id (tensorRead (getC s id) 0 r.tensor (r.offset + o) n) := by
  simp only [roceRead, hadmit, hgood, Bool.not_true, Bool.false_eq_true, if_false]

section
variable {s : State} (hup : edUp s = true) (hscrub : s.pkg.scrubbing = false)
include hup hscrub

theorem exec_roceRequest_unknown {k : Nat} (hreg : findReg s k = none) (w : Bool) (o n : Nat) (bs : List Byte) :
    exec (.roceRequest k w o n bs) s = .next (portAnswer s 4 0x62) := by
  show execRoceRequest k w o n bs s = _
  simp only [execRoceRequest, portFrame_passes hup hscrub, hreg]

variable {k id : Nat} {r : Registration} (hreg : findReg s k = some (id, r))
include hreg

/-- A write request: its range, its right and the module decide whether it is let through. -/
theorem exec_roceRequest_write (o n : Nat) (bs : List Byte) : exec (.roceRequest k true o n bs) s = .next
    (if r.length < o + bs.length ∨ r.rights / 2 % 2 = 0 ∨ moduleRuns (getC s id) = true then portAnswer s 4 0x62 else roceWrite s id r o bs) := by
  show execRoceRequest k true o n bs s = _
  simp only [execRoceRequest, portFrame_passes hup hscrub, hreg, if_true]
  by_cases hlen : r.length < o + bs.length
  · simp only [hlen, true_or, if_true]
  · simp [hlen]

/-- A read request: its range and its right. -/
theorem exec_roceRequest_read (o n : Nat) (bs : List Byte) : exec (.roceRequest k false o n bs) s = .next
    (if r.length < o + n ∨ r.rights % 2 = 0 then portAnswer s 4 0x62 else roceRead s id r o n) := by
  show execRoceRequest k false o n bs s = _
  simp only [execRoceRequest, portFrame_passes hup hscrub, hreg, Bool.false_eq_true, if_false]
  by_cases hlen : r.length < o + n
  · simp only [hlen, true_or, if_true]
  · simp [hlen]

end

/-! ### Rates, pauses and the link (R286, R298) -/

/-- A CNP lowers the rate of its queue pair alone. -/
theorem exec_roceCnp_lowers {s : State} (hup : edUp s = true) (hscrub : s.pkg.scrubbing = false) {q : Nat} (hq : 0 < tget (2 ^ 32) s.eth.qpRate q) :
    ∃ t, exec (.roceCnp q) s = .next t ∧ tget (2 ^ 32) t.eth.qpRate q < tget (2 ^ 32) s.eth.qpRate q ∧
      ∀ j, j ≠ q → tget (2 ^ 32) t.eth.qpRate j = tget (2 ^ 32) s.eth.qpRate j := by
  refine ⟨_, congrArg Host.Outcome.next (portFrame_passes hup hscrub _), ?_, fun j hj => tget_tset_ne _ _ _ _ _ hj⟩
  exact (tget_tset_self _ _ _ _).trans_lt (Nat.mod_lt _ hq)

theorem linkState_type : (entryOf 0x102001).map (·.type) = some .u8 := by decide +kernel

theorem rd_ethLinkChange (s : State) (up : Bool) : rd (wr s 0x102001 (bit up)) 0x102001 = bit up :=
  rd_wr_fits s linkState_type (by cases up <;> decide)

/-- Only PFC_PRIO is paused. -/
theorem exec_pfcPause_paused {s : State} (hup : edUp s = true) {p : Fin 8} (q : BitVec 16) (hp : p.val = rd s 0x102104) :
    exec (.pfcPause p q) s = .next { s with eth := { s.eth with pfcPaused := decide (q ≠ 0), pfcUntil := s.ptpNs + cdiv (q.toNat * 32) 100 } } :=
  congrArg Host.Outcome.next (if_pos ⟨hup, hp⟩)

theorem exec_pfcPause_other {s : State} {p : Fin 8} (q : BitVec 16) (hp : p.val ≠ rd s 0x102104) : exec (.pfcPause p q) s = .next s :=
  congrArg Host.Outcome.next (if_neg (fun h => hp h.2))

/-- Settles O56: during a scrub every frame is counted and discarded; outside one the addresses decide, then the registration of an R_Key. -/
theorem portFramesTakeEffect : Obligations.PortFramesTakeEffect := by
  refine fun s => ⟨fun hup hscrub i hi => ?scrubbing, fun hup hscrub => ?outside, fun up => ⟨_, rfl, rd_ethLinkChange s up⟩,
    fun p q hup => ⟨fun hp => ⟨_, exec_pfcPause_paused hup q hp, rfl, rfl⟩, exec_pfcPause_other q⟩⟩
  case scrubbing =>
    have hcounted (f : State → State) := congrArg (Host.Outcome.next (φ := Fault) (ρ := Refusal)) (portFrame_scrubbing hup hscrub f)
    obtain rfl | ⟨q, rfl⟩ | ⟨q, rfl⟩ | ⟨a, rfl⟩ | ⟨a, rfl⟩ | ⟨v, a, n, rfl⟩ | ⟨k, w, o, n, bs, rfl⟩ := hi <;> exact hcounted _
  case outside =>
    have hpasses (f : State → State) := congrArg (Host.Outcome.next (φ := Fault) (ρ := Refusal)) (portFrame_passes hup hscrub f)
    refine ⟨hpasses _, fun q => hpasses _, fun q => exec_roceCnp_lowers hup hscrub, fun a => ⟨fun h0 ha => ?_, fun ha => ?_⟩,
      fun a => ⟨fun ha => ?_, fun hlocal ha => ?_⟩, fun a n => ⟨fun h0 ha => ?_, fun ha => ?_⟩,
      fun k w o n bs hreg => exec_roceRequest_unknown hup hscrub hreg w o n bs,
      fun k o n bs id r hreg => ⟨fun hlen hright hidle hadmit hheld => ?_, fun hbad => ?_, fun hlen hright hadmit hgood => ?_, fun hbad => ?_⟩⟩
    · rw [exec_arpRequest hup hscrub, if_pos ((isOwnIp_v4 s _).mpr ⟨h0, ha⟩)]
    · rw [exec_arpRequest hup hscrub, if_neg (fun h => ha ((isOwnIp_v4 s _).mp h).2)]
    · have hown := (isOwnIp_v6 s _).mpr ha
      exact ⟨by rw [exec_neighbourSolicit hup hscrub, if_pos hown], fun n => by rw [exec_icmpEcho hup hscrub, if_pos hown]⟩
    · have hother : ¬ isOwnIp s true a.toNat = true := fun h => ((isOwnIp_v6 s _).mp h).elim hlocal (fun h' => ha h'.2)
      exact ⟨by rw [exec_neighbourSolicit hup hscrub, if_neg hother], fun n => by rw [exec_icmpEcho hup hscrub, if_neg hother]⟩
    · rw [exec_icmpEcho hup hscrub, if_pos ((isOwnIp_v4 s _).mpr ⟨h0, ha⟩)]
    · rw [exec_icmpEcho hup hscrub, if_neg (fun h => ha ((isOwnIp_v4 s _).mp h).2)]
    · have hthrough : ¬(r.length < o + bs.length ∨ r.rights / 2 % 2 = 0 ∨ moduleRuns (getC s id) = true) := by simp [hright, hidle]; omega
      obtain rfl := findReg_key hreg
      obtain ⟨hack, hbytes, hothers⟩ := roceWrite_stores hadmit hheld
      exact ⟨_, by rw [exec_roceRequest_write hup hscrub hreg, if_neg hthrough], hack, hbytes, hothers⟩
    · rw [exec_roceRequest_write hup hscrub hreg, if_pos hbad]
    · rw [exec_roceRequest_read hup hscrub hreg, if_neg (by omega), roceRead_sends hadmit hgood]
    · rw [exec_roceRequest_read hup hscrub hreg, if_pos hbad]

end Sys2Proof.PortProofs
end


section
/-! PROOFS. The commands of a context's streams and of the stream tables: what each does once it is performed (Table 12.5; R88, R291, R296,
R297, R303). -/

namespace Sys2Proof.CommandProofs

open Sys2Proof Sys2Proof.Machine Sys2Proof.Laws Sys2Proof.WorkerProofs Sys2Proof.WriteProofs

section
variable {u : State} {id : Nat}

/-! ### LOAD (R88 to R90) -/

/-- Mapping a context changes of it only where its tensors lie. -/
theorem getC_mapContext_self (s : State) (id : Nat) :
    ∃ parts place, getC (mapContext s id) id = { getC s id with parts := parts, place := place } := by
  have hcleared : getC (modC s id (fun c => { c with place := [] })) id = { getC s id with place := [] } := getC_setC_self s id _
  unfold mapContext
  dsimp only
  rw [hcleared]
  exact ⟨_, _, getC_setC_self _ id _⟩

theorem useCache_ctxs (s : State) (id key : Nat) : (useCache s id key).ctxs = s.ctxs := by
  unfold useCache setXcache
  dsimp only
  split <;> simp [drawNat]

/-- The device once what belonged to a context's module before is gone. -/
def contextCleared (s : State) (id : Nat) : State :=
  dropRemote (dropFences (dropLadle (dropSieves (dropPages s (getC s id) (heldPages (getC s id))) id) id) id) id

theorem getC_contextCleared (s : State) (id : Nat) : getC (contextCleared s id) id = getC s id :=
  CollProofs.getC_congr (by simp only [contextCleared, dropRemote, dropFences, dropLadle, dropSieves, dropPages_ctxs]) id

/-- The device once module `m` is a context's, its tensors placed and its translation asked for. -/
def moduleTaken (s : State) (id : Nat) (m : Module) : State :=
  let lower := ((placeTensors s m (areaCap s - (areaUse s - contextUse (getC s id)))).map (fun x => x.2)).getD []
  let t := contextCleared s id
  let v := mapContext (setC t id (placeModule (getC t id) m lower (rd t 0x303000))) id
  useCache v id (translationKey v m.digest)

/-- The module is being translated, and its memory is zero; MR4 is extended with its digest. -/
theorem getC_moduleTaken (s : State) (id : Nat) (m : Module) : let c := getC (moduleTaken s id m) id
    c.modState = .translating ∧ c.mod = some m ∧ c.vmem = [] ∧ c.mr4 = extendMr (getC s id).mr4 (natLe 64 m.digest) := by
  intro c
  let lower := ((placeTensors s m (areaCap s - (areaUse s - contextUse (getC s id)))).map (fun x => x.2)).getD []
  let t := contextCleared s id
  obtain ⟨parts, place, hmap⟩ := getC_mapContext_self (setC t id (placeModule (getC t id) m lower (rd t 0x303000))) id
  have hc : c = { placeModule (getC s id) m lower (rd t 0x303000) with parts := parts, place := place } := by
    have hmapped : c = getC (mapContext (setC t id (placeModule (getC t id) m lower (rd t 0x303000))) id) id :=
      CollProofs.getC_congr (useCache_ctxs _ _ _) id
    rw [hmapped, hmap, getC_setC_self, getC_contextCleared]
  rw [hc]
  exact ⟨rfl, rfl, rfl, rfl⟩

section
variable {a : LoadArgs} {bs : List Byte} (hidle : moduleRuns (getC u id) = false) (htrans : (getC u id).modState ≠ .translating)
  (hbytes : a.bytes = some bs)
include hidle htrans hbytes

theorem loadCmd_refused {step : Nat}
    (hcheck : loadCheck u bs (max 1 (getC u id).n) (areaCap u - (areaUse u - contextUse (getC u id))) = some step) :
    loadCmd u id a = (u, endWith 0x0509 step) := by
  simp only [loadCmd, hidle, htrans, Bool.false_eq_true, or_self, if_false, hbytes, hcheck]

/-- A container that passes the checks becomes the context's module; its translation goes on. -/
theorem loadCmd_loads (hcheck : loadCheck u bs (max 1 (getC u id).n) (areaCap u - (areaUse u - contextUse (getC u id))) = none) :
    loadCmd u id a = (moduleTaken u id (moduleOf (parseContainer bs)), none) := by
  simp only [loadCmd, hidle, htrans, Bool.false_eq_true, or_self, if_false, hbytes, hcheck, moduleTaken, contextCleared]

end

/-! ### HALT (R297) -/

theorem haltCmd_idle (hidle : moduleRuns (getC u id) = false) (stream : Nat) {mode : Nat} (hmode : mode ≤ 1) :
    haltCmd u id stream mode = (u, endOk 0) := by
  have hknown : ¬ 1 < mode := by omega
  simp only [haltCmd, hknown, hidle, Bool.not_false, if_false, if_true]

section
variable (hrun : (getC u id).modState = .running)
include hrun

theorem moduleRuns_of_running : moduleRuns (getC u id) = true := by simp [moduleRuns, hrun]

/-- MODE 0: the module goes on to its next step point. -/
theorem haltCmd_atStepPoint (stream : Nat) :
    haltCmd u id stream 0 = (modC u id (fun c => { c with haltStream := some stream }), none) := by
  simp [haltCmd, moduleRuns_of_running hrun, hrun]

/-- MODE 1: the module stops issuing, and a fence waits. -/
theorem haltCmd_atOnce (stream : Nat) : ∃ (t : State) (code : Nat), haltCmd u id stream 1 = (t, none) ∧ (getC t id).modState = .halting ∧
    t.pkg.fences = u.pkg.fences ++ [FenceAct.haltCtx id code (some stream)] := by
  let drawn := (drawNat u).2
  let code := (drawNat u).1 % 2 ^ 32
  have hstate : (getC drawn id).modState = .running ∨ (getC drawn id).modState = .paused := .inl hrun
  refine ⟨haltCtx drawn id code (some stream), code, ?_, ?_, ?_⟩
  · simp [haltCmd, moduleRuns_of_running hrun, drawn, code]
  · rw [getC_haltCtx, if_pos ⟨rfl, hstate⟩]
  · rw [(haltCtx_running code (some stream) hstate).2]
    rfl

end

/-! ### INPUT and OUTPUT_RESEND (R296) -/

section
variable {a : InputArgs} {d : StreamDecl} {x : Tensor} (hdecl : declOf (getC u id) a.decl [1] = some d) (hx : tensorOf (getC u id) d.tensor = some x)
  (hfits : a.offset + a.data.length ≤ tensorBytes x)
include hdecl hx hfits

/-- An input that comes ahead of its step, the first of its declaration, fills a shadow copy of its own. -/
theorem inputCmd_ahead (hahead : (getC u id).step < a.step) (hnone : ∀ y ∈ (getC u id).shadows, y.decl ≠ a.decl) :
    inputCmd u id a = (setC u id { getC u id with
      shadows := (getC u id).shadows ++ [⟨a.decl, a.step, a.last, wrBytes [] a.offset a.data⟩] }, endOk 0) := by
  have hlen : ¬ tensorBytes x < a.offset + a.data.length := by omega
  have hlate : ¬ (a.step < (getC u id).step ∨ (a.step = (getC u id).step ∧ (a.decl, a.step) ∈ (getC u id).inputs)) := by omega
  have hnow : ¬ (moduleRuns (getC u id) = true ∧ a.step = (getC u id).step) := by omega
  have hfind : (getC u id).shadows.find? (fun y => decide (y.decl = a.decl ∧ y.step = a.step)) = none :=
    List.find?_eq_none.mpr (fun y hy => by simp [hnone y hy])
  have hcopies : (getC u id).shadows.filter (fun y => decide (y.decl = a.decl)) = [] :=
    List.filter_eq_nil_iff.mpr (fun y hy => by simp [hnone y hy])
  have hothers : (getC u id).shadows.filter (fun y => !decide (y.decl = a.decl ∧ y.step = a.step)) = (getC u id).shadows :=
    List.filter_eq_self.mpr (fun y hy => by simp [hnone y hy])
  simp only [inputCmd, hdecl, hx, Option.map_some, Option.getD_some, if_neg hlen, if_neg hlate, hfind, hcopies, hothers, if_neg hnow]
  simp

/-- INPUT_LATE: a step that is over. -/
theorem inputCmd_late (hlate : a.step < (getC u id).step) : inputCmd u id a = (u, endWith 0x0507 0) := by
  have hlen : ¬ tensorBytes x < a.offset + a.data.length := by omega
  simp only [inputCmd, hdecl, hx, Option.map_some, Option.getD_some, if_neg hlen, if_pos (Or.inl hlate)]

/-- A declaration has two shadow copies, and both are taken. -/
theorem inputCmd_full (hahead : (getC u id).step < a.step) (hnew : ∀ y ∈ (getC u id).shadows, y.step ≠ a.step)
    (hfull : 2 ≤ ((getC u id).shadows.filter (fun y => decide (y.decl = a.decl))).length) : inputCmd u id a = (u, endWith 0x0510 0) := by
  have hlen : ¬ tensorBytes x < a.offset + a.data.length := by omega
  have hlate : ¬ (a.step < (getC u id).step ∨ (a.step = (getC u id).step ∧ (a.decl, a.step) ∈ (getC u id).inputs)) := by omega
  have hfind : (getC u id).shadows.find? (fun y => decide (y.decl = a.decl ∧ y.step = a.step)) = none :=
    List.find?_eq_none.mpr (fun y hy => by simp [hnew y hy])
  simp only [inputCmd, hdecl, hx, Option.map_some, Option.getD_some, if_neg hlen, if_neg hlate, hfind, Option.isNone_none, hfull, and_self,
    if_true]

end

section
variable {decl step : Nat} {d : StreamDecl} (hdecl : declOf (getC u id) decl [2] = some d)
include hdecl

theorem resendCmd_kept {o : Output} (hout : (getC u id).outs.find? (fun o => decide (o.decl = decl ∧ o.step = step)) = some o)
    (hopen : (getStream u false d.id).state ≠ 0) (hctx : (getStream u false d.id).ctx = id) :
    resendCmd u id decl step = (sendOutput u d.id decl step o.bytes, endOk 0) := by
  simp only [resendCmd, hdecl, hout, if_pos (And.intro hopen hctx)]

theorem resendCmd_gone (hout : (getC u id).outs.find? (fun o => decide (o.decl = decl ∧ o.step = step)) = none) :
    resendCmd u id decl step = (u, endWith 0x0508 0) := by
  simp only [resendCmd, hdecl, hout]

end

theorem sendOutput_held (s : State) (stream decl step : Nat) (bs : List Byte) : (sendOutput s stream decl step bs).eth.held = s.eth.held :=
  List.foldlRecOn (motive := fun t : State => t.eth.held = s.eth.held) _ _ rfl (fun t ht _ _ => (sendVia_rest t _ _ _ _ _).1.trans ht)

/-! ### REG_MEM, DEREG_MEM and BULK (R298, R303) -/

/-- There are more numbers to try than keys in use. -/
theorem newKey_unused (s : State) (h : (usedKeys s).length < 2 ^ 32) : (newKey s).2 ∉ usedKeys s := by
  let tries := (List.range ((usedKeys s).length + 1)).map (fun i => ((drawNat s).1 + i) % 2 ^ 32)
  have hnodup : tries.Nodup := List.Nodup.map_on (fun i hi j hj hij => by
    have := List.mem_range.mp hi
    have := List.mem_range.mp hj
    omega) List.nodup_range
  have hfree : ∃ k ∈ tries, k ∉ usedKeys s := by
    by_contra hall
    have hsub : tries ⊆ usedKeys s := fun k hk => by_contra (fun hk' => hall ⟨k, hk, hk'⟩)
    have := (hnodup.subperm hsub).length_le
    simp [tries] at this
  have hfound : (tries.find? (fun k => decide (k ∉ usedKeys s))).isSome = true := by simpa using hfree
  obtain ⟨k, hk⟩ := Option.isSome_iff_exists.mp hfound
  have hkey : (newKey s).2 = k := congrArg (Option.getD · 0) hk
  rw [hkey]
  simpa using List.find?_some hk

theorem regCmd_registers {a : RegMemArgs} {x : Tensor} (hx : l2Tensor (getC u id) a.tensor = some x) (hfits : a.offset + a.length ≤ tensorBytes x)
    (hroom : (getC u id).regs.length < 4096) : regCmd u id a = (modC (newKey u).1 id (fun c =>
      { c with regs := c.regs ++ [⟨(newKey u).2, a.tensor, a.rights, a.offset, a.length, false⟩] }), endOk (newKey u).2) := by
  simp only [regCmd, hx, if_neg (Nat.not_lt.mpr hfits), if_neg (Nat.not_le.mpr hroom)]

section
variable {key : Nat} {g : Registration} (hreg : (getC u id).regs.find? (fun g => decide (g.rKey = key)) = some g)
include hreg

theorem deregCmd_idle (hbusy : g.busy = false) :
    deregCmd u id key = (modC u id (fun c => { c with regs := c.regs.filter (fun g => decide (g.rKey ≠ key)) }), endOk 0) := by
  simp only [deregCmd, hreg, hbusy, Bool.false_eq_true, if_false]

theorem deregCmd_busy (hbusy : g.busy = true) : deregCmd u id key = (u, endWith 0x0511 4) := by
  simp only [deregCmd, hreg, hbusy, if_true]

end

section
variable {a : BulkArgs} {x : Tensor} (hx : l2Tensor (getC u id) a.tensor = some x) (hfits : a.local' + a.length ≤ tensorBytes x)
include hx hfits

/-- A bulk write's bytes leave. -/
theorem bulkCmd_write (hop : a.op = 0) (hadmit : engineAdmits u id 0 = true)
    (hgood : rangeBad (getC u id) (tensorBase (getC u id) 0 a.tensor + a.local') a.length = false) :
    bulkCmd u id a = (sendRoce u id (tensorRead (getC u id) 0 a.tensor a.local' a.length), none) := by
  simp [bulkCmd, hx, hop, Nat.not_lt.mpr hfits, hadmit, hgood]

theorem bulkCmd_read (hop : a.op = 1) : bulkCmd u id a = (u, none) := by
  simp [bulkCmd, hx, hop, Nat.not_lt.mpr hfits]

end

/-! ### STREAM_OPEN and STREAM_CLOSE (R291) -/

theorem getStream_setStream (s : State) (m m' : Bool) (i i' : Nat) (e : Stream) :
    getStream (setStream s m i e) m' i' = if m' = m ∧ i' = i then e else getStream s m' i' := by
  cases m <;> cases m' <;> simp [getStream, setStream, tget_tset]

/-- The entry that STREAM_OPEN makes of a FREE one: OPEN, of the next generation, from sequence number 0 on. -/
def openedStream (s : State) (a : OpenArgs) : Stream :=
  ⟨1, 1, a.ctx, (getStream s false a.firstId).gen + 1, a.credit, 0, 0, a.peer, a.peerPort, []⟩

/-- One command stream is open, and no completion of its last generation is kept. -/
def streamOpened (s : State) (a : OpenArgs) : State :=
  let t := setStream s false a.firstId (openedStream s a)
  { t with eth := { t.eth with log := t.eth.log.filter (fun l => !(decide (l.mgmt = false) && decide (l.stream ∈ [a.firstId]))) } }

theorem getStream_streamOpened (s : State) (a : OpenArgs) : getStream (streamOpened s a) false a.firstId = openedStream s a :=
  tget_tset_self Stream.free s.eth.streams a.firstId (openedStream s a)

section
variable {a : OpenArgs} (htable : a.table = 0) (hlow : 1 ≤ a.credit) (hhigh : a.credit ≤ 64) (hcount : a.count = 1) (hid : a.firstId < 0xFFF00)
  (hlive : (getC u a.ctx).live = true)
include htable hlow hhigh hcount hid hlive

theorem openCmd_args : ¬(1 < a.table ∨ a.credit = 0 ∨ 64 < a.credit ∨ a.count = 0 ∨ idLimit a.table < a.firstId + a.count) ∧
    ¬(a.table = 0 ∧ (getC u a.ctx).live = false) ∧ decide (a.table = 1) = false ∧
    (List.range a.count).map (fun i => a.firstId + i) = [a.firstId] := by
  refine ⟨?_, by simp [hlive], by simp [htable], by simp [hcount]⟩
  simp only [htable, hcount, idLimit, if_true]
  omega

theorem openCmd_opens (hfree : (getStream u false a.firstId).state = 0) (hgen : (getStream u false a.firstId).gen < 0xFFFF) :
    openCmd u a = (streamOpened u a, endOk ((getStream u false a.firstId).gen + 1)) := by
  obtain ⟨hargs, hctx, hmg, hids⟩ := openCmd_args htable hlow hhigh hcount hid hlive
  have hfree' : ¬ [a.firstId].any (fun i => decide ((getStream u false i).state ≠ 0)) = true := by simp [hfree]
  have hgen' : ¬ [a.firstId].any (fun i => decide (0xFFFF ≤ (getStream u false i).gen)) = true := by simpa using hgen
  have hnext : endOk (getStream (streamOpened u a) false a.firstId).gen = endOk ((getStream u false a.firstId).gen + 1) := by
    rw [getStream_streamOpened, openedStream]
  rw [← hnext]
  simp only [openCmd, if_neg hargs, if_neg hctx, hmg, hids, if_neg hfree', if_neg hgen']
  rfl

theorem openCmd_used (hused : (getStream u false a.firstId).state ≠ 0) : openCmd u a = (u, endWith 0x050E 0) := by
  obtain ⟨hargs, hctx, hmg, hids⟩ := openCmd_args htable hlow hhigh hcount hid hlive
  have hused' : [a.firstId].any (fun i => decide ((getStream u false i).state ≠ 0)) = true := by simp [hused]
  simp only [openCmd, if_neg hargs, if_neg hctx, hmg, hids, if_pos hused']

end

theorem setStream_gen {s : State} {m : Bool} {i : Nat} {e : Stream} (he : e.gen = (getStream s m i).gen) (m' : Bool) (i' : Nat) :
    (getStream (setStream s m i e) m' i').gen = (getStream s m' i').gen := by
  rw [getStream_setStream]
  split
  · next hi =>
    obtain ⟨rfl, rfl⟩ := hi
    exact he
  · rfl

theorem completeHeld_gen (s : State) (c : HeldCmd) (status detail : Nat) (m : Bool) (i : Nat) :
    (getStream (completeHeld s c status detail) m i).gen = (getStream s m i).gen := by
  have hcomplete (t : State) : (getStream (complete t c.mgmt c.stream c.hdr status detail []) m i).gen = (getStream t m i).gen :=
    setStream_gen (s := t) (by rfl) m i
  rw [completeHeld, hcomplete]
  split
  · exact setStream_gen (by rfl) m i
  · rfl

section
variable (hbusy : u.eth.busy = []) (m : Bool) (i status detail : Nat) (keep : Bool)
include hbusy

/-- Commands that are flushed leave the generations of the streams. -/
theorem flushStream_gen (m' : Bool) (i' : Nat) :
    (getStream (flushStream u m i status detail keep) m' i').gen = (getStream u m' i').gen := by
  simp only [flushStream, hbusy, List.filter_nil, endBusy, List.foldl_nil]
  exact List.foldlRecOn (motive := fun t : State => (getStream t m' i').gen = (getStream u m' i').gen) _ _ rfl
    (fun t ht c _ => (completeHeld_gen t c status detail m' i').trans ht)

theorem flushStream_held (hheld : u.eth.held = []) : (flushStream u m i status detail keep).eth.held = [] := by
  simp [flushStream, hbusy, hheld, endBusy]

end

/-- One command stream is closed: its entry is FREE and keeps its generation. -/
theorem closeCmd_closes {a : CloseArgs} (htable : a.table = 0) (hcount : a.count = 1) (hid : a.firstId < 0xFFF00)
    (hused : (getStream u false a.firstId).state ≠ 0) (hbusy : u.eth.busy = []) :
    ∃ t, closeCmd u a = (t, endOk 0) ∧ (getStream t false a.firstId).state = 0 ∧
      (getStream t false a.firstId).gen = (getStream u false a.firstId).gen ∧ t.ctxs = u.ctxs ∧ (u.eth.held = [] → t.eth.held = []) := by
  let v := flushStream u false a.firstId 0x050B 0 false
  have hargs : ¬(1 < a.table ∨ a.count = 0 ∨ idLimit a.table < a.firstId + a.count) := by
    simp only [htable, hcount, idLimit, if_true]
    omega
  have hmg : decide (a.table = 1) = false := by simp [htable]
  have hids : (List.range a.count).map (fun i => a.firstId + i) = [a.firstId] := by simp [hcount]
  refine ⟨setStream v false a.firstId { getStream v false a.firstId with state := 0 }, ?_, ?_, ?_, ?_, fun hheld => ?_⟩
  · simp only [closeCmd, if_neg hargs, hmg, hids, List.foldl_cons, List.foldl_nil, if_neg hused, v]
  · rw [getStream_setStream, if_pos ⟨rfl, rfl⟩]
  · rw [getStream_setStream, if_pos ⟨rfl, rfl⟩]
    exact flushStream_gen hbusy _ _ _ _ _ _ _
  · exact (ctxsPkgKept_setStream (ctxsPkgKept_flushStream (.refl u))).ctxs
  · exact flushStream_held hbusy _ _ _ _ _ hheld

end

end Sys2Proof.CommandProofs
end

section
/-! PROOFS. RUN: what a module's start keeps, and what it leaves of the context (R69, R86, R312). -/

namespace Sys2Proof.CommandProofs

open Sys2Proof Sys2Proof.Machine Sys2Proof.Laws Sys2Proof.SolverProofs Sys2Proof.WriteProofs Sys2Proof.PortProofs

/-! ### What storing and taking inputs keeps -/

/-- `t` comes from `s` by operations that leave the workers of context `id`, its step, its module's state, the entries, the port and whether
the device records. -/
structure RunKept (id : Nat) (s t : State) : Prop where
  workers  : (getC t id).workers = (getC s id).workers
  step     : (getC t id).step = (getC s id).step
  modState : (getC t id).modState = (getC s id).modState
  ent      : t.ent = s.ent
  eth      : t.eth = s.eth
  rrec     : t.ckpt.rrec = s.ckpt.rrec

section
variable {id : Nat} {s t u : State}

theorem RunKept.refl (id : Nat) (s : State) : RunKept id s s := ⟨rfl, rfl, rfl, rfl, rfl, rfl⟩

theorem RunKept.trans (h : RunKept id s t) (g : RunKept id t u) : RunKept id s u :=
  ⟨g.workers.trans h.workers, g.step.trans h.step, g.modState.trans h.modState, g.ent.trans h.ent, g.eth.trans h.eth, g.rrec.trans h.rrec⟩

theorem RunKept.ite {p : Prop} [Decidable p] (h : RunKept id s t) (g : RunKept id s u) : RunKept id s (if p then t else u) := by
  split <;> assumption

theorem RunKept.foldl {α : Type} {f : State → α → State} (hf : ∀ u a, RunKept id s u → RunKept id u (f u a)) (l : List α) :
    RunKept id s (l.foldl f s) :=
  List.foldlRecOn (motive := RunKept id s) l f (.refl id s) (fun u hu a _ => hu.trans (hf u a hu))

theorem RunKept.recording (h : RunKept id s t) (j : Nat) : recording t j = recording s j := by
  simp only [Machine.recording, replayCtx, rd, h.ent, h.rrec]
  rfl

theorem RunKept.runningId (h : RunKept id s t) : runningId t = runningId s := by
  simp only [Machine.runningId, rd, h.ent]
  rfl

variable (s)

theorem runKept_modC {f : Context → Context} (hw : ∀ c, (f c).workers = c.workers := by exact fun _ => rfl)
    (hs : ∀ c, (f c).step = c.step := by exact fun _ => rfl) (hm : ∀ c, (f c).modState = c.modState := by exact fun _ => rfl) :
    RunKept id s (modC s id f) := by
  refine ⟨?_, ?_, ?_, rfl, rfl, rfl⟩ <;> rw [modC, getC_setC_self]
  · exact hw _
  · exact hs _
  · exact hm _

theorem runKept_storeRange (a : Nat) (bs : List Byte) : RunKept id s (storeRange s id a bs) := by
  obtain ⟨pantry, pages, hstore⟩ := storeRange_bytes s id a bs
  rw [hstore]
  refine ⟨?_, ?_, ?_, rfl, rfl, rfl⟩ <;> rw [getC_setC_self]

theorem runKept_takeInput (decl tensor : Nat) (bs : List Byte) : RunKept id s (takeInput s id decl tensor bs) :=
  (runKept_storeRange s _ bs).trans (runKept_modC _)

theorem runKept_holdPage (p : Nat) : RunKept id s (holdPage s id p) := .ite (.refl id s) ⟨rfl, rfl, rfl, rfl, rfl, rfl⟩

theorem runKept_holdRange (a n : Nat) : RunKept id s (holdRange s id a n) :=
  .foldl (fun u p _ => .ite (runKept_holdPage u p) (.refl id u)) _

theorem runKept_dropReplay (type key : Nat) : RunKept id s (dropReplay s type key) := by
  unfold dropReplay
  split
  · exact ⟨rfl, rfl, rfl, rfl, rfl, rfl⟩
  · exact .refl id s

/-- An input is taken, or its pages are to be copied first. A device that does not record the context logs nothing of it. -/
theorem runKept_fetchInput (i : Nat) (hrec : recording s id = false) : RunKept id s (fetchInput s id i) := by
  unfold fetchInput
  dsimp only
  split
  · exact .refl id s
  next d _ =>
    refine .ite (.refl id s) (.ite ?command (.ite ?plant (.refl id s)))
    case command =>
      split
      · exact .refl id s
      · exact .ite (runKept_holdRange s _ _) ((runKept_takeInput s _ _ _).trans (runKept_modC _))
    case plant =>
      split
      · exact .refl id s
      next k bs _ =>
        refine .ite (.ite (runKept_holdRange s _ _) ?_) (.refl id s)
        have htaken := (RunKept.ite (p := replaying s id = true) (runKept_dropReplay (id := id) s 0x04 i) (.refl id s)).trans
          (runKept_takeInput _ i d.tensor bs)
        rw [logInput, if_neg (by rw [htaken.recording, hrec]; decide)]
        exact htaken

theorem runKept_fetchInputs (hrec : recording s id = false) : RunKept id s (fetchInputs s id) :=
  .foldl (fun u i hu => runKept_fetchInput u i ((hu.recording id).trans hrec)) _

end

/-! ### The workers of a fresh start (R69) -/

theorem tget_map_pair {α : Type} (d : α) (f : Nat → α) {l : List Nat} {k : Nat} (h : k ∈ l) : tget d (l.map (fun i => (i, f i))) k = f k := by
  induction l with
  | nil => exact absurd h List.not_mem_nil
  | cons i l ih =>
    by_cases hi : i = k
    · simp [tget, hi]
    · simpa [tget, hi] using ih ((List.mem_cons.mp h).resolve_left (Ne.symm hi))

/-- A worker starts at the first code word with the full vector length, whatever its INIT tensors fill. -/
theorem startWorker_fresh (c : Context) (k : Worker) :
    (startWorker c k).run = .running ∧ (startWorker c k).pc = 0 ∧ (startWorker c k).vl = 4096 :=
  List.foldlRecOn (motive := fun w : Worker => w.run = .running ∧ w.pc = 0 ∧ w.vl = 4096) _ _ ⟨rfl, rfl, rfl⟩ (fun _ hw _ _ => hw)

theorem freshRun_workers (c : Context) : (freshRun c).workers = (List.range 4000).map (fun i => (i, startWorker c (getW c i))) := by
  simp only [freshRun]

theorem freshRun_step (c : Context) : (freshRun c).step = 0 := by simp only [freshRun]

theorem getW_freshRun (c : Context) {cl : Nat} (hcl : cl < 4000) : getW (freshRun c) cl = startWorker c (getW c cl) := by
  rw [getW, freshRun_workers]
  exact tget_map_pair Worker.initial (fun i => startWorker c (getW c i)) (List.mem_range.mpr hcl)

theorem runKept_freshStart (s : State) (id : Nat) : RunKept id (setC s id (freshRun (getC s id))) (freshStart s id) :=
  RunKept.foldl (f := fun (u : State) (r : Nat × List Byte) => storeRange u id r.1 r.2) (fun u r _ => runKept_storeRange u r.1 r.2) _

/-! ### RUN outside recording and replay -/

/-- A RUN that begins no log epoch leaves its context unrecorded. -/
theorem beginEpoch_unlogged {s : State} {id : Nat} (h : replayCtx s ≠ id ∨ rd s 0x900100 = 0) :
    (∃ b, beginEpoch s id = { s with ckpt := { s.ckpt with rrec := b } }) ∧ recording (beginEpoch s id) id = false := by
  unfold beginEpoch
  by_cases hid : replayCtx s = id
  · have hmode : rd s 0x900100 ≠ 1 := by
      have := h.resolve_left (not_not_intro hid)
      omega
    rw [if_neg (not_not_intro hid), if_pos hmode]
    exact ⟨⟨false, rfl⟩, rfl⟩
  · rw [if_pos hid]
    exact ⟨⟨_, rfl⟩, by simp [recording, hid]⟩

/-- The module of context `id` runs, on the RUN of command stream `stream`. -/
def runStarted (s : State) (id stream : Nat) : State :=
  modC s id (fun c => startStepClock s { c with modState := .running, runStream := stream, haltStream := none })

theorem getC_runStarted (s : State) (id stream : Nat) : getC (runStarted s id stream) id =
    startStepClock s { getC s id with modState := .running, runStream := stream, haltStream := none } := getC_setC_self s id _

theorem runStarted_rd (s : State) (id stream k : Nat) : rd (runStarted s id stream) k = rd s k := rfl

/-- The log, where none is begun, and the inputs that are there leave a module that has started to run. -/
theorem fetchInputs_beginEpoch {s : State} {id : Nat} (stream : Nat) (hlog : replayCtx s ≠ id ∨ rd s 0x900100 = 0) :
    let t := fetchInputs (beginEpoch (runStarted s id stream) id) id
    (getC t id).modState = .running ∧ (getC t id).step = (getC s id).step ∧ (getC t id).workers = (getC s id).workers ∧ t.eth = s.eth := by
  intro t
  have hlog' : replayCtx (runStarted s id stream) ≠ id ∨ rd (runStarted s id stream) 0x900100 = 0 := by
    rwa [replayCtx, runStarted_rd, runStarted_rd, ← replayCtx]
  obtain ⟨⟨b, hepoch⟩, hrec⟩ := beginEpoch_unlogged hlog'
  have hfetched : RunKept id (beginEpoch (runStarted s id stream) id) t := runKept_fetchInputs _ hrec
  have hctx : getC (beginEpoch (runStarted s id stream) id) id = getC (runStarted s id stream) id := by rw [hepoch, getC, getC]
  rw [hfetched.modState, hfetched.step, hfetched.workers, hctx, getC_runStarted, hfetched.eth, hepoch]
  exact ⟨rfl, rfl, rfl, rfl⟩

/-- A fresh start of the running context: its module runs from step 0, each worker from its first code word. -/
theorem startRun_starts {s : State} {id : Nat} (stream : Nat) (hfresh : resumes s id = false) (hrun : runningId s = some id)
    (hlog : replayCtx s ≠ id ∨ rd s 0x900100 = 0) : let t := startRun s id stream
    (getC t id).modState = .running ∧ (getC t id).step = 0 ∧
    (∀ cl, cl < 4000 → (getW (getC t id) cl).run = .running ∧ (getW (getC t id) cl).pc = 0 ∧ (getW (getC t id) cl).vl = 4096) ∧
    t.eth = s.eth := by
  intro t
  have hstored := runKept_freshStart s id
  have hnow : runningId (freshStart s id) = some id := hstored.runningId.trans hrun
  have ht : t = fetchInputs (beginEpoch (runStarted (freshStart s id) id stream) id) id := by
    simp only [t, startRun, hfresh, Bool.false_eq_true, if_false]
    rw [if_pos hnow, runStarted]
  have hlog' : replayCtx (freshStart s id) ≠ id ∨ rd (freshStart s id) 0x900100 = 0 := by
    simpa only [replayCtx, rd, hstored.ent, setC_ent] using hlog
  obtain ⟨hstate, hstep, hworkers, heth⟩ := fetchInputs_beginEpoch stream hlog'
  rw [← ht] at hstate hstep hworkers heth
  refine ⟨hstate, ?_, fun cl hcl => ?_, ?_⟩
  · rw [hstep, hstored.step, getC_setC_self, freshRun_step]
  · have hw : getW (getC t id) cl = startWorker (getC s id) (getW (getC s id) cl) := by
      rw [← getW_freshRun (getC s id) hcl, getW, hworkers, hstored.workers, getC_setC_self, getW]
    rw [hw]
    exact startWorker_fresh _ _
  · rw [heth, hstored.eth, setC_eth]

end Sys2Proof.CommandProofs
end


section
/-! PROOFS. Commands of a context's streams from their datagram on: what is performed at once, what goes on, and the ends of long commands (R290,
R293 to R297, R303, R382). -/

namespace Sys2Proof.CommandProofs

open Sys2Proof Sys2Proof.Machine Sys2Proof.Laws Sys2Proof.DatagramProofs

section
variable {i : Instr} {s : State} {h : DgHdr} {c : TCmd}

/-- A datagram whose command goes on. -/
theorem begins_of_long {t : State} (hexec : exec i s = .next (dgram s h c)) (hcmd : performCmd (taken s h) h c = (t, none)) :
    Begins i s h c t := by
  intro hp
  rw [hexec, dgram_begun s h c t hp hcmd]

/-- A datagram that one of steps 7 and 8 refuses. -/
theorem dgram_refused {status : Nat} (hi : InOrder s h) (hrun : runSteps (taken s h) h c = (taken s h, endWith status 0))
    (hrec : recording s h.ctx = false) : dgram s h c = answered (taken s h) h status 0 [] := by
  rw [dgram_start s h c hi]
  obtain ⟨-, -, hopen, -, -, hseq, -, hnone⟩ := hi
  have hstart : startCmd (arrive s h).1 h c = complete (taken s h) h.mgmt h.stream h status 0 [] := by
    rw [startCmd_run _ _ _ (by rwa [arrive_getStream]) hseq, ← taken, hrun]
    exact logCommand_off _ _ _ _ (.inr (by rw [recording_complete, recording_taken, hrec]))
  have hheld : (complete (taken s h) h.mgmt h.stream h status 0 []).eth.held = [] := by
    obtain ⟨hcompleted, -⟩ := complete_rest (taken s h) h.mgmt h.stream h status 0 []
    obtain ⟨-, -, htaken⟩ := taken_rest s h
    rw [hcompleted, htaken, hnone]
  have hdrain (t : State) (ht : t.eth.held = []) : drainStream 1 t h.mgmt h.stream = t := by
    simp only [drainStream, ht, List.find?_nil, ite_self]
  rw [hstart, hdrain _ hheld, answered]

end

/-! ### RUN -/

section
variable {u : State} {id : Nat} (hloaded : (getC u id).modState = .loaded)
include hloaded

theorem startable_of_loaded : startable (getC u id) = true := by simp only [startable, hloaded]

theorem runCmd_degraded (stream : Nat) (hdev : deviceState u = 3) : runCmd u id stream = (u, endWith 0x0A06 0) := by
  simp only [runCmd, startable_of_loaded hloaded, hdev, Bool.not_true, Bool.false_eq_true, if_false, if_true]

/-- The device with no replay of context `id` in it. -/
def replayLeft (s : State) (id : Nat) : State :=
  { s with ckpt := { s.ckpt with rplay := s.ckpt.rplay && decide (replayCtx s ≠ id) } }

theorem runCmd_launches (stream : Nat) (hdev : deviceState u ≠ 3) (hlog : replayCtx u ≠ id ∨ rd u 0x900100 = 0) :
    runCmd u id stream = launch (replayLeft u id) id stream := by
  have hmode : ¬(replayCtx u = id ∧ rd u 0x900100 = 2) := by omega
  simp only [runCmd, startable_of_loaded hloaded, hdev, Bool.not_true, Bool.false_eq_true, if_false, if_neg hmode]
  rfl

end

section
variable {u : State} {id : Nat}

/-- A page that the start fills is protected: RUN waits. -/
theorem launch_waits (stream : Nat) {a n : Nat} (hwaits : runWaits u id = some (a, n)) :
    launch (replayLeft u id) id stream = (holdRange (replayLeft u id) id a n, none) := by
  have hwaits' : runWaits (replayLeft u id) id = some (a, n) := hwaits
  simp only [launch, hwaits']

theorem launch_starts (stream : Nat) (hwaits : runWaits u id = none)
    (hnow : (getC (startRun (replayLeft u id) id stream) id).modState = .running) :
    launch (replayLeft u id) id stream = (startRun (replayLeft u id) id stream, endOk 0) := by
  have hwaits' : runWaits (replayLeft u id) id = none := hwaits
  simp only [launch, hwaits', hnow]
  rfl

end

/-! ### The ends of LOAD and BULK -/

section
variable {u : State} {b : BusyCmd}

/-- TRANSLATION_DONE: LOAD completes. -/
theorem exec_translationDone {id : Nat} (htrans : (getC u id).modState = .translating) {i : Fin 4096} (hi : i.val = id)
    (hb : Runs (modC u id (fun c => { c with modState := .loaded })) (isLoadOf id) b) :
    exec (.translationDone i) u = .next (ended (modC u id (fun c => { c with modState := .loaded })) b 0 0) := by
  subst hi
  rw [← endLong_ended _ _ b 0 0 hb]
  exact congrArg Host.Outcome.next (if_pos htrans)

variable {stream : Nat} {a : BulkArgs} (hb : Runs u (isBulkOn stream) b) (ha : b.cmd = .bulk a) (data : List Byte)
include hb ha

/-- REMOTE_FAULT: the peer's answer had a syndrome. -/
theorem exec_bulkDone_failed {syndrome : Nat} (hsyn : syndrome ≠ 0) :
    exec (.bulkDone stream syndrome data) u = .next (ended u b 0x050A syndrome) := by
  rw [← endLong_ended _ _ b _ _ hb]
  show execBulkDone stream syndrome data u = _
  simp only [execBulkDone, hb.1, ha, hsyn, ne_eq, not_false_eq_true, if_true]

theorem exec_bulkDone_written (hop : a.op = 0) : exec (.bulkDone stream 0 data) u = .next (ended u b 0 0) := by
  rw [← endLong_ended _ _ b _ _ hb]
  show execBulkDone stream 0 data u = _
  simp only [execBulkDone, hb.1, ha, hop, ne_eq, not_true_eq_false, if_false, if_true]

end

/-- Settles O53: each command by what it does once it is performed, the long ones' ends by `endLong_ended`. -/
theorem hostCommandsTakeEffect : Obligations.HostCommandsTakeEffect := by
  intro s h u c
  refine ⟨nop_performs s h, fun a bs hidle htrans hbytes hcheck => ?_, fun a bs step hidle htrans hbytes hcheck => ?_,
    fun b htrans i hi hb => exec_translationDone htrans hi hb, fun hloaded hdev hlog hrun hfresh => ⟨fun a n hwaits => ?_, fun hwaits => ?_⟩,
    fun hdev hloaded => ?_, fun hidle => ⟨?_, ?_⟩, fun hrun => ⟨?_, ?_⟩,
    fun a d x hdecl hx hfits => ⟨fun hahead hnone => ?_, fun hlate => ?_, fun hahead hnew hfull => ?_⟩,
    fun decl step d o hdecl hout hopen hctx => ?_, fun decl step d hdecl hout => ?_, fun a x hx hfits hroom hkeys => ?_,
    fun key g hreg => ⟨fun hbusy => ?_, fun hbusy => ?_⟩, fun a x hx hfits => ⟨fun hop hadmit hgood => ?_, fun hop => ?_⟩,
    fun stream b a syndrome data hb ha => ⟨exec_bulkDone_failed hb ha data, exec_bulkDone_written hb ha data⟩,
    fun q hheld => ⟨performs_of_done rfl rfl (fun _ => hheld), performs_of_done rfl rfl (fun _ => hheld)⟩,
    fun q hheld => ⟨performs_of_done rfl rfl (fun _ => hheld), performs_of_done rfl rfl (fun _ => hheld)⟩,
    fun a htable hlow hhigh hcount hid hlive hfree hgen => ?_, fun a htable hlow hhigh hcount hid hlive hused => ?_,
    fun a htable hcount hid hused hbusy => ?_, fun op hi hres hrec => ?_⟩
  · obtain ⟨hstate, hmod, hmem, hmr4⟩ := getC_moduleTaken u h.ctx (moduleOf (parseContainer bs))
    exact ⟨_, hstate, hmod, hmem, hmr4, begins_of_long rfl (loadCmd_loads hidle htrans hbytes hcheck)⟩
  · exact performs_of_done rfl (loadCmd_refused hidle htrans hbytes hcheck)
  · exact begins_of_long rfl ((runCmd_launches hloaded h.stream hdev hlog).trans (launch_waits h.stream hwaits))
  · obtain ⟨hstate, hstep, hworkers, heth⟩ := startRun_starts (s := replayLeft u h.ctx) h.stream hfresh hrun hlog
    exact ⟨_, hstate, hstep, hworkers, performs_of_done rfl
      ((runCmd_launches hloaded h.stream hdev hlog).trans (launch_starts h.stream hwaits hstate))
      (fun hheld => (congrArg EthState.held heth).trans hheld)⟩
  · exact performs_of_done rfl (runCmd_degraded hloaded h.stream hdev)
  · exact performs_of_done rfl (haltCmd_idle (mode := 0) hidle h.stream (by decide))
  · exact performs_of_done rfl (haltCmd_idle (mode := 1) hidle h.stream (by decide))
  · exact begins_of_long rfl (haltCmd_atStepPoint hrun h.stream)
  · obtain ⟨t, code, hcmd, hstate, hfences⟩ := haltCmd_atOnce hrun h.stream
    exact ⟨t, code, hstate, hfences, begins_of_long rfl hcmd⟩
  · exact performs_of_done rfl (inputCmd_ahead hdecl hx hfits hahead hnone)
  · exact performs_of_done rfl (inputCmd_late hdecl hx hfits hlate)
  · exact performs_of_done rfl (inputCmd_full hdecl hx hfits hahead hnew hfull)
  · exact performs_of_done rfl (resendCmd_kept hdecl hout hopen hctx) (fun hheld => (sendOutput_held _ _ _ _ _).trans hheld)
  · exact performs_of_done rfl (resendCmd_gone hdecl hout)
  · exact ⟨_, _, newKey_unused u hkeys, congrArg Context.regs (getC_setC_self _ _ _), performs_of_done rfl (regCmd_registers hx hfits hroom)⟩
  · exact performs_of_done rfl (deregCmd_idle hreg hbusy)
  · exact performs_of_done rfl (deregCmd_busy hreg hbusy)
  · exact begins_of_long rfl (bulkCmd_write hx hfits hop hadmit hgood)
  · exact begins_of_long rfl (bulkCmd_read hx hfits hop)
  · exact ⟨_, getStream_streamOpened u a, rfl, performs_of_done rfl (openCmd_opens htable hlow hhigh hcount hid hlive hfree hgen)⟩
  · exact performs_of_done rfl (openCmd_used htable hlow hhigh hcount hid hlive hused)
  · obtain ⟨t, hcmd, hfree, hgen, hctxs, hheld⟩ := closeCmd_closes htable hcount hid hused hbusy
    exact ⟨t, hfree, hgen, hctxs, performs_of_done rfl hcmd hheld⟩
  · have hrefused : runSteps u h (.unassigned op) = (u, endWith 0x0502 0) := by
      have hres' : reservedBad h (.unassigned op) ≠ true := by simp [hres]
      rw [runSteps, if_neg hres', if_pos (by simp [cmdMgmt])]
    exact congrArg Host.Outcome.next (dgram_refused hi hrefused hrec)

end Sys2Proof.CommandProofs
end

section
/-! PROOFS. The machine: reset, what a step runs, and what every step keeps (R373, R377). -/

namespace Sys2Proof.MachineProofs

open Sys2Proof Sys2Proof.Machine Sys2Proof.Laws

/-- Every command leaves the queue of waiting commands alone and keeps the machine sound: each arm by its own lemma. -/
theorem kept_exec {i : Instr} {s t : State} (h : exec i s = .next t) : Kept s t := by
  cases i with
  | nop => exact kept_execNop h
  | endOp => exact kept_execEndOp h
  | sli => exact kept_execSli h
  | slih => exact kept_execSlih h
  | salu => exact kept_execSalu h
  | loop => exact kept_execLoop h
  | brnz => exact kept_execBrnz h
  | wid => exact kept_execWid h
  | rdcw => exact kept_execRdcw h
  | wrcw => exact kept_execWrcw h
  | vdef => exact kept_execVdef h
  | rdtime => exact kept_execRdtime h
  | movs => exact kept_execMovs h
  | movg => exact kept_execMovg h
  | movsc => exact kept_execMovsc h
  | fill => exact kept_execFill h
  | pref => exact kept_execPref h
  | gzero => exact kept_execGzero h
  | gmma => exact kept_execGmma h
  | gld => exact kept_execGld h
  | griddleIssue => exact kept_execGriddleIssue h
  | griddleComplete => exact kept_execGriddleComplete h
  | wvl => exact kept_execWvl h
  | wbin => exact kept_execWbin h
  | wfma => exact kept_execWfma h
  | wun => exact kept_execWun h
  | wact => exact kept_execWact h
  | wcvt => exact kept_execWcvt h
  | wcmp => exact kept_execWcmp h
  | wsel => exact kept_execWsel h
  | wacc => exact kept_execWacc h
  | wred => exact kept_execWred h
  | wgth => exact kept_execWgth h
  | wsct => exact kept_execWsct h
  | elemResume => exact kept_execElemResume h
  | whiskComplete => exact kept_execWhiskComplete h
  | rread => exact kept_execRread h
  | rwrite => exact kept_execRwrite h
  | rwritef => exact kept_execRwritef h
  | rwritec => exact kept_execRwritec h
  | rinv => exact kept_execRinv h
  | rrepl => exact kept_execRrepl h
  | callred => exact kept_execCallred h
  | crscat => exact kept_execCrscat h
  | cagth => exact kept_execCagth h
  | cbcst => exact kept_execCbcst h
  | ca2a => exact kept_execCa2a h
  | collDeviceEntry => exact kept_execCollDeviceEntry h
  | solve => exact kept_execSolve h
  | swait => exact kept_execSwait h
  | fset => exact kept_execFset h
  | fwait => exact kept_execFwait h
  | frd => exact kept_execFrd h
  | bar => exact kept_execBar h
  | sin => exact kept_execSin h
  | sout => exact kept_execSout h
  | stepOp => exact kept_execStepOp h
  | ckptOp => exact kept_execCkptOp h
  | stepPointRelease => exact kept_execStepPointRelease h
  | readReq => exact kept_execReadReq h
  | writeReq => exact kept_execWriteReq h
  | writecReq => exact kept_execWritecReq h
  | flagInc => exact kept_execFlagInc h
  | replInv => exact kept_execReplInv h
  | replFill => exact kept_execReplFill h
  | readResp => exact kept_execReadResp h
  | writeAck => exact kept_execWriteAck h
  | flagAck => exact kept_execFlagAck h
  | invAck => exact kept_execInvAck h
  | refusal => exact kept_execRefusal h
  | remoteTimeout => exact kept_execRemoteTimeout h
  | remoteDeadNotice => exact kept_execRemoteDeadNotice h
  | sieveMerge => exact kept_execSieveMerge h
  | sieveWriteback => exact kept_execSieveWriteback h
  | sieveRetire => exact kept_execSieveRetire h
  | collOpenUp => exact kept_execCollOpenUp h
  | collOpenDown => exact kept_execCollOpenDown h
  | collUp => exact kept_execCollUp h
  | collDown => exact kept_execCollDown h
  | collA2a => exact kept_execCollA2a h
  | residueCheckDone => exact kept_execResidueCheckDone h
  | collectiveTimeout => exact kept_execCollectiveTimeout h
  | lateWindowEnd => exact kept_execLateWindowEnd h
  | flitForward => exact kept_execFlitForward h
  | nak => exact kept_execNak h
  | portLossOfLock => exact kept_execPortLossOfLock h
  | probe => exact kept_execProbe h
  | probeTimer => exact kept_execProbeTimer h
  | congestionSample => exact kept_execCongestionSample h
  | drainNotice => exact kept_execDrainNotice h
  | portDrained => exact kept_execPortDrained h
  | recalDone => exact kept_execRecalDone h
  | portTrained => exact kept_execPortTrained h
  | laserCheck => exact kept_execLaserCheck h
  | routeCommit => exact kept_execRouteCommit h
  | deviceId => exact kept_execDeviceId h
  | systemShape => exact kept_execSystemShape h
  | vcArbSet => exact kept_execVcArbSet h
  | portDrain => exact kept_execPortDrain h
  | portForceDrain => exact kept_execPortForceDrain h
  | portRecal => exact kept_execPortRecal h
  | portReturn => exact kept_execPortReturn h
  | portTest => exact kept_execPortTest h
  | bypassClose => exact kept_execBypassClose h
  | bypassOpen => exact kept_execBypassOpen h
  | bypassSwitchSettled => exact kept_execBypassSwitchSettled h
  | mgmtRingBreak => exact kept_execMgmtRingBreak h
  | stewardEvent => exact kept_execStewardEvent h
  | quiesceFenceDone => exact kept_execQuiesceFenceDone h
  | accessTableUpdateDone => exact kept_execAccessTableUpdateDone h
  | stackTempReading => exact kept_execStackTempReading h
  | stackRetrain => exact kept_execStackRetrain h
  | dieTempReading => exact kept_execDieTempReading h
  | predRateSample => exact kept_execPredRateSample h
  | solverStageInDone => exact kept_execSolverStageInDone h
  | solverExecEnd => exact kept_execSolverExecEnd h
  | solverWritebackDone => exact kept_execSolverWritebackDone h
  | solverFault => exact kept_execSolverFault h
  | psArm => exact kept_execPsArm h
  | psResume => exact kept_execPsResume h
  | psStop => exact kept_execPsStop h
  | plantPeriodStart => exact kept_execPlantPeriodStart h
  | plantWinClose => exact kept_execPlantWinClose h
  | plantSlot => exact kept_execPlantSlot h
  | plantDeadline => exact kept_execPlantDeadline h
  | psTxLate => exact kept_execPsTxLate h
  | plantMeas => exact kept_execPlantMeas h
  | ptpMessage => exact kept_execPtpMessage h
  | ptpHoldoverExpiry => exact kept_execPtpHoldoverExpiry h
  | cmdNop => exact kept_execCmdNop h
  | load => exact kept_execLoad h
  | translationDone => exact kept_execTranslationDone h
  | run => exact kept_execRun h
  | haltAtStepPoint => exact kept_execHaltAtStepPoint h
  | haltAtOnce => exact kept_execHaltAtOnce h
  | input => exact kept_execInput h
  | outputResend => exact kept_execOutputResend h
  | regMem => exact kept_execRegMem h
  | deregMem => exact kept_execDeregMem h
  | bulk => exact kept_execBulk h
  | bulkDone => exact kept_execBulkDone h
  | entryRead => exact kept_execEntryRead h
  | entryWrite => exact kept_execEntryWrite h
  | mgmtEntryRead => exact kept_execMgmtEntryRead h
  | mgmtEntryWrite => exact kept_execMgmtEntryWrite h
  | streamOpen => exact kept_execStreamOpen h
  | streamClose => exact kept_execStreamClose h
  | create => exact kept_execCreate h
  | sessionKey => exact kept_execSessionKey h
  | members => exact kept_execMembers h
  | bind => exact kept_execBind h
  | unbind => exact kept_execUnbind h
  | schedule => exact kept_execSchedule h
  | contextSwitchDone => exact kept_execContextSwitchDone h
  | bundleOpen => exact kept_execBundleOpen h
  | bundleDecryptDone => exact kept_execBundleDecryptDone h
  | teardown => exact kept_execTeardown h
  | scrub => exact kept_execScrub h
  | scrubComplete => exact kept_execScrubComplete h
  | partition => exact kept_execPartition h
  | roceRequest => exact kept_execRoceRequest h
  | roceAtomic qp => exact kept_execRoceAtomic (_qp := qp) h
  | arpRequest => exact kept_execArpRequest h
  | neighbourSolicit => exact kept_execNeighbourSolicit h
  | icmpEcho => exact kept_execIcmpEcho h
  | ethFrameDiscard => exact kept_execEthFrameDiscard h
  | dictRead => exact kept_execDictRead h
  | dictWrite => exact kept_execDictWrite h
  | dictWriteSegment => exact kept_execDictWriteSegment h
  | segmentTimeout => exact kept_execSegmentTimeout h
  | dictDescribe => exact kept_execDictDescribe h
  | dictNext => exact kept_execDictNext h
  | canFrame => exact kept_execCanFrame h
  | canGapTimeout => exact kept_execCanGapTimeout h
  | relayTx => exact kept_execRelayTx h
  | relayDatagram => exact kept_execRelayDatagram h
  | relayReply => exact kept_execRelayReply h
  | xlateCacheFlush => exact kept_execXlateCacheFlush h
  | arbWeightSet => exact kept_execArbWeightSet h
  | srSeed => exact kept_execSrSeed h
  | sdMode => exact kept_execSdMode h
  | compatJsn16 => exact kept_execCompatJsn16 h
  | jobId => exact kept_execJobId h
  | buddyDevice => exact kept_execBuddyDevice h
  | buddyPartner => exact kept_execBuddyPartner h
  | ckptRequest => exact kept_execCkptRequest h
  | voteCast => exact kept_execVoteCast h
  | ckptVote => exact kept_execCkptVote h
  | ckptVoteTimeout => exact kept_execCkptVoteTimeout h
  | commit => exact kept_execCommit h
  | commitAck => exact kept_execCommitAck h
  | commitDone => exact kept_execCommitDone h
  | abort => exact kept_execAbort h
  | ladleLocalCopy => exact kept_execLadleLocalCopy h
  | ladleSlotTimeout => exact kept_execLadleSlotTimeout h
  | restoreCmd => exact kept_execRestoreCmd h
  | restorePullDone => exact kept_execRestorePullDone h
  | reclaimStart => exact kept_execReclaimStart h
  | reclaimStepWaitExpiry => exact kept_execReclaimStepWaitExpiry h
  | reclaimCutoff => exact kept_execReclaimCutoff h
  | replaySegmentAck => exact kept_execReplaySegmentAck h
  | quoteNonce => exact kept_execQuoteNonce h
  | quoteReady => exact kept_execQuoteReady h
  | ownerKey => exact kept_execOwnerKey h
  | fmKey => exact kept_execFmKey h
  | mgmtKeyEnrol => exact kept_execMgmtKeyEnrol h
  | mgmtKeyNext => exact kept_execMgmtKeyNext h
  | tamperClear => exact kept_execTamperClear h
  | debugUnlock => exact kept_execDebugUnlock h
  | zeroise => exact kept_execZeroise h
  | decommission => exact kept_execDecommission h
  | rollbackOverride => exact kept_execRollbackOverride h
  | fwStageSrc => exact kept_execFwStageSrc h
  | fwStageVerified => exact kept_execFwStageVerified h
  | fwActivate => exact kept_execFwActivate h
  | fwRecovery => exact kept_execFwRecovery h
  | warmReset => exact kept_execWarmReset h
  | coldReset => exact kept_execColdReset h
  | powerDown => exact kept_execPowerDown h
  | serviceBypassClose => exact kept_execServiceBypassClose h
  | tasterReqCluster => exact kept_execTasterReqCluster h
  | tasterReqPantry => exact kept_execTasterReqPantry h
  | tasterReqStack => exact kept_execTasterReqStack h
  | tasterReqSolver => exact kept_execTasterReqSolver h
  | tasterReqRecal => exact kept_execTasterReqRecal h
  | tasterReqFullTest => exact kept_execTasterReqFullTest h
  | tasterSliceStart => exact kept_execTasterSliceStart h
  | sliceBistDone => exact kept_execSliceBistDone h
  | fullTestDone => exact kept_execFullTestDone h
  | opTarget => exact kept_execOpTarget h
  | synthLocked => exact kept_execSynthLocked h
  | governorSample => exact kept_execGovernorSample h
  | governorDutyUpdate => exact kept_execGovernorDutyUpdate h
  | powerFault => exact kept_execPowerFault h
  | v52Valid => exact kept_execV52Valid h
  | supplySag => exact kept_execSupplySag h
  | brownoutSaveDone => exact kept_execBrownoutSaveDone h
  | heldExit => exact kept_execHeldExit h
  | pllLockLost => exact kept_execPllLockLost h
  | wenedPllLost => exact kept_execWenedPllLost h
  | watchdogExpiry => exact kept_execWatchdogExpiry h
  | rstNAssert => exact kept_execRstNAssert h
  | rstNRelease => exact kept_execRstNRelease h
  | bringupStageComplete => exact kept_execBringupStageComplete h
  | bringupTimeout => exact kept_execBringupTimeout h
  | presNRelease => exact kept_execPresNRelease h
  | ownerEnRelease => exact kept_execOwnerEnRelease h
  | presenceWindowExpiry => exact kept_execPresenceWindowExpiry h
  | sealReading => exact kept_execSealReading h
  | ethLinkChange => exact kept_execEthLinkChange h
  | ptpSyncMissed => exact kept_execPtpSyncMissed h
  | pfcPause => exact kept_execPfcPause h
  | roceCnp => exact kept_execRoceCnp h
  | pllLockStable => exact kept_execPllLockStable h
  | counterSnapshot => exact kept_execCounterSnapshot h
  | loanRevoke => exact kept_execLoanRevoke h
  | unassignedOpcode => exact kept_execUnassignedOpcode h
  | ckptStorageAck => exact kept_execCkptStorageAck h
  | replayLogReadDone => exact kept_execReplayLogReadDone h
  | stagedImageBootDone => exact kept_execStagedImageBootDone h

/-- What a step leaves: the queue without its front, and a machine as sound as before. -/
theorem step_keeps {s t : State} (h : step s = .next t) : t.pending = s.pending.tail ∧ (Sound s → Sound t) := by
  cases hq : s.pending with
  | nil =>
    obtain rfl : idleTick s = t := by simpa only [step, hq, Host.Outcome.next.injEq] using h
    obtain ⟨hpending, hsound⟩ := kept_idleTick (Kept.refl s)
    exact ⟨hpending.trans hq, hsound⟩
  | cons c rest =>
    have hexec : exec c { s with pending := rest } = .next t := by simpa only [step, hq] using h
    exact kept_exec hexec

/-- Settles O1. -/
theorem stepRunsTheFrontCommand : Obligations.StepRunsTheFrontCommand :=
  ⟨fun _ _ _ => rfl, fun s hempty => by simp only [step, hempty]⟩

/-- Settles O2. -/
theorem resetHoldsEveryEntryAtItsDefault : Obligations.ResetHoldsEveryEntryAtItsDefault :=
  ⟨fun _ => rfl, fun _ => rfl, by decide, fun mgmt _ => by cases mgmt <;> rfl, rfl, rfl⟩

/-- Settles O3: the tables of reset list nothing. -/
theorem resetIsSound : Obligations.ResetIsSound :=
  ⟨rfl, fun _ h => (List.not_mem_nil h).elim, rfl, fun _ h => (List.not_mem_nil h).elim, rfl⟩

/-- Settles O4: every command, and the time that passes on an empty queue, keeps the machine sound. -/
theorem everyStepKeepsTheMachineSound : Obligations.EveryStepKeepsTheMachineSound := fun _ _ hsound hstep => (step_keeps hstep).2 hsound

/-- Settles O5. -/
theorem stepTakesOnlyTheFrontCommand : Obligations.StepTakesOnlyTheFrontCommand := fun _ _ hstep => (step_keeps hstep).1

end Sys2Proof.MachineProofs
end

section
/-! PROOFS. Messages, records, events, halts and ports that go down: what all of them leave of the machine, said once. -/

namespace Sys2Proof.SignalProofs

open Sys2Proof Sys2Proof.Machine Sys2Proof.Laws Sys2Proof.PackageProofs

/-- Entries that count messages, records and events, and the entries of the ports. -/
def signalKey (k : Nat) : Bool :=
  decide (k = 0x100400 ∨ k = 0x101200 ∨ k = 0x406002 ∨ k = 0x900201 ∨ (0x401000 ≤ k ∧ k ≤ 0x40141F))

/-- The package's part without its records, the stewards' queues and the fences that wait. -/
def quietPkg (p : PkgState) : PkgState := { p with stew := [], lostBit := [], faults := [], reports := [], fences := [] }

/-- The checkpoint part without the records of the replay log. -/
def quietCkpt (c : CkptState) : CkptState := { c with rbuf := [], rout := [], rseg := 0, rgapFrom := none }

/-- `t` comes from `s` by messages, records, events, halts and ports that go down, beside changes of the contexts. -/
structure Signalled (s t : State) : Prop where
  rd     : ∀ k, signalKey k = false → rd t k = rd s k
  ptpNs  : t.ptpNs = s.ptpNs
  solv   : t.solv = s.solv
  plants : t.plants = s.plants
  ckpt   : quietCkpt t.ckpt = quietCkpt s.ckpt
  wen    : t.wen = s.wen
  pkg    : quietPkg t.pkg = quietPkg s.pkg

theorem Signalled.refl (s : State) : Signalled s s := ⟨fun _ _ => rfl, rfl, rfl, rfl, rfl, rfl, rfl⟩

theorem Signalled.trans {s t u : State} (h : Signalled s t) (g : Signalled t u) : Signalled s u :=
  ⟨fun k hk => (g.rd k hk).trans (h.rd k hk), g.ptpNs.trans h.ptpNs, g.solv.trans h.solv, g.plants.trans h.plants, g.ckpt.trans h.ckpt,
    g.wen.trans h.wen, g.pkg.trans h.pkg⟩

/-- An update of the queue, the contexts, the port, the fabric, or of what the other fields leave open. -/
theorem Signalled.upd {s t u : State} (h : Signalled s t) (he : u.ent = t.ent := by rfl) (hn : u.ptpNs = t.ptpNs := by rfl)
    (hs : u.solv = t.solv := by rfl) (hl : u.plants = t.plants := by rfl) (hc : quietCkpt u.ckpt = quietCkpt t.ckpt := by rfl)
    (hw : u.wen = t.wen := by rfl) (hp : quietPkg u.pkg = quietPkg t.pkg := by rfl) : Signalled s u :=
  h.trans ⟨fun k _ => by rw [Machine.rd, Machine.rd, he], hn, hs, hl, hc, hw, hp⟩

theorem Signalled.ite {s t u : State} {p : Prop} [Decidable p] (h : Signalled s t) (g : Signalled s u) : Signalled s (if p then t else u) := by
  split <;> assumption

/-- A fold keeps what each of its steps keeps. -/
theorem Signalled.foldl {α : Type} {s t : State} {f : State → α → State} {l : List α} (hf : ∀ u a, Signalled s u → Signalled s (f u a))
    (h : Signalled s t) : Signalled s (l.foldl f t) := by
  induction l generalizing t with
  | nil => exact h
  | cons a l ih => exact ih (hf t a h)

section
variable {s t : State} (h : Signalled s t)
include h

/-- A part of the package's state beside records, queues and fences. -/
theorem Signalled.pkgPart {α : Type} (f : PkgState → α) (hf : ∀ p, f (quietPkg p) = f p) : f t.pkg = f s.pkg := by
  rw [← hf, h.pkg, hf]

/-- A part of the checkpoint state beside the replay log. -/
theorem Signalled.ckptPart {α : Type} (f : CkptState → α) (hf : ∀ c, f (quietCkpt c) = f c) : f t.ckpt = f s.ckpt := by
  rw [← hf, h.ckpt, hf]

theorem Signalled.runningId : runningId t = runningId s := by
  rw [Machine.runningId, Machine.runningId, h.rd 0x703001 (by decide)]

theorem Signalled.deviceState : deviceState t = deviceState s := h.rd 0x100300 (by decide)

theorem Signalled.dieState {d : Nat} (hd : d < 40) : dieState t d = dieState s d :=
  h.rd _ (decide_eq_false (by omega))

theorem signalled_wr {k v : Nat} (hk : signalKey k = true) : Signalled s (wr t k v) := by
  refine h.trans ⟨fun q hq => rd_wr_ne t v ?_, by simp, by simp, by simp, by simp, by simp, by simp⟩
  rintro rfl
  rw [hk] at hq
  exact Bool.noConfusion hq

theorem signalled_incr {k n : Nat} (hk : signalKey k = true) : Signalled s (incr t k n) := signalled_wr h hk

theorem signalled_setC {id : Nat} {c : Context} : Signalled s (setC t id c) := h.upd

theorem signalled_modC {id : Nat} {f : Context → Context} : Signalled s (modC t id f) := h.upd

theorem signalled_bumpSnap {k : Nat} : Signalled s (bumpSnap t k) := h.upd

/-! Records and events. -/

theorem signalled_logRec {r : FaultRec} {lost : Bool} : Signalled s (logRec t r lost) := by
  refine signalled_bumpSnap (signalled_incr ?_ (by decide))
  exact h.upd (hp := by simp only [quietPkg])

theorem signalled_logFault {die cls unit code ctx step : Nat} {detail : BitVec 256} :
    Signalled s (logFault t die cls unit code ctx step detail) := signalled_logRec h

theorem signalled_raiseEvent {die : Nat} {r : FaultRec} {ev : Option UnitEvent} {j : Bool} : Signalled s (raiseEvent t die r ev j) := by
  unfold raiseEvent
  dsimp only
  exact .ite h.upd (signalled_incr h.upd (by decide))

theorem signalled_raiseFree {die cls unit ctx step : Nat} {ev : Option UnitEvent} {j : Bool} :
    Signalled s (raiseFree t die cls unit ctx step ev j) := by
  unfold raiseFree
  exact signalled_raiseEvent h.upd

/-! Datagrams and completions. -/

theorem signalled_setStream {mgmt : Bool} {id : Nat} {e : Stream} : Signalled s (setStream t mgmt id e) := by
  cases mgmt <;> exact h.upd

theorem signalled_sendVia {mgmt : Bool} {id op : Nat} {bs : List Byte} {r : Option (Nat × Nat)} :
    Signalled s (sendVia t mgmt id op bs r).1 := by
  unfold sendVia
  exact (signalled_setStream h).upd

theorem signalled_sendRoce {ctx : Nat} {bs : List Byte} : Signalled s (sendRoce t ctx bs) := h.upd

theorem signalled_complete {mgmt : Bool} {id : Nat} {d : DgHdr} {status detail : Nat} {extra : List Byte} :
    Signalled s (complete t mgmt id d status detail extra) := by
  have hsent := signalled_sendVia h (mgmt := mgmt) (id := id) (op := 0x8000)
    (bs := completionBytes (getStream t mgmt id) d.seq status detail d.ts ++ extra) (r := d.relay)
  exact hsent.upd

/-! The replay log. -/

theorem signalled_cutSegment : Signalled s (cutSegment t) := by
  unfold cutSegment
  exact .ite h h.upd

theorem signalled_appendRec {type step key ts : Nat} {data : List Byte} : Signalled s (appendRec t type step key ts data).1 := by
  have hseq : Signalled s (wr t 0x900201 (rd t 0x900201 + 1)) := signalled_wr h (by decide)
  unfold appendRec
  dsimp only
  split
  · exact hseq
  · split
    · split
      · exact hseq.upd
      · exact hseq
    · exact signalled_cutSegment hseq.upd

theorem signalled_recordEnded {b : BusyCmd} {status : Nat} : Signalled s (recordEnded t b status) := by
  unfold recordEnded
  exact .ite (signalled_appendRec h.upd) h

/-! Halts. -/

theorem signalled_endBusy {bs : List BusyCmd} {status detail : Nat} : Signalled s (endBusy t bs status detail) :=
  .foldl (fun _ _ hu => signalled_recordEnded (signalled_complete hu)) h

theorem signalled_completeHeld {c : HeldCmd} {status detail : Nat} : Signalled s (completeHeld t c status detail) := by
  unfold completeHeld
  exact signalled_complete (.ite (signalled_setStream h) h)

theorem signalled_flushStream {mgmt : Bool} {id status detail : Nat} {keep : Bool} :
    Signalled s (flushStream t mgmt id status detail keep) := by
  unfold flushStream
  exact .foldl (fun _ _ hu => signalled_completeHeld hu) (signalled_endBusy h.upd)

theorem signalled_haltStreams {ctx code : Nat} {keep : Option Nat} : Signalled s (haltStreams t ctx code keep) := by
  unfold haltStreams
  exact .foldl (fun _ _ hu => .ite hu (signalled_sendVia (signalled_flushStream (signalled_setStream hu)))) h

theorem signalled_haltCtx {ctx code : Nat} {stream : Option Nat} : Signalled s (haltCtx t ctx code stream) := by
  unfold haltCtx
  refine .ite ?_ h
  exact (signalled_modC (signalled_haltStreams h)).upd

theorem signalled_endJob {id cls code : Nat} : Signalled s (endJob t id cls code) := signalled_haltCtx (signalled_raiseEvent h)

theorem signalled_stopModules {code : Nat} : Signalled s (stopModules t code) :=
  .foldl (fun _ _ hu => .ite (signalled_modC (signalled_haltStreams hu)) hu) h

theorem signalled_logInput {id type step key ts : Nat} {data : List Byte} : Signalled s (logInput t id type step key ts data) := by
  unfold logInput putReplay
  exact .ite (.ite (signalled_haltCtx (signalled_raiseEvent (signalled_appendRec h))) (signalled_appendRec h)) h

/-! Packets. -/

theorem signalled_setLink {p : Nat} {l : PortLink} : Signalled s (setLink t p l) := h.upd

theorem signalled_freeBuffer {f : TxFlit} : Signalled s (freeBuffer t f) := by
  unfold freeBuffer
  split
  · exact h
  · exact signalled_setLink h

theorem signalled_egress {u : State} {f : TxFlit} {p : Nat} {a : Option Nat} (e : egress t f = some (u, p, a)) : Signalled s u := by
  obtain ⟨-, flows, rfl⟩ := FabricProofs.egress_spec e
  exact h.upd

theorem signalled_routeFlit {f : TxFlit} : Signalled s (routeFlit t f) := by
  unfold routeFlit
  split
  · exact h.upd
  · split
    · exact signalled_incr (signalled_freeBuffer h) (by decide)
    · next he => exact signalled_setLink (signalled_egress h he)

theorem signalled_launchFlit {f : TxFlit} : Signalled s (launchFlit t f) := by
  unfold launchFlit
  exact .ite (signalled_incr h (by decide)) (signalled_routeFlit h)

theorem signalled_sendPkt {vc kind dest flow : Nat} {rp : Option RPkt} {cp : Option CPkt} :
    Signalled s (sendPkt t vc kind dest flow rp cp) := signalled_launchFlit h

theorem signalled_sendCtl {dest : Nat} {m : Ctl} : Signalled s (sendCtl t dest m) := by
  unfold sendCtl sendMsg
  exact signalled_launchFlit h

/-! Ports that go down. -/

theorem signalled_setPort {p v : Nat} (hp : p < 32) : Signalled s (setPort t p v) := signalled_wr h (decide_eq_true (by omega))

theorem signalled_clearSamples {p : Nat} (hp : p < 32) : Signalled s (clearSamples t p) :=
  signalled_wr (signalled_setLink h) (decide_eq_true (by omega))

theorem signalled_portDown {p : Nat} (hp : p < 32) : Signalled s (portDown t p) := by
  unfold portDown linkEvent reroute
  dsimp only
  have hdown (u : State) (hu : Signalled s u) := signalled_raiseFree (signalled_clearSamples (signalled_setPort hu hp (v := 1)) hp)
    (die := 30 + p / 4) (cls := 0x07) (unit := p % 4) (ctx := 0xFFFF) (step := 0) (ev := none) (j := false)
  exact .ite h (.foldl (fun _ _ hu => .ite hu (signalled_routeFlit hu)) (signalled_setLink (hdown _ (signalled_setLink h))))

theorem signalled_moveSwitch {lane closed : Nat} (hlane : lane < 2) : Signalled s (moveSwitch t lane closed) := by
  unfold moveSwitch
  have hdown : Signalled s (portDown (portDown t (2 * lane)) (2 * lane + 1)) :=
    signalled_portDown (signalled_portDown h (by omega)) (by omega)
  exact .ite h hdown.upd

theorem signalled_bypassClose : Signalled s (bypassClose t) := signalled_moveSwitch (signalled_moveSwitch h (by decide)) (by decide)

end

end Sys2Proof.SignalProofs
end

section
/-! PROOFS. Votes, commits and aborts: the captures of a context, the votes that rank 0 holds, and what a member does on a decision
(R331, R334 to R336). -/

namespace Sys2Proof.CheckpointProofs

open Sys2Proof Sys2Proof.Machine Sys2Proof.Laws Sys2Proof.PackageProofs Sys2Proof.CollProofs Sys2Proof.SignalProofs

/-! ### The captures of a context -/

theorem capOf_newest {c : Context} {gen : Nat} (h : isNewest c gen = true) : capOf c gen = c.capture := by
  obtain ⟨x, hx, rfl⟩ := Option.map_eq_some_iff.mp (of_decide_eq_true h)
  simp [capOf, hx]

theorem capOf_earlier {c : Context} {gen : Nat} (h : isNewest c gen = false) :
    capOf c gen = c.prior.find? (fun g => decide (g.gen = gen)) := by
  have hne := of_decide_eq_false h
  cases hx : c.capture with
  | none => simp [capOf, hx]
  | some x =>
    have hgen : x.gen ≠ gen := fun he => hne (by simp [hx, he])
    simp [capOf, hx, hgen]

theorem gen_of_capOf {c : Context} {gen : Nat} {g : Capture} (h : capOf c gen = some g) : g.gen = gen :=
  of_decide_eq_true (List.find?_some (p := fun x : Capture => decide (x.gen = gen)) h)

/-- A capture put in place of the newest one is the newest. -/
theorem putCap_newest {c : Context} {g : Capture} (h : isNewest c g.gen = true) : putCap c g = { c with capture := some g } := if_pos h

theorem isNewest_putCap (c : Context) (g : Capture) (gen : Nat) : isNewest (putCap c g) gen = isNewest c gen := by
  by_cases h : isNewest c g.gen = true
  · rw [putCap_newest h]
    have hgen : c.capture.map (·.gen) = some g.gen := of_decide_eq_true h
    simp only [isNewest, hgen, Option.map_some]
  · rw [putCap, if_neg h]
    rfl

/-- An undecided capture put back stands where the one of its generation stood. -/
theorem capOf_putCap_undecided {c : Context} {g : Capture} (hopen : g.decided = false) (hmem : ∃ x ∈ undecided c, x.gen = g.gen) :
    capOf (putCap c g) g.gen = some g := by
  by_cases h : isNewest c g.gen = true
  · rw [capOf_newest (by rw [isNewest_putCap, h]), putCap_newest h]
  · have hold : isNewest c g.gen = false := Bool.eq_false_iff.mpr h
    rw [capOf_earlier (by rw [isNewest_putCap, hold]), putCap, if_neg h, hopen]
    obtain ⟨x, hx, hgen⟩ := hmem
    have hprior : x ∈ c.prior := by
      rcases List.mem_append.mp (List.mem_of_mem_filter hx) with hp | hc
      · exact hp
      · exact absurd (decide_eq_true (by rw [Option.mem_toList.mp hc, Option.map_some, hgen])) h
    have hfind : (c.prior.map (fun y => if y.gen = g.gen then g else y)).find? (fun y => decide (y.gen = g.gen)) = some g := by
      revert hprior
      induction c.prior with
      | nil => intro hnil; exact (List.not_mem_nil hnil).elim
      | cons y ys ih =>
        intro hprior
        by_cases hy : y.gen = g.gen
        · simp [hy]
        · have hxy : x ≠ y := fun he => hy (he ▸ hgen)
          simpa [hy] using ih ((List.mem_cons.mp hprior).resolve_left hxy)
    simpa using hfind

/-- A decided capture put back is the only one of its generation. -/
theorem capOf_putCap_decided {c : Context} {g x : Capture} (hdone : g.decided = true) (h : capOf (putCap c g) g.gen = some x) : x = g := by
  by_cases hnew : isNewest c g.gen = true
  · rw [capOf_newest (by rw [isNewest_putCap, hnew]), putCap_newest hnew] at h
    exact (Option.some.inj h).symm
  · have hold : isNewest c g.gen = false := Bool.eq_false_iff.mpr hnew
    rw [capOf_earlier (by rw [isNewest_putCap, hold]), putCap, if_neg hnew, hdone] at h
    have hmem : x ∈ c.prior.filter (fun y => decide (y.gen ≠ g.gen)) := List.mem_of_find?_eq_some h
    have hgen : x.gen = g.gen := of_decide_eq_true (List.find?_some (p := fun y : Capture => decide (y.gen = g.gen)) h)
    have hne : x.gen ≠ g.gen := by simpa using List.of_mem_filter hmem
    exact absurd hgen hne

theorem putCap_rest (c : Context) (g : Capture) : (putCap c g).ent = c.ent ∧ (putCap c g).vmem = c.vmem ∧ (putCap c g).pages = c.pages ∧
    (putCap c g).fullNext = c.fullNext := by
  unfold putCap
  split <;> exact ⟨rfl, rfl, rfl, rfl⟩

/-- CAPTURE_STATE changes nothing but entries. -/
theorem capState_spec (c : Context) (gen v : Nat) : ∃ e n, capState c gen v = { c with ent := e, snap := n } := by
  unfold capState ewr
  split
  · split
    · exact ⟨c.ent, c.snap, rfl⟩
    · exact ⟨_, _, rfl⟩
  · exact ⟨c.ent, c.snap, rfl⟩

theorem isNewest_capState (c : Context) (gen v gen' : Nat) : isNewest (capState c gen v) gen' = isNewest c gen' := by
  obtain ⟨e, n, h⟩ := capState_spec c gen v
  rw [h]; rfl

theorem capOf_capState (c : Context) (gen v gen' : Nat) : capOf (capState c gen v) gen' = capOf c gen' := by
  obtain ⟨e, n, h⟩ := capState_spec c gen v
  rw [h]; rfl

theorem erd_capState_newest {c : Context} {gen : Nat} (v : Nat) (h : isNewest c gen = true) : erd (capState c gen v) 0x801000 = v := by
  rw [capState, if_pos h, erd_ewr_self]

theorem erd_capState_ne (c : Context) (gen v : Nat) {k : Nat} (h : k ≠ 0x801000) : erd (capState c gen v) k = erd c k := by
  unfold capState
  split
  · exact StepProofs.erd_ewr_ne c v h
  · rfl

/-! ### The votes that rank 0 holds -/

theorem votesOf_gen (s : State) (gen : Nat) : (votesOf s gen).gen = gen := by
  unfold votesOf
  cases h : s.ckpt.gens.find? (fun g => decide (g.gen = gen)) with
  | none => rfl
  | some g => exact of_decide_eq_true (List.find?_some (p := fun x : GenVotes => decide (x.gen = gen)) h)

theorem votesOf_putVotes {s : State} {g : GenVotes} {gen : Nat} (h : g.gen = gen) : votesOf (putVotes s g) gen = g := by
  subst h
  have hnone : (s.ckpt.gens.filter (fun x => decide (x.gen ≠ g.gen))).find? (fun x => decide (x.gen = g.gen)) = none :=
    List.find?_eq_none.mpr (fun x hx => by simpa using List.of_mem_filter hx)
  simp only [votesOf, putVotes, List.find?_append, hnone, Option.none_or, List.find?_cons, decide_true, Option.getD_some]

theorem votesOf_congr {s t : State} (h : t.ckpt.gens = s.ckpt.gens) (gen : Nat) : votesOf t gen = votesOf s gen := by
  rw [votesOf, votesOf, h]

/-! ### Messages to the members and to the buddy -/

/-- What a message and this device's own part keep, a message to every member keeps. -/
theorem toMembers_keeps {P : State → Prop} {s : State} {c : Context} {m : Ctl} {self : State → State}
    (hsend : ∀ u d, P u → P (sendCtl u d m)) (hself : ∀ u, P u → P (self u)) (h : P s) : P (toMembers s c m self) := by
  unfold toMembers
  exact List.foldlRecOn (motive := P) _ _ h (fun u hu r _ => by
    split
    · exact hself u hu
    · exact hsend u _ hu)

@[simp] theorem sendCtl_ctxs (s : State) (dest : Nat) (m : Ctl) : (sendCtl s dest m).ctxs = s.ctxs := sendMsg_ctxs s 0 dest m

theorem signalled_toBuddy (s : State) (m : Ctl) : Signalled s (toBuddy s m) := .ite (.refl s) (signalled_sendCtl (.refl s))

@[simp] theorem toBuddy_ctxs (s : State) (m : Ctl) : (toBuddy s m).ctxs = s.ctxs := by
  unfold toBuddy
  split <;> simp

/-- The reports to the fabric manager and the manifests are as they were. -/
structure ReportsKept (s t : State) : Prop where
  notes     : t.pkg.notes = s.pkg.notes
  manifests : t.ckpt.manifests = s.ckpt.manifests

theorem ReportsKept.signalled {s t u : State} (h : ReportsKept s t) (g : Signalled t u) : ReportsKept s u :=
  ⟨(g.pkgPart (·.notes) (fun _ => rfl)).trans h.notes, (g.ckptPart (·.manifests) (fun _ => rfl)).trans h.manifests⟩

/-! ### VOTE_CAST (R335) -/

theorem mem_undecided_of_unvoted {s : State} {id : Nat} {g : Capture} (h : unvoted s = some (id, g)) : g ∈ undecided (getC s id) := by
  obtain ⟨i, -, hi⟩ := List.exists_of_findSome?_eq_some h
  obtain ⟨x, hx, he⟩ := Option.map_eq_some_iff.mp hi
  obtain ⟨rfl, rfl⟩ := Prod.mk.inj he
  exact List.mem_of_find?_eq_some hx

theorem open_of_mem_undecided {c : Context} {g : Capture} (h : g ∈ undecided c) : g.decided = false := by
  simpa using List.of_mem_filter h

/-- A member's own part of a vote. -/
def votedCtx (c : Context) (g : Capture) (reason : Nat) : Context :=
  capState (putCap c { g with voted := true, reason := reason }) g.gen 3

theorem getC_castVote {s : State} {id : Nat} (g : Capture) (reason : Nat) (hrank : (getC s id).rank ≠ 0) :
    getC (castVote s id g reason) id = votedCtx (getC s id) g reason := by
  have hmember : (getC (drawNat s).2 id).rank ≠ 0 := hrank
  have hctxs : (castVote s id g reason).ctxs = (setC (drawNat s).2 id (votedCtx (getC s id) g reason)).ctxs := by
    simp only [castVote, if_neg hmember, sendCtl_ctxs, WriteProofs.raiseEvent_ctxs]
    rfl
  rw [getC_congr hctxs, getC_setC_self]

theorem votedCtx_spec {c : Context} {g : Capture} (reason : Nat) (h : g ∈ undecided c) :
    (isNewest c g.gen = true → erd (votedCtx c g reason) 0x801000 = 3) ∧ (votedCtx c g reason).vmem = c.vmem ∧
    capOf (votedCtx c g reason) g.gen = some { g with voted := true, reason := reason } := by
  refine ⟨fun hnew => erd_capState_newest 3 (by rw [isNewest_putCap, hnew]), ?_, ?_⟩
  · obtain ⟨e, n, hs⟩ := capState_spec (putCap c { g with voted := true, reason := reason }) g.gen 3
    obtain ⟨-, hmem, -, -⟩ := putCap_rest c { g with voted := true, reason := reason }
    rw [votedCtx, hs]
    exact hmem
  · rw [votedCtx, capOf_capState]
    have hopen : g.decided = false := open_of_mem_undecided h
    exact capOf_putCap_undecided (g := { g with voted := true, reason := reason }) hopen ⟨g, h, rfl⟩

theorem exec_voteCast {s : State} {id : Nat} {g : Capture} (h : unvoted s = some (id, g)) (hstored : shardStored s id g = true)
    (hchecks : ∀ x ∈ (getC s id).checks, g.step ≤ x.2.1) (hgo : (getC s id).noCommit = false) :
    exec .voteCast s = .next (castVote s id g (if (getC s id).corruptSinceCommit then 0x0403 else g.reason)) := by
  have hall : (getC s id).checks.all (fun k => decide (g.step ≤ k.2.1)) = true :=
    List.all_eq_true.mpr (fun x hx => decide_eq_true (hchecks x hx))
  show execVoteCast s = _
  simp only [execVoteCast, h, hstored, hall, hgo]
  rfl

/-! ### CKPT_VOTE and its timeout (R335, R336) -/

/-- The votes of a generation with one more. -/
def withVote (s : State) (gen : Nat) (e : Shard) : GenVotes := { votesOf s gen with votes := (votesOf s gen).votes ++ [e] }

section
variable {s : State} {id gen : Nat} {e : Shard} (hjob : jobCtx s = some id) (hzero : (getC s id).rank = 0) (hrank : e.rank < (getC s id).n)
  (hopen : (votesOf s gen).state = 0) (hnew : ∀ x ∈ (votesOf s gen).votes, x.rank ≠ e.rank)
include hjob hzero hrank hopen hnew

theorem exec_ckptVote : exec (.ckptVote gen e) s = .next (decideGen (putVotes s (withVote s gen e)) (getC s id) gen) := by
  have hfresh : (votesOf s gen).votes.any (fun x => decide (x.rank = e.rank)) = false :=
    List.any_eq_false.mpr (fun x hx => by simpa using hnew x hx)
  have hgo : ¬((getC s id).rank ≠ 0 ∨ (getC s id).n ≤ e.rank ∨ (votesOf s gen).state ≠ 0 ∨
      (votesOf s gen).votes.any (fun x => decide (x.rank = e.rank)) = true) := by
    simp only [hzero, hopen, hfresh, ne_eq, not_true_eq_false, Bool.false_eq_true, false_or, or_false]
    omega
  show execCkptVote gen e s = _
  simp only [execCkptVote, takeVote, hjob, if_neg hgo]
  rfl

end

theorem votesOf_withVote (s : State) (gen : Nat) (e : Shard) : votesOf (putVotes s (withVote s gen e)) gen = withVote s gen e :=
  votesOf_putVotes (votesOf_gen s gen)

theorem decideGen_waits {s : State} {c : Context} {gen : Nat} (h : (votesOf s gen).votes.length < c.n) : decideGen s c gen = s :=
  if_pos (.inr (.inl h))

section
variable {s : State} {c : Context} {gen : Nat} (hopen : (votesOf s gen).state = 0) (hall : c.n ≤ (votesOf s gen).votes.length)
  (hgo : c.noCommit = false)
include hopen hall hgo

theorem decideGen_guard : ¬((votesOf s gen).state ≠ 0 ∨ (votesOf s gen).votes.length < c.n ∨ c.noCommit = true) := by
  rw [hopen, hgo]
  simpa using hall

theorem decideGen_dirty {x : Shard} (hdirty : (votesOf s gen).votes.find? (fun e => e.dirty) = some x) :
    decideGen s c gen = abortGen s c gen x.reason := by
  simp only [decideGen, if_neg (decideGen_guard hopen hall hgo), hdirty]

end

/-- Rank 0 with a new manifest: the last four are kept. -/
def withManifest (s : State) (gen : Nat) (m : List Byte) : State :=
  { s with ckpt := { s.ckpt with manifests := (s.ckpt.manifests ++ [(gen, m)]).drop ((s.ckpt.manifests ++ [(gen, m)]).length - 4) } }

/-- A manifest written to storage where it is enabled. -/
def manifestStored (s : State) (m : List Byte) : State := if rd s 0x800300 = 1 then sendRoce s ((jobCtx s).getD 0) m else s

/-- What rank 0 tells the members of a committed generation. -/
def committedGen (s : State) (c : Context) (gen : Nat) (g : GenVotes) (digest : Nat) : State :=
  let t := putVotes s { g with state := 1 }
  toMembers { t with pkg := { t.pkg with notes := t.pkg.notes ++ [.committed gen] } } c (.commit gen digest) (fun s => memberCommit s gen digest)

theorem decideGen_clean {s : State} {c : Context} {gen : Nat} (hopen : (votesOf s gen).state = 0) (hall : c.n ≤ (votesOf s gen).votes.length)
    (hgo : c.noCommit = false) (hclean : (votesOf s gen).votes.find? (fun e => e.dirty) = none) :
    let m := manifestBytes s c (votesOf s gen)
    decideGen s c gen = committedGen (manifestStored (withManifest m.2 gen m.1) m.1) c gen (votesOf s gen) (sha512 m.1) := by
  simp only [decideGen, if_neg (decideGen_guard hopen hall hgo), hclean]
  rfl

theorem signalled_manifestStored (s : State) (m : List Byte) : Signalled s (manifestStored s m) := .ite (signalled_sendRoce (.refl s)) (.refl s)

theorem memberDone_keeps {s t : State} (h : ReportsKept s t) (gen : Nat) : ReportsKept s (memberDone t gen) :=
  ReportsKept.signalled (t := { t with ckpt := { t.ckpt with unfolded := t.ckpt.unfolded.filter (fun p => decide (gen < p.1)) } })
    ⟨h.notes, h.manifests⟩ (signalled_toBuddy _ _)

theorem takeAck_keeps {s t : State} (h : ReportsKept s t) (gen rank : Nat) : ReportsKept s (takeAck t gen rank) := by
  unfold takeAck
  split
  · exact h
  · dsimp only
    have hput (g : GenVotes) : ReportsKept s (putVotes t g) := ⟨h.notes, h.manifests⟩
    split
    · exact h
    · split
      · exact toMembers_keeps (fun u d hu => hu.signalled (signalled_sendCtl (.refl u))) (fun u hu => memberDone_keeps hu gen) (hput _)
      · exact hput _

theorem memberCommit_keeps {s t : State} (h : ReportsKept s t) (gen digest : Nat) : ReportsKept s (memberCommit t gen digest) := by
  have hset (id : Nat) (c : Context) : ReportsKept s (setC t id c) := ⟨h.notes, h.manifests⟩
  unfold memberCommit
  split
  · exact h
  · next id _ =>
    dsimp only
    split
    · exact h
    · next g _ =>
      have hlog (c : Context) : ReportsKept s (logInput (setC t id c) id 0x0A g.step gen 0 []) :=
        (hset id c).signalled (signalled_logInput (.refl _))
      split
      · exact h
      · split
        · exact takeAck_keeps (hlog _) gen 0
        · exact (hlog _).signalled (signalled_sendCtl (.refl _))

theorem manifestBytes_state (s : State) (c : Context) (g : GenVotes) :
    (manifestBytes s c g).2 = { s with freeIdx := s.freeIdx + 1 } := rfl

/-- The members' part leaves the report and the manifest that rank 0 has just made. -/
theorem committedGen_reports (s : State) (c : Context) (gen : Nat) (g : GenVotes) (digest : Nat) :
    (committedGen s c gen g digest).pkg.notes = s.pkg.notes ++ [.committed gen] ∧
    (committedGen s c gen g digest).ckpt.manifests = s.ckpt.manifests := by
  have hkept := toMembers_keeps (c := c) (m := .commit gen digest) (self := fun s => memberCommit s gen digest)
    (P := ReportsKept { putVotes s { g with state := 1 } with pkg := { s.pkg with notes := s.pkg.notes ++ [.committed gen] } })
    (fun u d hu => hu.signalled (signalled_sendCtl (.refl u))) (fun u hu => memberCommit_keeps hu gen digest) ⟨rfl, rfl⟩
  exact ⟨hkept.notes, hkept.manifests⟩

theorem ckptVote_commits {s : State} {id gen : Nat} {e : Shard} (hjob : jobCtx s = some id) (hzero : (getC s id).rank = 0)
    (hrank : e.rank < (getC s id).n) (hopen : (votesOf s gen).state = 0) (hnew : ∀ x ∈ (votesOf s gen).votes, x.rank ≠ e.rank)
    (hlast : (votesOf s gen).votes.length + 1 = (getC s id).n) (hgo : (getC s id).noCommit = false)
    (hclean : ∀ x ∈ (votesOf s gen).votes ++ [e], x.dirty = false) :
    ∃ t, exec (.ckptVote gen e) s = .next t ∧ t.pkg.notes = s.pkg.notes ++ [.committed gen] ∧ t.ckpt.manifests.length ≤ 4 ∧
      t.ckpt.manifests.getLast? = some (gen, (manifestBytes (putVotes s (withVote s gen e)) (getC s id) (withVote s gen e)).1) := by
  have hvotes := votesOf_withVote s gen e
  have hdecide := decideGen_clean (s := putVotes s (withVote s gen e)) (c := getC s id) (gen := gen) (by rw [hvotes]; exact hopen)
    (by rw [hvotes]; exact (List.length_append.trans hlast).ge) hgo
    (by rw [hvotes]; exact List.find?_eq_none.mpr (fun x hx => by simp [hclean x hx]))
  rw [hvotes] at hdecide
  generalize hm : manifestBytes (putVotes s (withVote s gen e)) (getC s id) (withVote s gen e) = m at hdecide ⊢
  have hstate : m.2 = { putVotes s (withVote s gen e) with freeIdx := s.freeIdx + 1 } := by rw [← hm, manifestBytes_state]; rfl
  have hstored := signalled_manifestStored (withManifest m.2 gen m.1) m.1
  obtain ⟨hnotes, hmanifests⟩ := committedGen_reports (manifestStored (withManifest m.2 gen m.1) m.1) (getC s id) gen (withVote s gen e) (sha512 m.1)
  refine ⟨_, (exec_ckptVote hjob hzero hrank hopen hnew).trans (congrArg Host.Outcome.next hdecide), ?_, ?_, ?_⟩
  · rw [hnotes, hstored.pkgPart (·.notes) (fun _ => rfl), withManifest, hstate]
    rfl
  · rw [hmanifests, hstored.ckptPart (·.manifests) (fun _ => rfl), withManifest]
    simp only [List.length_drop]
    omega
  · rw [hmanifests, hstored.ckptPart (·.manifests) (fun _ => rfl), withManifest]
    exact getLast?_drop_append_singleton _ _ (by decide)

/-! ### Aborts (R324, R334) -/

/-- A member's context after an abort. -/
def abortedCtx (c : Context) (g : Capture) (gen : Nat) : Context :=
  { putCap (capState (g.pages.foldl memberAbort.touchDirty c) gen 1) { g with decided := true } with
    fullNext := c.fullNext || g.full, saves := c.saves.filter (fun v => decide (v.gen ≠ gen)) }

/-- A member after an abort, before its buddy is told. -/
def abortedAt (s : State) (id : Nat) (g : Capture) (gen : Nat) : State :=
  { setC s id (abortedCtx (getC s id) g gen) with
    ckpt := { s.ckpt with unfolded := s.ckpt.unfolded.filter (fun p => decide (p.1 ≠ gen)) } }

theorem memberAbort_open {s : State} {gen id : Nat} {g : Capture} (hctx : capturedCtx s gen = some id) (hcap : capOf (getC s id) gen = some g)
    (hopen : g.decided = false) (reason : Nat) : memberAbort s gen reason = toBuddy (abortedAt s id g gen) (.abort gen reason) := by
  simp only [memberAbort, hctx, hcap, hopen, Bool.false_eq_true, if_false]
  rfl

/-- An abort leaves the reports and the votes that rank 0 holds. -/
theorem memberAbort_keeps (s : State) (gen reason : Nat) :
    (memberAbort s gen reason).pkg.notes = s.pkg.notes ∧ (memberAbort s gen reason).ckpt.gens = s.ckpt.gens := by
  unfold memberAbort
  split
  · exact ⟨rfl, rfl⟩
  · dsimp only
    split
    · exact ⟨rfl, rfl⟩
    · split
      · exact ⟨rfl, rfl⟩
      · have hbuddy := fun u => signalled_toBuddy u (.abort gen reason)
        exact ⟨(hbuddy _).pkgPart (·.notes) (fun _ => rfl), (hbuddy _).ckptPart (·.gens) (fun _ => rfl)⟩

theorem abortGen_effect (s : State) (c : Context) (gen reason : Nat) :
    (abortGen s c gen reason).pkg.notes = s.pkg.notes ++ [.aborted gen reason] ∧ (votesOf (abortGen s c gen reason) gen).state = 2 := by
  have hkept := toMembers_keeps (c := c) (m := .abort gen reason) (self := fun s => memberAbort s gen reason)
    (s := { putVotes s { votesOf s gen with state := 2 } with pkg := { s.pkg with notes := s.pkg.notes ++ [.aborted gen reason] } })
    (P := fun u => u.pkg.notes = s.pkg.notes ++ [.aborted gen reason] ∧ u.ckpt.gens = (putVotes s { votesOf s gen with state := 2 }).ckpt.gens)
    (fun u d hu => ⟨((signalled_sendCtl (.refl u)).pkgPart (·.notes) (fun _ => rfl)).trans hu.1,
      ((signalled_sendCtl (.refl u)).ckptPart (·.gens) (fun _ => rfl)).trans hu.2⟩)
    (fun u hu => ⟨(memberAbort_keeps u gen reason).1.trans hu.1, (memberAbort_keeps u gen reason).2.trans hu.2⟩) ⟨rfl, rfl⟩
  have hput : votesOf (putVotes s { votesOf s gen with state := 2 }) gen = { votesOf s gen with state := 2 } :=
    votesOf_putVotes (g := { votesOf s gen with state := 2 }) (votesOf_gen s gen)
  exact ⟨hkept.1, congrArg GenVotes.state ((votesOf_congr (s := putVotes s { votesOf s gen with state := 2 }) (t := abortGen s c gen reason) hkept.2 gen).trans hput)⟩

theorem ckptVote_aborts {s : State} {id gen : Nat} {e x : Shard} (hjob : jobCtx s = some id) (hzero : (getC s id).rank = 0)
    (hrank : e.rank < (getC s id).n) (hopen : (votesOf s gen).state = 0) (hnew : ∀ x ∈ (votesOf s gen).votes, x.rank ≠ e.rank)
    (hlast : (votesOf s gen).votes.length + 1 = (getC s id).n) (hgo : (getC s id).noCommit = false)
    (hdirty : ((votesOf s gen).votes ++ [e]).find? (fun y => y.dirty) = some x) :
    ∃ t, exec (.ckptVote gen e) s = .next t ∧ t.pkg.notes = s.pkg.notes ++ [.aborted gen x.reason] ∧ (votesOf t gen).state = 2 := by
  have hvotes := votesOf_withVote s gen e
  have hdecide := decideGen_dirty (s := putVotes s (withVote s gen e)) (c := getC s id) (gen := gen) (by rw [hvotes]; exact hopen)
    (by rw [hvotes]; exact (List.length_append.trans hlast).ge) hgo (by rw [hvotes]; exact hdirty)
  exact ⟨_, (exec_ckptVote hjob hzero hrank hopen hnew).trans (congrArg Host.Outcome.next hdecide), abortGen_effect _ _ gen x.reason⟩

theorem ckptVoteTimeout_aborts {s : State} {gen id : Nat} (hctx : capturedCtx s gen = some id) (hzero : (getC s id).rank = 0)
    (hopen : (votesOf s gen).state = 0) (hclean : ∀ x ∈ (votesOf s gen).votes, x.dirty = false) :
    ∃ t, exec (.ckptVoteTimeout gen) s = .next t ∧ t.pkg.notes = s.pkg.notes ++ [.aborted gen 0x0805] ∧ (votesOf t gen).state = 2 := by
  have hnone : (votesOf s gen).votes.find? (fun e => e.dirty) = none := List.find?_eq_none.mpr (fun x hx => by simp [hclean x hx])
  refine ⟨abortGen s (getC s id) gen 0x0805, ?_, abortGen_effect _ _ _ _⟩
  show execCkptVoteTimeout gen s = _
  simp only [execCkptVoteTimeout, hctx, hzero, hopen, hnone, ne_eq, not_true_eq_false, or_self, if_false]

theorem touchDirty_pages (ps : List Nat) (c : Context) : ∃ pages, ps.foldl memberAbort.touchDirty c = { c with pages := pages } ∧
    ∀ p, p ∈ ps ∨ (pageFlags c p).getLsbD 14 = true → (tget pageFresh pages p).getLsbD 14 = true := by
  induction ps generalizing c with
  | nil => exact ⟨c.pages, rfl, fun p hp => hp.resolve_left List.not_mem_nil⟩
  | cons q ps ih =>
    obtain ⟨pages, hfold, hdirty⟩ := ih (memberAbort.touchDirty c q)
    refine ⟨pages, hfold, fun p hp => hdirty p ?_⟩
    have hflags : pageFlags (memberAbort.touchDirty c q) p = if p = q then pageFlags c q ||| 0x4000 else pageFlags c p :=
      tget_tset _ _ _ _ _
    by_cases hq : p = q
    · right
      rw [hflags, if_pos hq, BitVec.getLsbD_or]
      simp
    · rw [hflags, if_neg hq]
      exact hp.imp (fun h => (List.mem_cons.mp h).resolve_left hq) id

/-- What an abort leaves of a member's context. -/
theorem abortedCtx_spec (c : Context) {g : Capture} {gen : Nat} (hgen : g.gen = gen) :
    (∀ x, capOf (abortedCtx c g gen) gen = some x → x = { g with decided := true }) ∧
    (isNewest c gen = true → erd (abortedCtx c g gen) 0x801000 = 1 ∧ (abortedCtx c g gen).capture = some { g with decided := true }) ∧
    (∀ p ∈ g.pages, (pageFlags (abortedCtx c g gen) p).getLsbD 14 = true) ∧ (abortedCtx c g gen).vmem = c.vmem := by
  subst hgen
  obtain ⟨pages, hfold, hdirty⟩ := touchDirty_pages g.pages c
  have hnewest : isNewest (g.pages.foldl memberAbort.touchDirty c) g.gen = isNewest c g.gen := by rw [hfold]; rfl
  obtain ⟨hent, hvmem, hpages, -⟩ := putCap_rest (capState (g.pages.foldl memberAbort.touchDirty c) g.gen 1) { g with decided := true }
  obtain ⟨e, n, hstate⟩ := capState_spec (g.pages.foldl memberAbort.touchDirty c) g.gen 1
  refine ⟨fun x hx => capOf_putCap_decided (g := { g with decided := true }) rfl hx, fun hnew => ⟨?_, ?_⟩, fun p hp => ?_, ?_⟩
  · rw [← hnewest] at hnew
    have hread := erd_capState_newest (c := g.pages.foldl memberAbort.touchDirty c) 1 hnew
    rw [erd] at hread ⊢
    exact (congrArg (fun m => tget (entryDefault 0x801000) m 0x801000) hent).trans hread
  · exact congrArg Context.capture (putCap_newest (g := { g with decided := true }) (by rw [isNewest_capState, hnewest]; exact hnew))
  · have hread : pageFlags (abortedCtx c g g.gen) p = tget pageFresh pages p := by
      rw [pageFlags]
      exact congrArg (fun m => tget pageFresh m p) (hpages.trans (by rw [hstate, hfold]))
    rw [hread]
    exact hdirty p (.inl hp)
  · exact hvmem.trans (by rw [hstate, hfold])

/-! ### COMMIT, COMMIT_ACK and COMMIT_DONE (R336) -/

/-- CAPTURE_LAST and CAPTURE_STATE of a member after a commit. -/
def commitRead (c : Context) (g : Capture) (gen digest : Nat) : Context :=
  capState (ewr c 0x801001 (gen + 2 ^ 32 * g.step + 2 ^ 64 * (digest % 2 ^ 512))) gen 1

theorem commitRead_rank (c : Context) (g : Capture) (gen digest : Nat) : (commitRead c g gen digest).rank = c.rank := by
  rw [commitRead]
  generalize gen + 2 ^ 32 * g.step + 2 ^ 64 * (digest % 2 ^ 512) = v
  obtain ⟨e, n, hstate⟩ := capState_spec (ewr c 0x801001 v) gen 1
  rw [hstate]
  exact ewr_rank c 0x801001 v

/-- A member's context after a commit. -/
def committedCtx (c : Context) (g : Capture) (gen digest : Nat) : Context := putCap (commitRead c g gen digest) { g with decided := true }

theorem memberCommit_open {s : State} {gen digest id : Nat} {g : Capture} (hctx : capturedCtx s gen = some id)
    (hcap : capOf (getC s id) gen = some g) (hopen : g.decided = false) (hmember : (getC s id).rank ≠ 0) (hgo : (getC s id).noCommit = false)
    (hrec : recording s id = false) :
    ∃ dest m, memberCommit s gen digest = sendCtl (setC s id (committedCtx (getC s id) g gen digest)) dest m := by
  have hrank : (commitRead (getC s id) g gen digest).rank ≠ 0 := by rwa [commitRead_rank]
  have hlog (c : Context) : logInput (setC s id c) id 0x0A g.step gen 0 [] = setC s id c := by
    have hoff : recording (setC s id c) id = false := hrec
    rw [logInput, hoff]
    rfl
  have hcommit : memberCommit s gen digest =
      if (commitRead (getC s id) g gen digest).rank = 0 then
        takeAck (logInput (setC s id (committedCtx (getC s id) g gen digest)) id 0x0A g.step gen 0 []) gen 0
      else sendCtl (logInput (setC s id (committedCtx (getC s id) g gen digest)) id 0x0A g.step gen 0 [])
        (deviceOf (commitRead (getC s id) g gen digest) 0) (.commitAck gen (commitRead (getC s id) g gen digest).rank) := by
    simp only [memberCommit, hctx, hcap, hopen, hgo, Bool.or_self, Bool.false_eq_true, if_false]
    rfl
  rw [hcommit, if_neg hrank, hlog]
  exact ⟨_, _, rfl⟩

/-- What a commit leaves of a member's context. -/
theorem committedCtx_spec (c : Context) {g : Capture} {gen : Nat} (digest : Nat) (hgen : g.gen = gen) :
    erd (committedCtx c g gen digest) 0x801001 = gen + 2 ^ 32 * g.step + 2 ^ 64 * (digest % 2 ^ 512) ∧
    (isNewest c gen = true → erd (committedCtx c g gen digest) 0x801000 = 1 ∧
      (committedCtx c g gen digest).capture = some { g with decided := true }) ∧
    (∀ x, capOf (committedCtx c g gen digest) gen = some x → x = { g with decided := true }) ∧ (committedCtx c g gen digest).vmem = c.vmem := by
  subst hgen
  generalize hv : g.gen + 2 ^ 32 * g.step + 2 ^ 64 * (digest % 2 ^ 512) = v
  have hctx : committedCtx c g g.gen digest = putCap (capState (ewr c 0x801001 v) g.gen 1) { g with decided := true } := by rw [committedCtx, commitRead, hv]
  have hnewest : isNewest (ewr c 0x801001 v) g.gen = isNewest c g.gen := by simp only [isNewest, ewr_capture]
  obtain ⟨hent, hvmem, -, -⟩ := putCap_rest (capState (ewr c 0x801001 v) g.gen 1) { g with decided := true }
  have hread (k : Nat) : erd (putCap (capState (ewr c 0x801001 v) g.gen 1) { g with decided := true }) k =
      erd (capState (ewr c 0x801001 v) g.gen 1) k := by rw [erd, hent, erd]
  rw [hctx]
  refine ⟨?_, fun hnew => ⟨?_, ?_⟩, fun x hx => capOf_putCap_decided (g := { g with decided := true }) rfl hx, ?_⟩
  · rw [hread, erd_capState_ne _ _ _ (by decide), erd_ewr_self]
  · rw [hread, erd_capState_newest 1 (by rw [hnewest, hnew])]
  · rw [putCap_newest (g := { g with decided := true }) (by rw [isNewest_capState, hnewest]; exact hnew)]
  · obtain ⟨e, n, hstate⟩ := capState_spec (ewr c 0x801001 v) g.gen 1
    rw [hvmem, hstate]
    exact ewr_vmem c 0x801001 v

theorem exec_commitAck {s : State} {gen rank id : Nat} (hjob : jobCtx s = some id) (hstate : (votesOf s gen).state = 1)
    (hrank : rank < (getC s id).n) (hnew : rank ∉ (votesOf s gen).acks) (hmore : (votesOf s gen).acks.length + 1 < (getC s id).n) :
    exec (.commitAck gen rank) s = .next (putVotes s { votesOf s gen with acks := (votesOf s gen).acks ++ [rank] }) := by
  have hgo : ¬((votesOf s gen).state ≠ 1 ∨ (getC s id).n ≤ rank ∨ rank ∈ (votesOf s gen).acks) := by
    simp only [hstate, ne_eq, not_true_eq_false, hnew, false_or, or_false]
    omega
  have hlast : ¬(votesOf s gen).acks.length + 1 = (getC s id).n := by omega
  show execCommitAck gen rank s = _
  simp only [execCommitAck, takeAck, hjob, if_neg hgo, if_neg hlast]
  rw [if_neg (by decide), ← hstate]

theorem memberDone_effect (s : State) (gen : Nat) : (memberDone s gen).ctxs = s.ctxs ∧
    (memberDone s gen).ckpt.unfolded = s.ckpt.unfolded.filter (fun p => decide (gen < p.1)) :=
  ⟨toBuddy_ctxs _ _, (signalled_toBuddy _ _).ckptPart (·.unfolded) (fun _ => rfl)⟩

/-- Settles O46: each command by its effect on the captures of a context or on the votes that rank 0 holds. -/
theorem votesDecideGenerations : Obligations.VotesDecideGenerations := by
  intro s
  refine ⟨fun id g hfirst hstored hchecks hgo hmember => ?_, fun id gen e hjob hzero hrank hopen hnew => ⟨fun hmore => ?_, fun hlast hgo => ⟨?_, ?_⟩⟩,
    fun gen id hctx hzero hopen hclean => ckptVoteTimeout_aborts hctx hzero hopen hclean,
    fun gen digest id g hctx hcap hopen hmember hgo hrec => ?_, fun gen rank id hjob hstate hrank hnew hmore => ?_, fun gen => rfl,
    fun gen => ⟨_, rfl, memberDone_effect s gen⟩, fun gen => ⟨_, rfl, rfl, rfl, rfl⟩, fun gen id g hctx hcap hopen => ?_⟩
  · obtain ⟨hstate, hmem, hcap⟩ := votedCtx_spec (if (getC s id).corruptSinceCommit then 0x0403 else g.reason) (mem_undecided_of_unvoted hfirst)
    refine ⟨_, exec_voteCast hfirst hstored hchecks hgo, ?_⟩
    rw [getC_castVote g _ hmember]
    exact ⟨hstate, hmem, hcap⟩
  · have hwaits := decideGen_waits (s := putVotes s (withVote s gen e)) (c := getC s id) (gen := gen)
      (by rw [votesOf_withVote]; exact List.length_append.trans_lt hmore)
    exact ⟨_, (exec_ckptVote hjob hzero hrank hopen hnew).trans (congrArg Host.Outcome.next hwaits), rfl, rfl, votesOf_withVote s gen e⟩
  · exact ckptVote_commits hjob hzero hrank hopen hnew hlast hgo
  · exact fun x => ckptVote_aborts hjob hzero hrank hopen hnew hlast hgo
  · obtain ⟨dest, m, hcommit⟩ := memberCommit_open (digest := digest) hctx hcap hopen hmember hgo hrec
    obtain ⟨hlast, hnewest, honly, hmem⟩ := committedCtx_spec (getC s id) digest (gen_of_capOf hcap)
    have hself : getC (sendCtl (setC s id (committedCtx (getC s id) g gen digest)) dest m) id = committedCtx (getC s id) g gen digest := by
      rw [getC_congr (sendCtl_ctxs _ dest m), getC_setC_self]
    refine ⟨_, congrArg Host.Outcome.next hcommit, ?_⟩
    rw [hself]
    exact ⟨hlast, hnewest, honly, hmem⟩
  · exact ⟨_, exec_commitAck hjob hstate hrank hnew hmore, votesOf_putVotes (votesOf_gen s gen), rfl⟩
  · obtain ⟨honly, hnewest, hdirty, hmem⟩ := abortedCtx_spec (getC s id) (gen_of_capOf hcap)
    have hself : getC (toBuddy (abortedAt s id g gen) (.abort gen 0)) id = abortedCtx (getC s id) g gen := by
      rw [getC_congr (toBuddy_ctxs _ _)]
      exact getC_setC_self s id _
    refine ⟨_, congrArg Host.Outcome.next (memberAbort_open hctx hcap hopen 0), ?_⟩
    rw [hself]
    exact ⟨honly, hnewest, rfl, hdirty, hmem⟩

end Sys2Proof.CheckpointProofs
end

section
/-! PROOFS. The Ladle's copies, restores, reclaims and the transfers of the replay log (R313, R315, R326 to R328, R338 to R340). -/

namespace Sys2Proof.LadleProofs

open Sys2Proof Sys2Proof.Machine Sys2Proof.Laws Sys2Proof.PackageProofs Sys2Proof.CollProofs Sys2Proof.RemoteProofs Sys2Proof.WriteProofs
  Sys2Proof.SignalProofs

theorem getC_modC_self (s : State) (id : Nat) (f : Context → Context) : getC (modC s id f) id = f (getC s id) := getC_setC_self s id _

/-- What a change puts in place of a context stands after a run of such changes, or stood before it. -/
theorem foldl_modC_reaches {P : Context → Prop} {g : Context → Context} (hg : ∀ c, P (g c)) {id : Nat} (ids : List Nat) (s : State)
    (h : id ∈ ids ∨ P (getC s id)) : P (getC (ids.foldl (fun s j => modC s j g) s) id) := by
  induction ids generalizing s with
  | nil => exact h.resolve_left List.not_mem_nil
  | cons j ids ih =>
    by_cases hj : id = j
    · subst hj
      exact ih _ (.inr (by rw [getC_modC_self]; exact hg _))
    · refine ih _ (h.imp (fun hm => (List.mem_cons.mp hm).resolve_left hj) (fun hp => ?_))
      have hkept : getC (modC s j g) id = getC s id := getC_setC_ne s j id _ hj
      rwa [hkept]

/-! ### The Ladle (R326 to R328) -/

/-- A page has left the Ladle: no list of its context names it, no write waits at it. -/
structure LeftLadle (t : State) (id p : Nat) : Prop where
  todo  : ∀ g, (getC t id).capture = some g → p ∉ g.todo
  clear : p < 0x80000000 → pageProtected (getC t id) p = false
  held  : (id, p) ∉ t.ckpt.heldPages

theorem LeftLadle.congr {t u : State} {id p : Nat} (h : LeftLadle t id p) (hcap : (getC u id).capture = (getC t id).capture)
    (hclear : pageProtected (getC u id) p = pageProtected (getC t id) p) (hheld : u.ckpt.heldPages = t.ckpt.heldPages) : LeftLadle u id p :=
  ⟨by rw [hcap]; exact h.todo, by rw [hclear]; exact h.clear, by rw [hheld]; exact h.held⟩

theorem countLine_capture (c : Context) (hit : Bool) (bytes busy : Nat) (ovf : Bool) : (countLine c hit bytes busy ovf).capture = c.capture := by
  unfold countLine
  dsimp only
  split <;> split <;> simp

/-- A write into a page leaves PROTECT of every page. -/
theorem pageProtected_takeLine (c : Context) (line : Nat) (mask : BitVec 128) (data : BitVec 1024) (p : Nat) :
    pageProtected (takeLine c line mask data) p = pageProtected c p := by
  have hflags := pageFlags_touchPage { c with vmem := putMasked c.vmem line mask data } (line / pageBytes) p
  rw [pageProtected, takeLine, hflags, pageProtected]
  split
  · next h =>
    subst h
    simp only [BitVec.getLsbD_and, BitVec.getLsbD_or]
    simp [pageFlags]
  · rfl

theorem leftLadle_takeRemote {t : State} {id p : Nat} (h : LeftLadle t id p) (line : Nat) (mask : BitVec 128) (data : BitVec 1024) :
    LeftLadle (takeRemote t id line mask data) id p := by
  refine h.congr ?_ ?_ rfl
  · rw [getC_takeRemote_self]
    exact countLine_capture _ _ _ _ _
  · rw [getC_takeRemote_self, pageProtected_takeLine, pageProtected, pageFlags, (accessed_remote t (getC t id) line true).pages]
    rfl

theorem leftLadle_releaseHeld {t : State} {id p : Nat} (h : LeftLadle t id p) : LeftLadle (releaseHeld t id p) id p := by
  unfold releaseHeld
  refine List.foldlRecOn (motive := fun u => LeftLadle u id p) _ _ (h.congr rfl rfl rfl) (fun u hu w _ => ?_)
  have hcounted : LeftLadle (modC u id (fun c => eincr c 0x801101 ((u.ptpNs - w.since) * ticksPerNs))) id p :=
    hu.congr (by rw [getC_modC_self, eincr_capture]) (by rw [getC_modC_self, pageProtected, pageFlags, eincr_pages]; rfl) rfl
  have hctxs (v : State) : (ackWrite v id w.src w.master w.tag w.line w.addr).ctxs = v.ctxs := by simp [ackWrite]
  have hquiet (v : State) : Signalled v (ackWrite v id w.src w.master w.tag w.line w.addr) := signalled_sendPkt (.refl v)
  exact (leftLadle_takeRemote hcounted w.line w.mask w.data).congr (by rw [getC_congr (hctxs _)]) (by rw [getC_congr (hctxs _)])
    ((hquiet _).ckptPart (·.heldPages) (fun _ => rfl))

theorem pageProtected_setProtect_off (c : Context) (p : Nat) : pageProtected (setProtect c p false) p = false := by
  have hflags : pageFlags (setProtect c p false) p = pageFlags c p &&& ~~~ (0x2000 : BitVec 16) :=
    (tget_tset pageFresh c.pages p p _).trans (if_pos rfl)
  rw [pageProtected, hflags, BitVec.getLsbD_and]
  simp

/-- The lists of a page that has been copied, before what waited for it goes on. -/
theorem leftLadle_pageCopied (s : State) (id p : Nat) : LeftLadle (pageCopied s id p) id p := by
  refine leftLadle_releaseHeld ?_
  have htodo (g : Capture) : p ∉ g.todo.filter (· ≠ p) := fun hm => by simpa using List.of_mem_filter hm
  have hheld (l : List (Nat × Nat)) : (id, p) ∉ l.filter (fun h => !decide (h.1 = id ∧ h.2 = p)) := fun hm => by
    simpa using List.of_mem_filter hm
  have hcap : (getC (modCap s id (fun g => { g with todo := g.todo.filter (· ≠ p) })) id).capture =
      (getC s id).capture.map (fun g => { g with todo := g.todo.filter (· ≠ p) }) := by rw [modCap, getC_modC_self]
  have hmapped {g : Capture} (h : (getC s id).capture.map (fun g => { g with todo := g.todo.filter (· ≠ p) }) = some g) : p ∉ g.todo := by
    obtain ⟨x, -, rfl⟩ := Option.map_eq_some_iff.mp h
    exact htodo x
  split
  · refine ⟨fun g hg => hmapped ?_, fun _ => ?_, hheld _⟩
    · have hstill : (getC (modC (modCap s id (fun g => { g with todo := g.todo.filter (· ≠ p) })) id (fun c => setProtect c p false)) id).capture =
          some g := hg
      rwa [getC_modC_self, setProtect, hcap] at hstill
    · have hself := getC_modC_self (modCap s id (fun g => { g with todo := g.todo.filter (· ≠ p) })) id (fun c => setProtect c p false)
      exact (congrArg (pageProtected · p) hself).trans (pageProtected_setProtect_off _ p)
  · next hp => exact ⟨fun g hg => hmapped (hcap ▸ hg), fun h => absurd h hp, hheld _⟩

/-- Whatever the read meets, the page leaves the Ladle. -/
theorem ladleCopy_copies {s : State} {die : Fin 8} {id p : Nat} {held : Bool} (fault : Bool) (hnext : nextPage s die.val = some (id, p, held))
    (hroom : (tget [] s.ckpt.spool die.val).length < 992) : ∃ u, ladleCopy die fault s = pageCopied u id p := by
  have hfree : ¬(tget [] s.ckpt.spool die.val).length ≥ (if held then 1024 else 992) := by split <;> omega
  simp only [ladleCopy, hnext, if_neg hfree]
  split
  · exact ⟨_, rfl⟩
  · split
    · exact ⟨_, rfl⟩
    · split
      · exact ⟨_, rfl⟩
      · split <;> exact ⟨_, rfl⟩

/-- A slot that times out makes the vote dirty, once. -/
theorem capture_dirtyCap {s : State} {id reason : Nat} {g : Capture} (hcap : (getC s id).capture = some g) (hclean : g.reason = 0) :
    (getC (dirtyCap s id reason) id).capture = some { g with reason := reason } := by
  rw [dirtyCap, modCap, getC_modC_self]
  simp only [hcap, Option.map_some, hclean, if_true]

theorem exec_ladleSlotTimeout {s : State} {die : Fin 8} {x : SpoolSlot} {xs : List SpoolSlot} (h : tget [] s.ckpt.spool die.val = x :: xs) :
    exec (.ladleSlotTimeout die) s =
      .next (dirtyCap { s with ckpt := { s.ckpt with spool := tset [] s.ckpt.spool die.val xs } } x.ctx 0x0804) := by
  show execLadleSlotTimeout die s = _
  simp only [execLadleSlotTimeout, h]

/-- The oldest slot waits for storage: storage has it now. -/
theorem exec_ckptStorageAck {s : State} {die : Fin 8} {x : SpoolSlot} {xs : List SpoolSlot} (h : tget [] s.ckpt.spool die.val = x :: xs)
    (hstore : x.store = false) : exec (.ckptStorageAck die false) s = .next { s with ckpt := { s.ckpt with
      spool := tset [] s.ckpt.spool die.val (if x.buddy then xs else { x with store := true } :: xs) } } := by
  have hfirst : (x :: xs).findIdx? (fun y => !y.store) = some 0 := by simp [List.findIdx?_cons, hstore]
  show execCkptStorageAck die false s = _
  simp only [execCkptStorageAck, h, hfirst, List.getElem?_cons_zero]
  rfl

/-! ### Restores (R338, R339) -/

/-- A restored worker waits at the step point. -/
theorem restoreWorker_run (c : Context) (saved : Option SaveArea) (gen cl : Nat) (pages : List (Nat × List Byte)) :
    (restoreWorker c saved gen cl pages).run = .atStep false ∧ (restoreWorker c saved gen cl pages).wait = none := by
  unfold restoreWorker
  refine List.foldlRecOn (motive := fun x : Worker × Nat => x.1.run = .atStep false ∧ x.1.wait = none) _ _ ⟨rfl, rfl⟩ (fun x hx t _ => ?_)
  split
  · dsimp only
    split <;> exact hx
  · exact hx

/-- A context at the baseline of a generation. -/
def restoredCtx (b : Context) (gen step : Nat) (pages : List (Nat × List Byte)) : Context :=
  let saved := b.saves.find? (fun v => decide (v.gen = gen))
  let c := pages.foldl restorePage b
  { c with
    workers := (List.range 4000).foldl (fun m cl => tset Worker.initial m cl (restoreWorker c saved gen cl pages)) [],
    step := step, seed := (saved.map (fun v => v.seed)).getD (erd c 0x901000), collSeq := 0, coll := none, collIn := [],
    checks := [], corruptSinceCommit := false, noCommit := false, fullNext := false,
    inputs := [], shadows := [], bulkIn := [], souts := [], outDigest := [],
    capture := c.capture.map (fun g => { g with todo := [], decided := true }), prior := [],
    saves := c.saves.filter (fun v => decide (v.gen ≤ gen)) }

/-- The machine at the baseline of a generation, before the queue of the restore is closed. -/
def restoredAt (s : State) (id gen step : Nat) (pages : List (Nat × List Byte)) : State :=
  let c := restoredCtx (getC s id) gen step pages
  wr (wr (restoreResident (setC s id c) c pages) 0x800101 s.ckpt.restoreNext) 0x801201 2

/-- The restore has run: the next RUN resumes the workers. -/
def restored (s : State) (id gen step : Nat) (pages : List (Nat × List Byte)) : State :=
  let t := restoredAt s id gen step pages
  { t with ckpt := { t.ckpt with restoreCands := [], resumeGen := some gen } }

theorem rd_restoredAt (s : State) (id gen step : Nat) (pages : List (Nat × List Byte)) :
    rd (restoredAt s id gen step pages) 0x801201 = 2 ∧ rd (restoredAt s id gen step pages) 0x800101 = s.ckpt.restoreNext % 2 ^ 32 := by
  refine ⟨rd_wr_fits _ restoreState_type (by decide), ?_⟩
  rw [restoredAt, rd_wr_ne _ _ (by decide), rd_wr, if_pos rfl, fitEntry_of_type nextGen_type]
  rfl

theorem getC_restoredAt (s : State) (id gen step : Nat) (pages : List (Nat × List Byte)) :
    getC (restoredAt s id gen step pages) id = restoredCtx (getC s id) gen step pages := by
  have hctxs : (restoredAt s id gen step pages).ctxs = (setC s id (restoredCtx (getC s id) gen step pages)).ctxs := by
    simp only [restoredAt, wr_ctxs]
    rfl
  rw [getC_congr hctxs, getC_setC_self]

theorem restoredCtx_workers (b : Context) (gen step : Nat) (pages : List (Nat × List Byte)) {cl : Nat} (hcl : cl < 4000) :
    (getW (restoredCtx b gen step pages) cl).run = .atStep false ∧ (getW (restoredCtx b gen step pages) cl).wait = none := by
  rw [getW, restoredCtx, tget_foldl_tset, if_pos (List.mem_range.mpr hcl)]
  exact restoreWorker_run _ _ _ _ _

section
variable {s : State} {gen src step id : Nat} {rest : List (Nat × Nat × Nat)} (hcands : s.ckpt.restoreCands = (gen, src, step) :: rest)
  (hjob : jobCtx s = some id)
include hcands hjob

theorem exec_restorePullDone_failed (pages : List (Nat × List Byte)) :
    let t := raiseEvent s 24 (mkRec 0 0x0F 0x200 0x080A id 0 0) none false
    exec (.restorePullDone false pages) s = .next (if rest = [] then refuseRestore t t.ckpt.restoreMixed
      else { t with ckpt := { t.ckpt with restoreCands := rest } }) := by
  show execRestorePullDone false pages s = _
  simp only [execRestorePullDone, hcands, hjob, Bool.not_false, if_true]

/-- Every source has failed. -/
theorem restorePullDone_refused (pages : List (Nat × List Byte)) (hlast : rest = []) : ∃ t, exec (.restorePullDone false pages) s = .next t ∧
    rd t 0x801201 = 3 ∧ t.ckpt.restoreCands = [] ∧ t.ctxs = s.ctxs := by
  refine ⟨_, (exec_restorePullDone_failed hcands hjob pages).trans (congrArg Host.Outcome.next (if_pos hlast)), ?_, ?_, ?_⟩
  · have hset (u : State) (v : Nat) : rd (wr (wr u 0x801201 3) 0x801202 v) 0x801201 = 3 := by
      rw [rd_wr_ne _ _ (by decide), rd_wr_fits u restoreState_type (by decide)]
    rw [refuseRestore, rd_raiseEvent _ _ _ _ _ (by decide)]
    exact hset _ _
  · rw [refuseRestore, raiseEvent_ckpt]
  · rw [refuseRestore, raiseEvent_ctxs]
    simp only [wr_ctxs, raiseEvent_ctxs]

theorem restorePullDone_next (pages : List (Nat × List Byte)) (hmore : rest ≠ []) : ∃ t, exec (.restorePullDone false pages) s = .next t ∧
    t.ckpt.restoreCands = rest ∧ t.ctxs = s.ctxs :=
  ⟨_, (exec_restorePullDone_failed hcands hjob pages).trans (congrArg Host.Outcome.next (if_neg hmore)), rfl, raiseEvent_ctxs ..⟩

theorem exec_restorePullDone_ok (pages : List (Nat × List Byte)) :
    exec (.restorePullDone true pages) s = .next (restored s id gen step pages) := by
  show execRestorePullDone true pages s = _
  simp only [execRestorePullDone, hcands, hjob, Bool.not_true, Bool.false_eq_true, if_false]
  rfl

/-- The pull of every page has ended: the baseline is set, and every worker stands at the step point. -/
theorem restorePullDone_done (pages : List (Nat × List Byte)) : ∃ t, exec (.restorePullDone true pages) s = .next t ∧ rd t 0x801201 = 2 ∧
    rd t 0x800101 = s.ckpt.restoreNext % 2 ^ 32 ∧ t.ckpt.resumeGen = some gen ∧ t.ckpt.restoreCands = [] ∧ (getC t id).step = step ∧
    (getC t id).coll = none ∧ (∀ cl, cl < 4000 → (getW (getC t id) cl).run = .atStep false ∧ (getW (getC t id) cl).wait = none) := by
  obtain ⟨hstate, hgen⟩ := rd_restoredAt s id gen step pages
  have hctx := getC_restoredAt s id gen step pages
  refine ⟨restored s id gen step pages, exec_restorePullDone_ok hcands hjob pages, hstate, hgen, rfl, rfl, congrArg Context.step hctx,
    congrArg Context.coll hctx, fun cl hcl => ?_⟩
  have hworker : getW (getC (restored s id gen step pages) id) cl = getW (restoredCtx (getC s id) gen step pages) cl := congrArg (getW · cl) hctx
  rw [hworker]
  exact restoredCtx_workers (getC s id) gen step pages hcl

end

/-! ### Reclaims (R340) -/

theorem signalled_pushSlot {s t : State} (h : Signalled s t) : Signalled s (pushSlot t) := by
  unfold pushSlot
  exact .foldl (fun _ _ hu => .ite (signalled_sendRoce hu) (.foldl (fun _ _ hv => signalled_sendPkt hv) hu)) h

@[simp] theorem pushSlot_ctxs (s : State) : (pushSlot s).ctxs = s.ctxs := by
  unfold pushSlot
  refine List.foldlRecOn (motive := fun t : State => t.ctxs = s.ctxs) _ _ rfl (fun t ht r _ => ?_)
  split
  · exact ht
  · exact List.foldlRecOn (motive := fun u : State => u.ctxs = s.ctxs) _ _ ht (fun u hu i _ => (sendPkt_ctxs ..).trans hu)

theorem lentOut_type : (entryOf 0x303000).map (·.type) = some .u16 := by decide +kernel

theorem lendGiB_type : (entryOf 0x303003).map (·.type) = some .u16 := by decide +kernel

theorem rd_of_ent {s t : State} (h : t.ent = s.ent) (k : Nat) : rd t k = rd s k := by rw [rd, rd, h]

/-- A released loan leaves its two entries and nothing else but its memory and its key. -/
theorem releaseLent_effect (s : State) : (∀ k, k ≠ 0x303002 → k ≠ 0x303003 → rd (releaseLent s) k = rd s k) ∧ rd (releaseLent s) 0x303003 = 0 ∧
    (releaseLent s).ctxs = s.ctxs ∧ (releaseLent s).ckpt = s.ckpt ∧ (releaseLent s).pkg.notes = s.pkg.notes := by
  have hent : (releaseLent s).ent = (wr (wr s 0x303002 0xFFFF) 0x303003 0).ent := by simp only [releaseLent]
  refine ⟨fun k h2 h3 => ?_, ?_, ?_, ?_, ?_⟩
  · rw [rd_of_ent hent, rd_wr_ne _ _ h3, rd_wr_ne _ _ h2]
  · rw [rd_of_ent hent, rd_wr_fits _ lendGiB_type (by decide)]
  · simp only [releaseLent, wr_ctxs]
  · simp only [releaseLent, wr_ckpt]
  · simp only [releaseLent, wr_pkg]

theorem startFlush_effect (s : State) : rd (startFlush s) 0x802001 = 2 ∧ (startFlush s).ctxs = s.ctxs ∧
    runningId (startFlush s) = runningId s ∧ quietCkpt (startFlush s).ckpt = quietCkpt s.ckpt := by
  have hpush := signalled_pushSlot (.refl (wr s 0x802001 2))
  obtain ⟨hrd, -, hctxs, hckpt, -⟩ := releaseLent_effect (pushSlot (wr s 0x802001 2))
  refine ⟨?_, ?_, ?_, ?_⟩
  · rw [startFlush, hrd _ (by decide) (by decide), hpush.rd _ (by decide), rd_wr_fits s reclaimState_type (by decide)]
  · rw [startFlush, hctxs, pushSlot_ctxs, wr_ctxs]
  · rw [runningId, startFlush, hrd _ (by decide) (by decide), hpush.rd _ (by decide), rd_wr_ne _ _ (by decide), runningId]
  · rw [startFlush, hckpt, hpush.ckpt, wr_ckpt]

/-- A reclaim that no capture has come before, at its flush. -/
def flushedLate (s : State) : State := startFlush { s with ckpt := { s.ckpt with reclaimPartial := true } }

theorem exec_reclaimStepWaitExpiry {s : State} (h : rd s 0x802001 = 1) : exec .reclaimStepWaitExpiry s =
    .next (match runningId s with | some id => endJob (flushedLate s) id 0x0F 0x080B | none => flushedLate s) := by
  obtain ⟨-, -, hrun, -⟩ := startFlush_effect { s with ckpt := { s.ckpt with reclaimPartial := true } }
  have hid : runningId (flushedLate s) = runningId s := hrun
  rw [← hid]
  show execReclaimStepWaitExpiry s = _
  rw [execReclaimStepWaitExpiry, if_neg (not_not.mpr h)]
  rfl

/-- No capture has taken place: the flush begins, and the job that runs halts. -/
theorem reclaimStepWaitExpiry_effect {s : State} (h : rd s 0x802001 = 1) : ∃ t, exec .reclaimStepWaitExpiry s = .next t ∧ rd t 0x802001 = 2 ∧
    t.ckpt.reclaimPartial = true ∧
    ∀ id, runningId s = some id → (getC s id).modState = .running → (getC t id).modState = .halting := by
  obtain ⟨hstate, hctxs, -, hckpt⟩ := startFlush_effect { s with ckpt := { s.ckpt with reclaimPartial := true } }
  have hflush : rd (flushedLate s) 0x802001 = 2 := hstate
  have hpartial : (flushedLate s).ckpt.reclaimPartial = true := congrArg CkptState.reclaimPartial hckpt
  refine ⟨_, exec_reclaimStepWaitExpiry h, ?_⟩
  cases runningId s with
  | none => exact ⟨hflush, hpartial, fun id hsome => nomatch hsome⟩
  | some id =>
    dsimp only
    have hend := signalled_endJob (id := id) (cls := 0x0F) (code := 0x080B) (.refl (flushedLate s))
    refine ⟨(hend.rd 0x802001 (by decide)).trans hflush, (hend.ckptPart (·.reclaimPartial) (fun _ => rfl)).trans hpartial, fun j hj hmod => ?_⟩
    obtain rfl := Option.some.inj hj
    have hlate : (flushedLate s).ctxs = s.ctxs := hctxs
    have hruns : moduleRuns (getC (flushedLate s) id) = true := by
      rw [getC_congr hlate, moduleRuns, hmod]
      rfl
    exact congrArg Context.modState (getC_endJob_of_runs 0x0F 0x080B hruns)

/-- The modules that run halt at the cut-off. -/
def cutOffHalts (s : State) : State :=
  (liveIds s).foldl (fun s id =>
    modC (haltStreams s id 0x080B none) id (fun c => { c with modState := if moduleRuns c then .halted 0x080B else c.modState })) s

theorem signalled_cutOffHalts {s t : State} (h : Signalled s t) : Signalled s (cutOffHalts t) :=
  .foldl (fun _ _ hu => signalled_modC (signalled_haltStreams hu)) h

theorem cutOffHalts_pkg (s : State) : (cutOffHalts s).pkg = s.pkg :=
  List.foldlRecOn (motive := fun t : State => t.pkg = s.pkg) _ _ rfl (fun t ht id _ => by rw [modC_pkg, WorkerProofs.haltStreams_pkg, ht])

theorem live_cutOffHalts (s : State) (id : Nat) : (getC (cutOffHalts s) id).live = (getC s id).live := by
  refine List.foldlRecOn (motive := fun t : State => (getC t id).live = (getC s id).live) _ _ rfl (fun t ht j _ => ?_)
  have hstreams (i : Nat) : getC (haltStreams t j 0x080B none) i = getC t i := getC_congr (WorkerProofs.haltStreams_ctxs ..) i
  by_cases hj : id = j
  · subst hj
    rw [getC_modC_self, hstreams]
    exact ht
  · rw [modC, getC_setC_ne _ _ _ _ hj, hstreams, ht]

/-- The keys of a context are gone. -/
def keyless (c : Context) : Context := { c with memKey := none, sessKey := none }

/-- Step 1 of a scrub: what telemetry shows is frozen. -/
def scrubFrozen (s : State) : State := wr { s with pkg := { s.pkg with frozen := some (freezeView s) } } 0x704000 2

/-- Step 2 up to the device's own keys: no context keeps one. -/
def scrubKeyless (s : State) : State := (liveIds (scrubFrozen s)).foldl (fun s id => modC s id keyless) (scrubFrozen s)

theorem scrubStart_eq (s : State) : scrubStart s =
    wr { scrubKeyless s with pkg := { (scrubKeyless s).pkg with scrubbing := true, loanKey := none, bundle := none },
                             wen := { (scrubKeyless s).wen with ckptKey := 0 } } 0x800102 0 := rfl

theorem scrubKeyless_rest (s : State) : (scrubKeyless s).ent = (scrubFrozen s).ent ∧ (scrubKeyless s).ckpt = s.ckpt ∧
    (scrubKeyless s).pkg.notes = s.pkg.notes :=
  List.foldlRecOn (motive := fun t : State => t.ent = (scrubFrozen s).ent ∧ t.ckpt = s.ckpt ∧ t.pkg.notes = s.pkg.notes) _ _
    ⟨rfl, by rw [scrubFrozen, wr_ckpt], by rw [scrubFrozen, wr_pkg]⟩ (fun t ht id _ => ht)

theorem scrubStart_effect (s : State) : (∀ k, k ≠ 0x704000 → k ≠ 0x800102 → rd (scrubStart s) k = rd s k) ∧ (scrubStart s).ckpt = s.ckpt ∧
    (scrubStart s).pkg.notes = s.pkg.notes ∧ (scrubStart s).pkg.scrubbing = true ∧
    ∀ id, (getC s id).live = true → (getC (scrubStart s) id).sessKey = none := by
  obtain ⟨hent, hckpt, hnotes⟩ := scrubKeyless_rest s
  refine ⟨fun k h4 h2 => ?_, ?_, ?_, ?_, fun id hlive => ?_⟩
  · exact (rd_wr_ne _ _ h2).trans ((rd_of_ent hent k).trans (rd_wr_ne _ _ h4))
  · exact (wr_ckpt ..).trans hckpt
  · exact (congrArg PkgState.notes (wr_pkg ..)).trans hnotes
  · exact congrArg PkgState.scrubbing (wr_pkg ..)
  · have hfrozen : (scrubFrozen s).ctxs = s.ctxs := by rw [scrubFrozen, wr_ctxs]
    have hctxs : (scrubStart s).ctxs = (scrubKeyless s).ctxs := wr_ctxs ..
    rw [getC_congr hctxs]
    exact foldl_modC_reaches (P := fun c => c.sessKey = none) (g := keyless) (fun _ => rfl) _ _
      (.inl (mem_liveIds (by rw [getC_congr hfrozen]; exact hlive)))

/-- The cut-off is reported. -/
def cutNoted (s : State) : State := { s with pkg := { s.pkg with notes := s.pkg.notes ++ [.reclaimCutoff] } }

/-- The buddy slot is given up, and the scrub will end a reclaim. -/
def slotGivenUp (u : State) : State := { u with ckpt := { u.ckpt with buddy := BuddySlot.empty, reclaimCut := true } }

/-- The state of a cut-off with every vote cast, before the modules halt. -/
def atCutOff (s : State) : State := wr (slotGivenUp (releaseLoans (cutNoted s))) 0x802001 3

theorem exec_reclaimCutoff {s : State} (h : rd s 0x802001 ∈ [1, 2]) (hvoted : unvoted s = none) :
    exec .reclaimCutoff s = .next (scrubStart (cutOffHalts (atCutOff s))) := by
  have hnone : unvoted { s with pkg := { s.pkg with notes := s.pkg.notes ++ [.reclaimCutoff] } } = none := hvoted
  show execReclaimCutoff s = _
  simp only [execReclaimCutoff, reclaimCut, if_neg (not_not.mpr h), hnone]
  rfl

theorem releaseLoans_effect (s : State) : (∀ k, k ≠ 0x303000 → k ≠ 0x303001 → k ≠ 0x303002 → k ≠ 0x303003 → rd (releaseLoans s) k = rd s k) ∧
    rd (releaseLoans s) 0x303000 = 0xFFFF ∧ rd (releaseLoans s) 0x303003 = 0 ∧ (releaseLoans s).ctxs = s.ctxs ∧
    (releaseLoans s).ckpt = s.ckpt ∧ (releaseLoans s).pkg.notes = s.pkg.notes := by
  obtain ⟨hrd, hsize, hctxs, hckpt, hnotes⟩ := releaseLent_effect (wr (wr s 0x303000 0xFFFF) 0x303001 0)
  refine ⟨fun k h0 h1 h2 h3 => ?_, ?_, hsize, ?_, ?_, ?_⟩
  · rw [releaseLoans, hrd _ h2 h3, rd_wr_ne _ _ h1, rd_wr_ne _ _ h0]
  · rw [releaseLoans, hrd _ (by decide) (by decide), rd_wr_ne _ _ (by decide), rd_wr_fits s lentOut_type (by decide)]
  · rw [releaseLoans, hctxs, wr_ctxs, wr_ctxs]
  · rw [releaseLoans, hckpt, wr_ckpt, wr_ckpt]
  · rw [releaseLoans, hnotes, wr_pkg, wr_pkg]

theorem atCutOff_effect (s : State) : rd (atCutOff s) 0x802001 = 3 ∧ rd (atCutOff s) 0x303000 = 0xFFFF ∧ rd (atCutOff s) 0x303003 = 0 ∧
    (atCutOff s).ctxs = s.ctxs ∧ (atCutOff s).pkg.notes = s.pkg.notes ++ [.reclaimCutoff] ∧ (atCutOff s).ckpt.buddy = BuddySlot.empty := by
  obtain ⟨-, hlent, hsize, hctxs, -, hnotes⟩ := releaseLoans_effect (cutNoted s)
  have hrd (k : Nat) (hk : k ≠ 0x802001) : rd (atCutOff s) k = rd (releaseLoans (cutNoted s)) k := by
    rw [atCutOff, rd_wr_ne _ _ hk, rd_of_ent (s := releaseLoans (cutNoted s)) (t := slotGivenUp (releaseLoans (cutNoted s))) (by rw [slotGivenUp])]
  refine ⟨rd_wr_fits _ reclaimState_type (by decide), ?_, ?_, ?_, ?_, ?_⟩
  · rw [hrd _ (by decide), hlent]
  · rw [hrd _ (by decide), hsize]
  · rw [atCutOff, wr_ctxs, slotGivenUp, hctxs, cutNoted]
  · rw [atCutOff, wr_pkg, slotGivenUp, hnotes, cutNoted]
  · rw [atCutOff, wr_ckpt, slotGivenUp]

/-- The flush is cut off: loans and the buddy slot are released, and the scrub begins. -/
theorem reclaimCutoff_effect {s : State} (h : rd s 0x802001 ∈ [1, 2]) (hvoted : unvoted s = none) : ∃ t, exec .reclaimCutoff s = .next t ∧
    rd t 0x802001 = 3 ∧ t.pkg.notes = s.pkg.notes ++ [.reclaimCutoff] ∧ t.ckpt.buddy = BuddySlot.empty ∧ t.pkg.scrubbing = true ∧
    rd t 0x303000 = 0xFFFF ∧ rd t 0x303003 = 0 ∧ ∀ id, (getC s id).live = true → (getC t id).sessKey = none := by
  obtain ⟨hstate, hlent, hsize, hctxs, hnotes, hbuddy⟩ := atCutOff_effect s
  have hhalts := signalled_cutOffHalts (.refl (atCutOff s))
  obtain ⟨hrd, hckpt, hpkg, hscrub, hkeys⟩ := scrubStart_effect (cutOffHalts (atCutOff s))
  refine ⟨_, exec_reclaimCutoff h hvoted, ?_, ?_, ?_, hscrub, ?_, ?_, fun id hlive => hkeys id ?_⟩
  · rw [hrd _ (by decide) (by decide), hhalts.rd _ (by decide), hstate]
  · rw [hpkg, cutOffHalts_pkg, hnotes]
  · rw [hckpt, hhalts.ckptPart (·.buddy) (fun _ => rfl), hbuddy]
  · rw [hrd _ (by decide) (by decide), hhalts.rd _ (by decide), hlent]
  · rw [hrd _ (by decide) (by decide), hhalts.rd _ (by decide), hsize]
  · rw [live_cutOffHalts, getC_congr hctxs, hlive]

/-! ### The replay log (R313, R315) -/

theorem exec_replaySegmentAck {s : State} (h : s.ckpt.rgapFrom = none) :
    exec .replaySegmentAck s = .next { s with ckpt := { s.ckpt with rout := s.ckpt.rout.drop 1 } } := by
  show execReplaySegmentAck s = _
  simp only [execReplaySegmentAck, h]

theorem exec_replayLogReadDone {s : State} (records : List (Nat × Nat × Nat × Nat × List Byte)) (last : Bool) (h : s.ckpt.rplay = true) :
    exec (.replayLogReadDone records last) s = .next (fetchInputs
      { s with ckpt := { s.ckpt with rin := s.ckpt.rin ++ logRecords s.ckpt.rin.length records, rinEnd := s.ckpt.rinEnd || last } } (replayCtx s)) := by
  show execReplayLogReadDone records last s = _
  rw [execReplayLogReadDone, if_pos h]

/-- Settles O47: the Ladle by the page that leaves it, a restore by its sources, a reclaim by its stages, the log by its segments. -/
theorem copiesRestoresAndReclaims : Obligations.CopiesRestoresAndReclaims := by
  intro s
  refine ⟨fun die fault id p held hnext hroom => ?_, fun die x xs hslots => ⟨_, exec_ladleSlotTimeout hslots, tget_tset_self .., ?_⟩,
    fun die x xs hslots hstore => ⟨_, exec_ckptStorageAck hslots hstore, rfl, tget_tset_self ..⟩,
    fun pages gen src step rest id hcands hjob => ⟨restorePullDone_done hcands hjob pages, restorePullDone_next hcands hjob pages,
      restorePullDone_refused hcands hjob pages⟩,
    reclaimStepWaitExpiry_effect, reclaimCutoff_effect, exec_replaySegmentAck, fun records last => exec_replayLogReadDone records last⟩
  · obtain ⟨u, hu⟩ := ladleCopy_copies fault hnext hroom
    obtain ⟨htodo, hclear, hheld⟩ := leftLadle_pageCopied u id p
    exact ⟨_, congrArg (fun t => Host.Outcome.next (retryRun t)) hu, htodo, hclear, hheld⟩
  · exact fun g hcap hclean => capture_dirtyCap hcap hclean

end Sys2Proof.LadleProofs
end

section
/-! PROOFS. Context commands: what each answers, and that a teardown leaves no command held (R168, R354 to R358, R363 to R365). -/

namespace Sys2Proof.ContextProofs

open Sys2Proof Sys2Proof.Machine Sys2Proof.Laws Sys2Proof.PackageProofs Sys2Proof.CollProofs Sys2Proof.DatagramProofs Sys2Proof.CommandProofs
  Sys2Proof.SignalProofs Sys2Proof.LadleProofs

/-! ### Commands that wait: a teardown adds none -/

theorem held_setStream (s : State) (mgmt : Bool) (id : Nat) (e : Stream) : (setStream s mgmt id e).eth.held = s.eth.held := by
  cases mgmt <;> rfl

theorem held_sendVia (s : State) (mgmt : Bool) (id op : Nat) (bs : List Byte) (r : Option (Nat × Nat)) :
    (sendVia s mgmt id op bs r).1.eth.held = s.eth.held := by
  unfold sendVia
  exact held_setStream ..

theorem held_complete (s : State) (mgmt : Bool) (id : Nat) (d : DgHdr) (status detail : Nat) (extra : List Byte) :
    (complete s mgmt id d status detail extra).eth.held = s.eth.held := by
  obtain ⟨hheld, -⟩ := complete_rest s mgmt id d status detail extra
  exact hheld

theorem held_appendRec (s : State) (type step key ts : Nat) (data : List Byte) : (appendRec s type step key ts data).1.eth.held = s.eth.held := by
  have hcut (t : State) : (cutSegment t).eth.held = t.eth.held := by
    unfold cutSegment
    split <;> rfl
  unfold appendRec
  dsimp only
  split
  · rw [wr_eth]
  · split
    · split <;> exact congrArg EthState.held (wr_eth ..)
    · rw [hcut, wr_eth]

theorem held_recordEnded (s : State) (b : BusyCmd) (status : Nat) : (recordEnded s b status).eth.held = s.eth.held := by
  unfold recordEnded
  split
  · rw [held_appendRec]
  · rfl

theorem held_endBusy (s : State) (bs : List BusyCmd) (status detail : Nat) : (endBusy s bs status detail).eth.held = s.eth.held :=
  List.foldlRecOn (motive := fun t : State => t.eth.held = s.eth.held) _ _ rfl (fun t ht b _ => by rw [held_recordEnded, held_complete, ht])

theorem held_flushStream {s : State} (mgmt : Bool) (id status detail : Nat) (keep : Bool) (h : s.eth.held = []) :
    (flushStream s mgmt id status detail keep).eth.held = [] := by
  have hnone : (s.eth.held.filter (fun b => decide (b.mgmt = mgmt ∧ b.stream = id))).mergeSort (fun a b => decide (a.hdr.seq ≤ b.hdr.seq)) = [] := by
    rw [h, List.filter_nil, List.mergeSort_nil]
  unfold flushStream
  dsimp only
  rw [hnone, List.foldl_nil, held_endBusy]
  simp only [h, List.filter_nil]

theorem held_haltStreams {s : State} (id code : Nat) (keep : Option Nat) (h : s.eth.held = []) : (haltStreams s id code keep).eth.held = [] := by
  unfold haltStreams
  refine List.foldlRecOn (motive := fun t : State => t.eth.held = []) _ _ h (fun t ht i _ => ?_)
  dsimp only
  split
  · exact ht
  · have hflushed : (flushStream (setStream t false i { getStream t false i with state := 2 }) false i 0x0506 code (decide (keep = some i))).eth.held =
        [] := held_flushStream _ _ _ _ _ ((held_setStream ..).trans ht)
    exact (held_sendVia ..).trans hflushed

/-! ### Problems and plant streams that end with a context -/

/-- `t` comes from `s` by operations that leave the commands that wait and the checkpoint part. -/
structure PortsKept (s t : State) : Prop where
  held : t.eth.held = s.eth.held
  ckpt : t.ckpt = s.ckpt

theorem PortsKept.refl (s : State) : PortsKept s s := ⟨rfl, rfl⟩

theorem PortsKept.upd {s t u : State} (h : PortsKept s t) (hh : u.eth.held = t.eth.held := by rfl) (hc : u.ckpt = t.ckpt := by rfl) : PortsKept s u :=
  ⟨hh.trans h.held, hc.trans h.ckpt⟩

theorem PortsKept.foldl {α : Type} {s t : State} {f : State → α → State} {l : List α} (hf : ∀ u a, PortsKept s u → PortsKept s (f u a))
    (h : PortsKept s t) : PortsKept s (l.foldl f t) :=
  List.foldlRecOn (motive := PortsKept s) l f h (fun u hu a _ => hf u a hu)

section
variable {s t : State} (h : PortsKept s t)
include h

theorem portsKept_wr {k v : Nat} : PortsKept s (wr t k v) := h.upd (by rw [wr_eth]) (wr_ckpt ..)

theorem portsKept_settleOp : PortsKept s (settleOp t) := by
  obtain ⟨e, n, p, hs⟩ := SolverProofs.settleOp_spec t
  rw [hs]
  exact h.upd

theorem portsKept_setQ {f : Nat} {q : SolverQ} : PortsKept s (setQ t f q) := h.upd

theorem portsKept_setHalves {kind first v : Nat} : PortsKept s (setHalves t kind first v) := by
  unfold setHalves
  refine .foldl (fun u f hu => ?_) h
  split
  · exact hu
  · exact portsKept_wr hu

theorem portsKept_startNext {f : Nat} : PortsKept s (startNext t f) := by
  obtain ⟨x, hs⟩ := SolverProofs.switchTargets_spec t
  have hswitch : PortsKept s (settleOp (switchTargets t)) := portsKept_settleOp (by rw [hs]; exact h.upd)
  unfold startNext
  dsimp only
  split
  · split
    · exact hswitch
    · exact portsKept_setHalves hswitch.upd
  · exact hswitch

theorem portsKept_finishTicket {p : Problem} {status : Nat} : PortsKept s (finishTicket t p status) := by
  unfold finishTicket
  split
  · exact h
  · exact h.upd

theorem portsKept_abortProblems {id : Nat} : PortsKept s (abortProblems t id) := by
  unfold abortProblems startAll
  refine .foldl (fun u f hu => portsKept_startNext hu) (.foldl (fun u f hu => ?_) h)
  have hwaiting : PortsKept s ((getQ u f).waiting.foldl (fun s p => if p.ctx = id then finishTicket s p 0x24 else s) u) := by
    refine .foldl (fun v p hv => ?_) hu
    split
    · exact portsKept_finishTicket hv
    · exact hv
  dsimp only
  split
  · split
    · exact portsKept_setHalves (portsKept_setQ (portsKept_finishTicket (portsKept_setQ hwaiting)))
    · exact portsKept_setQ hwaiting
  · exact portsKept_setQ hwaiting

theorem portsKept_plantTeardown {id : Nat} : PortsKept s (plantTeardown t id) := by
  unfold plantTeardown
  refine .foldl (fun u n hu => ?_) h
  split
  · exact portsKept_wr hu.upd
  · split
    · exact hu.upd
    · exact hu

end

/-! ### TEARDOWN (R364) -/

theorem held_freeStreams (s : State) (id : Nat) : (freeStreams s id).eth.held = s.eth.held :=
  List.foldlRecOn (motive := fun t : State => t.eth.held = s.eth.held) _ _ rfl (fun _ ht _ _ => (held_setStream ..).trans ht)

theorem held_dropPages (s : State) (c : Context) (ps : List Nat) : (dropPages s c ps).eth.held = s.eth.held := by
  obtain ⟨pantry, h⟩ := StepProofs.dropPages_pantry s c ps
  rw [h]

theorem held_dropRemote (s : State) (id : Nat) : (dropRemote s id).eth.held = s.eth.held := rfl

theorem held_dropReplayOf (s : State) (id : Nat) : (dropReplayOf s id).eth.held = s.eth.held := by
  unfold dropReplayOf
  split <;> rfl

theorem held_clearResidents (s : State) (bs : List Binding) :
    (bs.foldl (fun s b => clearResident s b.kind (bindFirst b)) s).eth.held = s.eth.held :=
  List.foldlRecOn (motive := fun t : State => t.eth.held = s.eth.held) _ _ rfl (fun _ ht _ _ => ht)

theorem held_setXcache (s : State) (xs : List (Nat × Nat × Nat)) : (setXcache s xs).eth.held = s.eth.held := by
  rw [setXcache, wr_eth]

theorem held_teardownCtx {s : State} (id code : Nat) (h : s.eth.held = []) : (teardownCtx s id code).eth.held = [] := by
  unfold teardownCtx
  extract_lets binds stopped dropped emptied forgotten freed idle counted src moved
  have haborted : PortsKept (haltStreams s id code none) (abortProblems (haltStreams s id code none) id) := portsKept_abortProblems (.refl _)
  have hkept : PortsKept (haltStreams s id code none) (plantTeardown (abortProblems (haltStreams s id code none) id) id) :=
    portsKept_plantTeardown haborted
  have hstopped : stopped.eth.held = [] := by
    unfold stopped
    rw [hkept.held, held_haltStreams id code none h]
  clear_value stopped
  have hdropped : dropped.eth.held = [] := (held_dropReplayOf ..).trans hstopped
  clear_value dropped
  have hemptied : emptied.eth.held = [] := (held_clearResidents ..).trans hdropped
  clear_value emptied
  have hforgotten : forgotten.eth.held = [] := by
    unfold forgotten
    rw [held_dropRemote, held_dropPages, hemptied]
  clear_value forgotten
  have hfreed : freed.eth.held = [] := by
    unfold freed
    rw [held_freeStreams, held_setXcache, hforgotten]
  clear_value freed
  have hidle : idle.eth.held = [] := by
    unfold idle
    split
    · rw [clusterAccess, putAccess, wr_eth, hfreed]
    · exact hfreed
  clear_value idle
  have hcounted : counted.eth.held = [] := by
    unfold counted
    rw [wr_eth, hidle]
  clear_value counted
  have hmoved : moved.eth.held = [] := by
    unfold moved
    split <;> exact hcounted
  clear_value moved
  have hsettled : PortsKept (setC moved id Context.dead) (settleOp (setC moved id Context.dead)) := portsKept_settleOp (.refl _)
  rw [hsettled.held, setC_eth, hmoved]

theorem getC_teardownCtx (s : State) (id code : Nat) : getC (teardownCtx s id code) id = Context.dead := by
  unfold teardownCtx
  extract_lets binds stopped dropped emptied forgotten freed idle counted src moved
  rw [getC_congr (settleOp_ctxs _), getC_setC_self]

/-! ### What each command answers -/

theorem ctxCommand_dead {u : State} {id : Nat} {cc : CtxCmd} (hneeds : needsLive cc = true) (hdead : (getC u id).live = false) :
    ctxCommand u id cc = .fail 0x0702 0 := by
  unfold ctxCommand
  rw [hneeds, hdead]
  rfl

/-- What a command on a live context does. -/
def ctxLive (u : State) (id : Nat) : CtxCmd → CmdRes
  | .create => ctxCreate u id
  | .sessionKey k => ctxSessionKey u id k
  | .members n rank ids => ctxMembers u id n rank ids
  | .bind num kind die half => ctxBind u id num kind die half
  | .schedule => ctxSchedule u id
  | .bundleOpen src dst off => ctxBundleOpen u id src dst off
  | .teardown => ctxTeardown u id
  | .scrub => ctxScrub u
  | .partition p us => ctxPartition u p us
  | .unbind num => ctxUnbind u id num
  | .other _ => .fail 0x0502 0

theorem ctxCommand_live {u : State} {id : Nat} {cc : CtxCmd} (hlive : (getC u id).live = true) : ctxCommand u id cc = ctxLive u id cc := by
  have hgo : ¬(needsLive cc && !(getC u id).live) = true := by simp [hlive]
  rw [ctxCommand.eq_def, if_neg hgo]
  cases cc <;> rfl

theorem ctxCreate_refused {u : State} {id code : Nat} (h : (u.pkg.scrubbing = true ∧ code = 0x070D) ∨
    (u.pkg.scrubbing = false ∧ u.wen.debug = true ∧ code = 0x070E) ∨
    (u.pkg.scrubbing = false ∧ u.wen.debug = false ∧ deviceState u = 3 ∧ code = 0x0A06) ∨
    (u.pkg.scrubbing = false ∧ u.wen.debug = false ∧ deviceState u ≠ 3 ∧ (getC u id).live = true ∧ code = 0x0701)) :
    ctxCreate u id = .fail code 0 := by
  obtain ⟨hscrub, rfl⟩ | ⟨hscrub, hdebug, rfl⟩ | ⟨hscrub, hdebug, hdev, rfl⟩ | ⟨hscrub, hdebug, hdev, hlive, rfl⟩ := h
  · simp only [ctxCreate, hscrub, if_true]
  · simp only [ctxCreate, hscrub, hdebug, Bool.false_eq_true, if_false, if_true]
  · simp only [ctxCreate, hscrub, hdebug, hdev, Bool.false_eq_true, if_false, if_true]
  · simp only [ctxCreate, hscrub, hdebug, hdev, hlive, Bool.false_eq_true, if_false, if_true]

theorem ctxCreate_creates {u : State} {id : Nat} (hscrub : u.pkg.scrubbing = false) (hdebug : u.wen.debug = false) (hdev : deviceState u ≠ 3)
    (hfree : (getC u id).live = false) (hroom : (liveIds u).length < 4096) : ctxCreate u id =
      .done (incr (setC { (drawNat u).2 with pkg := { (drawNat u).2.pkg with serials := u.pkg.serials + 1 } } id
        { Context.dead with live := true, serial := u.pkg.serials + 1, memKey := some ((drawNat u).1 % 2 ^ 512) }) 0x703000 1) 0 := by
  have hlen : ¬4096 ≤ (liveIds u).length := by omega
  simp only [ctxCreate, hscrub, hdebug, hdev, hfree, hlen, Bool.false_eq_true, if_false]

section
variable {u : State} {id : Nat}

theorem ctxSessionKey_takes (k : Nat) (h : (getC u id).sessKey = none) :
    ctxSessionKey u id (some k) = .done (setC u id { getC u id with sessKey := some k }) 0 := by
  simp only [ctxSessionKey, h, Option.isSome_none, Bool.false_and, Bool.false_eq_true, if_false]
  rfl

theorem ctxSessionKey_unwrapped (h : (getC u id).sessKey = none) : ctxSessionKey u id none = .fail 0x0705 0 := by
  simp only [ctxSessionKey, h, Option.isSome_none, Bool.false_and, Bool.false_eq_true, if_false]

theorem ctxMembers_takes {n rank : Nat} (ids : List Nat) (hstill : moduleRuns (getC u id) = false) (hn : 1 ≤ n) (hmax : n ≤ 65536) (hrank : rank < n) :
    ctxMembers u id n rank ids = .done (setC u id { getC u id with n := n, rank := rank, ids := ids }) 0 := by
  have hfits : ¬(n = 0 ∨ 65536 < n ∨ n ≤ rank) := by omega
  simp only [ctxMembers, hstill, hfits, Bool.false_eq_true, if_false]
  rfl

theorem ctxMembers_runs {n rank : Nat} {ids : List Nat} (hruns : moduleRuns (getC u id) = true) : ctxMembers u id n rank ids = .fail 0x0704 0 := by
  simp only [ctxMembers, hruns, if_true]

/-- A target that BIND names by its rules: a half, a die that is joined, or the pair. -/
def BindTarget (u : State) (kind die half : Nat) : Prop :=
  (kind = 0 ∧ die < 2 ∧ half < 2 ∧ rd u (0x601001 + die) ≠ 1) ∨ (kind = 1 ∧ die < 2 ∧ half = 0 ∧ rd u (0x601001 + die) = 1) ∨
    (kind = 2 ∧ die = 0 ∧ half = 0 ∧ rd u 0x601001 = 1 ∧ rd u 0x601002 = 1)

/-- A well-formed BIND of a free number turns on the halves. -/
theorem ctxBind_named {num kind die half : Nat} (hnum : num < 8) (htarget : BindTarget u kind die half) (hfree : ∀ x ∈ (getC u id).binds, x.num ≠ num) :
    ctxBind u id num kind die half =
      if (bindHalves ⟨num, kind, die, half⟩).any (fun h => decide (h ∈ boundHalves u)) then .fail 0x0601 0
      else if targetOffline u kind (bindFirst ⟨num, kind, die, half⟩) then .fail 0x0023 0
      else .done (modC u id (fun c => { c with binds := c.binds ++ [⟨num, kind, die, half⟩] })) 0 := by
  have hshape : ¬(8 ≤ num ∨ 3 ≤ kind ∨ (kind ≠ 2 ∧ 2 ≤ die) ∨ (kind = 0 ∧ 2 ≤ half)) ∧ ¬((kind = 2 ∧ die ≠ 0) ∨ (kind ≠ 0 ∧ half ≠ 0)) := by
    rcases htarget with h | h | h <;> omega
  have hjoined : (!(if kind = 0 then !decide (rd u (0x601001 + die) = 1) else if kind = 1 then decide (rd u (0x601001 + die) = 1)
      else decide (rd u (0x601001 + 0) = 1) && decide (rd u (0x601001 + 1) = 1))) = false := by
    rcases htarget with ⟨rfl, -, -, h⟩ | ⟨rfl, -, -, h⟩ | ⟨rfl, -, -, h, h'⟩
    · simp [h]
    · simp [h]
    · simp [h, h']
  have hnew : (getC u id).binds.any (fun x => decide (x.num = num)) = false :=
    List.any_eq_false.mpr (fun x hx => by simpa using hfree x hx)
  obtain ⟨hrange, hreserved⟩ := hshape
  unfold ctxBind
  dsimp only
  rw [if_neg hrange, if_neg hreserved, hjoined, hnew]
  simp only [Bool.false_eq_true, if_false]

theorem ctxUnbind_bound {num : Nat} {b : Binding} (hnum : num < 8) (hb : (getC u id).binds.find? (fun x => decide (x.num = num)) = some b) :
    ctxUnbind u id num = if (bindHalves b).any (halfBusy u) then .fail 0x0602 0
      else if (bindHalves b).any (plantOn u) then .fail 0x0601 0
      else .done (clearResident (setC u id { getC u id with binds := (getC u id).binds.filter (fun x => decide (x.num ≠ num)) }) b.kind (bindFirst b)) 0 := by
  have hsmall : ¬8 ≤ num := by omega
  simp only [ctxUnbind, hsmall, hb, if_false]
  rfl

theorem ctxSchedule_open (hscrub : u.pkg.scrubbing = false) (hdev : deviceState u ≠ 3) (hfree : u.pkg.switchTo = none) :
    ctxSchedule u id = if runningId u = some id then .done u 0 else .long { u with pkg := { u.pkg with
      switchTo := some (id, if (match runningId u with | some r => isRunning (getC u r) | none => false) = true then 0 else 1) } } := by
  simp only [ctxSchedule, hscrub, hdev, hfree, Option.isSome_none, Bool.false_eq_true, if_false] <;> rfl

theorem bit_not (b : Bool) : bit (!b) = if b = true then 0 else 1 := by cases b <;> rfl

/-- The switch waits for the step point of the module that runs. -/
theorem ctxSchedule_switches {phase : Nat} (hscrub : u.pkg.scrubbing = false) (hdev : deviceState u ≠ 3) (hfree : u.pkg.switchTo = none)
    (hphase : (runningId u = none ∧ phase = 1) ∨ (∃ r, runningId u = some r ∧ r ≠ id ∧ phase = bit (!isRunning (getC u r)))) :
    ctxSchedule u id = .long { u with pkg := { u.pkg with switchTo := some (id, phase) } } := by
  rw [ctxSchedule_open hscrub hdev hfree]
  obtain ⟨hnone, rfl⟩ | ⟨r, hr, hne, rfl⟩ := hphase
  · simp only [hnone, reduceCtorEq, if_false, Bool.false_eq_true]
  · have hother : ¬some r = some id := fun h => hne (Option.some.inj h)
    rw [hr, if_neg hother]
    simp only [bit_not]

theorem ctxBundleOpen_starts {src dst off : Nat} {a b : Tensor} (hsrc : tensorOf (getC u id) src = some a) (hdst : tensorOf (getC u id) dst = some b)
    (ha : a.level = 2) (hb : b.level = 2) (hmagic : field (tensorRead (getC u id) 0 src off 128) 0 4 = 0x444E4257)
    (hversion : field (tensorRead (getC u id) 0 src off 128) 4 2 = 1) (hone : 1 ≤ field (tensorRead (getC u id) 0 src off 128) 0x10 4)
    (hmany : field (tensorRead (getC u id) 0 src off 128) 0x10 4 ≤ 65536)
    (hfits : off + 128 + 520 * field (tensorRead (getC u id) 0 src off 128) 0x10 4 + bundleLength (tensorRead (getC u id) 0 src off 128) + 16 ≤
      tensorBytes a) (hroom : bundleLength (tensorRead (getC u id) 0 src off 128) ≤ tensorBytes b) (hfree : u.pkg.bundle = none) :
    ctxBundleOpen u id src dst off = .long { u with pkg := { u.pkg with bundle := some (id, src, dst, off) } } := by
  have hplace : ¬(a.level ≠ 2 ∨ b.level ≠ 2 ∨ tensorBytes a < off + 128) := by omega
  have hhead : ¬(field (tensorRead (getC u id) 0 src off 128) 0 4 ≠ 0x444E4257 ∨ field (tensorRead (getC u id) 0 src off 128) 4 2 ≠ 1 ∨
      field (tensorRead (getC u id) 0 src off 128) 0x10 4 = 0 ∨ 65536 < field (tensorRead (getC u id) 0 src off 128) 0x10 4 ∨
      tensorBytes a < off + 128 + 520 * field (tensorRead (getC u id) 0 src off 128) 0x10 4 + bundleLength (tensorRead (getC u id) 0 src off 128) + 16 ∨
      tensorBytes b < bundleLength (tensorRead (getC u id) 0 src off 128)) := by omega
  simp only [ctxBundleOpen, hsrc, hdst]
  rw [if_neg hplace, if_neg hhead, hfree]
  rfl

end

/-! ### SCRUB and PARTITION -/

theorem ckptKey_type : (entryOf 0x800102).map (·.type) = some (.octets 32) := by decide +kernel

/-- Steps 1 and 2 of a scrub: no key of the device or of a context is left. -/
theorem scrubStart_keys (s : State) : rd (scrubStart s) 0x800102 = 0 ∧ (scrubStart s).wen.ckptKey = 0 ∧ (scrubStart s).pkg.loanKey = none ∧
    (scrubStart s).eth = s.eth ∧ ∀ i ∈ liveIds s, (getC (scrubStart s) i).memKey = none ∧ (getC (scrubStart s) i).sessKey = none := by
  have hkeyless : (scrubKeyless s).eth = s.eth :=
    List.foldlRecOn (motive := fun t : State => t.eth = s.eth) _ _ (by rw [scrubFrozen, wr_eth]) (fun t ht id _ => ht)
  have hlive : liveIds (scrubFrozen s) = liveIds s := by
    rw [liveIds, scrubFrozen, wr_ctxs]
    rfl
  refine ⟨rd_wr_fits _ ckptKey_type (by decide), ?_, ?_, ?_, fun i hi => ?_⟩
  · rw [scrubStart_eq, wr_wen]
  · rw [scrubStart_eq, wr_pkg]
  · rw [scrubStart_eq, wr_eth]
    exact hkeyless
  · have hctxs : (scrubStart s).ctxs = (scrubKeyless s).ctxs := by rw [scrubStart_eq, wr_ctxs]
    rw [getC_congr hctxs]
    exact foldl_modC_reaches (P := fun c => c.memKey = none ∧ c.sessKey = none) (g := keyless) (fun _ => ⟨rfl, rfl⟩) _ _ (.inl (hlive.symm ▸ hi))

theorem ctxScrub_starts {u : State} (hscrub : u.pkg.scrubbing = false) (hstill : ((liveIds u).any (fun i => moduleRuns (getC u i))) = false) :
    ctxScrub u = .long (scrubStart u) := by
  simp only [ctxScrub, hscrub, hstill, Bool.false_eq_true, if_false]

theorem ctxScrub_runs {u : State} (hscrub : u.pkg.scrubbing = false) (hruns : ((liveIds u).any (fun i => moduleRuns (getC u i))) = true) :
    ctxScrub u = .fail 0x0704 0 := by
  simp only [ctxScrub, hscrub, hruns, Bool.false_eq_true, if_false, if_true]

/-- What every step of a fold leaves of the Ethernet part, the fold leaves. -/
theorem eth_foldl {α : Type} {f : State → α → State} (hf : ∀ u a, (f u a).eth = u.eth) (l : List α) (s : State) : (l.foldl f s).eth = s.eth :=
  List.foldlRecOn (motive := fun t : State => t.eth = s.eth) l f rfl (fun t ht a _ => (hf t a).trans ht)

theorem eth_raiseFree (s : State) (die cls unit ctx step : Nat) (ev : Option UnitEvent) (j : Bool) :
    (raiseFree s die cls unit ctx step ev j).eth = s.eth := by
  unfold raiseFree raiseEvent
  dsimp only
  split
  · rfl
  · exact incr_eth ..

theorem eth_portDown (s : State) (p : Nat) : (portDown s p).eth = s.eth := by
  have hreroute (t : State) : (reroute t p (fun _ => false)).eth = t.eth :=
    eth_foldl (fun u f => by split <;> simp) _ _
  unfold portDown linkEvent clearSamples setPort
  dsimp only
  split
  · rfl
  · rw [hreroute, eth_raiseFree, wr_eth]
    exact wr_eth ..

theorem eth_moveSwitch (s : State) (lane closed : Nat) : (moveSwitch s lane closed).eth = s.eth := by
  unfold moveSwitch
  split
  · rfl
  · exact (eth_portDown ..).trans (eth_portDown ..)

theorem eth_bypassClose (s : State) : (bypassClose s).eth = s.eth := (eth_moveSwitch ..).trans (eth_moveSwitch ..)

theorem eth_portTrain (s : State) (p : Nat) : (portTrain s p).eth = s.eth := by
  unfold portTrain clearSamples setPort
  split
  · rfl
  · exact (wr_eth ..).trans (wr_eth ..)

theorem eth_advanceCounters (s : State) (d : Nat) : (advanceCounters s d).eth = s.eth := eth_foldl (fun _ _ => wr_eth ..) _ _

theorem eth_moveHalf (s : State) (p h : Nat) : (moveHalf s p h).eth = s.eth := by
  unfold moveHalf
  split
  · rfl
  · exact wr_eth ..

theorem eth_repart (s : State) (m : Nat) : (repart s m).eth = s.eth :=
  eth_foldl (f := fun s (p : Nat × BitVec 32) => putAccess s (some p.1) p.2) (fun _ _ => rfl) _ _

/-- A unit that goes to a partition leaves the Ethernet part as it is. -/
theorem eth_moveUnit (s : State) (p m : Nat) : (moveUnit s p m).eth = s.eth := by
  unfold moveUnit
  extract_lets d src parted moved left cleared src' back counted
  have hparted : parted.eth = s.eth := eth_repart ..
  have hmoved : moved.eth = s.eth := (eth_foldl (fun _ _ => eth_moveHalf ..) _ _).trans hparted
  have hleft : left.eth = s.eth := by
    unfold left
    split
    · exact hmoved
    · exact (wr_eth ..).trans hmoved
  have hback : back.eth = s.eth := (wr_eth ..).trans hmoved
  have hcounted : counted.eth = s.eth := by
    unfold counted
    split
    · exact (wr_eth ..).trans ((eth_advanceCounters ..).trans hback)
    · exact (eth_advanceCounters ..).trans hback
  split
  · rfl
  · split
    · exact hmoved
    · split
      · split
        · exact (eth_bypassClose ..).trans hleft
        · exact hleft
      · split
        · exact hmoved
        · split
          · exact (eth_foldl (fun _ _ => eth_portTrain ..) _ _).trans hcounted
          · exact hcounted

theorem eth_moveUnits (s : State) (p : Nat) (units : List Nat) : (units.foldl (fun s m => moveUnit s p m) s).eth = s.eth :=
  eth_foldl (fun _ _ => eth_moveUnit ..) _ _

theorem ctxPartition_named {u : State} {p : Nat} {units : List Nat} (hp : p < 16) (hunits : ∀ m ∈ units, unitExists m = true) :
    ctxPartition u p units = if units.any (unitBusy u) = true then .fail 0x070C 0 else .done (units.foldl (fun s m => moveUnit s p m) u) 0 := by
  have hknown : units.any (fun m => !unitExists m) = false := List.any_eq_false.mpr (fun m hm => by simp [hunits m hm])
  have hgo : ¬(16 ≤ p ∨ units.any (fun m => !unitExists m) = true) := by simp [hknown]; omega
  rw [ctxPartition, if_neg hgo]

/-! ### How a context command ends -/

section
variable {s t : State} {h : DgHdr} {i : Instr} {j : Nat} {cc : CtxCmd} (hexec : exec i s = .next (dgram s h (.context j 0 cc)))
include hexec

theorem command_ends (hcmd : ctxCommand (taken s h) j cc = .done t 0) (hheld : (taken s h).eth.held = [] → t.eth.held = []) :
    Performs i s h (.context j 0 cc) t 0 0 [] :=
  performs_of_done hexec (congrArg (ofCmdRes (taken s h)) hcmd) hheld

theorem command_fails {status : Nat} (hcmd : ctxCommand (taken s h) j cc = .fail status 0) :
    Performs i s h (.context j 0 cc) (taken s h) status 0 [] :=
  performs_of_done hexec (congrArg (ofCmdRes (taken s h)) hcmd)

theorem command_goesOn (hcmd : ctxCommand (taken s h) j cc = .long t) : Begins i s h (.context j 0 cc) t :=
  begins_of_long hexec (congrArg (ofCmdRes (taken s h)) hcmd)

end

/-- Settles O54: each context command by what it answers, at once or as it goes on. -/
theorem contextCommandsTakeEffect : Obligations.ContextCommandsTakeEffect := by
  intro s h ctx u c
  have live {cc : CtxCmd} {r : CmdRes} (hlive : c.live = true) (hcmd : ctxLive u ctx cc = r) : ctxCommand u ctx cc = r :=
    (ctxCommand_live hlive).trans hcmd
  refine ⟨fun code hcode => command_fails rfl (ctxCreate_refused hcode), fun hscrub hdebug hdev hfree hroom => ?_,
    fun hdead => ⟨command_fails rfl (ctxCommand_dead rfl hdead), command_fails rfl (ctxCommand_dead rfl hdead), fun n => command_fails rfl (ctxCommand_dead rfl hdead)⟩,
    fun hlive => ⟨fun k hkey => command_ends rfl (live hlive (ctxSessionKey_takes k hkey)) id, fun hkey => command_fails rfl (live hlive (ctxSessionKey_unwrapped hkey)),
      fun n rank ids hstill hn hmax hrank => command_ends rfl (live hlive (ctxMembers_takes ids hstill hn hmax hrank)) id,
      fun n rank ids hruns => command_fails rfl (live hlive (ctxMembers_runs hruns)),
      fun num kind die half hnum htarget hfree => ⟨fun hbound => ?_, fun hunbound hup => ?_⟩, fun num b hnum hb => ⟨fun hbusy => ?_, fun hidle => ?_⟩,
      fun hscrub hdev hfree => ⟨fun hruns => ?_, fun phase hphase => command_goesOn rfl (live hlive (ctxSchedule_switches hscrub hdev hfree hphase))⟩,
      fun src dst off a b hsrc hdst ha hb hmagic hversion hone hmany hfits hroom hfree =>
        command_goesOn rfl (live hlive (ctxBundleOpen_starts hsrc hdst ha hb hmagic hversion hone hmany hfits hroom hfree)),
      fun hslice => command_goesOn rfl (live hlive (if_pos hslice)), fun hslice => ?_⟩,
    fun hscrub => ⟨fun hstill => ?_, fun hruns => ?_⟩, fun p units hp hunits => ⟨fun hfree => ?_, fun hbusy => ?_⟩⟩
  · exact command_ends rfl (ctxCreate_creates hscrub hdebug hdev hfree hroom) (fun hheld => by rw [incr_eth]; exact hheld)
  · have hany : (bindHalves ⟨num, kind, die, half⟩).any (fun x => decide (x ∈ boundHalves u)) = true := by simpa using hbound
    exact command_fails rfl (live hlive ((ctxBind_named hnum htarget hfree).trans (if_pos hany)))
  · have hnone : ¬(bindHalves ⟨num, kind, die, half⟩).any (fun x => decide (x ∈ boundHalves u)) = true := by simpa using hunbound
    exact command_ends rfl (live hlive ((ctxBind_named hnum htarget hfree).trans ((if_neg hnone).trans (if_neg (Bool.eq_false_iff.mp hup))))) id
  · have hany : (bindHalves b).any (halfBusy u) = true := List.any_eq_true.mpr hbusy
    exact command_fails rfl (live hlive ((ctxUnbind_bound hnum hb).trans (if_pos hany)))
  · have hnone : ¬(bindHalves b).any (halfBusy u) = true := by simpa using fun x hx => (hidle x hx).1
    have hoff : ¬(bindHalves b).any (plantOn u) = true := by simpa using fun x hx => (hidle x hx).2
    exact command_ends rfl (live hlive ((ctxUnbind_bound hnum hb).trans ((if_neg hnone).trans (if_neg hoff)))) id
  · exact command_ends rfl (live hlive ((ctxSchedule_open hscrub hdev hfree).trans (if_pos hruns))) id
  · refine ⟨teardownCtx (drawNat u).2 ctx ((drawNat u).1 % 65536), getC_teardownCtx .., command_ends rfl (live hlive ?_) (held_teardownCtx (s := (drawNat u).2) ctx _)⟩
    exact if_neg (Bool.eq_false_iff.mp hslice)
  · obtain ⟨hkey, hckpt, hloan, heth, hkeys⟩ := scrubStart_keys u
    obtain ⟨-, -, -, hon, -⟩ := scrubStart_effect u
    exact ⟨scrubStart u, hon, hkey, hckpt, hloan, hkeys, heth, command_goesOn rfl (ctxScrub_starts hscrub hstill)⟩
  · exact command_fails rfl (ctxScrub_runs hscrub hruns)
  · have hnone : ¬units.any (unitBusy u) = true := by simpa using hfree
    exact command_ends rfl ((ctxPartition_named hp hunits).trans (if_neg hnone)) (fun hheld => (congrArg EthState.held (eth_moveUnits u p units)).trans hheld)
  · exact command_fails rfl ((ctxPartition_named hp hunits).trans (if_pos (List.any_eq_true.mpr hbusy)))

end Sys2Proof.ContextProofs
end

section
/-! PROOFS. The ends of a context switch, of a bundle's decryption and of a scrub (R347, R357, R363, R365). -/

namespace Sys2Proof.ContextProofs

open Sys2Proof Sys2Proof.Machine Sys2Proof.Laws Sys2Proof.PackageProofs Sys2Proof.CollProofs Sys2Proof.DatagramProofs Sys2Proof.PortProofs
  Sys2Proof.LadleProofs

/-! ### The end of a switch (R357) -/

theorem running_type : (entryOf 0x703001).map (·.type) = some .u16 := by decide +kernel

theorem getC_applySwitch_ne (s : State) {id j : Nat} (h : j ≠ id) : getC (applySwitch s id) j = getC s j := by
  unfold applySwitch
  extract_lets src noted switched
  have hctxs : switched.ctxs = s.ctxs := by
    unfold switched
    rw [clusterAccess, putAccess]
    exact wr_ctxs ..
  clear_value switched
  split
  · rw [modC, getC_setC_ne _ _ _ _ h, getC_congr hctxs]
  · rw [getC_congr hctxs]

theorem applySwitch_effect (s : State) {id : Nat} (hid : id < 4096) : (applySwitch s id).pkg.switchTo = none ∧
    runningId (applySwitch s id) = some id ∧
    (getC (applySwitch s id) id).modState = (if (getC s id).modState = .paused then .running else (getC s id).modState) ∧
    (applySwitch s id).eth = s.eth := by
  unfold applySwitch
  extract_lets src noted switched
  have hrest : switched.ctxs = s.ctxs ∧ switched.eth = s.eth ∧ switched.pkg.switchTo = none ∧ rd switched 0x703001 = id := by
    unfold switched
    refine ⟨wr_ctxs .., wr_eth .., congrArg PkgState.switchTo (wr_pkg ..), ?_⟩
    exact rd_wr_fits _ running_type (by simp only [typeSize]; omega)
  clear_value switched
  obtain ⟨hctxs, heth, hswitch, hread⟩ := hrest
  have hrun (t : State) (ht : rd t 0x703001 = id) : runningId t = some id := by
    have hidle : ¬id = 0xFFFF := by omega
    rw [runningId, ht, if_neg hidle]
  have hgot : getC switched id = getC s id := getC_congr hctxs id
  rw [hgot]
  split
  · exact ⟨hswitch, hrun _ hread, congrArg Context.modState (getC_modC_self ..), heth⟩
  · exact ⟨hswitch, hrun _ hread, congrArg Context.modState hgot, heth⟩

theorem eth_sendCtl (s : State) (dest : Nat) (m : Ctl) : (sendCtl s dest m).eth = s.eth := by
  unfold sendCtl sendMsg launchFlit
  split
  · exact incr_eth ..
  · exact WorkerProofs.routeFlit_eth ..

/-- The commands in progress once one has ended: that one is gone. -/
theorem busy_ended (t : State) (b : BusyCmd) (status detail : Nat) : (ended t b status detail).eth.busy = t.eth.busy.erase b := by
  have hflush (u : State) : (flushRelay u).eth.busy = u.eth.busy := by
    unfold flushRelay
    refine List.foldlRecOn (motive := fun v : State => v.eth.busy = u.eth.busy) _ _ rfl (fun v hv d _ => ?_)
    split
    · rw [eth_sendCtl, hv]
    · exact hv
  obtain ⟨-, hbusy, -⟩ := complete_rest { t with eth := { t.eth with busy := t.eth.busy.erase b } } b.hdr.mgmt b.hdr.stream b.hdr status detail []
  rw [ended, answered, hflush, hbusy]

theorem find?_erase_of_none {l : List BusyCmd} {p : BusyCmd → Bool} (b : BusyCmd) (h : l.find? p = none) : (l.erase b).find? p = none :=
  List.find?_eq_none.mpr (fun x hx => List.find?_eq_none.mp h x (List.mem_of_mem_erase hx))

theorem endLong_none {t : State} {p : BusyCmd → Bool} (e : Nat × Nat × List Byte) (h : t.eth.busy.find? p = none) : endLong t p e = t := by
  simp only [endLong, h]

theorem contextSwitchDone_ends {s : State} {id : Nat} {b : BusyCmd} (hswitch : s.pkg.switchTo = some (id, 1))
    (hlive : (getC s id).live = true) (hb : Runs (applySwitch s id) (isScheduleOf id) b)
    (hrun : (getC s id).modState = .paused → (applySwitch s id).eth.busy.find? (isRunOf id) = none) :
    exec .contextSwitchDone s = .next (ended (applySwitch s id) b 0 0) := by
  have hend := endLong_ended (applySwitch s id) (isScheduleOf id) b 0 0 hb
  have hexec : exec .contextSwitchDone s = .next (if decide ((getC s id).modState = .paused) = true then
      endLong (endLong (applySwitch s id) (isScheduleOf id) (0, 0, [])) (isRunOf id) (0, 0, [])
      else endLong (applySwitch s id) (isScheduleOf id) (0, 0, [])) := by
    show execContextSwitchDone s = _
    simp only [execContextSwitchDone, hswitch, hlive, if_true]
  rw [hexec, hend]
  split
  · next hpaused =>
    have hnone := find?_erase_of_none b (hrun (of_decide_eq_true hpaused))
    rw [endLong_none _ (by rw [busy_ended]; exact hnone)]
  · rfl

/-! ### The end of a bundle (R363) -/

/-- The device with no bundle in progress. -/
def bundleGone (s : State) : State := { s with pkg := { s.pkg with bundle := none } }

section
variable (s : State) (id src dst off : Nat) (plain : List Byte)

theorem bundleEnd_refused {member unwrapOk : Bool} (tagOk : Bool) (h : member = false ∨ unwrapOk = false) :
    bundleEnd s id src dst off member unwrapOk tagOk plain = (bundleGone s, if member = false then 0x0706 else 0x0705) := by
  cases member with
  | false => rfl
  | true =>
    cases unwrapOk with
    | false => rfl
    | true => exact absurd h (by decide)

/-- The bytes that a bundle's end stores. -/
def bundleStored (tagOk : Bool) : State :=
  storeRange (bundleGone s) id (tensorBase (getC s id) 0 dst) (bundleBytes (getC s id) src dst off tagOk plain)

/-- MR4 takes the bundle's header. -/
def measured (hdr : List Byte) (c : Context) : Context := { c with mr4 := extendMr c.mr4 ((hdr.drop 8).take 8 ++ sha512Bytes hdr) }

theorem measured_mr4 (hdr : List Byte) (c : Context) : (measured hdr c).mr4 = extendMr c.mr4 ((hdr.drop 8).take 8 ++ sha512Bytes hdr) := by
  rw [measured]

theorem measured_vmem (hdr : List Byte) (c : Context) : (measured hdr c).vmem = c.vmem := by rw [measured]

theorem bundleEnd_bad : bundleEnd s id src dst off true true false plain = (bundleStored s id src dst off plain false, 0x0707) := rfl

theorem bundleEnd_good : bundleEnd s id src dst off true true true plain =
    (modC (bundleStored s id src dst off plain true) id (measured (tensorRead (getC s id) 0 src off 128)), 0) := rfl

theorem bundleStored_effect (tagOk : Bool) : let t := bundleStored s id src dst off plain tagOk
    let a := tensorBase (getC s id) 0 dst
    let bs := bundleBytes (getC s id) src dst off tagOk plain
    t.pkg.bundle = none ∧ (getC t id).mr4 = (getC s id).mr4 ∧
    (∀ q, rdByte (getC t id).vmem q = if a ≤ q ∧ q < a + bs.length then bs.getD (q - a) 0 else rdByte (getC s id).vmem q) ∧
    ∀ j, j ≠ id → getC t j = getC s j := by
  obtain ⟨pantry, pages, hstored⟩ :=
    storeRange_bytes (bundleGone s) id (tensorBase (getC s id) 0 dst) (bundleBytes (getC s id) src dst off tagOk plain)
  intro t a bs
  have ht : t = _ := hstored
  have hself : getC t id = { getC s id with vmem := wrBytes (getC s id).vmem a bs, pages := pages } := by
    rw [ht, getC_setC_self]
    rfl
  refine ⟨by rw [ht]; rfl, by rw [hself], fun q => by rw [hself]; exact rdByte_wrBytes _ a bs q, fun j hj => ?_⟩
  rw [ht, getC_setC_ne _ _ _ _ hj]
  rfl

/-- What a bundle's end leaves. -/
theorem bundleEnd_effect (ok1 ok2 ok3 : Bool) : let r := bundleEnd s id src dst off ok1 ok2 ok3 plain
    let c := getC s id
    let hdr := tensorRead c 0 src off 128
    r.1.pkg.bundle = none ∧
    r.2 = (if ok1 = false then 0x0706 else if ok2 = false then 0x0705 else if ok3 = false then 0x0707 else 0) ∧
    (ok1 = false ∨ ok2 = false → getC r.1 id = c) ∧
    (ok1 = true → ok2 = true → let d := getC r.1 id
      let a := tensorBase c 0 dst
      let bs := bundleBytes c src dst off ok3 plain
      d.mr4 = (if ok3 = true then extendMr c.mr4 ((hdr.drop 8).take 8 ++ sha512Bytes hdr) else c.mr4) ∧
      (∀ q, rdByte d.vmem q = if a ≤ q ∧ q < a + bs.length then bs.getD (q - a) 0 else rdByte c.vmem q) ∧
      ∀ j, j ≠ id → getC r.1 j = getC s j) := by
  by_cases h : ok1 = false ∨ ok2 = false
  · rw [bundleEnd_refused s id src dst off plain ok3 h]
    refine ⟨rfl, ?_, fun _ => rfl, fun h1 h2 => ?_⟩
    · cases ok1 with
      | false => rfl
      | true => exact (if_pos (h.resolve_left (by decide))).symm
    · rw [h1, h2] at h
      exact absurd h (by decide)
  · obtain ⟨h1, h2⟩ := not_or.mp h
    obtain rfl := Bool.eq_true_of_not_eq_false h1
    obtain rfl := Bool.eq_true_of_not_eq_false h2
    obtain ⟨hgone, hmr4, hbytes, hothers⟩ := bundleStored_effect s id src dst off plain ok3
    cases ok3 with
    | false => exact ⟨hgone, rfl, fun h' => absurd h' h, fun _ _ => ⟨hmr4, hbytes, hothers⟩⟩
    | true =>
      rw [bundleEnd_good]
      generalize bundleStored s id src dst off plain true = t at hgone hmr4 hbytes hothers
      have hself := getC_modC_self t id (measured (tensorRead (getC s id) 0 src off 128))
      refine ⟨hgone, rfl, fun h' => absurd h' h, fun _ _ => ⟨?_, fun q => ?_, fun j hj => ?_⟩⟩
      · rw [hself, measured_mr4, hmr4, if_pos rfl]
      · rw [hself, measured_vmem, hbytes q]
      · exact (getC_setC_ne _ _ _ _ hj).trans (hothers j hj)

end

section
variable {s : State} {id src dst off : Nat} {ok1 ok2 ok3 : Bool} {plain : List Byte} (hbundle : s.pkg.bundle = some (id, src, dst, off))
  (hlive : (getC s id).live = true)
include hbundle hlive

theorem exec_bundleDecryptDone_waits {a n : Nat} (hwaits : bundleWaits (getC s id) src dst off (ok1 && ok2) ok3 plain = some (a, n)) :
    exec (.bundleDecryptDone ok1 ok2 ok3 plain) s = .next (holdRange s id a n) := by
  show execBundleDecryptDone ok1 ok2 ok3 plain s = _
  simp only [execBundleDecryptDone, hbundle, hlive, hwaits, if_true]

theorem exec_bundleDecryptDone_ends {b : BusyCmd} (hwaits : bundleWaits (getC s id) src dst off (ok1 && ok2) ok3 plain = none)
    (hb : Runs (bundleEnd s id src dst off ok1 ok2 ok3 plain).1 isBundle b) : exec (.bundleDecryptDone ok1 ok2 ok3 plain) s =
      .next (ended (bundleEnd s id src dst off ok1 ok2 ok3 plain).1 b (bundleEnd s id src dst off ok1 ok2 ok3 plain).2 0) := by
  rw [← endLong_ended _ _ b _ 0 hb]
  show execBundleDecryptDone ok1 ok2 ok3 plain s = _
  simp only [execBundleDecryptDone, hbundle, hlive, hwaits, if_true]

end

/-! ### The end of a scrub (R365) -/

theorem scrubState_type : (entryOf 0x704000).map (·.type) = some .u8 := by decide +kernel

theorem scrubUs_type : (entryOf 0x704001).map (·.type) = some .u32 := by decide +kernel

theorem xlateBytes_type : (entryOf 0x501001).map (·.type) = some .u64 := by decide +kernel

/-- What every part of a machine that a scrub has gone through stands at. -/
structure Scrubbed (t : State) : Prop where
  sieves   : t.fab.sieves = []
  held     : t.fab.held = []
  rlc      : t.fab.rlc = []
  pantry   : t.pkg.pantry = []
  loanMem  : t.fab.loanMem = []
  resident : t.solv.resident = []
  spool    : t.ckpt.spool = []
  buddy    : t.ckpt.buddy = BuddySlot.empty
  streams  : t.eth.streams = []
  xlate    : rd t 0x501001 = 0

theorem Scrubbed.wr {t : State} (h : Scrubbed t) {k : Nat} (v : Nat) (hk : 0x501001 ≠ k) : Scrubbed (Machine.wr t k v) := by
  obtain ⟨h1, h2, h3, h4, h5, h6, h7, h8, h9, h10⟩ := h
  constructor <;> simp only [wr_fab, wr_pkg, wr_solv, wr_ckpt, wr_eth, h1, h2, h3, h4, h5, h6, h7, h8, h9, rd_wr_ne t v hk, h10]

/-- The parts that step 3 clears and step 4 leaves. -/
theorem scrubSram_clears (s : State) : (scrubSram s).fab.sieves = [] ∧ (scrubSram s).fab.held = [] ∧ (scrubSram s).fab.rlc = [] ∧
    (scrubSram s).pkg.pantry = [] ∧ (scrubSram s).solv.resident = [] := ⟨rfl, rfl, rfl, rfl, rfl⟩

theorem foldl_modC_rest (g : Context → Context) (ids : List Nat) (s : State) :
    (ids.foldl (fun s id => modC s id g) s).fab = s.fab ∧ (ids.foldl (fun s id => modC s id g) s).pkg = s.pkg ∧
    (ids.foldl (fun s id => modC s id g) s).ckpt = s.ckpt ∧ (ids.foldl (fun s id => modC s id g) s).solv = s.solv :=
  List.foldlRecOn (motive := fun t : State => t.fab = s.fab ∧ t.pkg = s.pkg ∧ t.ckpt = s.ckpt ∧ t.solv = s.solv) _ _ ⟨rfl, rfl, rfl, rfl⟩
    (fun _ ht _ _ => ht)

theorem scrubbed_scrubStacks {s : State} (hsieves : s.fab.sieves = []) (hheld : s.fab.held = []) (hrlc : s.fab.rlc = []) (hpantry : s.pkg.pantry = [])
    (hresident : s.solv.resident = []) : Scrubbed (scrubStacks s) ∧ (scrubStacks s).ckpt.reclaimCut = s.ckpt.reclaimCut := by
  unfold scrubStacks
  extract_lets cleared eth' fab' pkg' ckpt' emptied
  have hrest : cleared.fab = s.fab ∧ cleared.pkg = s.pkg ∧ cleared.ckpt = s.ckpt ∧ cleared.solv = s.solv := foldl_modC_rest scrubbedCtx (liveIds s) s
  clear_value cleared
  obtain ⟨hfab, hpkg, hckpt, hsolv⟩ := hrest
  have hxlate (t : State) : rd (setXcache t []) 0x501001 = 0 := rd_wr_fits _ xlateBytes_type (by decide)
  have hstart : Scrubbed (setXcache emptied []) ∧ (setXcache emptied []).ckpt.reclaimCut = s.ckpt.reclaimCut := by
    refine ⟨⟨?_, ?_, ?_, ?_, ?_, ?_, ?_, ?_, ?_, hxlate _⟩, ?_⟩
    all_goals simp only [setXcache, wr_fab, wr_pkg, wr_solv, wr_ckpt, wr_eth]
    · exact (congrArg FabState.sieves hfab).trans hsieves
    · exact (congrArg FabState.held hfab).trans hheld
    · exact (congrArg FabState.rlc hfab).trans hrlc
    · exact (congrArg PkgState.pantry hpkg).trans hpantry
    · exact congrArg FabState.loanMem (rfl : emptied.fab = _)
    · exact (congrArg SolvState.resident hsolv).trans hresident
    · rfl
    · rfl
    · rfl
    · exact (congrArg CkptState.reclaimCut hckpt :)
  exact List.foldlRecOn (motive := fun t : State => Scrubbed t ∧ t.ckpt.reclaimCut = s.ckpt.reclaimCut) _ _ hstart
    (fun t ht n _ => ⟨ht.1.wr 0 (by omega), by rw [wr_ckpt]; exact ht.2⟩)

/-- Step 3 leaves the reclaim as it stands. -/
theorem reclaimCut_scrubSram (s : State) : (scrubSram s).ckpt.reclaimCut = s.ckpt.reclaimCut := by
  have hdrop (t : State) (id : Nat) : (dropReplayOf t id).ckpt.reclaimCut = t.ckpt.reclaimCut := by
    unfold dropReplayOf
    split <;> rfl
  have hstopped (ids : List Nat) (t : State) :
      (ids.foldl (fun s id => dropReplayOf (dropFences (plantTeardown (abortProblems s id) id) id) id) t).ckpt.reclaimCut = t.ckpt.reclaimCut := by
    refine List.foldlRecOn (motive := fun u : State => u.ckpt.reclaimCut = t.ckpt.reclaimCut) _ _ rfl (fun u hu id _ => ?_)
    have haborted : PortsKept u (abortProblems u id) := portsKept_abortProblems (.refl u)
    have hplants : PortsKept u (plantTeardown (abortProblems u id) id) := portsKept_plantTeardown haborted
    rw [hdrop, dropFences, hplants.ckpt, hu]
  unfold scrubSram
  extract_lets stopped idle
  have hstop : stopped.ckpt.reclaimCut = s.ckpt.reclaimCut := hstopped _ s
  clear_value stopped
  obtain ⟨-, -, hckpt, -⟩ := foldl_modC_rest (fun c => { c with workers := [] }) (liveIds stopped) stopped
  exact (congrArg CkptState.reclaimCut hckpt).trans hstop

theorem scrubMemory_clears (s : State) : Scrubbed (scrubMemory s) ∧ (scrubMemory s).ckpt.reclaimCut = s.ckpt.reclaimCut := by
  unfold scrubMemory
  obtain ⟨hsieves, hheld, hrlc, hpantry, hresident⟩ := scrubSram_clears s
  have hkept := reclaimCut_scrubSram s
  generalize scrubSram s = t at *
  obtain ⟨hclear, hcut⟩ := scrubbed_scrubStacks hsieves hheld hrlc hpantry hresident
  exact ⟨hclear, hcut.trans hkept⟩

/-- The device once a scrub is over. -/
def scrubClosed (s : State) : State := { s with pkg := { s.pkg with scrubbing := false, frozen := none } }

/-- A scrub that no reclaim asked for leaves every part that it clears clear. -/
theorem scrubEnd_effect {s : State} {us : Nat} (hcut : s.ckpt.reclaimCut = false) (hus : us < 2 ^ 32) : (scrubEnd s us).pkg.scrubbing = false ∧
    rd (scrubEnd s us) 0x704000 = 5 ∧ rd (scrubEnd s us) 0x704001 = us ∧ Scrubbed (scrubEnd s us) := by
  obtain ⟨hclear, hkept⟩ := scrubMemory_clears s
  have hopen := hkept.trans hcut
  generalize hm : scrubMemory s = m at hclear hopen
  have hclosed : Scrubbed (scrubClosed m) :=
    ⟨hclear.sieves, hclear.held, hclear.rlc, hclear.pantry, hclear.loanMem, hclear.resident, hclear.spool, hclear.buddy, hclear.streams, hclear.xlate⟩
  have hend : scrubEnd s us = wr (wr (scrubClosed m) 0x704000 5) 0x704001 us := by
    have hcut' : (wr (wr (scrubClosed m) 0x704000 5) 0x704001 us).ckpt.reclaimCut = false := by
      rw [wr_ckpt, wr_ckpt]
      exact hopen
    rw [scrubEnd, hm]
    exact if_neg (Bool.eq_false_iff.mp hcut')
  rw [hend]
  refine ⟨?_, ?_, rd_wr_fits _ scrubUs_type hus, (hclosed.wr 5 (by decide)).wr us (by decide)⟩
  · rw [wr_pkg, wr_pkg]
    rfl
  · rw [rd_wr_ne _ _ (by decide), rd_wr_fits _ scrubState_type (by decide)]

theorem exec_scrubComplete {s : State} (us : BitVec 32) (hscrub : s.pkg.scrubbing = true) :
    exec (.scrubComplete us) s = .next (endLong (scrubEnd s us.toNat) isScrub (0, 0, [])) := congrArg Host.Outcome.next (if_pos hscrub)

/-- Settles O55: a switch, a bundle and a scrub, each by the state it leaves and by the command that ends. -/
theorem contextChangesEnd : Obligations.ContextChangesEnd := by
  intro s id b hid
  refine ⟨fun hswitch hlive => ?_, fun src dst off ok1 ok2 ok3 plain hbundle hlive => ?_, fun us hscrub => ⟨fun hcut => ?_, fun hnone => ?_, fun hb => ?_⟩⟩
  · obtain ⟨hdone, hrun, hstate, -⟩ := applySwitch_effect s hid
    exact ⟨hdone, hrun, hstate, fun j hj => getC_applySwitch_ne s hj, contextSwitchDone_ends hswitch hlive⟩
  · obtain ⟨hdone, hstatus, hkept, hstored⟩ := bundleEnd_effect s id src dst off plain ok1 ok2 ok3
    exact ⟨hdone, hstatus, hkept, hstored, fun a n => exec_bundleDecryptDone_waits hbundle hlive, exec_bundleDecryptDone_ends hbundle hlive⟩
  · obtain ⟨hdone, hstate, hus, hclear⟩ := scrubEnd_effect (us := us.toNat) hcut us.isLt
    exact ⟨hdone, hstate, hus, hclear.sieves, hclear.held, hclear.rlc, hclear.pantry, hclear.loanMem, hclear.resident, hclear.spool, hclear.buddy,
      hclear.streams, hclear.xlate⟩
  · rw [exec_scrubComplete us hscrub, endLong_none _ hnone]
  · rw [exec_scrubComplete us hscrub, endLong_ended _ _ b 0 0 hb]

end Sys2Proof.ContextProofs
end

section
/-! PROOFS. Writes of the security entries: quotes, keys, presence, and the destruction of keys (R345, R346, R348 to R353, R390). -/

namespace Sys2Proof.SecurityProofs

open Sys2Proof Sys2Proof.Machine Sys2Proof.Laws Sys2Proof.PackageProofs Sys2Proof.CollProofs Sys2Proof.WriteProofs Sys2Proof.SignalProofs
  Sys2Proof.LadleProofs

theorem ownerKey_type : (entryOf 0x701000).map (·.type) = some (.octets 516) := by decide +kernel

theorem fmKey_type : (entryOf 0x701100).map (·.type) = some (.octets 516) := by decide +kernel

theorem deviceState_type : (entryOf 0x100300).map (·.type) = some .u8 := by decide +kernel

/-! ### Modules that stop, keys that are destroyed -/

/-- A module that stops stays in its context. -/
theorem live_stopModules (s : State) (code id : Nat) : (getC (stopModules s code) id).live = (getC s id).live := by
  refine List.foldlRecOn (motive := fun t : State => (getC t id).live = (getC s id).live) _ _ rfl (fun t ht j _ => ?_)
  have hstreams (i : Nat) : getC (haltStreams t j code none) i = getC t i := getC_congr (WorkerProofs.haltStreams_ctxs ..) i
  split
  · by_cases hj : id = j
    · subst hj
      rw [getC_modC_self, hstreams]
      exact ht
    · rw [modC, getC_setC_ne _ _ _ _ hj, hstreams, ht]
  · exact ht

/-- No context keeps a key. -/
def allKeyless (s : State) : State := (liveIds s).foldl (fun s id => modC s id keyless) s

theorem allKeyless_rest (s : State) : (allKeyless s).ent = s.ent ∧ (allKeyless s).wen = s.wen ∧ (allKeyless s).pkg = s.pkg :=
  List.foldlRecOn (motive := fun t : State => t.ent = s.ent ∧ t.wen = s.wen ∧ t.pkg = s.pkg) _ _ ⟨rfl, rfl, rfl⟩ (fun _ ht _ _ => ht)

theorem getC_allKeyless {s : State} {id : Nat} (hlive : (getC s id).live = true) :
    (getC (allKeyless s) id).memKey = none ∧ (getC (allKeyless s) id).sessKey = none :=
  foldl_modC_reaches (P := fun c => c.memKey = none ∧ c.sessKey = none) (g := keyless) (fun _ => ⟨rfl, rfl⟩) _ _ (.inl (mem_liveIds hlive))

theorem live_allKeyless (s : State) (id : Nat) : (getC (allKeyless s) id).live = (getC s id).live := by
  refine List.foldlRecOn (motive := fun t : State => (getC t id).live = (getC s id).live) _ _ rfl (fun t ht j _ => ?_)
  by_cases hj : id = j
  · subst hj
    rw [getC_modC_self]
    exact ht
  · rw [modC, getC_setC_ne _ _ _ _ hj, ht]

/-- What Wened holds once its keys are destroyed. -/
def wenKeyless (w : WenState) : WenState := { w with mgmtKey := none, mgmtGenKey := [], ckptKey := 0, brown := [] }

/-- The keys outside the dictionary are gone. -/
def keysGone (s : State) : State :=
  { allKeyless s with wen := wenKeyless (allKeyless s).wen,
                      pkg := { (allKeyless s).pkg with loanKey := none, sysKeys := none, bundle := none } }

theorem destroyKeys_eq (s : State) : destroyKeys s = wr (wr (wr (keysGone s) 0x701000 0) 0x701100 0) 0x800102 0 := rfl

/-- What the destruction of keys leaves. -/
theorem destroyKeys_effect (s : State) : (∀ k, k ≠ 0x701000 → k ≠ 0x701100 → k ≠ 0x800102 → rd (destroyKeys s) k = rd s k) ∧
    rd (destroyKeys s) 0x701000 = 0 ∧ rd (destroyKeys s) 0x701100 = 0 ∧ (destroyKeys s).wen = wenKeyless s.wen ∧
    (∀ id, (getC s id).live = true → (getC (destroyKeys s) id).memKey = none ∧ (getC (destroyKeys s) id).sessKey = none) ∧
    ∀ id, (getC (destroyKeys s) id).live = (getC s id).live := by
  obtain ⟨hent, hwen, -⟩ := allKeyless_rest s
  have hctxs : (destroyKeys s).ctxs = (allKeyless s).ctxs := by
    rw [destroyKeys_eq, wr_ctxs, wr_ctxs, wr_ctxs]
    rfl
  have hgone : (keysGone s).ent = s.ent := hent
  refine ⟨fun k h0 h1 h2 => ?_, ?_, ?_, ?_, fun id hlive => ?_, fun id => ?_⟩
  · rw [destroyKeys_eq, rd_wr_ne _ _ h2, rd_wr_ne _ _ h1, rd_wr_ne _ _ h0, rd_of_ent hgone]
  · rw [destroyKeys_eq, rd_wr_ne _ _ (by decide), rd_wr_ne _ _ (by decide), rd_wr_fits _ ownerKey_type (Nat.two_pow_pos _)]
  · rw [destroyKeys_eq, rd_wr_ne _ _ (by decide), rd_wr_fits _ fmKey_type (Nat.two_pow_pos _)]
  · rw [destroyKeys_eq, wr_wen, wr_wen, wr_wen, keysGone, hwen]
  · rw [getC_congr hctxs]
    exact getC_allKeyless hlive
  · rw [getC_congr hctxs, live_allKeyless]

/-! ### ZEROISE and DECOMMISSION (R353, R390) -/

/-- Marked for its scrub: no record is being written. -/
def zeroMarked (s : State) (decom : Bool) : State :=
  { s with wen := { s.wen with marker := some (decom || s.wen.marker.getD false), saving := none, scrubDue := true } }

/-- The modules stop, and the compute dies lose their power. -/
def computeOff (s : State) : State := setPower (stopModules s 0x0106) ((stopModules s 0x0106).wen.powerEn.filter (fun d => decide (8 ≤ d)))

/-- The compute dies are off, or FAILED. -/
def computeDown (s : State) : State := (List.range 8).foldl (fun s d => if dieState s d = 5 then s else setDie s d 0) s

theorem zeroiseNow_eq (s : State) (decom : Bool) : zeroiseNow s decom =
    if decom then destroyIdentity (destroyKeys (computeDown (computeOff (zeroMarked s decom))))
    else destroyKeys (computeDown (computeOff (zeroMarked s decom))) := rfl

theorem computeDown_rest (s : State) : (computeDown s).wen = s.wen ∧ (computeDown s).ctxs = s.ctxs := by
  refine List.foldlRecOn (motive := fun t : State => t.wen = s.wen ∧ t.ctxs = s.ctxs) _ _ ⟨rfl, rfl⟩ (fun t ht d _ => ?_)
  split
  · exact ht
  · exact ⟨(wr_wen ..).trans ht.1, (wr_ctxs ..).trans ht.2⟩

theorem dieState_setDie_zero (s : State) {d : Nat} (hd : d < 40) : dieState (setDie s d 0) d = 0 :=
  rd_wr_fits s (dieState_type ⟨d, hd⟩) (by decide)

/-- A die that has gone down stays down as others do. -/
theorem dieState_computeDown (s : State) {d : Nat} (hd : d < 8) : dieState (computeDown s) d = 0 ∨ dieState (computeDown s) d = 5 := by
  have hfold (l : List Nat) (hl : ∀ x ∈ l, x < 8) (t : State) (ht : d ∈ l ∨ dieState t d = 0 ∨ dieState t d = 5) :
      dieState (l.foldl (fun s d => if dieState s d = 5 then s else setDie s d 0) t) d = 0 ∨
      dieState (l.foldl (fun s d => if dieState s d = 5 then s else setDie s d 0) t) d = 5 := by
    induction l generalizing t with
    | nil => exact ht.resolve_left List.not_mem_nil
    | cons x l ih =>
      refine ih (fun y hy => hl y (List.mem_cons_of_mem x hy)) _ ?_
      by_cases hx : d = x
      · subst hx
        right
        dsimp only
        split
        · next h5 => exact .inr h5
        · exact .inl (dieState_setDie_zero t (by omega))
      · refine ht.imp (fun hm => (List.mem_cons.mp hm).resolve_left hx) (fun hdown => ?_)
        dsimp only
        split
        · exact hdown
        · have hkept : dieState (setDie t x 0) d = dieState t d := rd_wr_ne t 0 (by omega)
          rwa [hkept]
  exact hfold (List.range 8) (fun x hx => List.mem_range.mp hx) s (.inl (List.mem_range.mpr hd))

/-- What Wened holds of a device that is zeroised. -/
theorem zeroised_wen (s : State) (decom : Bool) : ∃ power, (destroyKeys (computeDown (computeOff (zeroMarked s decom)))).wen =
    wenKeyless { (zeroMarked s decom).wen with powerEn := power } := by
  obtain ⟨-, -, -, hwen, -, -⟩ := destroyKeys_effect (computeDown (computeOff (zeroMarked s decom)))
  obtain ⟨hdown, -⟩ := computeDown_rest (computeOff (zeroMarked s decom))
  have hstop := signalled_stopModules (code := 0x0106) (.refl (zeroMarked s decom))
  rw [hwen, hdown, computeOff, setPower, hstop.wen]
  exact ⟨_, rfl⟩

/-- What is gone of a device that is zeroised. -/
theorem zeroised_effect (s : State) (decom : Bool) : let t := destroyKeys (computeDown (computeOff (zeroMarked s decom)))
    rd t 0x701000 = 0 ∧ (∀ id, (getC s id).live = true → (getC t id).sessKey = none ∧ (getC t id).memKey = none) ∧
    ∀ d, d < 8 → dieState t d = 0 ∨ dieState t d = 5 := by
  obtain ⟨hrd, howner, -, -, hkeys, -⟩ := destroyKeys_effect (computeDown (computeOff (zeroMarked s decom)))
  obtain ⟨-, hctxs⟩ := computeDown_rest (computeOff (zeroMarked s decom))
  refine ⟨howner, fun id hlive => ?_, fun d hd => ?_⟩
  · have hstill : (getC (computeDown (computeOff (zeroMarked s decom))) id).live = true := by
      rw [getC_congr hctxs]
      exact (live_stopModules (zeroMarked s decom) 0x0106 id).trans hlive
    obtain ⟨hmem, hsess⟩ := hkeys id hstill
    exact ⟨hsess, hmem⟩
  · have hkept : dieState (destroyKeys (computeDown (computeOff (zeroMarked s decom)))) d = dieState (computeDown (computeOff (zeroMarked s decom))) d :=
      hrd _ (by omega) (by omega) (by omega)
    rw [hkept]
    exact dieState_computeDown _ hd

/-! ### DEBUG_UNLOCK -/

/-- The modules stop and the keys are destroyed. -/
def unlockReady (s : State) : State := destroyKeys (stopModules s 0x0106)

/-- The debug ports are open. -/
def debugOpen (s : State) : State := { s with wen := { s.wen with debug := true } }

/-- The scrub that an unlock starts, with the debug ports open. -/
def unlocked (s : State) : State := debugOpen (scrubStart (unlockReady s))

theorem debugWrite_ok (s : State) : debugWrite s 1 = .ok (bumpSnap (unlocked s) 0x702100) := by
  unfold debugWrite unlocked unlockReady debugOpen
  rw [if_pos rfl]

theorem scrubStart_wen (s : State) : (scrubStart s).wen = { s.wen with ckptKey := 0 } := by
  have hkeyless : (scrubKeyless s).wen = s.wen :=
    List.foldlRecOn (motive := fun t : State => t.wen = s.wen) _ _ (by rw [scrubFrozen, wr_wen]) (fun _ ht _ _ => ht)
  rw [scrubStart_eq, wr_wen, hkeyless]

theorem unlocked_effect (s : State) : (unlocked s).wen.debug = true ∧ (unlocked s).pkg.scrubbing = true ∧ (unlocked s).wen.mgmtKey = none ∧
    rd (unlocked s) 0x701000 = 0 ∧ rd (unlocked s) 0x701100 = 0 ∧ (unlocked s).wen.brown = [] ∧
    ∀ id, (getC s id).live = true → (getC (unlocked s) id).sessKey = none ∧ (getC (unlocked s) id).memKey = none := by
  obtain ⟨-, howner, hfm, hwen, -, hlive⟩ := destroyKeys_effect (stopModules s 0x0106)
  have hready : ∀ id, (getC s id).live = true → (getC (unlockReady s) id).live = true :=
    fun id hl => (hlive id).trans ((live_stopModules s 0x0106 id).trans hl)
  rw [← unlockReady] at howner hfm hwen
  rw [unlocked]
  generalize unlockReady s = u at howner hfm hwen hready
  obtain ⟨hrd, -, -, hscrub, -⟩ := scrubStart_effect u
  obtain ⟨-, -, -, -, hkeys⟩ := ContextProofs.scrubStart_keys u
  have howner' := (hrd 0x701000 (by decide) (by decide)).trans howner
  have hfm' := (hrd 0x701100 (by decide) (by decide)).trans hfm
  have hwen' := scrubStart_wen u
  generalize scrubStart u = t at hscrub hkeys howner' hfm' hwen'
  rw [hwen] at hwen'
  refine ⟨rfl, hscrub, ?_, (rd_of_ent rfl _).trans howner', (rd_of_ent rfl _).trans hfm', ?_, fun id hl => ?_⟩
  · exact congrArg WenState.mgmtKey hwen'
  · exact congrArg WenState.brown hwen'
  · obtain ⟨hmem, hsess⟩ := hkeys id (mem_liveIds (hready id hl))
    exact ⟨hsess, hmem⟩

/-! ### The entries -/

theorem zeroiseWrite_other (s : State) {v : Nat} (h : v ≠ 0x5A) : zeroiseWrite s v = .error 1 := if_neg h

theorem decommissionWrite_other (s : State) {v : Nat} (h : v ≠ 0xA5) : decommissionWrite s v = .error 1 := if_neg h

/-- A quote is asked for. -/
def quoteAsked (s : State) (who : Option Nat) (nonce : Nat) : State :=
  bumpSnap { s with wen := { s.wen with quotePending := s.wen.quotePending ++ [(who, nonce)] } } 0x700400

/-- The management key is held, and the entry's counter moves. -/
def withMgmtKey (s : State) (v k : Nat) : State := bumpSnap { s with wen := { s.wen with mgmtKey := some v } } k

theorem mgmtNextWrite_ok {s : State} (v : Nat) (h : rd s 0x701100 ≠ 0) : mgmtNextWrite s (some v) = .ok (withMgmtKey s v 0x701201) := if_neg h

/-- The rollback override names a type. -/
def withOverride (s : State) (v : Nat) : State := bumpSnap { s with wen := { s.wen with rbOverride := some v } } 0x700210

theorem tamperClearWrite_closed {s : State} (h : s.wen.sealOk = true) :
    tamperClearWrite s 1 = .ok (bumpSnap (wr s 0x702001 0) 0x702002) := by
  rw [tamperClearWrite, if_neg (by decide), h]
  rfl

theorem tamperClearWrite_broken {s : State} (h : s.wen.sealOk = false) : tamperClearWrite s 1 = .error 0x0708 := by
  rw [tamperClearWrite, if_neg (by decide), h]
  rfl

theorem rollbackWrite_ok {s : State} {v : Nat} (h : v < 8) :
    rollbackWrite s v = .ok (withOverride s v) := if_neg (by omega)

/-- ZEROISE. -/
theorem zeroise_effect (s : State) (r : Req) : ∃ t, t.wen.marker.isSome = true ∧ t.wen.scrubDue = true ∧ t.wen.idKeys = s.wen.idKeys ∧
    t.wen.mgmtKey = none ∧ rd t 0x701000 = 0 ∧ t.wen.brown = [] ∧
    (∀ id, (getC s id).live = true → (getC t id).sessKey = none ∧ (getC t id).memKey = none) ∧ (∀ d, d < 8 → dieState t d = 0 ∨ dieState t d = 5) ∧
    Takes (.zeroise r 0x5A) s r 0x702200 (natLe 1 0x5A) t := by
  obtain ⟨power, hwen⟩ := zeroised_wen s false
  obtain ⟨howner, hkeys, hdies⟩ := zeroised_effect s false
  generalize ht : destroyKeys (computeDown (computeOff (zeroMarked s false))) = t at hwen howner hkeys hdies
  have hwrite : zeroiseWrite s 0x5A = .ok (bumpSnap t 0x702200) := by
    rw [zeroiseWrite, if_pos rfl, zeroiseNow_eq, if_neg (by decide), ht]
  refine ⟨bumpSnap t 0x702200, ?_, ?_, ?_, ?_, howner, ?_, hkeys, hdies, takes_row rfl hwrite⟩ <;> rw [bumpSnap_wen, hwen] <;> rfl

/-- DECOMMISSION. -/
theorem decommission_effect (s : State) (r : Req) : ∃ t, t.wen.marker = some true ∧ t.wen.idKeys = false ∧ rd t 0x100300 = 6 ∧
    t.wen.mgmtKey = none ∧ rd t 0x701000 = 0 ∧ (∀ id, (getC s id).live = true → (getC t id).sessKey = none ∧ (getC t id).memKey = none) ∧
    Takes (.decommission r 0xA5) s r 0x702201 (natLe 1 0xA5) t := by
  obtain ⟨power, hwen⟩ := zeroised_wen s true
  obtain ⟨howner, hkeys, -⟩ := zeroised_effect s true
  generalize ht : destroyKeys (computeDown (computeOff (zeroMarked s true))) = t at hwen howner hkeys
  have hwrite : decommissionWrite s 0xA5 = .ok (bumpSnap (destroyIdentity t) 0x702201) := by
    rw [decommissionWrite, if_pos rfl, zeroiseNow_eq, if_pos rfl, ht]
  have hwen' : (destroyIdentity t).wen = { t.wen with idKeys := false } := wr_wen ..
  have hctxs : (destroyIdentity t).ctxs = t.ctxs := wr_ctxs ..
  refine ⟨bumpSnap (destroyIdentity t) 0x702201, ?_, ?_, ?_, ?_, ?_, fun id hlive => ?_, takes_row rfl hwrite⟩
  · rw [bumpSnap_wen, hwen', hwen]
    rfl
  · rw [bumpSnap_wen, hwen']
  · exact rd_wr_fits _ deviceState_type (by decide)
  · rw [bumpSnap_wen, hwen', hwen]
    rfl
  · exact (rd_wr_ne _ _ (by decide)).trans howner
  · have hself : getC (bumpSnap (destroyIdentity t) 0x702201) id = getC t id := getC_congr hctxs id
    rw [hself]
    exact hkeys id hlive

theorem debugUnlock_takes (s : State) (r : Req) : Takes (.debugUnlock r 1) s r 0x702100 (natLe 1 1) (bumpSnap (unlocked s) 0x702100) :=
  takes_row (eff := fun s => debugWrite s (1 : BitVec 8).toNat) rfl ((congrArg (debugWrite s) (by decide)).trans (debugWrite_ok s))

/-- Settles O44: each entry by what its write leaves, or by the code that refuses it. -/
theorem securityWritesTakeEffect : Obligations.SecurityWritesTakeEffect := by
  intro s r
  refine ⟨fun nonce => ⟨quoteAsked s (pathCtx r.path) nonce.toNat, rfl, rfl, takes_row rfl rfl⟩, fun key => ⟨takes_row rfl rfl, takes_row rfl rfl⟩,
    ⟨fun key => ⟨withMgmtKey (drawBytes s 512).2 key 0x701200, rfl, rfl, fun hadm => congrArg Host.Outcome.next (rowWrite_ok _ _ r _ _ _ hadm rfl)⟩,
      fun hadm => congrArg Host.Outcome.next (rowWrite_error _ r _ 0x0705 _ _ hadm (by decide) rfl)⟩,
    ⟨fun key hfm => ⟨withMgmtKey (drawBytes s 1024).2 key 0x701201, rfl, rfl, fun hadm => congrArg Host.Outcome.next (rowWrite_ok _ _ r _ _ _ hadm (mgmtNextWrite_ok (s := (drawBytes s 1024).2) key hfm))⟩,
      fun hadm => congrArg Host.Outcome.next (rowWrite_error _ r _ 0x0705 _ _ hadm (by decide) rfl)⟩,
    ⟨fun hseal => takes_row rfl (tamperClearWrite_closed hseal), fun hseal => refuses_row rfl (by decide) (tamperClearWrite_broken hseal)⟩,
    ?_, zeroise_effect s r, fun v hv => refuses_row rfl (by decide) (zeroiseWrite_other s (fun h => hv (BitVec.eq_of_toNat_eq h))),
    decommission_effect s r, fun v hv => refuses_row rfl (by decide) (decommissionWrite_other s (fun h => hv (BitVec.eq_of_toNat_eq h))),
    fun v hv => ⟨withOverride s v.toNat, rfl, rfl, takes_row rfl (rollbackWrite_ok hv)⟩⟩
  obtain ⟨hdebug, hscrub, hmgmt, howner, hfm, hbrown, hkeys⟩ := unlocked_effect s
  have htakes := debugUnlock_takes s r
  generalize unlocked s = t at *
  exact ⟨bumpSnap t 0x702100, hdebug, hscrub, hmgmt, howner, hfm, hbrown, hkeys, htakes⟩

end Sys2Proof.SecurityProofs
end

section
/-! PROOFS. What a loss of the dies, their hold in reset and the start of a reset leave (R388, R389, R429, R430). -/

namespace Sys2Proof.ResetProofs

open Sys2Proof Sys2Proof.Machine Sys2Proof.Laws Sys2Proof.PackageProofs Sys2Proof.WriteProofs Sys2Proof.SignalProofs

theorem bringupStage_type : (entryOf 0x200600).map (·.type) = some .u8 := by decide +kernel

theorem resetCause_type : (entryOf 0x100301).map (·.type) = some .u8 := by decide +kernel

theorem rd_bringupStage (s : State) {v : Nat} (h : v < 256) : rd (wr s 0x200600 v) 0x200600 = v := rd_wr_fits s bringupStage_type h

theorem rd_resetCause (s : State) {v : Nat} (h : v < 256) : rd (wr s 0x100301 v) 0x100301 = v := rd_wr_fits s resetCause_type h

theorem deviceState_wr (s : State) {v : Nat} (h : v < 256) : deviceState (wr s 0x100300 v) = v := rd_wr_fits s SecurityProofs.deviceState_type h

/-! ### Writes of entries alone -/

/-- `t` comes from `s` by writes of entries. -/
def EntriesOnly (s t : State) : Prop := ∃ e n, t = { s with ent := e, snap := n }

namespace EntriesOnly

variable {s t u : State}

theorem refl (s : State) : EntriesOnly s s := ⟨s.ent, s.snap, rfl⟩

theorem wr (h : EntriesOnly s t) (k v : Nat) : EntriesOnly s (wr t k v) := by
  obtain ⟨e, n, rfl⟩ := h
  unfold Machine.wr
  split
  · exact ⟨e, n, rfl⟩
  · exact ⟨_, _, rfl⟩

theorem ite {p : Prop} [Decidable p] (h : EntriesOnly s t) (g : EntriesOnly s u) : EntriesOnly s (if p then t else u) := by
  split <;> assumption

theorem foldl {α : Type} {f : State → α → State} (hf : ∀ u a, EntriesOnly s u → EntriesOnly s (f u a)) (l : List α)
    (h : EntriesOnly s t) : EntriesOnly s (l.foldl f t) :=
  List.foldlRecOn (motive := EntriesOnly s) l f h (fun u hu a _ => hf u a hu)

theorem ctxs (h : EntriesOnly s t) : t.ctxs = s.ctxs := by
  obtain ⟨e, n, rfl⟩ := h
  rfl

theorem pkg (h : EntriesOnly s t) : t.pkg = s.pkg := by
  obtain ⟨e, n, rfl⟩ := h
  rfl

theorem wen (h : EntriesOnly s t) : t.wen = s.wen := by
  obtain ⟨e, n, rfl⟩ := h
  rfl

end EntriesOnly

theorem entriesOnly_resetEntries (s : State) (warm : Bool) : EntriesOnly s (resetEntries s warm) :=
  .foldl (fun _ _ hu => .ite hu (hu.wr _ _)) _ (.refl s)

theorem entriesOnly_setDies (s : State) (v : Nat) : EntriesOnly s (setDies s v) :=
  .foldl (fun _ _ hu => .ite hu (hu.wr _ _)) _ (.refl s)

theorem entriesOnly_senseRing (s : State) : EntriesOnly s (senseRing s) := (EntriesOnly.refl s).wr _ _

theorem entriesOnly_keepCutOff (s : State) : EntriesOnly s (keepCutOff s) :=
  .foldl (fun _ _ hu => hu.wr _ _) _ (entriesOnly_senseRing s)

theorem entriesOnly_sampleStrap (s : State) : EntriesOnly s (sampleStrap s) := ((EntriesOnly.refl s).wr _ _).wr _ _

/-! ### Dies that are held -/

/-- What Wened holds once every die but MD is held. -/
def wenHeld (w : WenState) : WenState := { w with resetHeld := List.range 39 }

theorem holdDies_rest (s : State) : (holdDies s).ctxs = s.ctxs ∧ (holdDies s).pkg = s.pkg ∧ (holdDies s).wen = wenHeld s.wen := by
  obtain ⟨e, n, h⟩ := entriesOnly_setDies s 1
  rw [holdDies, holdLines, h]
  exact ⟨rfl, rfl, rfl⟩

/-! ### Dies that lose what they hold -/

/-- The entries that go with what the dies lose. -/
def diesCleared (s : State) : State :=
  (List.range 4).foldl (fun s h => if halfState s h = 2 then s else wr s (0x601201 + h) 0)
    ((List.range 32).foldl (fun s p => if portState s p = 0 then s else setPort s p 1)
      (wr ((List.range 256).foldl (fun s n => wr s (0xC01E00 + n) 0) (wr (wr s 0x703000 0) 0x703001 0xFFFF)) 0x102001 0))

theorem entriesOnly_diesCleared (s : State) : EntriesOnly s (diesCleared s) := by
  have hidle : EntriesOnly s (wr (wr s 0x703000 0) 0x703001 0xFFFF) := ((EntriesOnly.refl s).wr _ _).wr _ _
  have hstreams := (EntriesOnly.foldl (f := fun s n => wr s (0xC01E00 + n) 0) (fun _ _ hu => hu.wr _ _) (List.range 256) hidle).wr 0x102001 0
  exact .foldl (fun _ _ hu => .ite hu (hu.wr _ _)) _ (.foldl (fun _ _ hu => .ite hu (hu.wr _ _)) _ hstreams)

/-- What Wened keeps when the dies lose what they hold. -/
def wenLost (w : WenState) : WenState := { w with quotePending := [], seg := none, staged := none, ckptKey := 0 }

theorem loseDies_effect (s : State) (warm : Bool) : (loseDies s warm).ctxs = [] ∧ (loseDies s warm).plants = [] ∧
    (loseDies s warm).wen = wenLost s.wen ∧ (loseDies s warm).pkg.waitCool = s.pkg.waitCool ∧
    (loseDies s warm).pkg.pllLost = s.pkg.pllLost := by
  obtain ⟨e, n, h⟩ := entriesOnly_diesCleared s
  have hpkg := (entriesOnly_diesCleared s).pkg
  have hwen := (entriesOnly_diesCleared s).wen
  refine ⟨rfl, rfl, congrArg wenLost hwen, ?_, ?_⟩
  · unfold loseDies
    dsimp only
    exact congrArg PkgState.waitCool hpkg
  · unfold loseDies
    dsimp only
    exact congrArg PkgState.pllLost hpkg

/-! ### By-passes that close -/

theorem ctxs_foldl {α : Type} {f : State → α → State} (hf : ∀ u a, (f u a).ctxs = u.ctxs) (l : List α) (s : State) :
    (l.foldl f s).ctxs = s.ctxs :=
  List.foldlRecOn (motive := fun t : State => t.ctxs = s.ctxs) l f rfl (fun t ht a _ => (hf t a).trans ht)

theorem plants_foldl {α : Type} {f : State → α → State} (hf : ∀ u a, (f u a).plants = u.plants) (l : List α) (s : State) :
    (l.foldl f s).plants = s.plants :=
  List.foldlRecOn (motive := fun t : State => t.plants = s.plants) l f rfl (fun t ht a _ => (hf t a).trans ht)

theorem ctxs_portDown (s : State) (p : Nat) : (portDown s p).ctxs = s.ctxs := by
  have hreroute (t : State) : (reroute t p (fun _ => false)).ctxs = t.ctxs :=
    ctxs_foldl (fun u f => by split <;> simp) _ _
  unfold portDown linkEvent clearSamples setPort raiseFree
  dsimp only
  split
  · rfl
  · rw [hreroute, raiseEvent_ctxs]
    exact (wr_ctxs ..).trans (wr_ctxs ..)

theorem ctxs_moveSwitch (s : State) (lane closed : Nat) : (moveSwitch s lane closed).ctxs = s.ctxs := by
  unfold moveSwitch
  split
  · rfl
  · exact (ctxs_portDown ..).trans (ctxs_portDown ..)

theorem ctxs_bypassClose (s : State) : (bypassClose s).ctxs = s.ctxs := (ctxs_moveSwitch ..).trans (ctxs_moveSwitch ..)

/-! ### Guaranteed operations -/

/-- The dies are held, what they hold is lost, and the by-passes close. -/
def diesDown (s : State) (warm : Bool) : State := bypassClose (loseDies (holdDies s) warm)

theorem diesDown_effect (s : State) (warm : Bool) : (diesDown s warm).ctxs = [] ∧ (diesDown s warm).plants = [] ∧
    (diesDown s warm).wen = wenLost (wenHeld s.wen) ∧ (diesDown s warm).pkg.waitCool = s.pkg.waitCool ∧
    (diesDown s warm).pkg.pllLost = s.pkg.pllLost := by
  obtain ⟨-, hpkg, hwen⟩ := holdDies_rest s
  obtain ⟨hctxs, hplants, hlost, hcool, hpll⟩ := loseDies_effect (holdDies s) warm
  have hclose := signalled_bypassClose (.refl (loseDies (holdDies s) warm))
  rw [diesDown]
  refine ⟨(ctxs_bypassClose _).trans hctxs, hclose.plants.trans hplants, ?_, ?_, ?_⟩
  · rw [hclose.wen, hlost, hwen]
  · rw [hclose.pkgPart (fun p => p.waitCool) (fun _ => rfl), hcool, hpkg]
  · rw [hclose.pkgPart (fun p => p.pllLost) (fun _ => rfl), hpll, hpkg]

/-- Whether an operation ends in a warm reset. -/
def opWarm : GuarOp → Bool
  | .warmReset _ => true
  | _ => false

/-- The record that an operation captures, unless it skips it. -/
def opRecord (s : State) (op : GuarOp) : Option Brownout :=
  if s.wen.marker.isSome || (decide (op = .save) && decide (rd s 0x200600 ≤ 2)) then none else some (captureBrown s (opCause op))

theorem startOp_eq (s : State) (op : GuarOp) (rest : List GuarOp) : startOp s op rest =
    { diesDown s (opWarm op) with
      wen := { (diesDown s (opWarm op)).wen with guar := op :: rest, saving := opRecord s op } } := by
  cases op <;> rfl

theorem startOp_effect (s : State) (op : GuarOp) (rest : List GuarOp) : (startOp s op rest).ctxs = [] ∧ (startOp s op rest).plants = [] ∧
    (startOp s op rest).wen.guar = op :: rest ∧ (startOp s op rest).wen.saving = opRecord s op ∧
    (startOp s op rest).pkg.waitCool = s.pkg.waitCool := by
  obtain ⟨hctxs, hplants, -, hcool, -⟩ := diesDown_effect s (opWarm op)
  rw [startOp_eq]
  exact ⟨hctxs, hplants, rfl, rfl, hcool⟩

section

variable {s : State} (hguar : s.wen.guar = []) (hpow : s.wen.powered = true) (hsag : s.wen.heldSag = false)
include hguar hpow hsag

theorem requestOp_save : requestOp s .save = startOp s .save [] := by
  simp only [requestOp, hguar, hpow, hsag, Bool.not_true, Bool.or_false, Bool.false_eq_true, if_false]

theorem requestOp_cold (c : Nat) : requestOp s (.coldReset c) = startOp s (.coldReset c) [] := by
  simp only [requestOp, hguar, hpow, hsag, Bool.not_true, Bool.or_false, Bool.false_eq_true, if_false]

theorem requestOp_warm (c : Nat) (hdev : deviceState s ∉ [4, 5]) : requestOp s (.warmReset c) = startOp s (.warmReset c) [] := by
  have hserves : ¬(deviceState s = 4 ∨ deviceState s = 5) := by simpa using hdev
  simp only [requestOp, hguar, hpow, hsag, hserves, Bool.not_true, Bool.or_false, Bool.false_eq_true, if_false]

theorem requestOp_powerDown (hdev : deviceState s ≠ 4) : requestOp s .powerDown = startOp s .powerDown [] := by
  simp only [requestOp, hguar, hpow, hsag, hdev, Bool.not_true, Bool.or_false, Bool.false_eq_true, if_false]

theorem requestOp_rst : requestOp s .rst = beginCold s 2 1 := by
  simp only [requestOp, hguar, hpow, hsag, Bool.not_true, Bool.or_false, Bool.false_eq_true, if_false]

end

/-! ### Resets that begin -/

/-- What a reset keeps as it goes through its steps once the dies have lost what they held. -/
structure ResetKept (s t : State) : Prop where
  ctxs    : s.ctxs = [] → t.ctxs = []
  cool    : t.pkg.waitCool = s.pkg.waitCool
  guar    : t.wen.guar = s.wen.guar
  saving  : t.wen.saving = s.wen.saving
  powered : t.wen.powered = s.wen.powered
  rstLow  : t.wen.rstLow = s.wen.rstLow

theorem ResetKept.refl (s : State) : ResetKept s s := ⟨id, rfl, rfl, rfl, rfl, rfl⟩

theorem ResetKept.trans {s t u : State} (h : ResetKept s t) (g : ResetKept t u) : ResetKept s u :=
  ⟨fun hs => g.ctxs (h.ctxs hs), g.cool.trans h.cool, g.guar.trans h.guar, g.saving.trans h.saving, g.powered.trans h.powered,
    g.rstLow.trans h.rstLow⟩

theorem EntriesOnly.resetKept {s t : State} (h : EntriesOnly s t) : ResetKept s t := by
  obtain ⟨e, n, rfl⟩ := h
  exact ⟨id, rfl, rfl, rfl, rfl, rfl⟩

theorem resetKept_holdLines (s : State) : ResetKept s (holdLines s) := ⟨id, rfl, rfl, rfl, rfl, rfl⟩

theorem resetKept_setPower (s : State) (ds : List Nat) : ResetKept s (setPower s ds) := ⟨id, rfl, rfl, rfl, rfl, rfl⟩

theorem resetKept_drawSysKeys (s : State) : ResetKept s (drawSysKeys s) := ⟨id, rfl, rfl, rfl, rfl, rfl⟩

/-- With no context left the destruction of keys touches the entries, Wened's keys and the package's. -/
theorem resetKept_destroyKeys {s : State} (hnone : s.ctxs = []) : ResetKept s (destroyKeys s) := by
  have hall : SecurityProofs.allKeyless s = s := by
    rw [SecurityProofs.allKeyless, liveIds, hnone]
    rfl
  have hwr : EntriesOnly (SecurityProofs.keysGone s) (destroyKeys s) := by
    rw [SecurityProofs.destroyKeys_eq]
    exact (((EntriesOnly.refl _).wr _ _).wr _ _).wr _ _
  refine ResetKept.trans ?_ hwr.resetKept
  rw [SecurityProofs.keysGone, hall]
  exact ⟨id, rfl, rfl, rfl, rfl, rfl⟩

theorem resetKept_destroyIdentity (s : State) : ResetKept s (destroyIdentity s) :=
  ResetKept.trans (t := { s with wen := { s.wen with idKeys := false } }) ⟨id, rfl, rfl, rfl, rfl, rfl⟩
    ((EntriesOnly.refl _).wr _ _).resetKept

theorem resetKept_loseDies (s : State) (warm : Bool) : ResetKept s (loseDies s warm) := by
  obtain ⟨hctxs, -, hwen, hcool, -⟩ := loseDies_effect s warm
  refine ⟨fun _ => hctxs, hcool, ?_, ?_, ?_, ?_⟩ <;> rw [hwen] <;> rfl

/-- The ROM finishes what a marker asks for (R390). -/
def markerDone (s : State) : State :=
  match s.wen.marker with
  | none => s
  | some d => if d then destroyIdentity (destroyKeys s) else destroyKeys s

theorem resetKept_markerDone {s : State} (hnone : s.ctxs = []) : ResetKept s (markerDone s) := by
  unfold markerDone
  split
  · exact .refl s
  · split
    · exact (resetKept_destroyKeys hnone).trans (resetKept_destroyIdentity _)
    · exact resetKept_destroyKeys hnone

/-- Every die stands in its state before the stage. -/
def diesAt (s : State) (stage : Nat) : State := (List.range 40).foldl (fun s d => setDie s d (if stage = 1 then 0 else 1)) s

/-- The dies at the start of a cold start, with new keys of the runtime. -/
def coldDies (s : State) (stage : Nat) : State :=
  let t := diesAt (resetEntries (markerDone (loseDies s false)) false) stage
  drawSysKeys (keepCutOff (holdLines (if stage = 1 then setPower t [] else t)))

theorem resetKept_coldDies (s : State) (stage : Nat) : ResetKept s (coldDies s stage) := by
  obtain ⟨hctxs, -⟩ := loseDies_effect s false
  have hmarked := (resetKept_loseDies s false).trans (resetKept_markerDone hctxs)
  have hreset := hmarked.trans (entriesOnly_resetEntries _ false).resetKept
  have hdies : ResetKept s (diesAt (resetEntries (markerDone (loseDies s false)) false) stage) :=
    hreset.trans (EntriesOnly.foldl (fun _ _ hu => hu.wr _ _) _ (.refl _)).resetKept
  unfold coldDies
  generalize diesAt (resetEntries (markerDone (loseDies s false)) false) stage = t at hdies
  have hlines : ResetKept s (holdLines (if stage = 1 then setPower t [] else t)) := by
    split
    · exact (hdies.trans (resetKept_setPower t [])).trans (resetKept_holdLines _)
    · exact hdies.trans (resetKept_holdLines t)
  exact (hlines.trans (entriesOnly_keepCutOff _).resetKept).trans (resetKept_drawSysKeys _)

theorem coldDies_ctxs (s : State) (stage : Nat) : (coldDies s stage).ctxs = [] := by
  obtain ⟨hctxs, -⟩ := loseDies_effect s false
  have hmarked := (resetKept_markerDone hctxs).ctxs hctxs
  have hdies : (diesAt (resetEntries (markerDone (loseDies s false)) false) stage).ctxs = [] :=
    (EntriesOnly.foldl (fun _ _ hu => hu.wr _ _) _ (.refl _)).ctxs.trans ((entriesOnly_resetEntries _ false).ctxs.trans hmarked)
  unfold coldDies
  generalize diesAt (resetEntries (markerDone (loseDies s false)) false) stage = t at hdies
  refine (resetKept_drawSysKeys _).ctxs ((entriesOnly_keepCutOff _).ctxs.trans ?_)
  split <;> exact hdies

/-- Wened at the start of a cold start. -/
def coldReady (s : State) : State :=
  { s with
    pkg := { s.pkg with faults := ((newestBrown s).map (fun b => b.faults)).getD [], pllLost := [] },
    wen := { s.wen with mrs := [0, 0, 0, 0], quoteO := 0, window := false, debug := false, rbOverridden := false, warm := false,
                        heldSag := false, bootNs := s.ptpNs, marker := none, counters := [], can := none, canTx := [] } }

theorem beginCold_eq (s : State) (stage cause : Nat) : beginCold s stage cause =
    wr (wr (sampleStrap (coldReady (coldDies s stage))) 0x100301 cause) 0x200600 (if (coldReady (coldDies s stage)).pkg.waitCool then 1 else stage) := by
  unfold beginCold coldReady coldDies markerDone diesAt
  generalize loseDies s false = lost
  cases hmark : lost.wen.marker with
  | none => simp only [hmark]
  | some decom => simp only [hmark]

/-- What a cold start begins with. -/
theorem beginCold_effect (s : State) {stage cause : Nat} (hstage : stage < 256) (hcause : cause < 256) :
    (beginCold s stage cause).ctxs = [] ∧ (beginCold s stage cause).pkg.pllLost = [] ∧ (beginCold s stage cause).wen.heldSag = false ∧
    (beginCold s stage cause).wen.guar = s.wen.guar ∧ (beginCold s stage cause).wen.saving = s.wen.saving ∧
    (beginCold s stage cause).wen.powered = s.wen.powered ∧ (beginCold s stage cause).wen.rstLow = s.wen.rstLow ∧
    rd (beginCold s stage cause) 0x100301 = cause ∧ rd (beginCold s stage cause) 0x200600 = if s.pkg.waitCool then 1 else stage := by
  have hkept := resetKept_coldDies s stage
  have hctxs := coldDies_ctxs s stage
  rw [beginCold_eq]
  generalize coldDies s stage = t at hkept hctxs
  have hlast := ((entriesOnly_sampleStrap (coldReady t)).wr 0x100301 cause).wr 0x200600 (if (coldReady t).pkg.waitCool then 1 else stage)
  have hfits : (if (coldReady t).pkg.waitCool then 1 else stage) < 256 := by split <;> omega
  refine ⟨hlast.ctxs.trans hctxs, ?_, ?_, ?_, ?_, ?_, ?_, ?_, ?_⟩
  · rw [hlast.pkg]
    rfl
  · rw [hlast.wen]
    rfl
  · rw [hlast.wen]
    exact hkept.guar
  · rw [hlast.wen]
    exact hkept.saving
  · rw [hlast.wen]
    exact hkept.powered
  · rw [hlast.wen]
    exact hkept.rstLow
  · rw [rd_wr_ne _ _ (by decide), rd_resetCause _ hcause]
  · have hcool : (coldReady t).pkg.waitCool = s.pkg.waitCool := hkept.cool
    rw [rd_bringupStage _ hfits, hcool]

/-- The dies at the start of a warm reset. -/
def warmDies (s : State) : State := setDie (holdDies (senseRing (resetEntries (loseDies s true) true))) 39 2

/-- Wened knows that the reset is warm. -/
def markWarm (s : State) : State := { s with wen := { s.wen with warm := true } }

theorem beginWarm_eq (s : State) (cause : Nat) :
    beginWarm s cause = wr (wr (wr (markWarm (warmDies s)) 0x100301 cause) 0x100300 1) 0x200600 3 := by
  unfold beginWarm warmDies markWarm
  rfl

theorem warmDies_rest (s : State) : (warmDies s).ctxs = [] ∧ (warmDies s).wen = wenHeld (wenLost s.wen) := by
  obtain ⟨hctxs, -, hwen, -, -⟩ := loseDies_effect s true
  have hring : EntriesOnly (loseDies s true) (senseRing (resetEntries (loseDies s true) true)) :=
    (entriesOnly_resetEntries _ true).wr _ _
  unfold warmDies setDie
  generalize senseRing (resetEntries (loseDies s true) true) = t at hring
  obtain ⟨hheld, -, hlines⟩ := holdDies_rest t
  rw [wr_ctxs, hheld, hring.ctxs, wr_wen, hlines, hring.wen, hwen]
  exact ⟨hctxs, rfl⟩

/-- What a warm reset begins with. -/
theorem beginWarm_effect (s : State) {cause : Nat} (hcause : cause < 256) : (beginWarm s cause).ctxs = [] ∧ (beginWarm s cause).wen.warm = true ∧
    (beginWarm s cause).wen.guar = s.wen.guar ∧ rd (beginWarm s cause) 0x200600 = 3 ∧ rd (beginWarm s cause) 0x100301 = cause := by
  obtain ⟨hctxs, hwen⟩ := warmDies_rest s
  rw [beginWarm_eq]
  generalize warmDies s = t at hctxs hwen
  refine ⟨?_, ?_, ?_, rd_bringupStage _ (by decide), ?_⟩
  · rw [wr_ctxs, wr_ctxs, wr_ctxs]
    exact hctxs
  · rw [wr_wen, wr_wen, wr_wen]
    rfl
  · rw [wr_wen, wr_wen, wr_wen]
    have hguar : t.wen.guar = s.wen.guar := by
      rw [hwen]
      rfl
    exact hguar
  · rw [rd_wr_ne _ _ (by decide), rd_wr_ne _ _ (by decide), rd_resetCause _ hcause]

end Sys2Proof.ResetProofs
end

section
/-! PROOFS. Writes for firmware, resets and the Taster (R387 to R389, R400, R404, R412). -/

namespace Sys2Proof.MaintenanceProofs

open Sys2Proof Sys2Proof.Machine Sys2Proof.Laws Sys2Proof.PackageProofs Sys2Proof.WriteProofs Sys2Proof.SignalProofs Sys2Proof.ResetProofs

variable {s : State} {r : Req}

theorem stageState_type : (entryOf 0x103001).map (·.type) = some (.octets 4) := by decide +kernel

theorem getSlot_setSlot (s : State) (type slot : Nat) (x : FwSlot) : getSlot (setSlot s type slot x) type slot = x :=
  tget_tset_self ..

/-! ### Firmware -/

/-- A type's other slot is emptied for its pull. -/
def stagingSlot (s : State) (type : Nat) : State :=
  setSlot s type (1 - bootedSlot s type) { getSlot s type (1 - bootedSlot s type) with valid := false }

/-- A type's pull into its other slot begins. -/
def staging (s : State) (type : Nat) : State :=
  { stagingSlot s type with wen := { (stagingSlot s type).wen with
      staged := some (type, 1 - bootedSlot s type),
      stagedOk := (stagingSlot s type).wen.stagedOk.filter (fun t => decide (t ≠ type)),
      preferred := if tget 0 (stagingSlot s type).wen.preferred type = 1 - bootedSlot s type + 1 then tset 0 (stagingSlot s type).wen.preferred type 0
        else (stagingSlot s type).wen.preferred } }

theorem stageWrite_ok {v type : Nat} (hmin : 1024 ≤ v / 2 ^ 128) (hmax : v / 2 ^ 128 ≤ 67108864) (htype : type < 8) (hfree : s.wen.staged = none) :
    stageWrite s v type = .ok (bumpSnap (stageState (staging s type) 1 type 0) 0x103000) := by
  have hlen : ¬(v / 2 ^ 128 < 1024 ∨ 67108864 < v / 2 ^ 128) := by omega
  unfold stageWrite staging stagingSlot
  simp only [hlen, htype, hfree, if_false, if_true, Option.isSome_none, Bool.false_eq_true]

theorem stageWrite_busy {v type : Nat} (hmin : 1024 ≤ v / 2 ^ 128) (hmax : v / 2 ^ 128 ≤ 67108864) (hbusy : s.wen.staged.isSome = true) :
    stageWrite s v type = .error 0x0E01 := by
  have hlen : ¬(v / 2 ^ 128 < 1024 ∨ 67108864 < v / 2 ^ 128) := by omega
  simp only [stageWrite, hlen, hbusy, if_false, if_true]

theorem staging_effect (s : State) {type : Nat} (htype : type < 8) : let t := bumpSnap (stageState (staging s type) 1 type 0) 0x103000
    t.wen.staged = some (type, 1 - bootedSlot s type) ∧ (getSlot t type (1 - bootedSlot s type)).valid = false ∧
    rd t 0x103001 = 1 + type * 256 := by
  have hwen : (stageState (staging s type) 1 type 0).wen = (staging s type).wen := wr_wen ..
  have hslot : getSlot (stagingSlot s type) type (1 - bootedSlot s type) = { getSlot s type (1 - bootedSlot s type) with valid := false } :=
    getSlot_setSlot ..
  refine ⟨?_, ?_, ?_⟩
  · rw [bumpSnap_wen, hwen]
    rfl
  · have hkept : getSlot (stageState (staging s type) 1 type 0) type (1 - bootedSlot s type) = getSlot (stagingSlot s type) type (1 - bootedSlot s type) := by
      rw [getSlot, hwen]
      rfl
    have hbump : getSlot (bumpSnap (stageState (staging s type) 1 type 0) 0x103000) type (1 - bootedSlot s type) =
        getSlot (stageState (staging s type) 1 type 0) type (1 - bootedSlot s type) := rfl
    rw [hbump, hkept, hslot]
  · have hval : 1 + type % 256 * 256 + 0 * 65536 = 1 + type * 256 := by omega
    have hfits : 1 + type * 256 < 2 ^ (8 * typeSize (.octets 4)) := by
      have hsize : 2 ^ (8 * typeSize (.octets 4)) = 2 ^ 32 := by decide
      rw [hsize]
      omega
    have hrd := rd_wr_fits (staging s type) stageState_type hfits
    rw [← hval] at hrd ⊢
    exact hrd

/-- A type's staged slot is preferred. -/
def activated (s : State) (type : Nat) : State :=
  bumpSnap { s with wen := { s.wen with preferred := tset 0 s.wen.preferred type (2 - bootedSlot s type) } } 0x103002

theorem activateWrite_free {type : Nat} (htype : type < 8) (hfree : type ∉ [3, 4] ∨ liveIds s = []) :
    activateWrite s type = if type ∉ s.wen.stagedOk then .error 0x0E02 else .ok (activated s type) := by
  have hsmall : ¬8 ≤ type := by omega
  have hclass : ¬((type = 3 ∨ type = 4) ∧ liveIds s ≠ []) := by
    rintro ⟨h34, hlive⟩
    rcases hfree with hfree | hfree
    · exact hfree (by simpa using h34)
    · exact hlive hfree
  rw [activateWrite, if_neg hsmall, if_neg hclass]
  rfl

/-- A recovery image stands in the other slot of type 0 and is preferred. -/
def recovered (s : State) (img : FwImage) : State :=
  let t := setSlot s 0 (1 - bootedSlot s 0) (slotOf img true)
  bumpSnap { t with wen := { t.wen with preferred := tset 0 t.wen.preferred 0 (1 - bootedSlot s 0 + 1) } } 0x103010

theorem recoveryWrite_ok {img : FwImage} {n : Nat} (hmin : 1024 ≤ n) (hmax : n ≤ 67108864) (hresv : img.resv = false)
    (hgood : imageBad s 0 img = none) : recoveryWrite s img n = .ok (recovered s img) := by
  have hlen : ¬(n < 1024 ∨ 67108864 < n) := by omega
  rw [recoveryWrite, if_neg hlen, hresv]
  simp only [hgood, Bool.false_eq_true, if_false]
  rfl

theorem recovered_effect (s : State) (img : FwImage) : getSlot (recovered s img) 0 (1 - bootedSlot s 0) = slotOf img true ∧
    tget 0 (recovered s img).wen.preferred 0 = 1 - bootedSlot s 0 + 1 :=
  ⟨getSlot_setSlot s 0 (1 - bootedSlot s 0) (slotOf img true), tget_tset_self 0 s.wen.preferred 0 (1 - bootedSlot s 0 + 1)⟩

/-! ### Resets -/

/-- The command of a reset entry starts its operation. -/
theorem wenedCmd_starts {i : Instr} {k v : Nat} {service : Bool} {op : GuarOp}
    (hi : exec i s = .next (rowWrite s r k (natLe 1 v) (fun s => wenedCmd s k v service)))
    (hcmd : wenedCmd s k v service = .ok (startOp (bumpSnap s k) op [])) :
    ∃ t, t.wen.guar = [op] ∧ t.ctxs = [] ∧ Takes i s r k (natLe 1 v) t := by
  obtain ⟨hctxs, -, hguar, -, -⟩ := startOp_effect (bumpSnap s k) op []
  exact ⟨_, hguar, hctxs, takes_row hi hcmd⟩

theorem resets_start (service : Bool) (hpow : s.wen.powered = true) (hguar : s.wen.guar = []) (hsag : s.wen.heldSag = false)
    (hdev : deviceState s ∉ [4, 5]) : let k := if service then 0x100501 else 0x100500
    (∃ t, t.wen.guar = [.warmReset (if service then 6 else 2)] ∧ t.ctxs = [] ∧ Takes (.warmReset r service) s r k (natLe 1 1) t) ∧
    (∃ t, t.wen.guar = [.coldReset (if service then 6 else 3)] ∧ t.ctxs = [] ∧ Takes (.coldReset r service) s r k (natLe 1 2) t) ∧
    (∃ t, t.wen.guar = [.powerDown] ∧ t.ctxs = [] ∧ Takes (.powerDown r service) s r k (natLe 1 3) t) := by
  intro k
  have hup : deviceState (bumpSnap s k) ≠ 4 := fun h4 => hdev (List.mem_cons.mpr (.inl h4))
  refine ⟨?_, ?_, ?_⟩
  · exact wenedCmd_starts rfl (congrArg Except.ok (requestOp_warm (s := bumpSnap s k) hguar hpow hsag _ hdev))
  · exact wenedCmd_starts rfl (congrArg Except.ok (requestOp_cold (s := bumpSnap s k) hguar hpow hsag _))
  · exact wenedCmd_starts rfl (congrArg Except.ok (requestOp_powerDown (s := bumpSnap s k) hguar hpow hsag hup))

/-! ### Taster requests -/

theorem tasterWrite_room {die kind unit : Nat} (raise : Bool) (hkind : kind ≠ 0) (hmax : kind ≤ 6) (htarget : tasterTarget s die kind unit = true)
    (hport : kind ≠ 5 ∨ portState s (4 * (die - 30) + unit) ≠ 3) (hroom : (getTaster s die).reqs.length < 64) :
    tasterWrite s die kind unit raise 0 = .ok (bumpSnap (queueTaster s die ⟨kind, unit, raise⟩) 0xA00200) := by
  have hrange : ¬(kind = 0 ∨ 6 < kind) := by omega
  have hsole : ¬(kind = 5 ∧ portState s (4 * (die - 30) + unit) = 3 ∧ solePath s (4 * (die - 30) + unit) = true) :=
    fun ⟨hkind, hup, _⟩ => hport.elim (fun h => h hkind) (fun h => h hup)
  have hfull : ¬(64 ≤ (getTaster s die).reqs.length ∧ (getTaster s die).reqs.all (fun q => !decide (q.kind = kind ∧ q.unit = unit)) = true) := by
    omega
  rw [tasterWrite, if_neg (by simp), if_neg hrange, htarget, if_neg (by simp), if_neg hsole, if_neg hfull]

theorem tasterWrite_full {die unit : Nat} (raise : Bool) (hdie : die < 8) (hunit : unit < 512) (hfull : (getTaster s die).reqs.length = 64)
    (hnew : ∀ q ∈ (getTaster s die).reqs, q.kind ≠ 1 ∨ q.unit ≠ unit) : tasterWrite s die 1 unit raise 0 = .error 0x0A07 := by
  have htarget : tasterTarget s die 1 unit = true := decide_eq_true ⟨hdie, hunit⟩
  have hall : (getTaster s die).reqs.all (fun q => !decide (q.kind = 1 ∧ q.unit = unit)) = true := by
    rw [List.all_eq_true]
    intro q hq
    rw [Bool.not_eq_true', decide_eq_false_iff_not]
    rintro ⟨hk, hu⟩
    exact (hnew q hq).elim (fun h => h hk) (fun h => h hu)
  rw [tasterWrite, if_neg (by simp), if_neg (by simp), htarget, if_neg (by simp), if_neg (by simp), if_pos ⟨hfull.ge, hall⟩]

/-- Settles O45: each entry's write by its conditions, and resets by the operation that they start. -/
theorem maintenanceWritesTakeEffect : Obligations.MaintenanceWritesTakeEffect := by
  intro s r
  refine ⟨fun v type hmin hmax htype => ⟨fun hfree => ?_, fun hbusy => ?_⟩, fun type htype hfree => ⟨fun hok => ?_, fun hbad => ?_⟩, ?_,
    fun service hpow hguar hsag hdev => resets_start service hpow hguar hsag hdev, takes_row rfl rfl,
    fun die unit raise => ⟨fun hroom => ⟨?_, ?_, ?_, ?_, ?_, ?_⟩, fun hfull hnew hdie hunit => ?_⟩⟩
  · obtain ⟨hstaged, hslot, hstate⟩ := staging_effect s htype
    exact ⟨_, hstaged, hslot, hstate, takes_row rfl (stageWrite_ok hmin hmax htype hfree)⟩
  · exact refuses_row rfl (by decide) (stageWrite_busy hmin hmax hbusy)
  · exact ⟨activated s type.toNat, tget_tset_self .., rfl, takes_row rfl ((activateWrite_free htype hfree).trans (if_neg (not_not_intro hok)))⟩
  · exact refuses_row rfl (by decide) ((activateWrite_free htype hfree).trans (if_pos hbad))
  · intro img n hmin hmax hresv hgood
    obtain ⟨hslot, hpreferred⟩ := recovered_effect (drawBytes s n).2 img
    refine ⟨recovered (drawBytes s n).2 img, hslot, hpreferred, fun hadm => ?_⟩
    exact congrArg Host.Outcome.next (rowWrite_ok _ _ r _ _ _ hadm (recoveryWrite_ok (s := (drawBytes s n).2) hmin hmax hresv hgood))
  · exact fun hdie hunit => takes_row rfl (tasterWrite_room raise (by decide) (by decide) (decide_eq_true ⟨hdie, hunit⟩) (.inl (by decide)) hroom)
  · exact fun hdie hunit => takes_row rfl (tasterWrite_room raise (by decide) (by decide) (decide_eq_true ⟨hdie, hunit⟩) (.inl (by decide)) hroom)
  · exact fun hmin hmax hunit =>
      takes_row rfl (tasterWrite_room raise (by decide) (by decide) (decide_eq_true ⟨hmin, hmax, hunit⟩) (.inl (by decide)) hroom)
  · exact fun hmin hmax hunit =>
      takes_row rfl (tasterWrite_room raise (by decide) (by decide) (decide_eq_true ⟨hmin, hmax, hunit⟩) (.inl (by decide)) hroom)
  · exact fun hmin hmax hunit hport =>
      takes_row rfl (tasterWrite_room raise (by decide) (by decide) (decide_eq_true ⟨hmin, hmax, hunit⟩) (.inr hport) hroom)
  · exact fun hdie hstate => takes_row rfl (tasterWrite_room raise (by decide) (by decide) (decide_eq_true ⟨hdie, hstate⟩) (.inl (by decide)) hroom)
  · exact refuses_row rfl (by decide) (tasterWrite_full raise hdie hunit hfull hnew)

end Sys2Proof.MaintenanceProofs
end

section
/-! PROOFS. Events of the input, the rails, temperatures, PLLs, RST_N and the watchdog (R370, R371, R388, R389, R415, R419, R422 to R425,
R440, R449). -/

namespace Sys2Proof.PowerProofs

open Sys2Proof Sys2Proof.Machine Sys2Proof.Laws Sys2Proof.PackageProofs Sys2Proof.WriteProofs Sys2Proof.SignalProofs Sys2Proof.ResetProofs

variable {s t : State}

theorem dieTemp_type : ∀ d : Die, (entryOf (0x200701 + d.val)).map (·.type) = some .i16 := by decide +kernel

theorem osc_type : (entryOf 0x100600).map (·.type) = some .u8 := by decide +kernel

/-! ### Records -/

/-- The newest fault record is the one just written. -/
theorem logFault_newest (s : State) (die cls unit code ctx step : Nat) (detail : BitVec 256) :
    (logFault s die cls unit code ctx step detail).pkg.faults.getLast? =
      some { mkRec die cls unit code ctx step detail with time := s.ptpNs, seq := rd s 0x100400 } := logRec_getLast? ..

/-- An operation captures its record, unless a marker is set or a sag comes early. -/
theorem opRecord_taken {op : GuarOp} (hmark : s.wen.marker = none) (hlate : op ≠ .save ∨ 2 < rd s 0x200600) :
    opRecord s op = some (captureBrown s (opCause op)) := by
  have hstage : (decide (op = .save) && decide (rd s 0x200600 ≤ 2)) = false := by
    rw [Bool.and_eq_false_iff, decide_eq_false_iff_not, decide_eq_false_iff_not]
    exact hlate.imp_right (fun h => by omega)
  simp only [opRecord, hmark, hstage, Option.isSome_none, Bool.or_self, Bool.false_eq_true, if_false]

theorem opRecord_skipped (h : s.wen.marker.isSome = true ∨ rd s 0x200600 ≤ 2) : opRecord s .save = none := by
  have hskip : (s.wen.marker.isSome || (decide (GuarOp.save = .save) && decide (rd s 0x200600 ≤ 2))) = true := by
    rw [Bool.or_eq_true, Bool.and_eq_true]
    exact h.imp_right (fun hearly => ⟨rfl, decide_eq_true hearly⟩)
  exact if_pos hskip

/-- What Wened holds once a record's header is committed. -/
def brownWritten (w : WenState) (b : Brownout) : WenState :=
  { w with saving := none, saves := w.saves + 1, brown := (w.brown ++ [b]).drop (w.brown.length + 1 - 2) }

theorem commitBrown_of_saving {b : Brownout} (h : s.wen.saving = some b) :
    commitBrown s = bumpSnap (bumpSnap { s with wen := brownWritten s.wen b } 0x200501) 0x200502 := by
  unfold commitBrown
  rw [h]
  rfl

/-- The newest valid record is the one just committed. -/
theorem newest_brownWritten (w : WenState) {b : Brownout} (hvalid : b.valid = true) :
    ((brownWritten w b).brown.filter (fun b => b.valid)).getLast? = some b := by
  have hdrop : (brownWritten w b).brown = w.brown.drop (w.brown.length + 1 - 2) ++ [b] := List.drop_append_of_le_length (by omega)
  rw [hdrop, List.filter_append, List.filter_singleton, hvalid, cond_true, List.getLast?_concat]

/-! ### The input -/

/-- The input is valid: the stewards' queues are empty, and both lanes are whole until a break is sensed. -/
def inputOn (s : State) (mv : Nat) : State :=
  let t := wr { s with wen := { s.wen with powered := true } } 0x200200 mv
  { t with pkg := { t.pkg with stew := [], lostBit := [], breaks := [] } }

theorem inputOn_powered (s : State) (mv : Nat) : (inputOn s mv).wen.powered = true := by
  have hwen : (inputOn s mv).wen = { s.wen with powered := true } := wr_wen ..
  rw [hwen]

theorem v52Valid_starts (mv : BitVec 32) (hoff : s.wen.powered = false) : ∃ t, exec (.v52Valid mv) s = .next t ∧
    t.wen.powered = true ∧ t.ctxs = [] ∧ rd t 0x200600 = 1 ∧ rd t 0x100301 = 0 := by
  have hon : ¬s.wen.powered = true := by rw [hoff]; exact Bool.false_ne_true
  have hex : exec (.v52Valid mv) s = .next (beginCold (inputOn s mv.toNat) 1 0) := congrArg Host.Outcome.next (if_neg hon)
  obtain ⟨hctxs, -, -, -, -, hpow, -, hcause, hstage⟩ := beginCold_effect (inputOn s mv.toNat) (stage := 1) (cause := 0) (by decide) (by decide)
  rw [inputOn_powered] at hpow
  rw [ite_self] at hstage
  exact ⟨_, hex, hpow, hctxs, hstage, hcause⟩

/-- The state in which a sag's save is asked for. -/
def sagging (s : State) (mv : Nat) : State := logFault (wr s 0x200200 mv) 39 0x0E 0x200 0x0203 0xFFFF 0 0

theorem sagging_rest (s : State) (mv : Nat) : (sagging s mv).wen = s.wen ∧ rd (sagging s mv) 0x200600 = rd s 0x200600 ∧ (sagging s mv).ptpNs = s.ptpNs := by
  have hlog := signalled_logFault (.refl (wr s 0x200200 mv)) (die := 39) (cls := 0x0E) (unit := 0x200) (code := 0x0203) (ctx := 0xFFFF)
    (step := 0) (detail := 0)
  exact ⟨hlog.wen.trans (wr_wen ..), (hlog.rd _ (by decide)).trans (rd_wr_ne _ _ (by decide)), hlog.ptpNs.trans (wr_ptpNs ..)⟩

theorem supplySag_saves (mv : BitVec 32) (hpow : s.wen.powered = true) (hsag : s.wen.heldSag = false) (hguar : s.wen.guar = []) :
    ∃ t, exec (.supplySag mv) s = .next t ∧ t.wen.guar = [.save] ∧ t.ctxs = [] ∧ t.plants = [] ∧
      (s.wen.marker = none → 2 < rd s 0x200600 →
        ∃ b, t.wen.saving = some b ∧ b.cause = 4 ∧ b.time = s.ptpNs ∧ (b.faults.getLast?).map (·.code) = some 0x0203) ∧
      (s.wen.marker.isSome = true ∨ rd s 0x200600 ≤ 2 → t.wen.saving = none) := by
  obtain ⟨hwen, hstage, hnow⟩ := sagging_rest s mv.toNat
  have hfault : ((sagging s mv.toNat).pkg.faults.getLast?).map (·.code) = some 0x0203 := by
    rw [sagging, logFault_newest]
    rfl
  have hgoes : ¬(!s.wen.powered || s.wen.heldSag || decide (s.wen.guar.head? = some .save)) = true := by
    rw [hpow, hsag, hguar]
    decide
  have hex : exec (.supplySag mv) s = .next (requestOp (sagging s mv.toNat) .save) := congrArg Host.Outcome.next (if_neg hgoes)
  generalize sagging s mv.toNat = t at hwen hstage hnow hfault hex
  rw [requestOp_save (by rw [hwen, hguar]) (by rw [hwen, hpow]) (by rw [hwen, hsag])] at hex
  obtain ⟨hctxs, hplants, hop, hsaving, -⟩ := startOp_effect t .save []
  refine ⟨_, hex, hop, hctxs, hplants, fun hmark hlate => ⟨captureBrown t 4, ?_, rfl, hnow, hfault⟩, fun hskip => ?_⟩
  · exact hsaving.trans (opRecord_taken (by rw [hwen, hmark]) (.inr (by rwa [hstage])))
  · exact hsaving.trans (opRecord_skipped (by rwa [hwen, hstage]))

theorem heldExit_starts (hsag : s.wen.heldSag = true) : ∃ t, exec (.heldExit true) s = .next t ∧ t.wen.heldSag = false ∧ t.ctxs = [] ∧
    rd t 0x200600 = 1 ∧ rd t 0x100301 = 4 := by
  have hheld : ¬(!s.wen.heldSag) = true := by rw [hsag]; decide
  have hex : exec (.heldExit true) s = .next (beginCold (incr s 0x200500 1) 1 4) :=
    congrArg Host.Outcome.next ((if_neg hheld).trans (if_pos rfl))
  obtain ⟨hctxs, -, hheld', -, -, -, -, hcause, hstage⟩ := beginCold_effect (incr s 0x200500 1) (stage := 1) (cause := 4) (by decide) (by decide)
  rw [ite_self] at hstage
  exact ⟨_, hex, hheld', hctxs, hstage, hcause⟩

/-! ### Rails and temperatures -/

/-- A power-down that a record's fault asks for. -/
theorem powerDown_starts (hguar : t.wen.guar = []) (hpow : t.wen.powered = true) (hsag : t.wen.heldSag = false) (hdev : deviceState t ≠ 4) :
    (requestOp t .powerDown).wen.guar = [.powerDown] ∧ (requestOp t .powerDown).ctxs = [] ∧
    (requestOp t .powerDown).wen.saving = opRecord t .powerDown ∧ (requestOp t .powerDown).pkg.waitCool = t.pkg.waitCool := by
  rw [requestOp_powerDown hguar hpow hsag hdev]
  obtain ⟨hctxs, -, hop, hsaving, hcool⟩ := startOp_effect t .powerDown []
  exact ⟨hop, hctxs, hsaving, hcool⟩

theorem powerFault_starts (hpow : s.wen.powered = true) (hsag : s.wen.heldSag = false) (hguar : s.wen.guar = []) (hdev : deviceState s ≠ 4) :
    ∃ t, exec .powerFault s = .next t ∧ t.wen.guar = [.powerDown] ∧ t.ctxs = [] ∧
      (s.wen.marker = none → ∃ b, t.wen.saving = some b ∧ b.cause = 3 ∧ (b.faults.getLast?).map (·.code) = some 0x0206) := by
  have hlog := signalled_logFault (.refl s) (die := 39) (cls := 0x0E) (unit := 0x200) (code := 0x0206) (ctx := eventCtx s) (step := 0) (detail := 0)
  have hnewest := logFault_newest s 39 0x0E 0x200 0x0206 (eventCtx s) 0 0
  have hex : exec .powerFault s = .next (requestOp (logFault s 39 0x0E 0x200 0x0206 (eventCtx s) 0 0) .powerDown) := rfl
  generalize logFault s 39 0x0E 0x200 0x0206 (eventCtx s) 0 0 = t at hlog hnewest hex
  obtain ⟨hop, hctxs, hsaving, -⟩ := powerDown_starts (t := t) (by rw [hlog.wen, hguar]) (by rw [hlog.wen, hpow]) (by rw [hlog.wen, hsag])
    (by rwa [hlog.deviceState])
  refine ⟨_, hex, hop, hctxs, fun hmark => ⟨captureBrown t 3, ?_, rfl, ?_⟩⟩
  · exact hsaving.trans (opRecord_taken (by rw [hlog.wen, hmark]) (.inl (by decide)))
  · exact (congrArg (Option.map (fun r : FaultRec => r.code)) hnewest :)

/-- Consecutive readings of a die above its trip limit, with this one. -/
def tripCount (s : State) (d : Nat) (v : BitVec 16) : Nat :=
  if (10 * tripLimit d : Int) < toSigned 16 v.toNat then tget 0 s.pkg.tripped d + 1 else 0

/-- A die's temperature is read and counted. -/
def tempRead (s : State) (d : Nat) (v : BitVec 16) : State :=
  { wr s (0x200701 + d) v.toNat with
    pkg := { (wr s (0x200701 + d) v.toNat).pkg with
      tripped := tset 0 (wr s (0x200701 + d) v.toNat).pkg.tripped d (tripCount (wr s (0x200701 + d) v.toNat) d v) } }

/-- A trip is recorded and counted. -/
def tripRecorded (s : State) (d : Nat) : State := incr (logFault s d 0x08 0x200 0x0207 (eventCtx s) 0 0) 0x200929 1

/-- A later cold start waits for the dies to cool. -/
def coolsFirst (s : State) : State := { s with pkg := { s.pkg with waitCool := true } }

theorem exec_dieTempReading (d : Die) (v : BitVec 16) (s : State) : exec (.dieTempReading d v) s = .next (
    if tripCount (wr s (0x200701 + d.val) v.toNat) d.val v = 2 then requestOp (coolsFirst (tripRecorded (tempRead s d.val v) d.val)) .powerDown
    else if (tempRead s d.val v).pkg.waitCool && (List.range 40).all (fun x => decide (toSigned 16 (rd (tempRead s d.val v) (0x200701 + x)) < 850)) then
      { tempRead s d.val v with pkg := { (tempRead s d.val v).pkg with waitCool := false } }
    else tempRead s d.val v) := rfl

theorem tempRead_rest (s : State) (d : Nat) (v : BitVec 16) : (tempRead s d v).wen = s.wen ∧ (tempRead s d v).ctxs = s.ctxs ∧
    (tempRead s d v).pkg = { s.pkg with tripped := tset 0 s.pkg.tripped d (tripCount s d v) } ∧
    ∀ k, rd (tempRead s d v) k = rd (wr s (0x200701 + d) v.toNat) k := by
  have hpkg : (wr s (0x200701 + d) v.toNat).pkg = s.pkg := wr_pkg ..
  refine ⟨wr_wen .., wr_ctxs .., ?_, fun k => LadleProofs.rd_of_ent rfl k⟩
  unfold tempRead tripCount
  dsimp only
  rw [hpkg]

theorem dieTempReading_trips (d : Die) (v : BitVec 16) (hpow : s.wen.powered = true) (hsag : s.wen.heldSag = false) (hguar : s.wen.guar = [])
    (hdev : deviceState s ≠ 4) (hfirst : tget 0 s.pkg.tripped d.val = 1) (hhot : (10 * tripLimit d.val : Int) < toSigned 16 v.toNat) :
    ∃ t, exec (.dieTempReading d v) s = .next t ∧ t.wen.guar = [.powerDown] ∧ t.pkg.waitCool = true ∧ t.ctxs = [] := by
  obtain ⟨hwen, -, -, hrd⟩ := tempRead_rest s d.val v
  have hcount : tripCount (wr s (0x200701 + d.val) v.toNat) d.val v = 2 := by
    rw [tripCount, if_pos hhot, wr_pkg, hfirst]
  have hex := (exec_dieTempReading d v s).trans (congrArg Host.Outcome.next (if_pos hcount))
  have hup : deviceState (tempRead s d.val v) = deviceState s := (hrd _).trans (rd_wr_ne _ _ (by omega))
  generalize tempRead s d.val v = u at hwen hup hex
  have hlog := signalled_logFault (.refl u) (die := d.val) (cls := 0x08) (unit := 0x200) (code := 0x0207) (ctx := eventCtx u) (step := 0) (detail := 0)
  have hrec : (coolsFirst (tripRecorded u d.val)).wen = s.wen := (wr_wen ..).trans (hlog.wen.trans hwen)
  have hstate : deviceState (coolsFirst (tripRecorded u d.val)) = deviceState s :=
    (rd_wr_ne _ _ (by decide)).trans (hlog.deviceState.trans hup)
  have hwait : (coolsFirst (tripRecorded u d.val)).pkg.waitCool = true := rfl
  generalize coolsFirst (tripRecorded u d.val) = t at hex hrec hstate hwait
  obtain ⟨hop, hctxs, -, hcool⟩ := powerDown_starts (t := t) (by rw [hrec, hguar]) (by rw [hrec, hpow]) (by rw [hrec, hsag]) (by rwa [hstate])
  exact ⟨_, hex, hop, hcool.trans hwait, hctxs⟩

theorem dieTempReading_normal (d : Die) (v : BitVec 16) (hcool : s.pkg.waitCool = false) (hlow : toSigned 16 v.toNat ≤ 10 * tripLimit d.val) :
    ∃ t, exec (.dieTempReading d v) s = .next t ∧ rd t (0x200701 + d.val) = v.toNat ∧ tget 0 t.pkg.tripped d.val = 0 ∧ t.wen = s.wen ∧
      t.ctxs = s.ctxs ∧ t.pkg.faults = s.pkg.faults := by
  obtain ⟨hwen, hctxs, hpkg, hrd⟩ := tempRead_rest s d.val v
  have hcount (t : State) : tripCount t d.val v = 0 := if_neg (by omega)
  have hwait : (tempRead s d.val v).pkg.waitCool = false := by rw [hpkg]; exact hcool
  have hex := exec_dieTempReading d v s
  rw [hcount, if_neg (by decide), hwait, Bool.false_and, if_neg Bool.false_ne_true] at hex
  refine ⟨_, hex, ?_, ?_, hwen, hctxs, ?_⟩
  · rw [hrd]
    exact rd_wr_fits s (dieTemp_type d) v.isLt
  · rw [hpkg, hcount]
    exact tget_tset_self 0 s.pkg.tripped d.val 0
  · rw [hpkg]

/-! ### A record is written -/

/-- The record of the operation in progress is committed, and none waits. -/
def recordDone (s : State) : State := { commitBrown s with wen := { (commitBrown s).wen with guar := [] } }

theorem nextOp_none (h : s.wen.guar = []) : nextOp s = s := by
  unfold nextOp
  rw [h]

theorem brownoutSaveDone_ends {op : GuarOp} (hguar : s.wen.guar = [op]) :
    exec .brownoutSaveDone s = .next (nextOp (finishOp (recordDone s) op)) := by
  have hex : exec .brownoutSaveDone s = execBrownoutSaveDone s := rfl
  rw [hex, execBrownoutSaveDone, hguar]
  rfl

theorem recordDone_rest {b : Brownout} (hsaving : s.wen.saving = some b) : (recordDone s).wen = { brownWritten s.wen b with guar := [] } ∧
    (recordDone s).pkg = s.pkg := by
  rw [recordDone, commitBrown_of_saving hsaving]
  exact ⟨rfl, rfl⟩

section

variable {b : Brownout} (hsaving : s.wen.saving = some b)
include hsaving

theorem saveDone_holds (hvalid : b.valid = true) (hguar : s.wen.guar = [.save]) : ∃ t, exec .brownoutSaveDone s = .next t ∧ newestBrown t = some b ∧
    t.wen.saving = none ∧ t.wen.guar = [] ∧ t.wen.heldSag = true ∧ deviceState t = 4 := by
  obtain ⟨hwen, -⟩ := recordDone_rest hsaving
  have hex := brownoutSaveDone_ends hguar
  generalize recordDone s = u at hwen hex
  have hlast : (finishOp u .save).wen = { u.wen with heldSag := true } := wr_wen ..
  rw [hwen] at hlast
  rw [nextOp_none (by rw [hlast])] at hex
  refine ⟨_, hex, ?_, ?_, ?_, ?_, deviceState_wr _ (by decide)⟩
  · rw [newestBrown, hlast]
    exact newest_brownWritten s.wen hvalid
  all_goals rw [hlast]
  rfl

theorem powerDownDone_holds (hvalid : b.valid = true) (hguar : s.wen.guar = [.powerDown]) :
    ∃ t, exec .brownoutSaveDone s = .next t ∧ newestBrown t = some b ∧ t.wen.guar = [] ∧ deviceState t = 4 := by
  obtain ⟨hwen, -⟩ := recordDone_rest hsaving
  have hex := brownoutSaveDone_ends hguar
  generalize recordDone s = u at hwen hex
  have hlast : (finishOp u .powerDown).wen = { wenHeld u.wen with powerEn := [] } := by
    obtain ⟨e, n, hdies⟩ := entriesOnly_setDies u 0
    rw [finishOp, wr_wen, hdies]
    rfl
  rw [hwen] at hlast
  rw [nextOp_none (by rw [hlast]; rfl)] at hex
  refine ⟨_, hex, ?_, ?_, deviceState_wr _ (by decide)⟩
  · rw [newestBrown, hlast]
    exact newest_brownWritten s.wen hvalid
  · rw [hlast]
    rfl

theorem coldResetDone_starts {c : Nat} (hc : c < 256) (hguar : s.wen.guar = [.coldReset c]) (hrst : s.wen.rstLow = false)
    (hcool : s.pkg.waitCool = false) : ∃ t, exec .brownoutSaveDone s = .next t ∧ t.ctxs = [] ∧ rd t 0x200600 = 2 ∧ rd t 0x100301 = c := by
  obtain ⟨hwen, hpkg⟩ := recordDone_rest hsaving
  have hex := brownoutSaveDone_ends hguar
  generalize recordDone s = u at hwen hpkg hex
  have hhigh : ¬u.wen.rstLow = true := by rw [hwen]; exact ne_true_of_eq_false hrst
  have hends : finishOp u (.coldReset c) = beginCold u 2 c := if_neg hhigh
  obtain ⟨hctxs, -, -, hop, -, -, -, hcause, hstage⟩ := beginCold_effect u (stage := 2) (by decide) hc
  rw [hends, nextOp_none (by rw [hop, hwen])] at hex
  rw [hpkg, hcool, if_neg Bool.false_ne_true] at hstage
  exact ⟨_, hex, hctxs, hstage, hcause⟩

theorem warmResetDone_starts {c : Nat} (hc : c < 256) (hguar : s.wen.guar = [.warmReset c]) (hrst : s.wen.rstLow = false) :
    ∃ t, exec .brownoutSaveDone s = .next t ∧ t.ctxs = [] ∧ rd t 0x200600 = 3 ∧ rd t 0x100301 = c ∧ t.wen.warm = true := by
  obtain ⟨hwen, -⟩ := recordDone_rest hsaving
  have hex := brownoutSaveDone_ends hguar
  generalize recordDone s = u at hwen hex
  have hhigh : ¬u.wen.rstLow = true := by rw [hwen]; exact ne_true_of_eq_false hrst
  have hends : finishOp u (.warmReset c) = beginWarm u c := if_neg hhigh
  obtain ⟨hctxs, hwarm, hop, hstage, hcause⟩ := beginWarm_effect u hc
  rw [hends, nextOp_none (by rw [hop, hwen])] at hex
  exact ⟨_, hex, hctxs, hstage, hcause, hwarm⟩

end

/-! ### Clocks -/

/-- A root PLL's loss stops the modules and is recorded. -/
def lossRecorded (s : State) (d : Nat) : State :=
  logFault (clearPll (stopModules s 0x0106) d) d 0x0C 0x200 0x0204 (eventCtx s) 0 0

/-- The first loss writes a record. -/
def lossSaved (s : State) : State :=
  if s.pkg.pllLost.isEmpty && s.wen.marker.isNone then commitBrown { s with wen := { s.wen with saving := some (captureBrown s 3) } } else s

/-- A die's root PLL is lost. -/
def addLost (s : State) (d : Nat) : State := { s with pkg := { s.pkg with pllLost := addOnce s.pkg.pllLost d } }

theorem pllLockLost_holds {d : Die} (hd : d.val ≠ 39) (hguar : s.wen.guar = []) (hpow : s.wen.powered = true) (hdev : deviceState s ≠ 4) :
    exec (.pllLockLost d) s = .next (diesDown (addLost (lossSaved (lossRecorded s d.val)) d.val) false) := by
  have hserves : ¬(s.wen.guar ≠ [] ∨ !s.wen.powered ∨ deviceState s = 4) := by simp [hguar, hpow, hdev]
  have hex : exec (.pllLockLost d) s = execPllLockLost d s := rfl
  rw [hex, execPllLockLost, if_neg hd, if_neg hserves]
  unfold diesDown addLost lossSaved lossRecorded
  rfl

theorem lossRecorded_rest (s : State) (d : Nat) : (lossRecorded s d).pkg.pllLost = s.pkg.pllLost ∧ (lossRecorded s d).wen = s.wen := by
  have hstop := signalled_stopModules (code := 0x0106) (.refl s)
  have hlog := signalled_logFault (.refl (clearPll (stopModules s 0x0106) d)) (die := d) (cls := 0x0C) (unit := 0x200) (code := 0x0204)
    (ctx := eventCtx s) (step := 0) (detail := 0)
  have hpkg : (clearPll (stopModules s 0x0106) d).pkg = (stopModules s 0x0106).pkg := wr_pkg ..
  have hwen : (clearPll (stopModules s 0x0106) d).wen = (stopModules s 0x0106).wen := wr_wen ..
  refine ⟨?_, ?_⟩
  · rw [lossRecorded, hlog.pkgPart (fun p => p.pllLost) (fun _ => rfl), hpkg, hstop.pkgPart (fun p => p.pllLost) (fun _ => rfl)]
  · rw [lossRecorded, hlog.wen, hwen, hstop.wen]

/-- The record of a first loss is the newest. -/
theorem newestBrown_lossSaved (hfirst : s.pkg.pllLost = []) (hmark : s.wen.marker = none) :
    newestBrown (lossSaved s) = some (captureBrown s 3) := by
  have hboth : (s.pkg.pllLost.isEmpty && s.wen.marker.isNone) = true := by rw [hfirst, hmark]; rfl
  rw [lossSaved, if_pos hboth, commitBrown_of_saving (b := captureBrown s 3) rfl]
  exact newest_brownWritten _ rfl

theorem pllLockLost_effect {d : Die} (hd : d.val ≠ 39) (hguar : s.wen.guar = []) (hpow : s.wen.powered = true) (hdev : deviceState s ≠ 4) :
    ∃ t, exec (.pllLockLost d) s = .next t ∧ t.ctxs = [] ∧ d.val ∈ t.pkg.pllLost ∧
      (s.pkg.pllLost = [] → s.wen.marker = none → (newestBrown t).map (·.cause) = some 3) := by
  obtain ⟨hpll, hwen⟩ := lossRecorded_rest s d.val
  have hex := pllLockLost_holds hd hguar hpow hdev
  generalize lossRecorded s d.val = u at hpll hwen hex
  obtain ⟨hctxs, -, hheld, -, hlost⟩ := diesDown_effect (addLost (lossSaved u) d.val) false
  refine ⟨_, hex, hctxs, ?_, fun hfirst hmark => ?_⟩
  · rw [hlost]
    exact mem_addOnce.mpr (.inr rfl)
  · have hnewest := newestBrown_lossSaved (s := u) (hpll.trans hfirst) (by rw [hwen, hmark])
    have hbrown : newestBrown (diesDown (addLost (lossSaved u) d.val) false) = newestBrown (lossSaved u) := by
      rw [newestBrown, hheld]
      rfl
    rw [hbrown, hnewest]
    rfl

/-- Every root PLL is locked again. -/
def pllsLocked (s : State) : State := { s with pkg := { s.pkg with pllLost := [] } }

theorem pllLockStable_starts (hlost : s.pkg.pllLost ≠ []) (hguar : s.wen.guar = []) (hcool : s.pkg.waitCool = false) :
    ∃ t, exec .pllLockStable s = .next t ∧ t.pkg.pllLost = [] ∧ t.ctxs = [] ∧ rd t 0x200600 = 2 ∧ rd t 0x100301 = 3 := by
  have hstarts : ¬(s.pkg.pllLost = [] ∨ s.wen.guar ≠ []) := by simp [hlost, hguar]
  have hex : exec .pllLockStable s = .next (beginCold (pllsLocked s) 2 3) :=
    congrArg Host.Outcome.next (if_neg hstarts)
  obtain ⟨hctxs, hpll, -, -, -, -, -, hcause, hstage⟩ :=
    beginCold_effect (pllsLocked s) (stage := 2) (cause := 3) (by decide) (by decide)
  have hnow : (pllsLocked s).pkg.waitCool = false := hcool
  rw [hnow, if_neg Bool.false_ne_true] at hstage
  exact ⟨_, hex, hpll, hctxs, hstage, hcause⟩

/-! ### The watchdog and RST_N -/

/-- The state in which the watchdog's cold start begins. -/
def watchdogClosed (s : State) : State := bypassClose { s with wen := { s.wen with guar := [], saving := none } }

theorem watchdogExpiry_starts (hpow : s.wen.powered = true) (hsag : s.wen.heldSag = false) : ∃ t, exec .watchdogExpiry s = .next t ∧
    t.wen.guar = [] ∧ t.wen.saving = none ∧ t.ctxs = [] ∧ rd t 0x100301 = 5 ∧ (t.pkg.faults.getLast?).map (·.die) = some 39 := by
  have hgoes : ¬(!s.wen.powered || s.wen.heldSag) = true := by rw [hpow, hsag]; decide
  have hex : exec .watchdogExpiry s = .next (logFault (drawNat (beginCold (watchdogClosed s) 2 5)).2 39 0x0C 0x200
      ((drawNat (beginCold (watchdogClosed s) 2 5)).1 % 65536) 0xFFFF 0 0) := congrArg Host.Outcome.next (if_neg hgoes)
  have hclose := signalled_bypassClose (.refl { s with wen := { s.wen with guar := [], saving := none } })
  have hwen : (watchdogClosed s).wen = { s.wen with guar := [], saving := none } := hclose.wen
  obtain ⟨hctxs, -, -, hop, hsaving, -, -, hcause, -⟩ := beginCold_effect (watchdogClosed s) (stage := 2) (cause := 5) (by decide) (by decide)
  rw [hwen] at hop hsaving
  generalize beginCold (watchdogClosed s) 2 5 = u at hex hctxs hop hsaving hcause
  have hlog := signalled_logFault (.refl (drawNat u).2) (die := 39) (cls := 0x0C) (unit := 0x200) (code := (drawNat u).1 % 65536) (ctx := 0xFFFF)
    (step := 0) (detail := 0)
  refine ⟨_, hex, ?_, ?_, ?_, ?_, ?_⟩
  · rw [hlog.wen]
    exact hop
  · rw [hlog.wen]
    exact hsaving
  · rw [logFault, logRec_ctxs]
    exact hctxs
  · rw [hlog.rd _ (by decide)]
    exact hcause
  · rw [logFault_newest]
    rfl

/-- RST_N's level as Wened senses it. -/
def withRst (s : State) (low : Bool) : State := { s with wen := { s.wen with rstLow := low } }

section

variable (hpow : s.wen.powered = true) (hsag : s.wen.heldSag = false) (hguar : s.wen.guar = [])
include hpow hsag hguar

theorem rstNAssert_holds (hhigh : s.wen.rstLow = false) (hdev : deviceState s ≠ 4) :
    ∃ t, exec .rstNAssert s = .next t ∧ t.wen.rstLow = true ∧ t.ctxs = [] := by
  have hgoes : ¬(s.wen.rstLow = true ∨ s.wen.guar ≠ [] ∨ !s.wen.powered ∨ s.wen.heldSag = true) := by simp [hhigh, hguar, hpow, hsag]
  have hex : exec .rstNAssert s = .next (diesDown (withRst s true) false) :=
    congrArg Host.Outcome.next ((if_neg hgoes).trans (if_neg hdev))
  obtain ⟨hctxs, -, hwen, -, -⟩ := diesDown_effect (withRst s true) false
  refine ⟨_, hex, ?_, hctxs⟩
  rw [hwen]
  rfl

theorem rstNRelease_starts (hlow : s.wen.rstLow = true) (hstage : rd s 0x200600 ≠ 1) (hcool : s.pkg.waitCool = false) :
    ∃ t, exec .rstNRelease s = .next t ∧ t.wen.rstLow = false ∧ t.ctxs = [] ∧ rd t 0x200600 = 2 ∧ rd t 0x100301 = 1 := by
  have hgoes : ¬(!s.wen.rstLow || !s.wen.powered) = true := by rw [hlow, hpow]; decide
  have hlater : ¬(s.wen.guar = [] ∧ rd s 0x200600 = 1 ∧ deviceState s = 0) := fun ⟨_, hone, _⟩ => hstage hone
  have hex : exec .rstNRelease s = .next (requestOp (withRst s false) .rst) :=
    congrArg Host.Outcome.next ((if_neg hgoes).trans (if_neg hlater))
  rw [requestOp_rst (s := withRst s false) hguar hpow hsag] at hex
  obtain ⟨hctxs, -, -, -, -, -, hrst, hcause, hbegin⟩ := beginCold_effect (withRst s false) (stage := 2) (cause := 1) (by decide) (by decide)
  have hnow : (withRst s false).pkg.waitCool = false := hcool
  rw [hnow, if_neg Bool.false_ne_true] at hbegin
  exact ⟨_, hex, hrst, hctxs, hbegin, hcause⟩

end

/-- Settles O59: each event by the operation or the start that follows it. -/
theorem powerEventsHoldAndRestart : Obligations.PowerEventsHoldAndRestart := by
  intro s
  refine ⟨fun mv hpow => congrArg Host.Outcome.next (if_pos hpow), fun mv hoff => v52Valid_starts mv hoff, fun hpow hsag hguar => ⟨?_, ?_, ?_⟩,
    fun d v hcool hlow => dieTempReading_normal d v hcool hlow, fun b hsaving hvalid => ⟨?_, ?_, ?_, ?_⟩, fun hsag => ⟨?_, heldExit_starts hsag⟩, ?_, ?_,
    pllLockStable_starts, watchdogExpiry_starts, fun hpow hsag hguar => ⟨?_, ?_⟩⟩
  · exact fun mv => supplySag_saves mv hpow hsag hguar
  · exact powerFault_starts hpow hsag hguar
  · exact fun d v hdev hfirst hhot => dieTempReading_trips d v hpow hsag hguar hdev hfirst hhot
  · exact saveDone_holds hsaving hvalid
  · exact powerDownDone_holds hsaving hvalid
  · exact fun c hc hguar hrst hcool => coldResetDone_starts hsaving hc hguar hrst hcool
  · exact fun c hc hguar hrst => warmResetDone_starts hsaving hc hguar hrst
  · have hheld : ¬(!s.wen.heldSag) = true := by rw [hsag]; decide
    exact congrArg Host.Outcome.next (if_neg hheld)
  · exact ⟨wr (clearPll s 39) 0x100600 1, rfl, rd_wr_fits _ osc_type (by decide), (wr_ctxs ..).trans (wr_ctxs ..), (wr_pkg ..).trans (wr_pkg ..)⟩
  · exact fun d hd hguar hpow hdev => pllLockLost_effect hd hguar hpow hdev
  · exact fun hhigh hdev => rstNAssert_holds hpow hsag hguar hhigh hdev
  · exact fun hlow hstage hcool => rstNRelease_starts hpow hsag hguar hlow hstage hcool

end Sys2Proof.PowerProofs
end

section
/-! PROOFS. The stages of bring-up, the operating point and the governor (R417, R420, R421, R426 to R428, R430). -/

namespace Sys2Proof.BringUpProofs

open Sys2Proof Sys2Proof.Machine Sys2Proof.Laws Sys2Proof.PackageProofs Sys2Proof.WriteProofs Sys2Proof.SignalProofs Sys2Proof.ResetProofs

variable {s : State}

theorem holdUp_type : (entryOf 0x200300).map (·.type) = some .u16 := by decide +kernel

theorem esr_type : (entryOf 0x200301).map (·.type) = some .u16 := by decide +kernel

theorem holdUpOk_type : (entryOf 0x200302).map (·.type) = some .bool := by decide +kernel

theorem opCurrent_type : (entryOf 0x200100).map (·.type) = some .u8 := by decide +kernel

theorem powerCap_type : (entryOf 0x200102).map (·.type) = some .u16 := by decide +kernel

theorem duty_type : (entryOf 0x200401).map (·.type) = some .u8 := by decide +kernel

/-! ### What keeps the kind of a start -/

theorem wen_degradeDevice (s : State) : (degradeDevice s).wen = s.wen := by
  unfold degradeDevice
  split
  · exact wr_wen ..
  · rfl

theorem wen_faultHalf (s : State) (h code : Nat) : (faultHalf s h code).wen = s.wen := by
  obtain ⟨v, hspec⟩ := SolverProofs.faultHalf_spec s h code
  rw [hspec]
  exact wr_wen ..

theorem wen_dieLost (s : State) (d : Nat) : (dieLost s d).wen = s.wen := by
  have hroll : (match runningId s with | some id => haltCtx s id 0x0106 none | none => s).wen = s.wen := by
    split
    · exact (signalled_haltCtx (.refl s)).wen
    · rfl
  unfold dieLost
  extract_lets roll rolled src ports
  split
  · exact (wen_degradeDevice _).trans hroll
  · split
    · exact hroll
    · split
      · rw [wen_faultHalf, wen_faultHalf]
      · split
        · next hoptics =>
          have hports : Signalled s ports := by
            refine List.foldlRecOn (motive := Signalled s) _ _ (.refl s) (fun t ht i hi => signalled_portDown ht ?_)
            have := List.mem_range.mp hi
            omega
          split
          · exact (signalled_bypassClose hports).wen
          · exact hports.wen
        · exact wen_degradeDevice s

/-- A die that fails leaves Wened's state but for the reset lines. -/
theorem warm_dieFail (s : State) (d : Nat) : (dieFail s d).wen.warm = s.wen.warm := by
  unfold dieFail
  split
  · rfl
  · have hheld : (holdReset (setDie s d 5) d).wen.warm = s.wen.warm := by
      have hset : (setDie s d 5).wen = s.wen := wr_wen ..
      rw [holdReset, hset]
    rw [wen_dieLost, (signalled_logFault (.refl _)).wen]
    exact hheld

theorem warm_bootedFrom (s : State) (type slot : Nat) (img : FwImage) : (bootedFrom s type slot img).wen.warm = s.wen.warm := rfl

theorem warm_firmwareRecord (s : State) (die code : Nat) : (firmwareRecord s die code).wen.warm = s.wen.warm :=
  congrArg WenState.warm (signalled_logFault (.refl s)).wen

theorem warm_extendMrs (s : State) (i : Nat) (item : List Byte) : (extendMrs s i item).wen.warm = s.wen.warm := rfl

theorem warm_measureImage (s : State) (i : Nat) (img : FwImage) : (measureImage s i img).wen.warm = s.wen.warm := rfl

theorem warm_bootType (s : State) (die type : Nat) (images : List FwImage) : (bootType s die type images).1.wen.warm = s.wen.warm := by
  unfold bootType
  extract_lets a
  refine List.foldlRecOn (motive := fun r : State × Option FwImage => r.1.wen.warm = s.wen.warm) _ _ rfl (fun r hr slot _ => ?_)
  split
  · exact hr
  · exact hr
  · split
    · exact hr
    · split
      · exact (warm_firmwareRecord ..).trans hr
      · exact hr

theorem warm_bootTypes (s : State) (images : List FwImage) : (bootTypes s images).1.wen.warm = s.wen.warm :=
  List.foldlRecOn (motive := fun r : State × List FwImage => r.1.wen.warm = s.wen.warm) _ _ rfl (fun _ hr _ _ => (warm_bootType ..).trans hr)

theorem warm_bootDies (s : State) (images : List FwImage) : (bootDies s images).wen.warm = s.wen.warm := by
  unfold bootDies
  refine List.foldlRecOn (motive := fun t : State => t.wen.warm = s.wen.warm) _ _ (warm_bootTypes s images) (fun t ht d _ => ?_)
  have hmeasured (l : List FwImage) : (l.foldl (fun s g => measureImage s 1 g) t).wen.warm = s.wen.warm :=
    List.foldlRecOn (motive := fun t : State => t.wen.warm = s.wen.warm) _ _ ht (fun _ hu _ _ => hu)
  dsimp only
  split
  · exact hmeasured _
  · exact (warm_dieFail ..).trans (hmeasured _)

theorem warm_setClass (s : State) : (setClass s).wen.warm = s.wen.warm := by
  have hdraw (t : State) : (drawBytes t 520).2.wen = t.wen := rfl
  unfold setClass
  rw [warm_extendMrs, hdraw, wr_wen, wr_wen, wr_wen, wr_wen]

/-! ### Stages -/

/-- The stage's time is entered. -/
def timed (s : State) (ms : BitVec 32) : State := wr s 0x200601 (putField (rd s 0x200601) (4 * (stageNow s - 1)) 4 ms.toNat)

/-- How stage `n` ends. -/
def stageEnd (s t : State) (uf mohm : BitVec 16) (failing : List Nat) (images : List FwImage) (n : Nat) : State :=
  match n with
  | 1 => if s.pkg.waitCool then s else wr (stagePower t uf.toNat mohm.toNat) 0x200600 2
  | 2 => stageBoot t images
  | 3 => stageDies t images
  | 4 => stageTest t failing
  | 5 => stageMemory t
  | 6 => stageLinks t
  | 7 => stageReady t
  | _ => s

theorem bringup_ends (hb : bringing s = true) (ms : BitVec 32) (uf mohm : BitVec 16) (failing : List Nat) (images : List FwImage) :
    exec (.bringupStageComplete ms uf mohm failing images) s = .next (stageEnd s (timed s ms) uf mohm failing images (stageNow s)) := by
  have hgoes : ¬(!bringing s) = true := by rw [hb]; decide
  exact congrArg Host.Outcome.next (if_neg hgoes)

/-- Stage 1, where the dies are cool. -/
theorem stagePower_effect (t : State) (uf mohm : BitVec 16) : let u := wr (stagePower t uf.toNat mohm.toNat) 0x200600 2
    rd u 0x200600 = 2 ∧ rd u 0x200300 = uf.toNat ∧ rd u 0x200301 = mohm.toNat ∧ (rd u 0x200302 = 1 ↔ 2200 ≤ uf.toNat ∧ mohm.toNat ≤ 25) ∧
    (¬(2200 ≤ uf.toNat ∧ mohm.toNat ≤ 25) → (u.pkg.faults.getLast?).map (·.code) = some 0x0202) := by
  unfold stagePower
  extract_lets ok r v
  have hdraw (k : Nat) : rd r.2 k = rd (wr (wr (wr t 0x200300 uf.toNat) 0x200301 mohm.toNat) 0x200302 (bit ok)) k := rfl
  have huf : rd v 0x200300 = uf.toNat := by
    unfold v
    rw [rd_wr_ne _ _ (by decide), hdraw, rd_wr_ne _ _ (by decide), rd_wr_ne _ _ (by decide), rd_wr_fits t holdUp_type uf.isLt]
  have hmohm : rd v 0x200301 = mohm.toNat := by
    unfold v
    rw [rd_wr_ne _ _ (by decide), hdraw, rd_wr_ne _ _ (by decide), rd_wr_fits _ esr_type mohm.isLt]
  have hok : rd v 0x200302 = bit ok := by
    unfold v
    rw [rd_wr_ne _ _ (by decide), hdraw, rd_wr_fits _ holdUpOk_type (by cases ok <;> decide)]
  have hlog := signalled_logFault (.refl v) (die := 39) (cls := 0x0E) (unit := 0x200) (code := 0x0202) (ctx := 0xFFFF) (step := 0) (detail := 0)
  have hkept (k : Nat) (hk : signalKey k = false) : rd (if ok then v else logFault v 39 0x0E 0x200 0x0202 0xFFFF 0 0) k = rd v k := by
    split
    · rfl
    · exact hlog.rd k hk
  have hbit : bit ok = 1 ↔ 2200 ≤ uf.toNat ∧ mohm.toNat ≤ 25 := by
    rw [show ok = decide (2200 ≤ uf.toNat ∧ mohm.toNat ≤ 25) from rfl, bit]
    by_cases h : 2200 ≤ uf.toNat ∧ mohm.toNat ≤ 25 <;> simp [h]
  refine ⟨rd_bringupStage _ (by decide), ?_, ?_, ?_, fun hbad => ?_⟩
  · rw [rd_wr_ne _ _ (by decide), hkept _ (by decide), huf]
  · rw [rd_wr_ne _ _ (by decide), hkept _ (by decide), hmohm]
  · rw [rd_wr_ne _ _ (by decide), hkept _ (by decide), hok]
    exact hbit
  · have hfails : ¬ok = true := fun h => hbad (of_decide_eq_true h)
    rw [wr_pkg, if_neg hfails, PowerProofs.logFault_newest]
    rfl

theorem stageBoot_none {t : State} {images : List FwImage} (h : (bootType t 39 0 images).2 = none) :
    stageBoot t images = wr (bootType t 39 0 images).1 0x100300 5 := by
  simp only [stageBoot, h]

theorem stageBoot_some {t : State} {images : List FwImage} {img : FwImage} (h : (bootType t 39 0 images).2 = some img) :
    stageBoot t images =
      wr (wr (advanceCounters (setDie (measureImage (bootType t 39 0 images).1 0 img) 39 2) 39) 0x100300 1) 0x200600 3 := by
  simp only [stageBoot, h]

/-- Counters that advance are those of the anti-rollback entries. -/
theorem rd_advanceCounters (s : State) (d : Nat) {k : Nat} (hk : k < 0x700200) : rd (advanceCounters s d) k = rd s k :=
  List.foldlRecOn (motive := fun t : State => rd t k = rd s k) _ _ rfl (fun _ ht _ _ => (rd_wr_ne _ _ (by omega)).trans ht)

theorem stageBoot_boots {t : State} {images : List FwImage} {img : FwImage} (h : (bootType t 39 0 images).2 = some img) :
    deviceState (stageBoot t images) = 1 ∧ rd (stageBoot t images) 0x200600 = 3 ∧ dieState (stageBoot t images) 39 = 2 := by
  rw [stageBoot_some h]
  generalize measureImage (bootType t 39 0 images).1 0 img = u
  refine ⟨(rd_wr_ne _ _ (by decide)).trans (deviceState_wr _ (by decide)), rd_bringupStage _ (by decide), ?_⟩
  have hcounted : rd (advanceCounters (setDie u 39 2) 39) (0x101001 + 39) = rd (setDie u 39 2) (0x101001 + 39) := rd_advanceCounters _ _ (by decide)
  have hset : rd (setDie u 39 2) (0x101001 + 39) = 2 := rd_wr_fits u (dieState_type ⟨39, by decide⟩) (by decide)
  rw [dieState, rd_wr_ne _ _ (by decide), rd_wr_ne _ _ (by decide), hcounted, hset]

/-- The dies have booted, and the class is set. -/
def diesBooted (t : State) (images : List FwImage) : State :=
  releaseDies (setClass (bootDies (setPower (wr (holdDies t) 0x200800 (2 ^ 40 - 1)) (List.range 40)) images))

theorem stageDies_eq (t : State) (images : List FwImage) : stageDies t images =
    if (diesBooted t images).wen.warm then wr (diesBooted t images) 0x200600 5 else wr (setDies (diesBooted t images) 3) 0x200600 4 := by
  unfold stageDies diesBooted
  rfl

theorem warm_diesBooted (t : State) (images : List FwImage) : (diesBooted t images).wen.warm = t.wen.warm := by
  have hpower : (setPower (wr (holdDies t) 0x200800 (2 ^ 40 - 1)) (List.range 40)).wen.warm = t.wen.warm := by
    have hheld := (holdDies_rest t).2.2
    rw [setPower, wr_wen, hheld]
    rfl
  have hrelease (u : State) : (releaseDies u).wen.warm = u.wen.warm := rfl
  rw [diesBooted, hrelease, warm_setClass, warm_bootDies, hpower]

theorem stageDies_effect (t : State) (images : List FwImage) : rd (stageDies t images) 0x200600 = if t.wen.warm then 5 else 4 := by
  rw [stageDies_eq, warm_diesBooted]
  split
  · exact rd_bringupStage _ (by decide)
  · exact rd_bringupStage _ (by decide)

theorem wen_timed (s : State) (ms : BitVec 32) : (timed s ms).wen = s.wen := wr_wen ..

/-! ### The last stage -/

theorem signQuote_rest (s : State) : (signQuote s none 0).ent = s.ent ∧ (signQuote s none 0).wen.idKeys = s.wen.idKeys ∧
    (signQuote s none 0).wen.scrubDue = s.wen.scrubDue := by
  unfold signQuote
  extract_lets r q u
  clear_value q
  split <;> exact ⟨rfl, rfl, rfl⟩

/-- The access tables are reset, and the start is over. -/
def accessOpen (s : State) : State := { s with pkg := { s.pkg with access := accessReset }, wen := { s.wen with warm := false } }

theorem stageReady_eq {t : State} (h : t.wen.scrubDue = false) : stageReady t =
    wr (wr (accessOpen (signQuote t none 0)) 0x100300 (readyState (signQuote t none 0))) 0x200600 8 := by
  obtain ⟨-, -, hdue⟩ := signQuote_rest t
  have hnone : ¬(wr (wr (accessOpen (signQuote t none 0)) 0x100300 (readyState (signQuote t none 0))) 0x200600 8).wen.scrubDue = true := by
    rw [wr_wen, wr_wen]
    exact ne_true_of_eq_false (hdue.trans h)
  exact if_neg hnone

theorem readyState_keyless {s : State} (h : s.wen.idKeys = false) : readyState s = 6 := by
  rw [readyState, h]
  rfl

theorem readyState_served {s : State} (hkeys : s.wen.idKeys = true) (hdies : ∀ d, d < 39 → dieState s d = 2) : readyState s = 2 := by
  have hnone : ¬(List.range 39).any (fun d => decide (dieState s d = 4) || decide (dieState s d = 5 ∧ (d < 24 ∨ d = 38))) = true := by
    rw [List.any_eq_true]
    rintro ⟨d, hd, hbad⟩
    rw [hdies d (List.mem_range.mp hd)] at hbad
    simp at hbad
  rw [readyState, hkeys, if_neg hnone]
  rfl

theorem stageReady_effect {t : State} (h : t.wen.scrubDue = false) : rd (stageReady t) 0x200600 = 8 ∧ (stageReady t).pkg.access = accessReset ∧
    (stageReady t).wen.warm = false ∧ (t.wen.idKeys = false → deviceState (stageReady t) = 6) ∧
    (t.wen.idKeys = true → (∀ d, d < 39 → dieState t d = 2) → deviceState (stageReady t) = 2) := by
  obtain ⟨hent, hkeys, -⟩ := signQuote_rest t
  rw [stageReady_eq h]
  generalize signQuote t none 0 = u at hent hkeys
  have hstate {v : Nat} (hv : readyState u = v) (hfits : v < 256) : deviceState (wr (wr (accessOpen u) 0x100300 (readyState u)) 0x200600 8) = v := by
    rw [hv, deviceState, rd_wr_ne _ _ (by decide)]
    exact deviceState_wr _ hfits
  refine ⟨rd_bringupStage _ (by decide), ?_, ?_, fun hnone => ?_, fun hsome hdies => ?_⟩
  · rw [wr_pkg, wr_pkg]
    rfl
  · rw [wr_wen, wr_wen]
    rfl
  · exact hstate (readyState_keyless (hkeys.trans hnone)) (by decide)
  · exact hstate (readyState_served (hkeys.trans hsome) (fun d hd => (LadleProofs.rd_of_ent hent _).trans (hdies d hd))) (by decide)

theorem bringupTimeout_fails (d : Die) (hb : bringing s = true) (hd : dieState s d.val ≠ 5) (hmd : d.val ≠ 39) :
    ∃ t, exec (.bringupTimeout d) s = .next t ∧ dieState t d.val = 5 ∧ d.val ∈ t.wen.resetHeld := by
  have hgoes : ¬(!bringing s || decide (dieState s d.val = 5 ∨ d.val = 39)) = true := by simp [hb, hd, hmd]
  have hex : exec (.bringupTimeout d) s = .next (dieLost (logFault (holdReset (setDie s d.val 5) d.val) d.val 0x0C 0x200 0x0205 0xFFFF 0 0) d.val) :=
    congrArg Host.Outcome.next (if_neg hgoes)
  have hstate : dieState (holdReset (setDie s d.val 5) d.val) d.val = 5 := rd_wr_fits s (dieState_type d) (by decide)
  have hheld : d.val ∈ (holdReset (setDie s d.val 5) d.val).wen.resetHeld := mem_addOnce.mpr (.inr rfl)
  generalize holdReset (setDie s d.val 5) d.val = u at hex hstate hheld
  have hlost := controlKept_dieLost (controlKept_logFault (.refl u) (die := d.val) (cls := 0x0C) (unit := 0x200) (code := 0x0205) (ctx := 0xFFFF)
    (step := 0) (detail := 0)) (d := d.val)
  refine ⟨_, hex, (hlost.ring _ ⟨by omega, by omega⟩).trans hstate, ?_⟩
  rw [hlost.resetHeld]
  exact hheld

/-! ### The operating point -/

/-- Every synthesiser is locked at a target. -/
def synthsLocked (s : State) (v : Nat) : State := { s with pkg := { s.pkg with opNext := some (v, true) } }

theorem exec_synthLocked {v : Nat} (h : s.pkg.opNext = some (v, false)) :
    exec .synthLocked s = .next (settleOp (switchTargets (synthsLocked s v))) := by
  have hex : exec .synthLocked s = execSynthLocked s := rfl
  rw [hex, execSynthLocked, h]
  rfl

theorem switchTargets_locked (s : State) (v : Nat) : switchTargets (synthsLocked s v) = { synthsLocked s v with
    solv := { s.solv with clock := ((List.range 4).filter (fun h => (runningOn s h).isEmpty)).foldl (fun t h => tset 0 t h v) s.solv.clock } } := rfl

theorem clock_switchTargets (s : State) (v : Nat) {h : Nat} (hh : h < 4) :
    tget 0 (switchTargets (synthsLocked s v)).solv.clock h = if runningOn s h = [] then v else tget 0 s.solv.clock h := by
  have hmem : h ∈ (List.range 4).filter (fun h => (runningOn s h).isEmpty) ↔ runningOn s h = [] := by
    rw [List.mem_filter, List.mem_range, List.isEmpty_iff]
    exact and_iff_right hh
  rw [switchTargets_locked]
  dsimp only
  rw [tget_foldl_tset]
  exact if_congr hmem rfl rfl

theorem opCap_fits (v : Nat) : opCap v < 65536 := by
  unfold opCap
  split
  · decide
  · split <;> decide

/-- The operating point takes effect. -/
theorem applyOp_ready {u : State} {v : Nat} (hnext : u.pkg.opNext = some (v, true)) (hready : opReady u v = true) (hv : v < 256) :
    rd (applyOp u) 0x200100 = v ∧ rd (applyOp u) 0x200102 = opCap v ∧ (applyOp u).pkg.opNext = none ∧ (applyOp u).ctxs = u.ctxs := by
  have happly : applyOp u = wr (wr { u with pkg := { u.pkg with opNext := none } } 0x200100 v) 0x200102 (opCap v) := by
    simp only [applyOp, hnext, hready, if_true]
  rw [happly]
  refine ⟨?_, rd_wr_fits _ powerCap_type (opCap_fits v), ?_, ?_⟩
  · rw [rd_wr_ne _ _ (by decide), rd_wr_fits _ opCurrent_type hv]
  · rw [wr_pkg, wr_pkg]
  · rw [wr_ctxs, wr_ctxs]

theorem applyOp_waits {u : State} {v : Nat} (hnext : u.pkg.opNext = some (v, true)) (hwait : opReady u v = false) : applyOp u = u := by
  simp only [applyOp, hnext, hwait, Bool.false_eq_true, if_false]

theorem settleOp_idle {u : State} (h : runningId u = none) : settleOp u = applyOp u := by
  simp only [settleOp, h]

theorem settleOp_runs {u : State} {id : Nat} (h : runningId u = some id) (hr : isRunning (getC u id) = true) : settleOp u = u := by
  simp only [settleOp, h, hr, if_true]

theorem synthLocked_effect {v : Nat} (hv : v ≤ 2) (hnext : s.pkg.opNext = some (v, false)) : let u := switchTargets (synthsLocked s v)
    (runningId s = none → opReady u v = true →
      ∃ t, exec .synthLocked s = .next t ∧ rd t 0x200100 = v ∧ rd t 0x200102 = opCap v ∧ t.pkg.opNext = none ∧ t.ctxs = s.ctxs) ∧
    (runningId s = none → opReady u v = false → exec .synthLocked s = .next u) ∧
    (∀ h, h < 4 → runningOn s h = [] → tget 0 u.solv.clock h = v) ∧
    (∀ h, h < 4 → runningOn s h ≠ [] → tget 0 u.solv.clock h = tget 0 s.solv.clock h) ∧
    (∀ id, runningId s = some id → isRunning (getC s id) = true → exec .synthLocked s = .next u) := by
  intro u
  have hex : exec .synthLocked s = .next (settleOp u) := exec_synthLocked hnext
  have hid : runningId u = runningId s := rfl
  have hu : u.pkg.opNext = some (v, true) := rfl
  refine ⟨fun hidle hready => ?_, fun hidle hwait => ?_, fun h hh hfree => ?_, fun h hh hbusy => ?_, fun id hrun hruns => ?_⟩
  · obtain ⟨hop, hcap, hdone, hctxs⟩ := applyOp_ready hu hready (by omega)
    rw [settleOp_idle (hid.trans hidle)] at hex
    exact ⟨_, hex, hop, hcap, hdone, hctxs⟩
  · rw [hex, settleOp_idle (hid.trans hidle), applyOp_waits hu hwait]
  · rw [clock_switchTargets s v hh, if_pos hfree]
  · rw [clock_switchTargets s v hh, if_neg hbusy]
  · rw [hex, settleOp_runs (hid.trans hrun) hruns]

/-! ### The governor -/

/-- The 1 ms window with one more sample. -/
def sampled (s : State) (w : Nat) : List Nat := (s.pkg.govWin ++ [w]).drop (s.pkg.govWin.length + 1 - 100)

/-- The window's mean, filled at the cap. -/
def windowMean (s : State) (w : Nat) : Nat := ((sampled s w).foldl (· + ·) 0 + (100 - (sampled s w).length) * rd s 0x200102) / 100

theorem governorSample_effect (w : Nat) (hsec : s.ptpNs / 1000000000 = s.pkg.ptpSec) : ∃ t, exec (.governorSample w) s = .next t ∧
    t.pkg.govWin = sampled s w ∧ t.pkg.coarse = (s.pkg.coarse.1 + w, s.pkg.coarse.2 + 1) ∧ rd t 0x200202 = fitEntry 0x200202 (windowMean s w) := by
  have hlen : (s.pkg.govWin ++ [w]).drop ((s.pkg.govWin ++ [w]).length - 100) = sampled s w := by rw [sampled, List.length_append, List.length_singleton]
  have hsame : ¬(s.ptpNs / 1000000000 ≠ s.pkg.ptpSec ∧ s.pkg.coarse.2 ≠ 0) := fun h => h.1 hsec
  have hex : exec (.governorSample w) s = execGovernorSample w s := rfl
  rw [hex, execGovernorSample]
  simp only [hlen, wr_pkg, if_neg hsame, if_pos hsec]
  refine ⟨_, rfl, rfl, rfl, ?_⟩
  exact (rd_wr _ _ _ _).trans (if_pos rfl)

/-- The time that the governor held the clocks back counts for the running context. -/
def dutyCounted (s : State) : State :=
  if rd s 0x200401 < 16 then
    match runningId s with
    | some id => modC s id (fun c => eincr c 0x200400 (100000 * ticksPerNs))
    | none => s
  else s

theorem governorDutyUpdate_effect (d : Fin 16) : ∃ t, exec (.governorDutyUpdate d) s = .next t ∧ rd t 0x200401 = d.val + 1 ∧
    (∀ id, runningId s = some id → rd s 0x200401 < 16 → erd (getC t id) 0x200400 = erd (getC s id) 0x200400 + 16800000) := by
  have hex : exec (.governorDutyUpdate d) s = .next (wr (dutyCounted s) 0x200401 (d.val + 1)) := rfl
  have hd := d.isLt
  refine ⟨_, hex, rd_wr_fits _ duty_type (by simp only [typeSize]; omega), fun id hid hslow => ?_⟩
  have hcounted : dutyCounted s = modC s id (fun c => eincr c 0x200400 (100000 * ticksPerNs)) := by
    rw [dutyCounted, if_pos hslow, hid]
  rw [CollProofs.getC_congr (wr_ctxs ..), hcounted, LadleProofs.getC_modC_self, eincr, CollProofs.erd_ewr_self]
  rfl

/-- Settles O60: bring-up by its stage, the operating point by what still waits. -/
theorem bringUpAndGovernor : Obligations.BringUpAndGovernor := by
  intro s
  refine ⟨fun ms uf mohm failing images hb => ?_, bringupTimeout_fails, fun v hv hnext => synthLocked_effect hv hnext,
    fun w hsec => governorSample_effect w hsec, fun d => governorDutyUpdate_effect d⟩
  intro s' run
  have hs : s' = timed s ms := rfl
  have hrun {n : Nat} {t : State} (h : stageNow s = n) (ht : stageEnd s s' uf mohm failing images n = t) : run = .next t := by
    rw [← ht, ← h, hs]
    exact bringup_ends hb ms uf mohm failing images
  have hwen : s'.wen = s.wen := wen_timed s ms
  have hdies (d : Nat) (hd : d < 39) : dieState s' d = dieState s d := rd_wr_ne _ _ (by omega)
  clear_value run s'
  clear hs
  refine ⟨fun h hhot => ?_, fun h hcool => ?_, fun h hnone => ?_, fun h hsome => ?_, fun h hcold => ?_, fun h hwarm => ?_, fun h => ?_, fun h => ?_,
    fun h => ?_, fun h hdue => ?_⟩
  · exact hrun h (if_pos hhot)
  · exact ⟨_, hrun h (if_neg (ne_true_of_eq_false hcool)), stagePower_effect s' uf mohm⟩
  · refine ⟨stageBoot s' images, hrun h (by rw [stageEnd]), ?_⟩
    rw [stageBoot_none hnone]
    exact deviceState_wr _ (by decide)
  · obtain ⟨img, himg⟩ := Option.ne_none_iff_exists'.mp hsome
    exact ⟨stageBoot s' images, hrun h (by rw [stageEnd]), stageBoot_boots himg⟩
  · refine ⟨stageDies s' images, hrun h (by rw [stageEnd]), ?_⟩
    rw [stageDies_effect, hwen, hcold]
    rfl
  · refine ⟨stageDies s' images, hrun h (by rw [stageEnd]), ?_⟩
    rw [stageDies_effect, hwen, hwarm]
    rfl
  · exact ⟨stageTest s' failing, hrun h (by rw [stageEnd]), rd_bringupStage _ (by decide)⟩
  · exact ⟨stageMemory s', hrun h (by rw [stageEnd]), rd_bringupStage _ (by decide)⟩
  · exact ⟨stageLinks s', hrun h (by rw [stageEnd]), rd_bringupStage _ (by decide)⟩
  · obtain ⟨hstage, haccess, hwarm, hkeyless, hserved⟩ := stageReady_effect (t := s') (by rw [hwen, hdue])
    rw [hwen] at hkeyless hserved
    exact ⟨stageReady s', hrun h (by rw [stageEnd]), hstage, haccess, hwarm, hkeyless,
      fun hkeys hall => hserved hkeys (fun d hd => (hdies d hd).trans (hall d hd))⟩

end Sys2Proof.BringUpProofs
end

section
/-! PROOFS. The Taster's slices and full tests, staged images, and the counter snapshot (R345, R346, R401 to R406, R410, R424). -/

namespace Sys2Proof.TasterProofs

open Sys2Proof Sys2Proof.Machine Sys2Proof.Laws Sys2Proof.PackageProofs Sys2Proof.WriteProofs Sys2Proof.SignalProofs
  Sys2Proof.MaintenanceProofs

theorem slices_type : (entryOf 0xA00400).map (·.type) = some .u64 := by decide +kernel

theorem sliceFails_type : (entryOf 0xA00401).map (·.type) = some .u32 := by decide +kernel

theorem fullTest_type : (entryOf 0xA00900).map (·.type) = some (.octets 8) := by decide +kernel

/-! ### What leaves the Tasters -/

/-- `t` comes from `s` by operations that leave the Tasters, the full tests under way, and the entries of tests. -/
structure TestKept (s t : State) : Prop where
  rd      : ∀ k, 0xA00000 ≤ k → rd t k = rd s k
  tasters : t.pkg.tasters = s.pkg.tasters
  full    : t.pkg.full = s.pkg.full

namespace TestKept

variable {s t u : State}

theorem refl (s : State) : TestKept s s := ⟨fun _ _ => rfl, rfl, rfl⟩

theorem trans (h : TestKept s t) (g : TestKept t u) : TestKept s u :=
  ⟨fun k hk => (g.rd k hk).trans (h.rd k hk), g.tasters.trans h.tasters, g.full.trans h.full⟩

/-- An update outside the entries, the Tasters and the full tests. -/
theorem upd (h : TestKept s t) (he : u.ent = t.ent := by rfl) (ht : u.pkg.tasters = t.pkg.tasters := by rfl)
    (hf : u.pkg.full = t.pkg.full := by rfl) : TestKept s u :=
  h.trans ⟨fun k _ => LadleProofs.rd_of_ent he k, ht, hf⟩

theorem ite {p : Prop} [Decidable p] (h : TestKept s t) (g : TestKept s u) : TestKept s (if p then t else u) := by
  split <;> assumption

theorem foldl {α : Type} {f : State → α → State} {l : List α} (hf : ∀ u a, TestKept s u → TestKept s (f u a)) (h : TestKept s t) :
    TestKept s (l.foldl f t) :=
  List.foldlRecOn (motive := TestKept s) l f h (fun u hu a _ => hf u a hu)

theorem wr (h : TestKept s t) {k : Nat} (v : Nat) (hk : k < 0xA00000) : TestKept s (wr t k v) :=
  h.trans ⟨fun _ hq => rd_wr_ne _ _ (by omega), by rw [wr_pkg], by rw [wr_pkg]⟩

theorem getTaster (h : TestKept s t) (d : Nat) : getTaster t d = getTaster s d := by
  rw [Machine.getTaster, Machine.getTaster, h.tasters]

end TestKept

theorem Signalled.testKept {s t : State} (h : Signalled s t) : TestKept s t :=
  ⟨fun k hk => h.rd k (decide_eq_false (by omega)), h.pkgPart (fun p => p.tasters) (fun _ => rfl), h.pkgPart (fun p => p.full) (fun _ => rfl)⟩

theorem testKept_applyOp (s : State) : TestKept s (applyOp s) := by
  unfold applyOp
  split
  · refine .ite ?_ (.refl s)
    have hfree : TestKept s { s with pkg := { s.pkg with opNext := none } } := (TestKept.refl s).upd
    exact (hfree.wr _ (by decide)).wr _ (by decide)
  · exact .refl s

theorem testKept_settled (s : State) : TestKept s (SolverProofs.settled s) := by
  obtain ⟨x, hx⟩ := SolverProofs.switchTargets_spec s
  have hswitched : TestKept s (switchTargets s) := by
    rw [hx]
    exact (TestKept.refl s).upd
  unfold SolverProofs.settled settleOp
  split
  · exact .ite hswitched (hswitched.trans (testKept_applyOp _))
  · exact hswitched.trans (testKept_applyOp _)

theorem targetHalves_lt {kind first h : Nat} (hfirst : first < 4) (hh : h ∈ targetHalves kind first) : h < 8 := by
  unfold targetHalves at hh
  split at hh <;> simp at hh <;> omega

theorem testKept_setHalves {s t : State} {kind first : Nat} (v : Nat) (hfirst : first < 4) (h : TestKept s t) :
    TestKept s (setHalves t kind first v) := by
  refine List.foldlRecOn (motive := TestKept s) _ _ h (fun u hu x hx => ?_)
  have := targetHalves_lt hfirst hx
  exact .ite hu (hu.wr _ (by omega))

theorem testKept_startAll (s : State) : TestKept s (startAll s) := by
  refine List.foldlRecOn (motive := TestKept s) _ _ (.refl s) (fun t ht f hf => ht.trans ?_)
  have hlt := List.mem_range.mp hf
  rcases SolverProofs.startNext_cases t f with h | ⟨p, p', rest, -, -, -, h⟩
  · rw [h]
    exact testKept_settled t
  · rw [h]
    exact testKept_setHalves 1 hlt (testKept_settled t).upd

theorem testKept_countEvent {s t : State} (f : Context → Context) (h : TestKept s t) : TestKept s (countEvent t f) := by
  unfold countEvent
  split
  · exact .ite h.upd h
  · exact h

theorem testKept_writeBack {s t : State} (e : SieveEnt) (h : TestKept s t) : TestKept s (writeBack t e) :=
  TestKept.wr h.upd _ (by decide)

theorem testKept_flushSlice {s t : State} (k : Nat) (h : TestKept s t) : TestKept s (flushSlice t k) := by
  have hflushed : TestKept s (flushSieves t (fun j _ => decide (j = k))) := .foldl (fun _ e hu => testKept_writeBack e hu) h.upd
  exact hflushed.upd

theorem testKept_faultHalf {s t : State} {h : Nat} (code : Nat) (hh : h < 4) (hk : TestKept s t) : TestKept s (faultHalf t h code) := by
  obtain ⟨v, hspec⟩ := SolverProofs.faultHalf_spec t h code
  have hoff : TestKept s (wr t (0x601201 + h) 2) := hk.wr 2 (by omega)
  rw [hspec]
  exact hoff.upd

theorem testKept_columnPassed {s t : State} {h : Nat} (col : Nat) (hh : h < 4) (hk : TestKept s t) : TestKept s (columnPassed t h col) := by
  unfold columnPassed
  dsimp only
  refine .ite ?_ hk.upd
  have hcounted (x : SolvState) : TestKept s { t with solv := x } := hk.upd
  have hidle (x : SolvState) : TestKept s (wr { t with solv := x } (0x601201 + h) 0) := (hcounted x).wr 0 (by omega)
  exact (hidle _).upd

/-! ### Slices -/

theorem getTaster_setTaster (s : State) (d : Nat) (t : Taster) : getTaster (setTaster s d t) d = t := tget_tset_self ..

/-- A request that stands first, on a die whose Taster is free, starts. -/
theorem tasterSliceStart_first {s : State} {d : Die} {q : TasterReq} {rest : List TasterReq} (hslice : (getTaster s d.val).slice = none)
    (hlast : (getTaster s d.val).last = none) (hreqs : (getTaster s d.val).reqs = q :: rest)
    (hmay : mayTaste s d.val (getTaster s d.val) q.kind q.unit = true) :
    exec (.tasterSliceStart d) s = .next (startRequest s d.val (getTaster s d.val) q) := by
  have hex : exec (.tasterSliceStart d) s = execTasterSliceStart d s := rfl
  rw [hex, execTasterSliceStart]
  simp only [hslice, hlast, hreqs, hmay, List.find?_cons, Option.isSome_none, Bool.false_eq_true, if_false, Bool.not_false, Bool.or_true,
    Bool.and_self]

/-- The request has left the queue. -/
def dequeued (t : Taster) (q : TasterReq) : Taster :=
  { t with reqs := t.reqs.filter (fun x => !decide (x.kind = q.kind ∧ x.unit = q.unit)) }

theorem startRequest_slice {s : State} {d : Nat} {t : Taster} {q : TasterReq} (hkind : q.kind ∈ [1, 2, 3, 4]) :
    startRequest s d t q = startSlice s d (dequeued t q) q.kind q.unit true := by
  have h5 : q.kind ≠ 5 := by rintro h; rw [h] at hkind; simp at hkind
  have h6 : q.kind ≠ 6 := by rintro h; rw [h] at hkind; simp at hkind
  unfold startRequest
  split
  · contradiction
  · contradiction
  · rfl

/-- The Taster under its new slice. -/
def slicing (s : State) (d : Nat) (t : Taster) (kind unit : Nat) (requested : Bool) : Taster :=
  let m := decide (kind = 1) && moduleCluster s d unit
  let step := match runningId s with | some id => some (getC s id).step | none => none
  { t with slice := some (kind, unit, bit m + 2 * bit requested), last := some s.ptpNs, lastStep := if m then step else t.lastStep }

/-- A slice counts as it starts. -/
def sliceCounted (s : State) (d : Nat) (t : Taster) (kind unit : Nat) (requested : Bool) : State :=
  incr (setTaster s d (slicing s d t kind unit requested)) 0xA00400 1

theorem startSlice_kept (s : State) (d : Nat) (t : Taster) (kind unit : Nat) (requested : Bool) :
    TestKept (sliceCounted s d t kind unit requested) (startSlice s d t kind unit requested) :=
  testKept_countEvent _ (.ite (testKept_flushSlice _ (.refl _)) (.refl _))

theorem sliceCounted_effect (s : State) (d : Nat) (t : Taster) (kind unit : Nat) (requested : Bool) :
    getTaster (sliceCounted s d t kind unit requested) d = slicing s d t kind unit requested ∧
    rd (sliceCounted s d t kind unit requested) 0xA00400 = (rd s 0xA00400 + 1) % 2 ^ 64 := by
  have hset : getTaster (setTaster s d (slicing s d t kind unit requested)) d = slicing s d t kind unit requested := getTaster_setTaster ..
  have hrd : rd (setTaster s d (slicing s d t kind unit requested)) 0xA00400 = rd s 0xA00400 := LadleProofs.rd_of_ent rfl _
  unfold sliceCounted
  generalize setTaster s d (slicing s d t kind unit requested) = u at hset hrd
  refine ⟨?_, ?_⟩
  · rw [getTaster, incr, wr_pkg]
    exact hset
  · rw [incr, rd_wr, if_pos rfl, hrd, fitEntry_of_type slices_type]
    rfl

theorem sliceStart_effect {s : State} {d : Die} {q : TasterReq} {rest : List TasterReq} (hslice : (getTaster s d.val).slice = none)
    (hlast : (getTaster s d.val).last = none) (hreqs : (getTaster s d.val).reqs = q :: rest) (hkind : q.kind ∈ [1, 2, 3, 4])
    (hmay : mayTaste s d.val (getTaster s d.val) q.kind q.unit = true) :
    ∃ t, exec (.tasterSliceStart d) s = .next t ∧ ((getTaster t d.val).slice.map (fun x => (x.1, x.2.1))) = some (q.kind, q.unit) ∧
      q ∉ (getTaster t d.val).reqs ∧ (getTaster t d.val).last = some s.ptpNs ∧ rd t 0xA00400 = (rd s 0xA00400 + 1) % 2 ^ 64 := by
  have hex := tasterSliceStart_first hslice hlast hreqs hmay
  rw [startRequest_slice hkind] at hex
  have hkept := startSlice_kept s d.val (dequeued (getTaster s d.val) q) q.kind q.unit true
  obtain ⟨htaster, hcount⟩ := sliceCounted_effect s d.val (dequeued (getTaster s d.val) q) q.kind q.unit true
  have ht := (hkept.getTaster d.val).trans htaster
  refine ⟨_, hex, ?_, ?_, ?_, (hkept.rd _ (by decide)).trans hcount⟩ <;> rw [ht]
  · rfl
  · intro hq
    have hgone : (!decide (q.kind = q.kind ∧ q.unit = q.unit)) = true := (List.mem_filter.mp hq).2
    simp at hgone
  · rfl

/-- A slice's end releases its Taster. -/
def sliceOver (s : State) (d : Nat) : State := startAll (setTaster s d { getTaster s d with slice := none })

theorem sliceOver_effect (s : State) (d : Nat) : (getTaster (sliceOver s d) d).slice = none ∧ rd (sliceOver s d) 0xA00401 = rd s 0xA00401 := by
  have hkept := testKept_startAll (setTaster s d { getTaster s d with slice := none })
  refine ⟨?_, (hkept.rd _ (by decide)).trans (LadleProofs.rd_of_ent rfl _)⟩
  rw [sliceOver, hkept.getTaster, getTaster_setTaster]

theorem sliceEnds_passed {s : State} {d : Die} {unit flags : Nat} (failing : List Nat) (h : (getTaster s d.val).slice = some (3, unit, flags)) :
    sliceEnds d true failing s = sliceOver s d.val := by
  rw [sliceEnds, h]
  rfl

theorem sliceEnds_failed {s : State} {d : Die} {unit flags : Nat} (failing : List Nat) (h : (getTaster s d.val).slice = some (4, unit, flags)) :
    sliceEnds d false failing s = columnFailed (sliceRecord (incr (sliceOver s d.val) 0xA00401 1) d.val (unit / 16)) (columnHalf d.val unit) := by
  simp only [sliceEnds, h, Bool.false_eq_true, if_false, sliceFailed, sliceUnit, sliceOver]

/-- A slice's record leaves whether its Taster is free, and the count of failures. -/
theorem sliceRecord_effect (s : State) (d unit : Nat) : (getTaster (sliceRecord s d unit) d).slice = (getTaster s d).slice ∧
    rd (sliceRecord s d unit) 0xA00401 = rd s 0xA00401 := by
  unfold sliceRecord
  extract_lets t u
  have hkept (step : Nat) := Signalled.testKept (signalled_logFault (.refl u) (die := d) (cls := 0x0A) (unit := unit) (code := 0x0A01)
    (ctx := eventCtx u) (step := step) (detail := 0))
  have hu : getTaster u d = { t with lastFail := rd s 0x100400 } := getTaster_setTaster ..
  refine ⟨?_, ((hkept _).rd _ (by decide)).trans (LadleProofs.rd_of_ent rfl _)⟩
  rw [(hkept _).getTaster, hu]

theorem columnFail_effect {s : State} {d : Die} {unit flags : Nat} (failing : List Nat) (h : (getTaster s d.val).slice = some (4, unit, flags))
    (hmin : 28 ≤ d.val) (hmax : d.val < 30) (hunit : unit < 32) : ∃ t, exec (.sliceBistDone d false failing) s = .next (retryTeardown t) ∧
      rd t (0x601201 + columnHalf d.val unit) = 2 ∧ (getTaster t d.val).slice = none ∧ rd t 0xA00401 = (rd s 0xA00401 + 1) % 2 ^ 32 := by
  have hhalf : columnHalf d.val unit < 4 := by
    unfold columnHalf
    omega
  have hex : exec (.sliceBistDone d false failing) s = .next (retryTeardown (sliceEnds d false failing s)) := rfl
  obtain ⟨hover, hcount⟩ := sliceOver_effect s d.val
  have hcounted : rd (incr (sliceOver s d.val) 0xA00401 1) 0xA00401 = (rd s 0xA00401 + 1) % 2 ^ 32 := by
    rw [incr, rd_wr, if_pos rfl, hcount, fitEntry_of_type sliceFails_type]
    rfl
  have hfree : (getTaster (incr (sliceOver s d.val) 0xA00401 1) d.val).slice = none := by
    rw [getTaster, incr, wr_pkg]
    exact hover
  rw [sliceEnds_failed failing h] at hex
  obtain ⟨hslice, hrd⟩ := sliceRecord_effect (incr (sliceOver s d.val) 0xA00401 1) d.val (unit / 16)
  rw [hfree] at hslice
  rw [hcounted] at hrd
  generalize sliceRecord (incr (sliceOver s d.val) 0xA00401 1) d.val (unit / 16) = u at hex hslice hrd
  have hreset (x : SolvState) : TestKept u { u with solv := x } := (TestKept.refl u).upd
  have hkept : TestKept u (columnFailed u (columnHalf d.val unit)) := testKept_faultHalf 0x23 hhalf (hreset _)
  refine ⟨_, hex, SolverProofs.rd_faultHalf_self _ ⟨columnHalf d.val unit, hhalf⟩ 0x23, ?_, (hkept.rd _ (by decide)).trans hrd⟩
  rw [hkept.getTaster, hslice]

/-! ### Full tests -/

theorem testKept_fullTested (s : State) {d : Nat} : TestKept s (fullTested s d []) := by
  unfold fullTested
  split
  · exact (TestKept.refl s).upd
  · split
    · refine List.foldlRecOn (motive := TestKept s) _ _ (.refl s) (fun t ht i hi => ?_)
      have hlt := List.mem_range.mp hi
      exact .foldl (fun u c hu => testKept_columnPassed c (by omega) hu) ht
    · exact .refl s

theorem fullTestDone_passed {s : State} {d : Die} (ms : BitVec 32) (h : d.val ∈ s.pkg.full) : ∃ t, exec (.fullTestDone d [] ms) s = .next t ∧
    d.val ∉ t.pkg.full ∧ rd t 0xA00900 = d.val + 2 * 256 + ms.toNat * 2 ^ 32 ∧ rd t 0xA00401 = rd s 0xA00401 := by
  have hex : exec (.fullTestDone d [] ms) s = .next (wr (fullTested
      { s with pkg := { s.pkg with full := s.pkg.full.filter (fun x => decide (x ≠ d.val)) } } d.val []) 0xA00900 (d.val + 2 * 256 + ms.toNat * 2 ^ 32)) :=
    congrArg Host.Outcome.next (if_neg (not_not_intro h))
  have hkept := testKept_fullTested { s with pkg := { s.pkg with full := s.pkg.full.filter (fun x => decide (x ≠ d.val)) } } (d := d.val)
  generalize fullTested { s with pkg := { s.pkg with full := s.pkg.full.filter (fun x => decide (x ≠ d.val)) } } d.val [] = u at hex hkept
  have hfits : d.val + 2 * 256 + ms.toNat * 2 ^ 32 < 2 ^ (8 * typeSize (.octets 8)) := by
    have hsize : 2 ^ (8 * typeSize (.octets 8)) = 2 ^ 64 := by decide
    have hms := ms.isLt
    have hd := d.isLt
    rw [hsize]
    omega
  refine ⟨_, hex, ?_, rd_wr_fits _ fullTest_type hfits, ?_⟩
  · rw [wr_pkg, hkept.full]
    simp
  · rw [rd_wr_ne _ _ (by decide), hkept.rd _ (by decide)]
    exact LadleProofs.rd_of_ent rfl _

/-! ### Images -/

theorem rd_stageState (s : State) {st type code : Nat} (hst : st < 256) (htype : type < 8) (hcode : code < 65536) :
    rd (stageState s st type code) 0x103001 = st + type * 256 + code * 65536 := by
  have hval : st + type % 256 * 256 + code * 65536 = st + type * 256 + code * 65536 := by omega
  have hfits : st + type * 256 + code * 65536 < 2 ^ (8 * typeSize (.octets 4)) := by
    have hsize : 2 ^ (8 * typeSize (.octets 4)) = 2 ^ 32 := by decide
    rw [hsize]
    omega
  rw [stageState, hval]
  exact rd_wr_fits s stageState_type hfits

theorem imageBad_fits {s : State} {type code : Nat} {img : FwImage} (h : imageBad s type img = some code) : code < 65536 := by
  unfold imageBad at h
  split at h
  · cases h; decide
  · split at h
    · cases h; decide
    · contradiction

/-- The pull has ended. -/
def pullOver (s : State) : State := { s with wen := { s.wen with staged := none } }

/-- A verified image stands in its slot. -/
def imageStaged (s : State) (type slot : Nat) (img : FwImage) : State :=
  let t := setSlot (pullOver s) type slot (slotOf img true)
  { t with wen := { t.wen with stagedOk := t.wen.stagedOk ++ [type] } }

theorem fwStageVerified_ok {s : State} {img : FwImage} {type slot : Nat} (hstaged : s.wen.staged = some (type, slot)) (htype : type < 8)
    (hgood : imageBad s type img = none) : exec (.fwStageVerified img) s = .next (stageState (imageStaged s type slot img) 2 type 0) := by
  have hex : exec (.fwStageVerified img) s = execFwStageVerified img s := rfl
  have hstill : imageBad (pullOver s) type img = none := hgood
  rw [hex, execFwStageVerified, hstaged]
  simp only [htype, if_true]
  rw [pullOver] at hstill
  rw [hstill]
  rfl

theorem fwStageVerified_bad {s : State} {img : FwImage} {type slot code : Nat} (hstaged : s.wen.staged = some (type, slot)) (htype : type < 8)
    (hbad : imageBad s type img = some code) :
    exec (.fwStageVerified img) s = .next (stageState (firmwareRecord (pullOver s) 39 code) 3 type code) := by
  have hex : exec (.fwStageVerified img) s = execFwStageVerified img s := rfl
  have hstill : imageBad (pullOver s) type img = some code := hbad
  rw [hex, execFwStageVerified, hstaged]
  simp only [htype, if_true]
  rw [pullOver] at hstill
  rw [hstill]
  rfl

theorem stagedImageBootDone_boots {s : State} {d : Die} {img : FwImage} (hdie : dieState s d.val = 3) (hclass : img.type ∉ [3, 4])
    (htype : img.type ∈ dieTypes d.val) (hvalid : (getSlot s img.type (firstSlot s img.type)).valid = true)
    (hgood : imageBad s img.type img = none) :
    exec (.stagedImageBootDone d img) s = .next (measureImage (bootedFrom s img.type (firstSlot s img.type) img) 1 img) := by
  have hboots : ¬(dieState s d.val ≠ 3 ∨ img.type = 3 ∨ img.type = 4 ∨ img.type ∉ dieTypes d.val) := by
    rintro (h | h | h | h)
    · exact h hdie
    · exact hclass (by simp [h])
    · exact hclass (by simp [h])
    · exact h htype
  have hex : exec (.stagedImageBootDone d img) s = execStagedImageBootDone d img s := rfl
  rw [hex, execStagedImageBootDone, if_neg hboots]
  simp only [hvalid, hgood, Bool.not_true, Bool.false_eq_true, if_false]

theorem bootedFrom_effect (s : State) (type slot : Nat) (img : FwImage) : getSlot (measureImage (bootedFrom s type slot img) 1 img) type slot = slotOf img true ∧
    tget 0 (measureImage (bootedFrom s type slot img) 1 img).wen.booted type = slot + 1 ∧
    (measureImage (bootedFrom s type slot img) 1 img).ctxs = s.ctxs :=
  ⟨getSlot_setSlot s type slot (slotOf img true), tget_tset_self 0 s.wen.booted type (slot + 1), rfl⟩

/-- Settles O49: slices and full tests by their start and end, images by their verification. -/
theorem testsAndImagesTakeEffect : Obligations.TestsAndImagesTakeEffect := by
  intro s d
  refine ⟨fun q rest hslice hlast hreqs hkind hmay => sliceStart_effect hslice hlast hreqs hkind hmay, fun unit flags failing h => ?_,
    fun unit flags failing h hmin hmax hunit => columnFail_effect failing h hmin hmax hunit, fun ms h => fullTestDone_passed ms h,
    fun img type slot hstaged htype => ⟨fun hgood => ?_, fun code hbad => ?_⟩, fun img hdie hclass htype hvalid hgood => ?_, rfl⟩
  · have hex : exec (.sliceBistDone d true failing) s = .next (retryTeardown (sliceEnds d true failing s)) := rfl
    rw [hex, sliceEnds_passed failing h]
    rfl
  · have hwen : (stageState (imageStaged s type slot img) 2 type 0).wen = (imageStaged s type slot img).wen := wr_wen ..
    have hslot : getSlot (setSlot (pullOver s) type slot (slotOf img true)) type slot = slotOf img true := getSlot_setSlot ..
    refine ⟨_, fwStageVerified_ok hstaged htype hgood, ?_, ?_, ?_, rd_stageState _ (by decide) htype (by decide)⟩
    · rw [hwen]
      rfl
    · rw [hwen]
      exact List.mem_append_right _ (List.mem_singleton.mpr rfl)
    · rw [getSlot, hwen]
      exact hslot
  · have hwen : (stageState (firmwareRecord (pullOver s) 39 code) 3 type code).wen = (pullOver s).wen :=
      (wr_wen ..).trans (signalled_logFault (.refl _)).wen
    refine ⟨_, fwStageVerified_bad hstaged htype hbad, ?_, ?_, rd_stageState _ (by decide) htype (imageBad_fits hbad)⟩
    · rw [hwen]
      rfl
    · rw [hwen]
      rfl
  · obtain ⟨hslot, hbooted, hctxs⟩ := bootedFrom_effect s img.type (firstSlot s img.type) img
    exact ⟨_, stagedImageBootDone_boots hdie hclass htype hvalid hgood, hslot, hbooted, hctxs⟩

end Sys2Proof.TasterProofs
end

section
/-! PROOFS. Requests to the dictionary: the checks in order, what a request performs, and its reply (R373 to R381). -/

namespace Sys2Proof.DictionaryProofs

open Sys2Proof Sys2Proof.Machine Sys2Proof.Laws

/-! ### Replies -/

/-- The state once a request to an existing entry is answered. -/
def served (t : State) (p : Path) (r : DRec) (e : EDesc) (bs : List Byte) : State :=
  sendReply (incr t 0x100900 1) p
    (replyBytes ⟨0, typeCode e.type, typeSize e.type, r.offset, snapOf t (pathCtx p).isSome (targetCtx p r) (recKey r), bs⟩)

/-- The state once a request to an existing entry is refused. -/
def denied (t : State) (p : Path) (r : DRec) (e : EDesc) (code : Nat) : State :=
  sendReply (incr (incr t 0x100900 1) 0x100901 1) p
    (replyBytes ⟨code, 0, typeSize e.type, r.offset, snapOf t (pathCtx p).isSome (targetCtx p r) (recKey r), []⟩)

section

variable {s t : State} {p : Path} {r : DRec} {e : EDesc} {eff : State → List Byte → Except Nat State} {code : Nat}

theorem refuse_existing (he : entryOf (recKey r) = some e) : refuse s p r code =
    (s, ⟨code, 0, typeSize e.type, r.offset, snapOf s (pathCtx p).isSome (targetCtx p r) (recKey r), []⟩) := by
  simp only [refuse, he]

/-- A request of its own length that is answered without an error counts once. -/
theorem dictRequest_ok {rep : Reply} (hsize : r.size = recLen r) (h : answerReq s p r eff = (t, rep)) (h0 : rep.result = 0) :
    dictRequest s p r eff = sendReply (incr t 0x100900 1) p (replyBytes rep) := by
  rw [dictRequest, if_neg (not_not_intro hsize)]
  simp only [dictServe, h, h0, if_true]

/-- A request that is refused counts twice. -/
theorem dictRequest_refused (hsize : r.size = recLen r) (he : entryOf (recKey r) = some e) (hcode : code ≠ 0)
    (h : answerReq s p r eff = refuse t p r code) : dictRequest s p r eff = denied t p r e code := by
  rw [refuse_existing he] at h
  rw [dictRequest, if_neg (not_not_intro hsize)]
  simp only [dictServe, h, if_neg hcode]
  rfl

/-! ### The checks -/

theorem answerReq_head (h : checkHead p r = some code) : answerReq s p r eff = refuse s p r code := by
  simp only [answerReq, h]

variable (hhead : checkHead p r = none) (hdev : deviceState s ≠ 5)
include hhead hdev

theorem answerReq_next {q : Nat} (hop : r.op = 4) (h : nextEntry s p (rankOfReq s p r) (recKey r) = some (q, e)) : answerReq s p r eff =
    (s, ⟨0, typeCode e.type, typeSize e.type, r.offset, snapOf s (pathCtx p).isSome (targetCtx p r) q,
      natLe 2 (q / 256) ++ natLe 1 (q % 256) ++ natLe 1 0 ++ describeBytes e⟩) := by
  simp only [answerReq, hhead, hdev, hop, h, decide_false, Bool.false_and, Bool.false_eq_true, if_false, if_true]

variable (hop : r.op ≠ 4) (he : entryOf (recKey r) = some e)
include hop he

theorem answerReq_entry (h : checkEntry s p r e = some code) : answerReq s p r eff = refuse s p r code := by
  simp only [answerReq, hhead, hdev, hop, he, h, decide_false, Bool.false_and, Bool.false_eq_true, if_false]

theorem answerReq_performs {bs : List Byte} (h : checkEntry s p r e = none) (hperf : perform s p r e eff = (t, .ok bs)) : answerReq s p r eff =
    (t, ⟨0, typeCode e.type, typeSize e.type, r.offset, snapOf t (pathCtx p).isSome (targetCtx p r) (recKey r), bs⟩) := by
  simp only [answerReq, hhead, hdev, hop, he, h, hperf, decide_false, Bool.false_and, Bool.false_eq_true, if_false]

theorem answerReq_fails (h : checkEntry s p r e = none) (hperf : perform s p r e eff = (t, .error code)) :
    answerReq s p r eff = refuse t p r code := by
  simp only [answerReq, hhead, hdev, hop, he, h, hperf, decide_false, Bool.false_and, Bool.false_eq_true, if_false]

end

/-! ### What a request performs -/

section

variable {s t : State} {p : Path} {r : DRec} {e : EDesc} {eff : State → List Byte → Except Nat State}

theorem perform_read (hop : r.op = 1) : perform s p r e eff = (s, .ok
    (((if (pathCtx p).isSome = true then tenantView (recKey r) (entryBytes s (pathCtx p).isSome (targetCtx p r) (recKey r) (typeSize e.type))
      else entryBytes s (pathCtx p).isSome (targetCtx p r) (recKey r) (typeSize e.type)).drop r.offset).take r.length)) := by
  rw [perform, if_pos hop]

theorem perform_describe (hop : r.op = 3) : perform s p r e eff = (s, .ok (describeBytes e)) := by
  have hread : r.op ≠ 1 := by omega
  rw [perform, if_neg hread, if_pos hop]

variable (hop : r.op = 2)
include hop

theorem perform_write_ok (hwhole : recFlag r 1 = false) (h : eff s (padTo r.length r.value) = .ok t) :
    perform s p r e eff = (afterWrite t r e (padTo r.length r.value), .ok []) := by
  have hread : r.op ≠ 1 := by omega
  have hdescribe : r.op ≠ 3 := by omega
  rw [perform, if_neg hread, if_neg hdescribe, if_neg (ne_true_of_eq_false hwhole), h]

theorem perform_write_error {code : Nat} (hwhole : recFlag r 1 = false) (h : eff s (padTo r.length r.value) = .error code) :
    perform s p r e eff = (s, .error code) := by
  have hread : r.op ≠ 1 := by omega
  have hdescribe : r.op ≠ 3 := by omega
  rw [perform, if_neg hread, if_neg hdescribe, if_neg (ne_true_of_eq_false hwhole), h]

theorem perform_segment {bs : List Byte} (hpart : recFlag r 1 = true) (hmore : recFlag r 2 = false) (h : takeSegment s p r = (t, some bs)) :
    perform s p r e eff = (t, .ok []) := by
  have hread : r.op ≠ 1 := by omega
  have hdescribe : r.op ≠ 3 := by omega
  rw [perform, if_neg hread, if_neg hdescribe, if_pos hpart, h]
  simp only [hmore, Bool.false_eq_true, if_false]

theorem perform_last {bs : List Byte} {u : State} (hpart : recFlag r 1 = true) (hlast : recFlag r 2 = true) (h : takeSegment s p r = (u, some bs))
    (heff : eff u bs = .ok t) : perform s p r e eff = (afterWrite t r e bs, .ok []) := by
  have hread : r.op ≠ 1 := by omega
  have hdescribe : r.op ≠ 3 := by omega
  rw [perform, if_neg hread, if_neg hdescribe, if_pos hpart, h]
  simp only [hlast, if_true, heff]

end

/-! ### Segments -/

/-- A segmented write in progress. -/
def withSeg (s : State) (g : Option SegWrite) : State := { s with wen := { s.wen with seg := g } }

section

variable {s : State} {p : Path} {r : DRec} (hlen : r.length ≠ 0) (hmax : r.length ≤ segmentMax p r) (htotal : r.offset + r.length ≤ 67108864)
include hlen hmax htotal

theorem takeSegment_first (hmore : recFlag r 2 = false) (hnone : s.wen.seg = none) (hoff : r.offset = 0) : takeSegment s p r =
    (withSeg s (some ⟨p, r.index, r.sub, padTo r.length r.value⟩), some (padTo r.length r.value)) := by
  have hfits : ¬(r.length = 0 ∨ segmentMax p r < r.length ∨ 67108864 < r.offset + r.length) := by omega
  rw [takeSegment, hnone]
  simp only [hoff, if_true]
  rw [hoff] at hfits
  rw [if_neg hfits, hmore]
  rfl

theorem takeSegment_next {bs : List Byte} (hseg : s.wen.seg = some ⟨p, r.index, r.sub, bs⟩) (hoff : r.offset = bs.length) : takeSegment s p r =
    (if recFlag r 2 then withSeg s none else withSeg s (some ⟨p, r.index, r.sub, bs ++ padTo r.length r.value⟩), some (bs ++ padTo r.length r.value)) := by
  have hfits : ¬(r.length = 0 ∨ segmentMax p r < r.length ∨ 67108864 < r.offset + r.length) := by omega
  rw [takeSegment, hseg]
  simp only [hoff, and_self, if_true]
  rw [hoff] at hfits
  rw [if_neg hfits]
  rfl

end

/-! ### The five commands -/

/-- Each command of the dictionary is one request. -/
theorem exec_dict {i : Instr} {p : Path} {r : DRec} {s : State}
    (h : i = .dictRead p r ∨ i = .dictWrite p r ∨ i = .dictWriteSegment p r ∨ i = .dictDescribe p r ∨ i = .dictNext p r) :
    exec i s = .next (dictRequest s p r (recEffect p r)) := by
  rcases h with rfl | rfl | rfl | rfl | rfl <;> rfl

section

variable {s t : State} {p : Path} {r : DRec} {e : EDesc} {eff : State → List Byte → Except Nat State} (hsize : r.size = recLen r)
  (he : entryOf (recKey r) = some e)
include hsize he

/-- A request that fails a check changes the two counts alone. -/
theorem dictRequest_denied {code : Nat} (hcode : code ≠ 0)
    (h : checkHead p r = some code ∨ (checkHead p r = none ∧ deviceState s ≠ 5 ∧ r.op ≠ 4 ∧ checkEntry s p r e = some code)) :
    dictRequest s p r eff = denied s p r e code := by
  rcases h with hhead | ⟨hhead, hdev, hop, hentry⟩
  · exact dictRequest_refused hsize he hcode (answerReq_head hhead)
  · exact dictRequest_refused hsize he hcode (answerReq_entry hhead hdev hop he hentry)

variable (hhead : checkHead p r = none) (hdev : deviceState s ≠ 5) (hentry : checkEntry s p r e = none)
include hhead hdev hentry

theorem dictRequest_served {bs : List Byte} (hop : r.op ≠ 4) (hperf : perform s p r e eff = (t, .ok bs)) :
    dictRequest s p r eff = served t p r e bs :=
  dictRequest_ok hsize (answerReq_performs hhead hdev hop he hentry hperf) rfl

theorem dictRequest_fails {code : Nat} (hop : r.op ≠ 4) (hcode : code ≠ 0) (hperf : perform s p r e eff = (t, .error code)) :
    dictRequest s p r eff = denied t p r e code :=
  dictRequest_refused hsize he hcode (answerReq_fails hhead hdev hop he hentry hperf)

end

/-- Settles O57: a request by the first check that it fails, or by what it performs. -/
theorem dictionaryServesRequests : Obligations.DictionaryServesRequests := by
  intro s p r hsize tenant id k
  refine ⟨fun e he => ⟨fun code hcode hfails i hi => ?_, fun hhead hdev hentry => ⟨fun hop => ?_, fun hop => ?_, fun hop hwhole t heff => ?_,
    fun hop hwhole code hcode heff => ?_, fun hop hpart hmore hlen hmax htotal => ⟨fun hnone hoff => ?_, fun bs hseg hoff => ?_⟩,
    fun hop hpart hlast hlen hmax htotal bs t hseg hoff heff => ?_⟩⟩, fun hhead hdev hop q e hnext => ?_⟩
  · exact (exec_dict hi).trans (congrArg Host.Outcome.next (dictRequest_denied hsize he hcode hfails))
  · exact congrArg Host.Outcome.next (dictRequest_served hsize he hhead hdev hentry (by omega) (perform_read hop))
  · exact congrArg Host.Outcome.next (dictRequest_served hsize he hhead hdev hentry (by omega) (perform_describe hop))
  · exact congrArg Host.Outcome.next (dictRequest_served hsize he hhead hdev hentry (by omega) (perform_write_ok hop hwhole heff))
  · exact congrArg Host.Outcome.next (dictRequest_fails hsize he hhead hdev hentry (by omega) hcode (perform_write_error hop hwhole heff))
  · exact congrArg Host.Outcome.next (dictRequest_served hsize he hhead hdev hentry (by omega)
      (perform_segment hop hpart hmore (takeSegment_first hlen hmax htotal hmore hnone hoff)))
  · have htake := takeSegment_next hlen hmax htotal hseg hoff
    rw [if_neg (ne_true_of_eq_false hmore)] at htake
    exact congrArg Host.Outcome.next (dictRequest_served hsize he hhead hdev hentry (by omega) (perform_segment hop hpart hmore htake))
  · have htake := takeSegment_next hlen hmax htotal hseg hoff
    rw [if_pos hlast] at htake
    exact congrArg Host.Outcome.next (dictRequest_served hsize he hhead hdev hentry (by omega) (perform_last hop hpart hlast htake heff))
  · exact congrArg Host.Outcome.next (dictRequest_ok hsize (answerReq_next hhead hdev hop hnext) rfl)

end Sys2Proof.DictionaryProofs
end

section
/-! PROOFS. The transports of requests and replies: segments, CAN FD frames, relays (R378, R383, R384). -/

namespace Sys2Proof.TransportProofs

open Sys2Proof Sys2Proof.Machine Sys2Proof.Laws Sys2Proof.WriteProofs

theorem relayReply_type : ∀ tag : Fin 8, (entryOf (0x106001 + tag.val)).map (·.type) = some (.octets 8232) := by decide +kernel

/-- A number spelt by `n` bytes has that many. -/
theorem leNat_lt (bs : List Byte) : leNat bs < 2 ^ (8 * bs.length) := by
  induction bs with
  | nil => decide
  | cons b bs ih =>
    have hb := b.isLt
    have hpow : 2 ^ (8 * (b :: bs).length) = 256 * 2 ^ (8 * bs.length) := by
      rw [List.length_cons, Nat.mul_add, Nat.pow_add, Nat.mul_comm]
    rw [hpow, leNat]
    omega

/-! ### CAN FD frames -/

/-- The identifier of the device's CAN FD requests. -/
def canIdent (s : State) : Nat := 0x640 + rd s 0x100700

variable {s : State} {last : Bool} {bytes : List Byte}

theorem canIdent_own (s : State) : ¬canIdent s ≠ 0x640 + rd s 0x100700 := not_not_intro rfl

theorem canFrame_first {counter : Fin 64} : exec (.canFrame (canIdent s) true last counter bytes) s = .next (
    if counter.val ≠ 0 then incr s 0x100701 1
    else canTake (if s.wen.can.isSome then incr s 0x100701 1 else s) 0 (padTo 63 bytes) last) :=
  congrArg Host.Outcome.next ((if_neg (canIdent_own s)).trans (if_pos rfl))

theorem canFrame_none {counter : Fin 64} (h : s.wen.can = none) :
    exec (.canFrame (canIdent s) false last counter bytes) s = .next (incr s 0x100701 1) := by
  have hex : exec (.canFrame (canIdent s) false last counter bytes) s = execCanFrame (canIdent s) false last counter bytes s := rfl
  rw [hex, execCanFrame, if_neg (canIdent_own s), if_neg Bool.false_ne_true, h]

theorem canFrame_some {counter : Fin 64} {n : Nat} {bs : List Byte} (h : s.wen.can = some (n, bs)) :
    exec (.canFrame (canIdent s) false last counter bytes) s = .next (
      if counter.val ≠ n then incr s 0x100701 1 else canTake s n (bs ++ padTo 63 bytes) last) := by
  have hex : exec (.canFrame (canIdent s) false last counter bytes) s = execCanFrame (canIdent s) false last counter bytes s := rfl
  rw [hex, execCanFrame, if_neg (canIdent_own s), if_neg Bool.false_ne_true, h]

/-- A frame out of order is discarded and counted. -/
theorem canFrame_outOfOrder {first : Bool} {counter : Fin 64}
    (h : (first = true ∧ counter.val ≠ 0) ∨ (first = false ∧ s.wen.can = none) ∨
      (first = false ∧ ∃ n bs, s.wen.can = some (n, bs) ∧ counter.val ≠ n)) :
    exec (.canFrame (canIdent s) first last counter bytes) s = .next (incr s 0x100701 1) := by
  rcases h with ⟨rfl, hcount⟩ | ⟨rfl, hnone⟩ | ⟨rfl, n, bs, hcan, hcount⟩
  · rw [canFrame_first, if_pos hcount]
  · exact canFrame_none hnone
  · rw [canFrame_some hcan, if_pos hcount]

/-- A request begins with its first frame. -/
theorem canFrame_begins (h : s.wen.can = none) : exec (.canFrame (canIdent s) true false 0 bytes) s =
    .next { s with wen := { s.wen with can := some (1, padTo 63 bytes) } } := by
  rw [canFrame_first, if_neg (by decide), h]
  rfl

/-- A frame in order goes on with its request, or ends it. -/
theorem canFrame_inOrder {counter : Fin 64} {n : Nat} {bs : List Byte} (h : s.wen.can = some (n, bs)) (hcount : counter.val = n) :
    exec (.canFrame (canIdent s) false last counter bytes) s = .next (canTake s n (bs ++ padTo 63 bytes) last) := by
  rw [canFrame_some h, if_neg (not_not_intro hcount)]

/-- The request in progress is dropped. -/
def canDropped (s : State) : State := { s with wen := { s.wen with can := none } }

theorem exec_canGapTimeout (s : State) : exec .canGapTimeout s = .next (if s.wen.can.isSome then incr (canDropped s) 0x100701 1 else s) := rfl

/-! ### Relays -/

theorem relayReply_stands (s : State) (src : BitVec 16) (tag : Fin 8) (bytes : List Byte) : ∃ t, exec (.relayReply src tag bytes) s = .next t ∧
    rd t (0x106001 + tag.val) = leNat (padTo 8232 (natLe 2 src.toNat ++ natLe 2 0 ++ natLe 4 bytes.length ++ bytes)) := by
  have hfits := leNat_lt (padTo 8232 (natLe 2 src.toNat ++ natLe 2 0 ++ natLe 4 bytes.length ++ bytes))
  rw [padTo_length] at hfits
  exact ⟨_, rfl, rd_wrHost_fits s (relayReply_type tag) (by rwa [typeSize])⟩

/-- A relayed datagram is served as a command. -/
theorem exec_relayDatagram {h : DgHdr} (c : TCmd) (hrelay : h.relay.isSome = true) : exec (.relayDatagram h c) s = .next (dgram s h c) :=
  congrArg Host.Outcome.next (if_pos hrelay)

theorem exec_relayDatagram_none {h : DgHdr} (c : TCmd) (hrelay : h.relay = none) : exec (.relayDatagram h c) s = .next s := by
  have hnone : ¬h.relay.isSome = true := by rw [hrelay]; decide
  exact congrArg Host.Outcome.next (if_neg hnone)

/-- Settles O58: frames by their order, a relayed command by its own effect. -/
theorem transportsCarryRequests : Obligations.TransportsCarryRequests := by
  intro s
  refine ⟨rfl, fun ident first last counter bytes hident => congrArg Host.Outcome.next (if_pos hident), fun first last counter bytes h => ?_,
    fun bytes hnone => canFrame_begins hnone, fun bytes bs n counter hcan hcount => ?_, fun bytes bs n counter hcan hcount => ?_, fun hsome => ?_,
    fun hnone => ?_, fun h c hrelay => exec_relayDatagram_none c hrelay, fun h c t status detail extra hrelay hcmd hheld => ?_,
    fun src tag bytes => relayReply_stands s src tag bytes⟩
  · exact canFrame_outOfOrder h
  · exact canFrame_inOrder hcan hcount
  · exact canFrame_inOrder hcan hcount
  · exact (exec_canGapTimeout s).trans (congrArg Host.Outcome.next (if_pos (Option.isSome_iff_ne_none.mpr hsome)))
  · rw [exec_canGapTimeout, hnone, if_neg (by decide)]
  · exact DatagramProofs.performs_of_done (exec_relayDatagram c hrelay) hcmd (fun _ => hheld)

end Sys2Proof.TransportProofs
end
